-- ==== Sys2Proof/Word.lean ====
section
/-! DEFINITION. The widths of the HX7240's words. Every host-visible register is 32 bits wide (R5);
a Keeper word is 16 bits, a pointer 24 and an accumulator 40 (R193). -/

namespace Sys2Proof

abbrev Byte := BitVec 8
abbrev W16 := BitVec 16
abbrev W24 := BitVec 24
abbrev W32 := BitVec 32
abbrev W40 := BitVec 40
abbrev W64 := BitVec 64

end Sys2Proof
end

