-- ==== Sys2Proof/Syntax.lean ====
section
/-! DEFINITION. The commands of the HX7240 block: one constructor of `Instr` for each row of
spec/opcode_table.json, with the operands the row needs. A row that stands for a happening in time carries
`dt`, the ticks of the 625 MHz output that pass before it happens. A row that reads a protected memory
carries `up`, a memory upset that struck before it (R283, R284). -/

namespace Sys2Proof

/-- The lanes that have a register block in the `LN_` map (R9, R84). -/
inductive LaneId where
  | rx (n : Nat)
  | tx (n : Nat)
  | w (n : Nat)
  | port
  deriving DecidableEq, Repr

/-- One 64b/66b block before scrambling (R61): its sync header, as the two bits are numbered in the manual
(0b01 data, 0b10 control), and its eight bytes, block byte 0 (a control block's type) first. -/
structure Block where
  sync : BitVec 2
  bytes : List Byte
  deriving DecidableEq, Repr

/-- Wrong symbols in one protected word (R279, R282): its memory class, the unit and the address of R286.
`ue` says that the code cannot correct it. -/
structure Upset where
  cls : Nat
  unit : Nat
  addr : Nat
  symbol : Nat
  ue : Bool
  deriving DecidableEq, Repr

/-- Where a shift count comes from: IMM = 1 the field n, IMM = 0 a register (R197). -/
inductive Count where
  | imm (n : BitVec 5)
  | reg (t : BitVec 4)
  deriving DecidableEq, Repr

/-- Where RND takes its shift from: sh, or with RS = 1 a register (R203). -/
inductive RndShift where
  | imm (sh : BitVec 6)
  | reg (t : BitVec 4)
  deriving DecidableEq, Repr

/-- Who waits for a completion of a non-posted host request (R237). -/
inductive Requester where
  | dma (c : Nat)
  | command (r : Nat)
  deriving DecidableEq, Repr

/-- A unit that R183 can exclude. -/
inductive ExclUnit where
  | tile (n : Nat)
  | slice (n : Nat)
  deriving DecidableEq, Repr

/-- A conduct operation as the saggar carries it: its copied block, its resolved index, and for PLACE the plan
with spans (kiln, L, S) and keys, for OPEN the seed, for a GLAZE with KEEP the bank it switches to (R347). -/
structure ConductItem where
  keeper : Nat
  issue : Nat
  cop : Nat
  block : List W16
  index : Nat
  plan : List Byte
  spans : List (Nat × Nat × Nat)
  keys : List (Nat × W64)
  seed : W64
  gains : List W32
  deriving DecidableEq, Repr

/-- The decisions of the saggar (R347). -/
inductive Decision where
  | close (k boundary seq : Nat) (closeNs : W32) (stepCount : Nat) (stepPs : Int)
  | skip (k boundary : Nat)
  | overrun (k : Nat)
  | rekey (k boundary : Nat)
  | accept (e slot unit : Nat) (xEvent : Bool) (index : Nat) (beam : Option Nat) (value : Int) (buffer : Nat)
      (acceptNs : W32)
  | freeze (e : Nat) (freezeNs prevDead prevIgnored : W32)
  | idle (e : Nat)
  | release (e : Nat) (mask : BitVec 16)
  deriving DecidableEq, Repr

/-- One kiln of a snapshot (R356). -/
structure KilnSnap where
  k : Nat
  state : Nat
  s0 : Nat
  first : Nat
  pending : List Nat
  endAt : Option Nat
  auto : Bool
  skipPolicy : Bool
  seq : Nat
  seed : W64
  ringFirst : Nat
  log2R : Nat
  deriving DecidableEq, Repr

/-- One beam block of a snapshot (R356). -/
structure BlockSnap where
  m : Nat
  steered : Bool
  table : Nat
  n0 : Int
  ns : Nat
  shifts : List (Nat × Nat)
  pendTable : Nat
  pendN0 : Int
  pendNs : Option Nat
  pendShifts : Option (List (Nat × Nat))
  deriving DecidableEq, Repr

/-- The capture in progress of an engine in POST, as a snapshot carries it (R356). -/
structure CapSnap where
  t : Nat
  slot : Nat
  unit : Nat
  xEvent : Bool
  beam : Option Nat
  value : Int
  first : Bool
  acceptNs : W32
  deriving DecidableEq, Repr

/-- One engine of a snapshot (R356): its state code, with the buffers, the capture in progress, the capture sequence and whether its
first capture is still to come, which make that state up (DEDUCED, log 43). -/
structure EngSnap where
  e : Nat
  state : Nat
  cur : Nat
  frozen : List Nat
  cap : Option CapSnap
  cseq : Nat
  firstCap : Bool
  deriving DecidableEq, Repr

/-- The snapshot that answers a JOIN (R356). -/
structure Snapshot where
  plan : List Byte
  spans : List (Nat × Nat × Nat)
  keys : List (Nat × W64)
  kilns : List KilnSnap
  gains0 : List W32
  gains1 : List W32
  activeBank : Bool
  pendingSwitch : Option Nat
  blocks : List BlockSnap
  armed : List (Nat × Nat)
  engines : List EngSnap
  issues : List (Nat × Nat)
  deriving DecidableEq, Repr

/-- Emitted positions of a REPORT (R354): per ring the highest RSEQ emitted in order, per TX entry the last
(sample index, channel) sent, and per draining kiln the groups emitted since the report before. -/
structure Positions where
  rings : List (Nat × Nat)
  tx : List (Nat × Nat × Nat)
  groups : List (Nat × Nat)
  deriving DecidableEq, Repr

/-- What arrives with a Waoth frame (R344, R346): the lane, whether CRC-32C and structure hold, and SEQ. -/
structure WFrame where
  lane : Nat
  good : Bool
  seq : Nat
  deriving DecidableEq, Repr

/-- A span of register bytes that a read asks for (R240). -/
structure RegSpan where
  off : Nat
  len : Nat
  deriving DecidableEq, Repr

/-- When a frame of the time port leaves: its start-of-frame block, and its end that many ticks later (R301, R302). -/
structure TxTimes where
  start : Nat
  dt : Nat
  deriving DecidableEq, Repr

/-- The temperature sensor as a second ends, and the ticks up to there (R312). -/
structure TempTick where
  dt : Nat
  temp : BitVec 16
  deriving DecidableEq, Repr

/-- What a training of the host link settles beside rate and width: FLIT mode, and Enable Relaxed Ordering (R236, R238). -/
structure LinkMode where
  flit : Bool
  relaxed : Bool
  deriving DecidableEq, Repr

/-- The commands: one constructor per row of the opcode table, in the table's order. -/
inductive Instr where
  | registerWrite (off : Nat) (val : W32) (be : BitVec 4)
  | rcRegisterRead (r : RegSpan)
  | islFreqGateEnd (dt : Nat) (counts : List (Nat × Nat))
  | lnCtlWrite (l : LaneId) (v : W32)
  | lnCtleWrite (l : LaneId) (v : W32)
  | laneSignalDetect (l : LaneId) (dt : Nat)
  | laneLossOfSignal (l : LaneId) (dt : Nat)
  | laneBlockLock (l : LaneId) (hdrs : List (BitVec 2))
  | laneBlockLockLost (l : LaneId) (hdrs : List (BitVec 2))
  | txLaneUp (n : Nat) (dt : Nat)
  | lnSlip (l : LaneId) (v : W32)
  | eyeStart (l : LaneId) (v : W32)
  | eyeMeasureDone (l : LaneId) (dt mism : Nat)
  | prbsLock (l : LaneId) (errs : List Bool)
  | rxFrameReceived (l : LaneId) (blocks : List Block)
  | dataFrame (n : Nat)
  | hailFrame (n : Nat)
  | buoyFrame (n : Nat)
  | srcTimeout (src dt : Nat)
  | srcForget (src : Nat) (v : W32)
  | srcTimeoutWrite (v : W32)
  | fmtValidate (e : Nat) (v : W32)
  | slotDeadline (chan b dt : Nat)
  | slotRelease (chan : Nat) (up : Option Upset)
  | placementEffect
  | tileChunkStart (t : Nat)
  | chunkEnd (t : Nat)
  | chunkDrained (t : Nat) (up : Option Upset)
  | kilnUpdate (k line : Nat) (up : Option Upset)
  | excludedWorkMove (u : ExclUnit) (dt : Nat)
  | kilnBankClose (k maxAct totAct : Nat)
  | fireOverrun (k : Nat)
  | firingLineRecordWrite (k g : Nat) (up : Option Upset)
  | firingCompletionWrite (k : Nat)
  | klnCtlWrite (k : Nat) (v : W32)
  | klnSeedWrite (k : Nat) (hi : Bool) (v : W32)
  | beamVisitStart (t : Nat) (up : Option Upset)
  | beamWindowClose (m : Nat) (up : Option Upset)
  | glazeEpochEvalStart (m : Nat) (up : Option Upset)
  | glazeSwitch
  | glzGainWrite (bank i : Nat) (v : W32)
  | glzSettingWrite (off : Nat) (v : W32)
  | glzTxgEnable (j : Nat) (v : W32)
  | txBeamFrameSent (n : Nat)
  | detGroupRestart (g : Nat)
  | detectOutput (g chan : Nat)
  | ltnStreamSample (e s : Nat)
  | ltnTimeout (e s u dt : Nat)
  | ltnBlockWrite (e : Nat)
  | ltnCaptureRecord (e : Nat)
  | ltnBufferRelease (e : Nat) (v : W32)
  | kNop (k : Nat)
  | kAdd (k : Nat) (d s t : BitVec 4)
  | kSub (k : Nat) (d s t : BitVec 4)
  | kAddi (k : Nat) (d s : BitVec 4) (imm : W16)
  | kAnd (k : Nat) (d s t : BitVec 4)
  | kOr (k : Nat) (d s t : BitVec 4)
  | kXor (k : Nat) (d s t : BitVec 4)
  | kAndi (k : Nat) (d s : BitVec 4) (imm : W16)
  | kOri (k : Nat) (d s : BitVec 4) (imm : W16)
  | kXori (k : Nat) (d s : BitVec 4) (imm : W16)
  | kShl (k : Nat) (d s : BitVec 4) (n : Count)
  | kAsr (k : Nat) (d s : BitVec 4) (n : Count)
  | kLsr (k : Nat) (d s : BitVec 4) (n : Count)
  | kCmp (k : Nat) (s t : BitVec 4)
  | kCmpi (k : Nat) (s : BitVec 4) (imm : W16)
  | kMovi (k : Nat) (d : BitVec 4) (imm : W16)
  | kNeg (k : Nat) (d s : BitVec 4)
  | kAbs (k : Nat) (d s : BitVec 4)
  | kExp (k : Nat) (d s : BitVec 4)
  | kBexp (k : Nat) (s : BitVec 4)
  | kMul (k : Nat) (a : BitVec 1) (ty : BitVec 2) (s t : BitVec 4)
  | kMac (k : Nat) (a : BitVec 1) (ty : BitVec 2) (s t : BitVec 4)
  | kMsu (k : Nat) (a : BitVec 1) (ty : BitVec 2) (s t : BitVec 4)
  | kDmac (k : Nat) (a : BitVec 1) (ty : BitVec 2) (n pi : BitVec 3) (ci : BitVec 1) (pj : BitVec 3) (cj : BitVec 1)
  | kRnd (k : Nat) (d : BitVec 4) (a : BitVec 1) (n : RndShift)
  | kLac (k : Nat) (a : BitVec 1) (s : BitVec 4) (sh : BitVec 6)
  | kSha (k : Nat) (a : BitVec 1) (sh : BitVec 6)
  | kAdda (k : Nat) (a a2 : BitVec 1) (ty : BitVec 2)
  | kClra (k : Nat) (a : BitVec 1)
  | kExpa (k : Nat) (d : BitVec 4) (a : BitVec 1)
  | kLd (k : Nat) (d : BitVec 4) (p mode : BitVec 3) (imm : W16) (up : Option Upset)
  | kSt (k : Nat) (s : BitVec 4) (p mode : BitVec 3) (imm : W16)
  | kStx (k : Nat) (s : BitVec 4) (p mode : BitVec 3) (imm : W16)
  | kLdl (k : Nat) (d : BitVec 4) (p mode : BitVec 3) (imm : W16) (up : Option Upset)
  | kStl (k : Nat) (s : BitVec 4) (p mode : BitVec 3) (imm : W16)
  | kLip (k : Nat) (p : BitVec 3) (imm : BitVec 23)
  | kAddp (k : Nat) (p : BitVec 3) (imm : W16)
  | kB (k : Nat) (cc : BitVec 4) (target : BitVec 14)
  | kCall (k : Nat) (target : BitVec 14)
  | kJr (k : Nat) (s : BitVec 4)
  | kBdnz (k : Nat) (s : BitVec 4) (target : BitVec 14)
  | kReti (k : Nat)
  | kRpt (k : Nat) (n : BitVec 12)
  | kWaiti (k : Nat)
  | kMvs (k : Nat) (d : BitVec 4) (code : BitVec 6)
  | kMvd (k : Nat) (s : BitVec 4) (code : BitVec 6)
  | illegalInstruction (k : Nat)
  | trapConduct (k : Nat)
  | interruptEntry (k : Nat)
  | fabricLoadReturn (k : Nat) (up : Option Upset)
  | fabricStoreComplete (k : Nat)
  | keeperStart (k : Nat)
  | keeperStop (k : Nat)
  | kprIrqSet (k : Nat) (v : W32)
  | memoryWindowWrite (off : Nat) (val : W32) (be : BitVec 4)
  | conductIssue (k : Nat) (cop : BitVec 6) (p : BitVec 3) (imm : W16) (up : Option Upset)
  | conductDispatch (k : Nat)
  | nextResolve (k : Nat) (up : Option Upset)
  | place (k : Nat) (up : Option Upset)
  | openKiln (k : Nat)
  | fire (k : Nat)
  | shut (k : Nat)
  | steer (k : Nat) (up : Option Upset)
  | glaze (k : Nat) (up : Option Upset)
  | arm (k : Nat)
  | disarm (k : Nat)
  | waitt (k : Nat)
  | waittDone (k dt : Nat)
  | waitb (k : Nat)
  | waitbTimeout (k dt : Nat)
  | signal (k : Nat)
  | post (k : Nat) (up : Option Upset)
  | postRecordWrite (r : Nat)
  | scrub (k : Nat)
  | fenceAll (k : Nat)
  | fenceKiln (k : Nat)
  | fenceHost (k : Nat)
  | fenceComplete (k : Nat)
  | halt (k : Nat)
  | bar4Read (off len : Nat) (up : Option Upset)
  | bar4Write (off : Nat) (bytes : List Byte) (en : List Bool) (poisoned : Bool) (up : Option Upset)
  | bar4Resize (log2 : Nat)
  | doorbell (off len : Nat) (val : W64)
  | cmdLoad (r : Nat) (up : Option Upset)
  | cmdRead (r : Nat) (up : Option Upset)
  | cmdStartKeeper (r : Nat)
  | cmdStopKeeper (r : Nat)
  | cmdAttach (r : Nat)
  | cmdDetach (r : Nat)
  | cmdRingSetup (r : Nat)
  | cmdQuery (r : Nat)
  | responseRecordWrite (r : Nat)
  | ctxCtlWrite (c : Nat) (v : W32)
  | ringEnableWrite (r : Nat) (v : W32)
  | indexWriteback (r : Nat)
  | msixTimer (r dt : Nat)
  | hostCompletionTimeout (q : Requester)
  | dmaShadowGo (c : Nat) (v : W32)
  | dmaAbort (c : Nat)
  | dmaKill (c : Nat)
  | dmaProgStart (c : Nat)
  | dmaBurstComplete (c : Nat) (up : Option Upset)
  | dmaEnd (c : Nat)
  | dmaMove (c : Nat)
  | dmaLoop (c : Nat)
  | dmaWait (c : Nat)
  | dmaSignal (c : Nat)
  | refreshInterval (p bank issued dt : Nat)
  | refreshWindowEnd (s dt : Nat)
  | stackTempRead (s temp dt : Nat)
  | hbmPowerDown (p dt : Nat)
  | memSrefRequest (s : Nat) (v : W32)
  | memRetrainRequest (s : Nat) (v : W32)
  | maintTokenGrant (q : Nat)
  | retrainDone (q dt : Nat) (ok : Bool)
  | selfRefreshExit (q dt : Nat)
  | scrubGo (s : Nat) (v : W32)
  | scrubStepDone (s dt : Nat) (up : Option Upset)
  | scrubDone (s : Nat)
  | eccLogPop (v : W32)
  | timWrap (dt : Nat)
  | timIncFracWrite (v : W32)
  | timIncCommit (v : W32)
  | timRunWrite (v : W32)
  | timCmpArm (i word : Nat) (v : W32)
  | timCmpFire (i dt : Nat)
  | timCapture (src : Nat)
  | tportFrameRx (frame : List Byte) (fcsOk lane4 : Bool)
  | tportTxGo (v : W32)
  | tportTxDone (at_ : TxTimes) (lane4 : Bool)
  | timTsPop (v : W32)
  | refActivityLost (n : Nat)
  | refGateEnd (n dt : Nat) (meas : Int)
  | refWtrExpiry (n dt : Nat)
  | refSelect (dt : Nat)
  | refSwitchDone (dt : Nat) (step : Int)
  | refLocked (dt : Nat)
  | refHoldoverUpdate (dt : Nat) (temp : BitVec 16)
  | refAgeTick (x : TempTick)
  | ppsoutPulse (dt : Nat)
  | refRealign (v : W32)
  | refRealignAlign (dt : Nat)
  | refRealignTimeout (dt : Nat)
  | beaconDelivery (i : Nat)
  | bcnPub (v : W32)
  | bcnTaskWrite (t : Nat) (v : W32)
  | klnFireTask (k : Nat)
  | fabricGrant (target waited : Nat)
  | remapWrite (v : W32)
  | prEnableWrite (v : W32)
  | prForce (v : W32)
  | heartbeatSend (n dt : Nat)
  | heartbeat (f : WFrame) (dt role lanes claim ack : Nat) (nak : Bool)
  | reportSend (dt : Nat)
  | report (f : WFrame) (pos : Positions)
  | conductItem (f : WFrame) (item : ConductItem)
  | decision (f : WFrame) (d : Decision)
  | loss (f : WFrame) (chan b : Nat) (mask : List Nat) (watermark : Bool)
  | mirror (f : WFrame) (keeper ring pos : Nat) (bytes : List Byte)
  | join (f : WFrame) (units : W32)
  | snapshot (f : WFrame) (snap : Snapshot)
  | prPartnerTimeout (dt : Nat)
  | foginN (low : Bool)
  | porstN
  | warmrstN (low : Bool)
  | perstN
  | trstN
  | fillDone (dt : Nat) (tiles slices : List Nat)
  | bootGo (v : W32)
  | bootLoadDone (dt : Nat)
  | powerStateRequest (v : W32)
  | powerStateChangeDone (dt : Nat)
  | thermSensorRead (dt : Nat) (temps : List Int)
  | supplyFault (dt : Nat)
  | fogSet (v : W32)
  | bistDone (tiles slices : List Nat)
  | extest (upd : BitVec 39)
  | idcode
  | samplePreload (upd : BitVec 39)
  | clamp
  | highz
  | bistRun (upd : W32)
  | fuseRead
  | tapFabric (upd : BitVec 96)
  | bypass
  | neighbourRefreshDone (q : Nat)
  | pmbAlertN (low : Bool)
  | prLink (lanes : BitVec 4)
  | ltnEngDeadRead (e : Nat)
  | hbmTrainingDone (dt : Nat) (data ca : List (Nat × Nat))
  | hostLinkTraining (rate width : Nat) (mode : LinkMode)
  | railsRemoved
  deriving DecidableEq, Repr

end Sys2Proof
end

