-- ==== Sys2Proof/Decode.lean ====
section
/-! DEFINITION. The block is commanded, not fetched: no row of spec/opcode_table.json gives bits, so no word spells a
command. The Keeper's own instruction words are read where a core issues (Machine/Operands). -/

namespace Sys2Proof

/-- The command that a word spells by the table's bits: the table gives no bits, so none. -/
def decodeTableWord (_nbits _w : Nat) : Option Instr := none

end Sys2Proof
end

