-- ==== Sys2Proof/Config.lean ====
section
/-! DEFINITION. What an implementation fixes and what the manual leaves open. Every constant here has no body: a claim
about it is a claim about every value. -/

namespace Sys2Proof

/-- A value that the manual leaves undefined, one for each time it is asked for (the count of `State.freeCtr`). -/
opaque Config.freeWord : Nat → W64

/-- The contents of the boot ROM (R333, R369), which the manual does not give. -/
opaque Config.bootRom : Nat → Byte

/-- What a capture holds in place of the samples of a blanked input block (R157), by channel, block index, input block and byte:
the manual says that it depends on nothing else (R158), and gives no value. -/
opaque Config.blankRaw : Nat → Nat → Nat → Nat → Byte

/-- MAXPOS (0) and MINPOS (1) in the summary of a blanked raw input, by channel, block index and input: the manual gives them no
value where COUNT is 0 (R161). -/
opaque Config.blankPos : Nat → Nat → Nat → Nat → BitVec 7

end Sys2Proof
end

