-- ==== Sys2Proof/Machine/Bits.lean ====
section
/-! DEFINITION. Bit fields, byte order, and the one sparse store that memories, register files and tables of
units share: a list of (index, value) pairs, indices strictly rising, none equal to what an unlisted index
reads as. -/

namespace Sys2Proof.Machine

/-- The field of `len` bits whose lowest bit is `lo`. -/
def fld (w : W32) (lo len : Nat) : Nat := (w.toNat >>> lo) % 2 ^ len

/-- Bit `i` of a word. -/
def bit (w : W32) (i : Nat) : Bool := w.getLsbD i

/-- The field of `len` bits from bit `lo`, as a signed number. -/
def sfld (w : W32) (lo len : Nat) : Int :=
  let v := fld w lo len
  if v < 2 ^ (len - 1) then v else (v : Int) - 2 ^ len

/-- A word with the field of `len` bits from bit `lo` replaced. -/
def setFld (w : W32) (lo len v : Nat) : W32 :=
  let m : W32 := BitVec.ofNat 32 ((2 ^ len - 1) <<< lo)
  (w &&& ~~~m) ||| (BitVec.ofNat 32 (v <<< lo) &&& m)

/-- A word with one bit replaced. -/
def setBit (w : W32) (i : Nat) (b : Bool) : W32 := setFld w i 1 (if b then 1 else 0)

/-- A Bool as a bit. -/
def b2n (b : Bool) : Nat := if b then 1 else 0

/-- The low 32 bits of a number, and the 32 above them. -/
def lo32 (n : Nat) : W32 := BitVec.ofNat 32 n
def hi32 (n : Nat) : W32 := BitVec.ofNat 32 (n >>> 32)

/-- An integer as `n` bits of two's complement. -/
def wrapI (n : Nat) (i : Int) : Nat := (i % (2 ^ n : Int)).toNat

/-- `n` bits of two's complement as an integer. -/
def signI (n v : Nat) : Int :=
  let v := v % 2 ^ n
  if v < 2 ^ (n - 1) then v else (v : Int) - 2 ^ n

/-- A count that stops at `2 ^ n - 1`. -/
def satInc (n c d : Nat) : Nat := Nat.min (c + d) (2 ^ n - 1)

/-- The quotient, rounded up. -/
def divUp (a b : Nat) : Nat := (a + b - 1) / b

/-- The multiple of `m` at or above `a`. -/
def alignUp (a m : Nat) : Nat := divUp a m * m

/-- The integer square root: the bits of the root tried from the highest down. -/
def isqrtFrom (n : Nat) : Nat → Nat → Nat
  | 0, r => r
  | b + 1, r => isqrtFrom n b (if (r + 2 ^ b) * (r + 2 ^ b) ≤ n then r + 2 ^ b else r)
def isqrt (n : Nat) : Nat := isqrtFrom n (Nat.log2 n / 2 + 1) 0

/-- A list in rising order of a key, equal keys in the order they stand. -/
def insertBy {α : Type} (key : α → Nat) (x : α) : List α → List α
  | [] => [x]
  | y :: t => if key x ≤ key y then x :: y :: t else y :: insertBy key x t
def sortBy {α : Type} (key : α → Nat) (l : List α) : List α := l.foldr (insertBy key) []
def sortUp (l : List Nat) : List Nat := sortBy (fun n => n) l

/-- `n` bytes of a number, low byte first (little-endian). -/
def leBytes : Nat → Nat → List Byte
  | 0, _ => []
  | n + 1, v => BitVec.ofNat 8 v :: leBytes n (v >>> 8)

/-- The number that bytes spell, low byte first. -/
def ofLe : List Byte → Nat
  | [] => 0
  | b :: t => b.toNat + 256 * ofLe t

/-- The number that bytes spell, high byte first (network order). -/
def ofBe (l : List Byte) : Nat := l.foldl (fun a b => a * 256 + b.toNat) 0

/-- The little-endian field of `n` bytes at offset `o` of a byte string. -/
def field (l : List Byte) (o n : Nat) : Nat := ofLe ((l.drop o).take n)

/-- A byte string cut or padded with zeros to `n` bytes. -/
def padTo (n : Nat) (l : List Byte) : List Byte := l.take n ++ List.replicate (n - l.length) 0#8

/-- The set positions of a word's low `n` bits, lowest first. -/
def bitsOf (n : Nat) (v : Nat) : List Nat := (List.range n).filter (fun i => v.testBit i)

/-! ### The sparse store -/

/-- What index `i` reads as. -/
def sget {α : Type} (d : Nat → α) : List (Nat × α) → Nat → α
  | [], i => d i
  | (j, x) :: t, i => if i = j then x else sget d t i

/-- The list without index `i`. -/
def sdel {α : Type} : List (Nat × α) → Nat → List (Nat × α)
  | [], _ => []
  | (j, x) :: t, i => if i = j then sdel t i else (j, x) :: sdel t i

/-- The list with index `i` holding `v`, indices rising. -/
def sput {α : Type} : List (Nat × α) → Nat → α → List (Nat × α)
  | [], i, v => [(i, v)]
  | (j, x) :: t, i, v =>
    if i < j then (i, v) :: (j, x) :: t
    else if i = j then (i, v) :: t
    else (j, x) :: sput t i v

/-- Store `v` at index `i`: the value an unlisted index reads as removes the entry. -/
def sset {α : Type} [DecidableEq α] (d : Nat → α) (t : List (Nat × α)) (i : Nat) (v : α) : List (Nat × α) :=
  if v = d i then sdel t i else sput t i v

/-- The indices of a list rise strictly above `lo`. -/
def sortedFrom {α : Type} : Nat → List (Nat × α) → Bool
  | _, [] => true
  | lo, (j, _) :: t => decide (lo ≤ j) && sortedFrom (j + 1) t

/-- The canonical form: indices strictly rising, and no entry equal to what an unlisted index reads as. -/
def swf {α : Type} [DecidableEq α] (d : Nat → α) (t : List (Nat × α)) : Bool :=
  sortedFrom 0 t && t.all (fun e => decide (e.2 ≠ d e.1))

/-- Tables of units: one default for every index. -/
def tget {α : Type} (d : α) (t : List (Nat × α)) (i : Nat) : α := sget (fun _ => d) t i
def tset {α : Type} [DecidableEq α] (d : α) (t : List (Nat × α)) (i : Nat) (v : α) : List (Nat × α) :=
  sset (fun _ => d) t i v

/-! ### Byte memories -/

/-- What a byte of memory that nothing has written reads as: zero, the fill of R281. -/
def memDefault : Nat → Byte := fun _ => 0#8

/-- One byte of a memory. -/
def rd8 (m : List Host.Cell) (a : Nat) : Byte := sget memDefault m a

/-- A memory with one byte written. -/
def wr8 (m : List Host.Cell) (a : Nat) (b : Byte) : List Host.Cell := sset memDefault m a b

/-- `n` bytes from address `a` on. -/
def rdBytes (m : List Host.Cell) (a n : Nat) : List Byte := (List.range n).map (fun i => rd8 m (a + i))

/-- A memory with a byte string written from address `a` on. -/
def wrBytes : List Host.Cell → Nat → List Byte → List Host.Cell
  | m, _, [] => m
  | m, a, b :: t => wrBytes (wr8 m a b) (a + 1) t

/-- A memory with those bytes of a string written whose enable is true. -/
def wrBytesEn : List Host.Cell → Nat → List Byte → List Bool → List Host.Cell
  | m, a, b :: t, e :: u => wrBytesEn (if e then wr8 m a b else m) (a + 1) t u
  | m, _, _, _ => m

/-- A little-endian number of `n` bytes. -/
def rdLe (m : List Host.Cell) (a n : Nat) : Nat := ofLe (rdBytes m a n)

/-- A memory with a little-endian number of `n` bytes written. -/
def wrLe (m : List Host.Cell) (a n v : Nat) : List Host.Cell := wrBytes m a (leBytes n v)

/-- The canonical form of a memory. -/
def Memory.wf (m : List Host.Cell) : Bool := swf memDefault m

end Sys2Proof.Machine
end

