-- ==== Sys2Proof/Machine/Arith.lean ====
section
/-! DEFINITION. The part's arithmetic (R25 to R51): Izpol-12 samples, products, the E48 and K16 kiln words, beam
requantisation, and detection words. Sums are formed in integers and narrowed once. -/

namespace Sys2Proof.Machine

/-! ### Samples (R25 to R29) -/

/-- The value of an `n`-bit code: the odd integer 2c + 1 in half-steps (R25). -/
def codeVal (n v : Nat) : Int := 2 * signI n v + 1

/-- The complex sample a C6 word holds (R26). -/
def c6Sample (w : Nat) : Int × Int := (codeVal 6 (w >>> 6), codeVal 6 w)

/-- The complex sample of instant t or t + 1 of a C3 word (R27). -/
def c3Sample (w : Nat) (odd : Bool) : Int × Int :=
  if odd then (codeVal 3 (w >>> 3), codeVal 3 w) else (codeVal 3 (w >>> 9), codeVal 3 (w >>> 6))

/-- Word `k` of a packed byte string (R29). -/
def unpackWord (l : List Byte) (k : Nat) : Nat :=
  let g := field l (3 * (k / 2)) 3
  if k % 2 = 0 then g % 4096 else g / 4096

/-- Words packed two to three bytes; an odd last word leaves bits [23:12] of its group 0 (R29). -/
def packWords : List Nat → List Byte
  | a :: b :: t => leBytes 3 (a % 4096 + 4096 * (b % 4096)) ++ packWords t
  | [a] => leBytes 3 (a % 4096)
  | [] => []

/-- Sample `t` of input `i` of a DATA payload of 16 inputs (R68). -/
def paySample (c3 : Bool) (pay : List Byte) (i t : Nat) : Int × Int :=
  if c3 then c3Sample (unpackWord pay (16 * (t / 2) + i)) (t % 2 = 1) else c6Sample (unpackWord pay (16 * t + i))

/-- The product of R31: x_i times the conjugate of x_j. -/
def product (x y : Int × Int) : Int × Int := (x.1 * y.1 + x.2 * y.2, x.2 * y.1 - x.1 * y.2)

/-! ### The E48 word (R34, R35) -/

/-- An E48 word: exact sums and the joint count, each saturating on its own. -/
structure E48 where
  re : Int
  im : Int
  count : Nat
  deriving DecidableEq, Repr

def E48.zero : E48 := ⟨0, 0, 0⟩

def e48Max : Int := 2 ^ 47 - 1
def countMax : Nat := 2 ^ 32 - 1

/-- One component: sticky at its limit (`stuck`), else the sum clamped to ±(2⁴⁷ − 1) (R35). -/
def e48Add (stuck : Bool) (v d : Int) : Int × Bool :=
  if stuck then (v, true)
  else if v + d > e48Max then (e48Max, true)
  else if v + d < -e48Max then (-e48Max, true)
  else (v + d, false)

/-- The count: sticky at 0xFFFF_FFFF once an addition would pass it (R35). -/
def countAdd (stuck : Bool) (v d : Nat) : Nat × Bool :=
  if stuck then (v, true) else if v + d > countMax then (countMax, true) else (v + d, false)

/-- The bytes of an E48 word, and the word of 16 bytes (R34). -/
def E48.bytes (w : E48) : List Byte := leBytes 6 (wrapI 48 w.re) ++ leBytes 6 (wrapI 48 w.im) ++ leBytes 4 w.count
def E48.ofBytes (l : List Byte) : E48 := ⟨signI 48 (field l 0 6), signI 48 (field l 6 6), field l 12 4⟩

/-! ### The K16 word and its update (R36 to R43) -/

/-- mix: the last three lines of seed_state (R40), without the zero test (R179). -/
def mix (z : W64) : W64 :=
  let z := (z ^^^ (z >>> 30)) * 0xBF58476D1CE4E5B9#64
  let z := (z ^^^ (z >>> 27)) * 0x94D049BB133111EB#64
  z ^^^ (z >>> 31)

/-- seed_state (R40). -/
def seedState (seed : W64) (n first : Nat) : W64 :=
  let z := mix (seed ^^^ (BitVec.ofNat 64 n * 0x9E3779B97F4A7C15#64) ^^^ (BitVec.ofNat 64 first * 0xD6E8FEB86659FD93#64))
  if z = 0 then 1 else z

/-- xorshift64 (R40). -/
def xorshift64 (x : W64) : W64 :=
  let x := x ^^^ (x <<< 13)
  let x := x ^^^ (x >>> 7)
  x ^^^ (x <<< 17)

/-- A K16 line: sixteen mantissas (real and imaginary of each word in turn), eight counts, the exponent and its flag
bits (R36, R37). -/
structure K16Line where
  m : List Int
  cnt : List Nat
  e : Nat
  sat : Bool
  bnd : Bool
  deriving DecidableEq, Repr

def K16Line.zero : K16Line := ⟨List.replicate 16 0, List.replicate 8 0, 0, false, false⟩

/-- The least exponent from `e` on, at most 31, at which every value fits (R39). -/
def fitExp (v : List Int) : Nat → Nat → Nat
  | 0, e => e
  | n + 1, e =>
    if e < 31 ∧ v.any (fun x => decide (x > 32767 * 2 ^ e) || decide (x < -32768 * 2 ^ e)) then fitExp v n (e + 1) else e

/-- One component rounded onto the grid 2^e2 with the draw `x`, and whether it was clamped (R39). -/
def k16Round (e2 : Nat) (x : W64) (v : Int) : Int × Bool :=
  let q := v / 2 ^ e2
  let r := v - q * 2 ^ e2
  let u : Int := if e2 = 0 then 0 else ((x.toNat >>> (64 - e2) : Nat) : Int)
  let q := if e2 ≠ 0 ∧ u < r then q + 1 else q
  if q > 32767 then (32767, true) else if q < -32768 then (-32768, true) else (q, false)

/-- The sixteen components in order, the generator stepped once for each (R39). -/
def k16Comps (e2 : Nat) : W64 → List Int → List Int × Bool
  | _, [] => ([], false)
  | x, v :: t =>
    let x := xorshift64 x
    let (q, c) := k16Round e2 x v
    let (qs, cs) := k16Comps e2 x t
    (q :: qs, c || cs)

/-- k16_update (R39): `s` the sixteen exact partial sums, `c` the eight partial counts. -/
def k16Update (l : K16Line) (seed : W64) (n first : Nat) (s : List Int) (c : List Nat) : K16Line :=
  let v := List.zipWith (fun m d => m * 2 ^ l.e + d) l.m s
  let e2 := fitExp v 31 l.e
  let (m, sat) := k16Comps e2 (seedState seed n first) v
  let cs := List.zipWith (· + ·) l.cnt c
  { m, cnt := cs.map (fun x => min x countMax), e := e2
    sat := l.sat || sat || cs.any (fun x => decide (x > countMax)), bnd := l.bnd }

/-- The final-fit exponent e_fit (R43): the least e′ ≤ e at which every mantissa times 2^(e − e′) fits 16 bits. -/
def fitDown (m : List Int) (e : Nat) : Nat :=
  ((List.range (e + 1)).find? (fun e' =>
    m.all (fun x => decide (-32768 ≤ x * 2 ^ (e - e')) && decide (x * 2 ^ (e - e') ≤ 32767)))).getD e

/-- The 64 bytes of a K16 line, and the line of 64 bytes and its exponent byte (R36, R37). -/
def K16Line.bytes (l : K16Line) : List Byte :=
  (List.range 8).flatMap (fun w =>
    leBytes 2 (wrapI 16 (l.m.getD (2 * w) 0)) ++ leBytes 2 (wrapI 16 (l.m.getD (2 * w + 1) 0))
      ++ leBytes 4 (l.cnt.getD w 0))
def K16Line.expByte (l : K16Line) : Byte := BitVec.ofNat 8 (b2n l.bnd * 64 + b2n l.sat * 32 + l.e % 32)
def K16Line.ofBytes (b : List Byte) (x : Byte) : K16Line :=
  { m := (List.range 16).map (fun k => signI 16 (field b (8 * (k / 2) + 2 * (k % 2)) 2))
    cnt := (List.range 8).map (fun w => field b (8 * w + 4) 4)
    e := x.toNat % 32, sat := x.getLsbD 5, bnd := x.getLsbD 6 }

/-! ### Rounding, requantisation and detection (R46 to R51) -/

/-- An integer shifted right by `s` with round half up (R46, R51). -/
def roundShift (y : Int) (s : Nat) : Int := if s = 0 then y else (y + 2 ^ (s - 1)) / 2 ^ s

/-- a / b rounded half up, for b > 0 (R51). -/
def roundDiv (a : Int) (b : Nat) : Int := (2 * a + b) / (2 * b)

/-- An exact quotient, for sums that are rounded only at their end (R51). -/
structure Frac where
  num : Int
  den : Nat
  deriving DecidableEq, Repr

def Frac.ofInt (v : Int) : Frac := ⟨v, 1⟩
def Frac.add (a b : Frac) : Frac :=
  if a.den = b.den then ⟨a.num + b.num, a.den⟩ else ⟨a.num * b.den + b.num * a.den, a.den * b.den⟩
def Frac.neg (a : Frac) : Frac := ⟨-a.num, a.den⟩
def Frac.divNat (a : Frac) (n : Nat) : Frac := ⟨a.num, a.den * n⟩
/-- Rounded half up (R51). -/
def Frac.round (a : Frac) : Int := roundDiv a.num a.den
/-- The mean of a list of exact quotients. -/
def Frac.mean (l : List Frac) : Frac := (l.foldl Frac.add (.ofInt 0)).divNat l.length

/-- An integer clamped to `n` bits of two's complement, and whether it was clamped. -/
def clampS (n : Nat) (v : Int) : Int × Bool :=
  if v > 2 ^ (n - 1) - 1 then (2 ^ (n - 1) - 1, true) else if v < -(2 ^ (n - 1)) then (-(2 ^ (n - 1)), true)
  else (v, false)

/-- A beam sum requantised to components of `n` bits, and whether either was clamped (R46, R47). -/
def requant (n s : Nat) (y : Int × Int) : (Int × Int) × Bool :=
  let (a, ca) := clampS n (roundShift y.1 s)
  let (b, cb) := clampS n (roundShift y.2 s)
  ((a, b), ca || cb)

/-- Power of a beam sample, and the Stokes parameters I, Q, U, V of a pair, by number (R48). -/
def power (b : Int × Int) : Int := b.1 * b.1 + b.2 * b.2
def stokes (k : Nat) (x y : Int × Int) : Int :=
  match k with
  | 0 => power x + power y
  | 1 => power x - power y
  | 2 => 2 * (x.1 * y.1 + x.2 * y.2)
  | _ => 2 * (x.2 * y.1 - x.1 * y.2)

/-- A detected word clamped to its 32-bit range, unsigned for power and I (R49). -/
def clampWord (unsigned : Bool) (v : Int) : Int × Bool :=
  if unsigned then
    if v > 2 ^ 32 - 1 then (2 ^ 32 - 1, true) else if v < 0 then (0, true) else (v, false)
  else clampS 32 v

end Sys2Proof.Machine
end

