-- ==== Sys2Proof/Machine/Regs.lean ====
section
/-! DEFINITION. Every host-visible register of the BAR0 map (R9): its offset, its instances, its reset domain, its
reset value and the bits of each access type (R7). Fields that no mask names are read only. -/

namespace Sys2Proof.Machine

/-- Reset domains (the table under R390). -/
inductive Dom where
  | por
  | warm
  | host
  | aon
  deriving DecidableEq, Repr

/-- One register or register array: its first offset, the (count, stride) of each index, largest stride first,
its domain, reset value, and the masks of RW, W1C, W1S, WO and RC bits. -/
structure RegRow where
  base : Nat
  dims : List (Nat × Nat)
  dom : Dom
  reset : Nat
  rw : Nat
  w1c : Nat
  w1s : Nat
  wo : Nat
  rc : Nat
  deriving DecidableEq, Repr

/-- A read-only register that is 0 at reset. -/
def roRow (base : Nat) (dims : List (Nat × Nat)) (dom : Dom) : RegRow := ⟨base, dims, dom, 0, 0, 0, 0, 0, 0⟩
/-- A register whose software bits are all RW. -/
def rwRow (base : Nat) (dims : List (Nat × Nat)) (dom : Dom) (reset rw : Nat) : RegRow :=
  ⟨base, dims, dom, reset, rw, 0, 0, 0, 0⟩
/-- A counter that a read clears. -/
def rcRow (base : Nat) (dims : List (Nat × Nat)) (dom : Dom) (rc : Nat) : RegRow := ⟨base, dims, dom, 0, 0, 0, 0, 0, rc⟩
/-- A register whose written bits read 0. -/
def woRow (base : Nat) (dims : List (Nat × Nat)) (dom : Dom) (wo : Nat) : RegRow := ⟨base, dims, dom, 0, 0, 0, 0, wo, 0⟩

/-- GLB_ registers: GLB_ID (R389), GLB_UNITS (R4), GLB_BOOT_CTL (R389), GLB_BOOT_STAT (R389), GLB_BOOT_ADDR (R389), GLB_SERIAL (R389). -/
def glbRows : List RegRow := [
  roRow 0 [] .por,
  roRow 8 [] .por,
  woRow 0x10 [] .warm 0x80000000,
  roRow 0x14 [] .warm,
  rwRow 0x18 [(2, 4)] .warm 0 0xffffffff,
  roRow 0x20 [(2, 4)] .por]

/-- PWR_ registers: PWR_STATE (R389), PWR_RST_CAUSE (R389), PWR_AVS_CTL (R389), PWR_AVS_STAT (R389), PWR_THERM_CTL (R389), PWR_THERM_STAT (R389), PWR_FOG (R389), PWR_ALERT_EN (R389), PWR_ALERT_STAT (R389), PWR_BIST (R389), PWR_ISL_FREQ (R23), PWR_ISL_FMIN (R23). -/
def pwrRows : List RegRow := [
  ⟨0x100000, [], .warm, 0, 0xc0000000, 0x6000000, 0, 0, 0⟩,
  ⟨0x100004, [], .aon, 1, 0, 7, 0, 0, 0⟩,
  rwRow 0x100010 [] .por 0xc0320280 0xfffffff0,
  ⟨0x100014, [], .por, 0x1e, 0x3f, 0xc0000000, 0, 0, 0⟩,
  rwRow 0x100020 [] .por 0x695a 0xffff,
  roRow 0x100024 [(5, 4)] .por,
  woRow 0x100040 [] .por 0x80000000,
  rwRow 0x100044 [] .por 0x7f 0x7f,
  ⟨0x100048, [], .por, 0, 0, 0x7f, 0, 0, 0⟩,
  roRow 0x100050 [] .warm,
  roRow 0x104000 [(497, 4)] .warm,
  ⟨0x105000, [(497, 4)], .warm, 0xffffff, 0, 0, 0, 0, 0xffffff⟩]

/-- BCN_ registers: BCN_FLAG (R338), BCN_LOOP (R338), BCN_LOCK (R338), BCN_GRP (R338), BCN_PUB (R338), BCN_GRP_DROP (R338), BCN_CNT (R338), BCN_TASK (R338), BCN_TASK_STAT (R338). -/
def bcnRows : List RegRow := [
  ⟨0x200000, [(4, 4)], .warm, 0, 0, 0xffffffff, 0, 0, 0⟩,
  ⟨0x200010, [(4, 4)], .warm, 0, 0, 0xffffffff, 0, 0, 0⟩,
  ⟨0x200020, [(4, 4)], .warm, 0, 0, 0, 0xffffffff, 0, 0⟩,
  rwRow 0x200030 [] .warm 0xffff 0xffff,
  woRow 0x200034 [] .warm 0xff,
  rcRow 0x200040 [(16, 4)] .warm 0xffffffff,
  roRow 0x200100 [(128, 4)] .warm,
  rwRow 0x200400 [(112, 4)] .warm 0 0xc07fffff,
  ⟨0x200600, [(112, 4)], .warm, 0, 0, 0x80000000, 0, 0, 0xffff⟩]

/-- XBR_ registers: XBR_CTL (R338), XBR_HBM_BASE (R338), XBR_ABORT (R338), XBR_WAIT (R338). -/
def xbrRows : List RegRow := [
  rwRow 0x300000 [] .warm 0 1,
  rwRow 0x300004 [(2, 4)] .warm 0 0xffffffff,
  rcRow 0x30000c [] .warm 0xffffffff,
  rcRow 0x300100 [(12, 4)] .warm 0xffffffff]

/-- TIM_ registers: TIM_CTL (R316), TIM_STAT (R316), TIM_NS (R316), TIM_INC_FRAC (R316), TIM_INC_INT (R316), TIM_CMP_TARGET (R316), TIM_CMP_PERIOD (R316), TIM_CMP_CTL (R316), TIM_CAP_w0 (R316), TIM_CAP_w1_8 (R316), TIM_PORT_CTL (R316), TIM_PORT_MAC_LO (R316), TIM_PORT_MAC_HI (R316), TIM_PORT_RX (R316). -/
def timRows0 : List RegRow := [
  rwRow 0x400000 [] .aon 1 1,
  ⟨0x400004, [], .aon, 0, 0, 1, 0, 0, 0⟩,
  rwRow 0x400008 [] .aon 0 0xffffffff,
  rwRow 0x40000c [] .aon 0x9999999a 0xffffffff,
  rwRow 0x400010 [] .aon 1 0xff,
  rwRow 0x400100 [(8, 0x10)] .aon 0 0xffffffff,
  rwRow 0x400104 [(8, 0x10)] .aon 0 0xffffffff,
  ⟨0x400108, [(8, 0x10)], .aon, 0, 0x80000000, 3, 0, 0, 0⟩,
  ⟨0x400200, [(16, 0x40)], .aon, 0xff, 0x1fff00ff, 0x80000000, 0, 0, 0⟩,
  roRow 0x400204 [(16, 0x40), (8, 4)] .aon,
  rwRow 0x400800 [] .aon 0 0x803f8000,
  rwRow 0x400804 [] .aon 0 0xffffffff,
  rwRow 0x400808 [] .aon 0 0xffff,
  ⟨0x40080c, [], .aon, 0, 0, 0xffff, 0, 0, 0⟩]

/-- TIM_ registers: TIM_PORT_TX (R316), TIM_PORT_TXADDR (R316), TIM_PORT_LAT (R316), TIM_TS (R316), TIM_TS_POP (R316), TIM_TS_STAT (R316). -/
def timRows1 : List RegRow := [
  ⟨0x400810, [], .aon, 0, 0x2fff07ff, 0, 0, 0x80000000, 0⟩,
  rwRow 0x400814 [] .aon 0 0x3fffff,
  rwRow 0x400818 [] .aon 0x1800100 0,
  roRow 0x400820 [(3, 4)] .aon,
  woRow 0x40082c [] .aon 1,
  rcRow 0x400830 [] .aon 0xffff0000]

def timRows : List RegRow := timRows0 ++ timRows1

/-- REF_ registers: REF_CTL (R316), REF_STAT (R316), REF_CMD (R316), REF_STEP_PS (R316), REF_WTR (R316), REF_QWIN_PPB (R316), REF_AGREE_PPB (R316), REF_RXLANE (R316), REF_OUT (R316), REF_HOLD (R316), REF_HIST (R316), REF_TEMP (R316), REF_CURVE_T (R316), REF_AGE_LIN (R316). -/
def refRows0 : List RegRow := [
  rwRow 0x500000 [] .aon 0x80000004 0xc0000007,
  ⟨0x500004, [], .aon, 0x1c000000, 0, 0x3800000, 0, 0, 0⟩,
  woRow 0x500008 [] .aon 0x80000000,
  roRow 0x50000c [] .aon,
  rwRow 0x500010 [] .aon 0x12c 0xffffffff,
  rwRow 0x500014 [] .aon 0x4e20 0xffffffff,
  rwRow 0x500018 [] .aon 0x64 0xffffffff,
  rwRow 0x50001c [] .aon 0 0xffffffff,
  rwRow 0x500020 [] .aon 0x10020 0xffff003f,
  roRow 0x500024 [] .aon,
  roRow 0x500028 [] .aon,
  rwRow 0x50002c [] .aon 0 0xffff0000,
  rwRow 0x500030 [] .aon 0x10 0xffff00ff,
  rwRow 0x500034 [] .aon 0 0xffffffff]

/-- REF_ registers: REF_AGE_LOG (R316), REF_AGE_D0 (R316), REF_AGE_S (R316), REF_IN_CTL (R316), REF_IN_MEAS (R316), REF_CURVE (R316). -/
def refRows1 : List RegRow := [
  rwRow 0x500038 [] .aon 0 0xffffffff,
  rwRow 0x50003c [] .aon 1 0xffffffff,
  rwRow 0x500040 [] .aon 0 0xffffffff,
  rwRow 0x500100 [(5, 0x10)] .aon 0xf0000 0x900f0000,
  roRow 0x500104 [(5, 0x10)] .aon,
  rwRow 0x500200 [(64, 4)] .aon 0 0xffffffff]

def refRows : List RegRow := refRows0 ++ refRows1

/-- PR_ registers: PR_CTL (R362), PR_STAT (R362), PR_CLAIM (R362), PR_READY (R362), PR_READY_X (R362), PR_HOLD (R362), PR_CNT (R362). -/
def prRows : List RegRow := [
  ⟨0x600000, [], .warm, 0x40000000, 0xc0000000, 0, 0, 0x20000000, 0⟩,
  ⟨0x600004, [], .warm, 0, 0, 0x400000, 0, 0, 0⟩,
  rwRow 0x600008 [] .warm 0 0xffff0000,
  roRow 0x60000c [] .warm,
  roRow 0x600010 [] .warm,
  roRow 0x600014 [] .warm,
  rcRow 0x600100 [(10, 4)] .warm 0xffffffff]

/-- MEM_ registers: MEM_CMD (R292), MEM_STAT (R292), MEM_RH_THRESH (R292), MEM_PD_IDLE (R292), MEM_MAINT (R292), MEM_SCRUB_CTL (R292), MEM_SCRUB_START (R292), MEM_SCRUB_LEN (R292), MEM_SCRUB_SUM (R292), MEM_CNT (R292). -/
def memRows : List RegRow := [
  ⟨0x700000, [(8, 0x10000)], .warm, 0, 0xf0, 0, 0xf, 0, 0⟩,
  ⟨0x700004, [(8, 0x10000)], .warm, 0, 0, 0x200f00, 0, 0, 0⟩,
  rwRow 0x700008 [(8, 0x10000)] .warm 0x800 0xffff,
  rwRow 0x70000c [(8, 0x10000)] .warm 0xc8 0xffff,
  roRow 0x700010 [(8, 0x10000), (4, 4)] .warm,
  ⟨0x700020, [(8, 0x10000)], .warm, 8, 0x7f, 0, 0, 0x80000000, 0⟩,
  rwRow 0x700028 [(8, 0x10000), (2, 4)] .warm 0 0xffffffff,
  rwRow 0x700030 [(8, 0x10000), (2, 4)] .warm 0 0xffffffff,
  roRow 0x700040 [(8, 0x10000), (9, 4)] .warm,
  rcRow 0x700100 [(8, 0x10000), (4, 0x20), (5, 4)] .warm 0xffffffff]

/-- ECC_ registers: ECC_CE_CNT (R292), ECC_UE_CNT (R292), ECC_LOG_STAT (R292), ECC_LOG_HEAD (R292), ECC_LOG_POP (R292), ECC_FILL (R292), ECC_LOG (R292). -/
def eccRows : List RegRow := [
  rcRow 0x800000 [(12, 4)] .warm 0xffffffff,
  rcRow 0x800040 [(12, 4)] .warm 0xffffffff,
  rcRow 0x800080 [] .por 0xffff0000,
  roRow 0x800084 [] .por,
  woRow 0x800088 [] .por 1,
  roRow 0x80008c [] .por,
  roRow 0x801000 [(256, 0x20), (8, 4)] .por]

/-- LN_ registers: LN_CTL.RX (R84), LN_STAT.RX (R84), LN_CTLE.RX (R84), LN_SLIP.RX (R84), LN_HDR_CNT.RX (R84), LN_EYE_CTL.RX (R84), LN_EYE_RES.RX (R84), LN_CNT.RX (R84), LN_CTL.TX (R84), LN_STAT.TX (R84), LN_CNT.TX (R84), LN_CTL.W (R84), LN_STAT.W (R84), LN_CTLE.W (R84). -/
def lnRows0 : List RegRow := [
  rwRow 0x900000 [(96, 0x1000)] .warm 0x2000000 0xffe00000,
  ⟨0x900004, [(96, 0x1000)], .warm, 0, 0, 1, 0, 0, 0⟩,
  rwRow 0x900008 [(96, 0x1000)] .warm 0x10 0x3f,
  woRow 0x90000c [(96, 0x1000)] .warm 1,
  rwRow 0x900010 [(96, 0x1000)] .warm 0x80000000 0,
  ⟨0x900020, [(96, 0x1000)], .warm, 0, 0xf303f3f, 0, 0, 0x80000000, 0⟩,
  roRow 0x900024 [(96, 0x1000)] .warm,
  rcRow 0x900040 [(96, 0x1000), (6, 4)] .warm 0xffffffff,
  rwRow 0x960000 [(32, 0x1000)] .warm 0x2000000 0x9f000000,
  ⟨0x960004, [(32, 0x1000)], .warm, 0, 0, 1, 0, 0, 0⟩,
  rcRow 0x960040 [(32, 0x1000)] .warm 0xffffffff,
  rwRow 0x980000 [(4, 0x1000)] .warm 0x2000000 0xfce00000,
  ⟨0x980004, [(4, 0x1000)], .warm, 0, 0, 1, 0, 0, 0⟩,
  rwRow 0x980008 [(4, 0x1000)] .warm 0x10 0x3f]

/-- LN_ registers: LN_SLIP.W (R84), LN_HDR_CNT.W (R84), LN_EYE_CTL.W (R84), LN_EYE_RES.W (R84), LN_CNT.W (R84), LN_CTL.PORT (R84), LN_STAT.PORT (R84), LN_CTLE.PORT (R84), LN_SLIP.PORT (R84), LN_HDR_CNT.PORT (R84), LN_EYE_CTL.PORT (R84), LN_EYE_RES.PORT (R84), LN_CNT.PORT (R84). -/
def lnRows1 : List RegRow := [
  woRow 0x98000c [(4, 0x1000)] .warm 1,
  rwRow 0x980010 [(4, 0x1000)] .warm 0x80000000 0,
  ⟨0x980020, [(4, 0x1000)], .warm, 0, 0xf303f3f, 0, 0, 0x80000000, 0⟩,
  roRow 0x980024 [(4, 0x1000)] .warm,
  rcRow 0x980040 [(4, 0x1000), (6, 4)] .warm 0xffffffff,
  rwRow 0x984000 [(1, 0x1000)] .warm 0x2000000 0xfce00000,
  ⟨0x984004, [(1, 0x1000)], .warm, 0, 0, 1, 0, 0, 0⟩,
  rwRow 0x984008 [(1, 0x1000)] .warm 0x10 0x3f,
  woRow 0x98400c [(1, 0x1000)] .warm 1,
  rwRow 0x984010 [(1, 0x1000)] .warm 0x80000000 0,
  ⟨0x984020, [(1, 0x1000)], .warm, 0, 0xf303f3f, 0, 0, 0x80000000, 0⟩,
  roRow 0x984024 [(1, 0x1000)] .warm,
  rcRow 0x984040 [(1, 0x1000), (6, 4)] .warm 0xffffffff]

def lnRows : List RegRow := lnRows0 ++ lnRows1

/-- WDG_ registers: WDG_CTL (R85), WDG_SKEW_US (R85), WDG_SRC_TIMEOUT (R85), WDG_EPOCH_SEC_LO (R85), WDG_EPOCH_SEC_HI (R85), WDG_EPOCH_NS (R85), WDG_EPOCH_TOL (R85), WDG_RATE_FRAC (R85), WDG_RATE_INT (R85), WDG_CNT (R85), WDG_FMT0_FD (R71), WDG_FMT0_CTL (R72), WDG_FMT0_OPT (R72), WDG_FMT_FD (R72). -/
def wdgRows0 : List RegRow := [
  rwRow 0xa00000 [] .warm 0 7,
  rwRow 0xa00004 [] .warm 0x2710 0xffff,
  rwRow 0xa00008 [] .warm 0x64 0xffff,
  rwRow 0xa00010 [] .warm 0 0xffffffff,
  rwRow 0xa00014 [] .warm 0 0xffff,
  rwRow 0xa00018 [] .warm 0 0x3fffffff,
  rwRow 0xa0001c [] .warm 0x3e8 0xffffffff,
  rwRow 0xa00040 [(16, 8)] .warm 0 0xffffffff,
  rwRow 0xa00044 [(16, 8)] .warm 0 0xffffff,
  rcRow 0xa00100 [(39, 4)] .warm 0xffffffff,
  roRow 0xa01000 [(8, 4)] .warm,
  rwRow 0xa01020 [] .warm 0x83010203 0,
  roRow 0xa01024 [] .warm,
  rwRow 0xa01040 [(7, 0x40), (8, 4)] .warm 0 0x13f01ff]

/-- WDG_ registers: WDG_FMT_CTL (R72), WDG_FMT_OPT (R72), WDG_SRC_0 (R85), WDG_SRC_1 (R85), WDG_SRC_2 (R85), WDG_SRC_3 (R85). -/
def wdgRows1 : List RegRow := [
  rwRow 0xa01060 [(7, 0x40)] .warm 0 0x87ffffff,
  rwRow 0xa01064 [(7, 0x40)] .warm 0 0x107,
  ⟨0xa10000, [(4096, 0x10)], .warm, 0, 0, 0x20000000, 0, 0x800000, 0⟩,
  roRow 0xa10004 [(4096, 0x10)] .warm,
  roRow 0xa10008 [(4096, 0x10)] .warm,
  roRow 0xa1000c [(4096, 0x10)] .warm]

def wdgRows : List RegRow := wdgRows0 ++ wdgRows1

/-- PLC_ registers: PLC_HBM (R188), PLC_HOST_BW (R188), PLC_SKEW_LIMIT (R188), PLC_CE_LIMIT (R188), PLC_STAT (R188), PLC_EXCL_TILE (R188), PLC_EXCL_SLICE (R188), PLC_KEY (R188), PLC_KEY_STAT (R188). -/
def plcRows : List RegRow := [
  rwRow 0xb00000 [] .warm 0x28 0x7f,
  rwRow 0xb00004 [] .warm 0x947 0xffff,
  rwRow 0xb00008 [] .warm 0x180 0xffff,
  rwRow 0xb0000c [] .warm 0x10 0xff,
  ⟨0xb00010, [], .warm, 0, 0, 0x40000000, 0, 0, 0⟩,
  roRow 0xb00020 [(8, 4)] .warm,
  roRow 0xb00040 [] .warm,
  roRow 0xb00100 [(16, 0x10), (2, 4)] .warm,
  roRow 0xb00108 [(16, 0x10)] .warm]

/-- KLN_ registers: WHL_STAT (R108), WHL_CHUNKS (R108), WHL_STALL (R108), SHF_STAT (R108), SHF_UPDATES (R108), KLN_CTL (R108), KLN_STAT (R108), KLN_SEED (R108), KLN_START (R108), KLN_NEXT (R108), KLN_ILEN (R108), KLN_GEOM (R108), KLN_SEQ (R108), KLN_OVR_CNT (R108). -/
def klnRows0 : List RegRow := [
  roRow 0xc00000 [(256, 0x10)] .warm,
  rcRow 0xc00004 [(256, 0x10)] .warm 0xffffffff,
  rcRow 0xc00008 [(256, 0x10)] .warm 0xffffffff,
  roRow 0xc10000 [(32, 0x20)] .warm,
  rcRow 0xc10004 [(32, 0x20)] .warm 0xffffffff,
  rwRow 0xc20000 [(16, 0x100)] .warm 2 3,
  ⟨0xc20004, [(16, 0x100)], .warm, 0, 0, 3, 0, 0, 0⟩,
  rwRow 0xc20008 [(16, 0x100), (2, 4)] .warm 0 0xffffffff,
  roRow 0xc20010 [(16, 0x100), (2, 4)] .warm,
  roRow 0xc20018 [(16, 0x100), (2, 4)] .warm,
  roRow 0xc20020 [(16, 0x100), (2, 4)] .warm,
  roRow 0xc20028 [(16, 0x100)] .warm,
  roRow 0xc20030 [(16, 0x100)] .warm,
  rcRow 0xc20034 [(16, 0x100)] .warm 0xffffffff]

/-- KLN_ registers: KLN_SKIP_CNT (R108). -/
def klnRows1 : List RegRow := [
  rcRow 0xc20038 [(16, 0x100)] .warm 0xffffffff]

def klnRows : List RegRow := klnRows0 ++ klnRows1

/-- GLZ_ registers: GLZ_F0_LO (R149), GLZ_F0_HI (R149), GLZ_DF (R149), GLZ_TX_CTL (R149), GLZ_GAIN_STAT (R149), GLZ_BLK_CTL (R149), GLZ_BLK_STAT (R149), GLZ_BLK_TABLE (R149), GLZ_BLK_NS (R149), GLZ_BEAM (R149), GLZ_BEAM_CNT (R149), GLZ_TXG (R149), GLZ_TX_CNT (R149), GLZ_GAIN (R149). -/
def glzRows0 : List RegRow := [
  rwRow 0xd00000 [] .warm 0 0xffffffff,
  rwRow 0xd00004 [] .warm 0 0xffff,
  rwRow 0xd00008 [] .warm 0 0xffffffff,
  rwRow 0xd0000c [] .warm 0 0xfff,
  roRow 0xd00010 [] .warm,
  rwRow 0xd00100 [(24, 0x20)] .warm 4 0xffff,
  roRow 0xd00104 [(24, 0x20)] .warm,
  roRow 0xd00108 [(24, 0x20), (2, 4)] .warm,
  roRow 0xd00110 [(24, 0x20), (2, 4)] .warm,
  rwRow 0xd01000 [(1536, 0x10)] .warm 0 0x1f001f,
  rcRow 0xd01004 [(1536, 0x10), (3, 4)] .warm 0xffffffff,
  rwRow 0xd08000 [(64, 4)] .warm 0 0xbf0007ff,
  rcRow 0xd08100 [(32, 8), (2, 4)] .warm 0xffffffff,
  rwRow 0xd10000 [(2, 0x4000), (4096, 4)] .warm 0 0xffffffff]

/-- GLZ_ registers: DET_GRP_CTL (R149), DET_GRP_RING (R149), DET_GRP_MASK (R149), DET_GRP_STAT (R149). -/
def glzRows1 : List RegRow := [
  rwRow 0xd80000 [(24, 0x10)] .warm 0x40 0xfff1ffff,
  rwRow 0xd80004 [(24, 0x10)] .warm 0 0x7fff,
  rwRow 0xd80008 [(24, 0x10), (2, 4)] .warm 0xffffffff 0xffffffff,
  roRow 0xd80200 [(24, 4)] .warm]

def glzRows : List RegRow := glzRows0 ++ glzRows1

/-- LTN_ registers: LTN_ENG_CTL (R165), LTN_ENG_STAT (R165), LTN_ENG_REL (R165), LTN_ENG_NK (R165), LTN_ENG_PRE (R165), LTN_ENG_BASE (R165), LTN_ENG_STRIDE (R165), LTN_ENG_CHAN (R165), LTN_ENG_INPUT (R165), LTN_ENG_BEAM (R165), LTN_ENG_CNT (R165), LTN_ENG_DEAD (R165), LTN_SLOT_STAT (R165), LTN_SLOT_SRC (R165). -/
def ltnRows0 : List RegRow := [
  rwRow 0xe00000 [(4, 0x10000)] .warm 0 0x7fff,
  roRow 0xe00004 [(4, 0x10000)] .warm,
  woRow 0xe00008 [(4, 0x10000)] .warm 0xffff,
  roRow 0xe00010 [(4, 0x10000)] .warm,
  roRow 0xe00014 [(4, 0x10000)] .warm,
  roRow 0xe00018 [(4, 0x10000), (2, 4)] .warm,
  roRow 0xe00020 [(4, 0x10000), (2, 4)] .warm,
  roRow 0xe00028 [(4, 0x10000)] .warm,
  roRow 0xe0002c [(4, 0x10000)] .warm,
  roRow 0xe00040 [(4, 0x10000), (16, 4)] .warm,
  rcRow 0xe00080 [(4, 0x10000), (5, 4)] .warm 0xffffffff,
  roRow 0xe000a0 [(4, 0x10000), (2, 4)] .warm,
  roRow 0xe01000 [(4, 0x10000), (16, 0x100)] .warm,
  rwRow 0xe01010 [(4, 0x10000), (16, 0x100), (2, 4)] .warm 0 0xfffcffff]

/-- LTN_ registers: LTN_SLOT_COND (R165), LTN_SLOT_W (R165), LTN_SLOT_HI (R165), LTN_SLOT_LO (R165), LTN_SLOT_ST (R165), LTN_SLOT_TRIG (R165). -/
def ltnRows1 : List RegRow := [
  rwRow 0xe01018 [(4, 0x10000), (16, 0x100), (2, 4)] .warm 0x10000 0xe0ff0000,
  rwRow 0xe01020 [(4, 0x10000), (16, 0x100), (2, 4)] .warm 0x10001 0xffffffff,
  rwRow 0xe01030 [(4, 0x10000), (16, 0x100), (2, 8), (2, 4)] .warm 0 0xffffffff,
  rwRow 0xe01040 [(4, 0x10000), (16, 0x100), (2, 8), (2, 4)] .warm 0 0xffffffff,
  rwRow 0xe01060 [(4, 0x10000), (16, 0x100), (8, 4)] .warm 0 0xffffffff,
  rcRow 0xe01080 [(4, 0x10000), (16, 0x100)] .warm 0xffffffff]

def ltnRows : List RegRow := ltnRows0 ++ ltnRows1

/-- KPR_ registers: KPR_CTL (R217), KPR_ENTRY (R217), KPR_STAT (R217), KPR_TRAP (R217), KPR_CFAULT (R217), KPR_IRQ (R217), KPR_CQ_STAT (R235), KPR_CNT (R217), KPR_CQ_CNT (R235). -/
def kprRows : List RegRow := [
  ⟨0xf00000, [(8, 0x10000)], .warm, 0, 2, 0, 0, 0xc0000000, 0⟩,
  rwRow 0xf00004 [(8, 0x10000)] .warm 0 0x3fff,
  roRow 0xf00008 [(8, 0x10000)] .warm,
  roRow 0xf0000c [(8, 0x10000)] .warm,
  roRow 0xf00010 [(8, 0x10000)] .warm,
  woRow 0xf00014 [(8, 0x10000)] .warm 0xff,
  roRow 0xf00018 [(8, 0x10000)] .warm,
  rcRow 0xf00040 [(8, 0x10000), (6, 4)] .warm 0xffffffff,
  rcRow 0xf00060 [(8, 0x10000), (4, 4)] .warm 0xffffffff]

/-- DMA_ registers: DMA_CTL (R271), DMA_STAT (R271), DMA_SHADOW_GO (R271), DMA_SH_SRC (R271), DMA_SH_DST (R271), DMA_SH_LEN (R271), DMA_SH_FLAGS (R271), DMA_CUR_SRC (R271), DMA_CUR_DST (R271), DMA_CUR_LEN (R271), DMA_CUR_FLAGS (R271), DMA_SREC (R271), DMA_PROG (R271), DMA_PC (R271). -/
def dmaRows0 : List RegRow := [
  ⟨0x1000000, [(64, 0x1000)], .host, 0, 0x200007ff, 0, 0, 0xd0000000, 0⟩,
  ⟨0x1000004, [(64, 0x1000)], .host, 0, 0, 3, 0, 0, 0⟩,
  woRow 0x1000008 [(64, 0x1000)] .host 1,
  rwRow 0x1000010 [(64, 0x1000), (2, 4)] .host 0 0xffffffff,
  rwRow 0x1000018 [(64, 0x1000), (2, 4)] .host 0 0xffffffff,
  rwRow 0x1000020 [(64, 0x1000)] .host 0 0xffffffff,
  rwRow 0x1000024 [(64, 0x1000)] .host 0 0xff,
  roRow 0x1000030 [(64, 0x1000), (2, 4)] .host,
  roRow 0x1000038 [(64, 0x1000), (2, 4)] .host,
  roRow 0x1000040 [(64, 0x1000)] .host,
  roRow 0x1000044 [(64, 0x1000)] .host,
  rwRow 0x1000050 [(64, 0x1000), (2, 4)] .host 0 0xffffffff,
  rwRow 0x1000058 [(64, 0x1000)] .host 0 0x3fffff,
  roRow 0x100005c [(64, 0x1000)] .host]

/-- DMA_ registers: DMA_DONE_CNT (R271), DMA_HL_STAT (R271), DMA_WIN (R271), DMA_CTX_CTL (R271), DMA_CTX_IDX (R271), DMA_CTX_BADDB (R271), MSIX_TABLE (R271), MSIX_TABLE_CTL (R271), MSIX_PBA (R271). -/
def dmaRows1 : List RegRow := [
  roRow 0x1000060 [(64, 0x1000)] .host,
  ⟨0x1040000, [], .host, 0, 0, 3, 0, 0, 0⟩,
  rwRow 0x1040008 [(2, 4)] .host 0 0xffffffff,
  rwRow 0x1060000 [(1024, 0x10)] .host 0 0x80000000,
  rwRow 0x1060004 [(1024, 0x10), (2, 4)] .host 0 0xffffffff,
  rcRow 0x106000c [(1024, 0x10)] .host 0xffffffff,
  rwRow 0x1080000 [(2048, 0x10), (3, 4)] .host 0 0xffffffff,
  rwRow 0x108000c [(2048, 0x10)] .host 1 1,
  roRow 0x1090000 [(64, 4)] .host]

def dmaRows : List RegRow := dmaRows0 ++ dmaRows1

/-- RNG_ registers: RNG_BASE (R271), RNG_CFG (R271), RNG_OWN (R271), RNG_PROD (R271), RNG_CONS (R271), RNG_MOD (R271), RNG_DROPS (R271). -/
def rngRows : List RegRow := [
  rwRow 0x1100000 [(32768, 0x20), (2, 4)] .host 0 0xffffffff,
  rwRow 0x1100008 [(32768, 0x20)] .host 0x600000 0xeff80000,
  rwRow 0x110000c [(32768, 0x20)] .host 0 0x3ff07ff,
  rwRow 0x1100010 [(32768, 0x20)] .host 0 0xffffffff,
  rwRow 0x1100014 [(32768, 0x20)] .host 0 0xffffffff,
  rwRow 0x1100018 [(32768, 0x20)] .host 0x10000 0xffffffff,
  rcRow 0x110001c [(32768, 0x20)] .host 0xffffffff]

/-- The rows of one block: the offsets of BAR0 in MiB (R9). -/
def blockRows : Nat → List RegRow
  | 0 => glbRows
  | 1 => pwrRows
  | 2 => bcnRows
  | 3 => xbrRows
  | 4 => timRows
  | 5 => refRows
  | 6 => prRows
  | 7 => memRows
  | 8 => eccRows
  | 9 => lnRows
  | 10 => wdgRows
  | 11 => plcRows
  | 12 => klnRows
  | 13 => glzRows
  | 14 => ltnRows
  | 15 => kprRows
  | 16 => dmaRows
  | 17 => rngRows
  | _ => []

/-- Whether an offset from a row's first is that of one of its instances. -/
def dimsHit : List (Nat × Nat) → Nat → Bool
  | [], d => d == 0
  | (n, st) :: t, d => d / st < n && dimsHit t (d % st)

/-- Whether a row has an instance at `off`. -/
def RegRow.hit (r : RegRow) (off : Nat) : Bool := decide (r.base ≤ off) && dimsHit r.dims (off - r.base)

/-- The row an offset belongs to; none where the map assigns nothing. -/
def regRow (off : Nat) : Option RegRow := (blockRows (off >>> 20)).find? (fun r => r.hit off)

/-- What a register reads as after the reset of its domain. -/
def regReset (off : Nat) : W32 := (regRow off).elim 0 (fun r => BitVec.ofNat 32 r.reset)

/-- The islands of the units that HX7240-C fuses off (the table of islands). -/
def fusedIsland (n : Nat) : Bool :=
  (decide (128 ≤ n) && decide (n < 256)) || (decide (304 ≤ n) && decide (n < 384)) || (decide (400 ≤ n) && decide (n < 416))
    || (decide (432 ≤ n) && decide (n < 448)) || (decide (488 ≤ n) && decide (n < 492))

/-- Offsets of units that HX7240-C fuses off (R2): RX lanes 48 to 95, every TX lane, stacks 4 to 7, tiles 128 to
255, shelf slices 16 to 31, TX entries and lane counters, the Lantern, rings 16,384 to 32,767, and the gate counts of the
islands of all of these (R24). -/
def fusedOff (off : Nat) : Bool :=
  (decide (0x930000 ≤ off) && decide (off < 0x980000))
  || (decide (0x740000 ≤ off) && decide (off < 0x780000))
  || (decide (0xC00800 ≤ off) && decide (off < 0xC01000))
  || (decide (0xC10200 ≤ off) && decide (off < 0xC10400))
  || (decide (0xD08000 ≤ off) && decide (off < 0xD08200))
  || (decide (0xE00000 ≤ off) && decide (off < 0xF00000))
  || (decide (0x1180000 ≤ off) && decide (off < 0x1200000))
  || (decide (0x104000 ≤ off) && decide (off < 0x106000) && fusedIsland (off % 0x1000 / 4))

end Sys2Proof.Machine
end

