-- ==== Sys2Proof/Machine/State.lean ====
section
/-! DEFINITION. The state of the HX7240 as plain data, its reset, and the reasons a step can stop. Software-visible
registers live in one sparse register file (`regs`, by BAR0 offset) except where a register is a view of a structure
below; the structures hold what the rules say the part keeps beside its registers. -/

namespace Sys2Proof.Machine

/-- What fuses fix (R1 to R4, R387, R389). -/
structure Fuses where
  gradeC : Bool
  verify : Bool
  dbgOff : Bool
  serial : W64
  stepping : Nat
  keyHash : List Byte
  deriving DecidableEq, Repr

/-! ### Memory, codes and maintenance (R272 to R292) -/

/-- One entry of the sherd log (R286). -/
structure LogEntry where
  seq : Nat
  timeNs : W32
  ue : Bool
  poison : Bool
  cls : Nat
  access : Nat
  symbol : Nat
  unit : Nat
  rpt : Nat
  addr : Nat
  ctx : Nat
  deriving DecidableEq, Repr

/-- Integrity state: words with wrong symbols, poisoned HBM lines (line addresses, rising), and the sherd log by
entry index with the sequence number of the next entry and the place where the next free entry is sought. -/
structure ErrSt where
  upsets : List Upset
  poison : List Nat
  log : List (Nat × LogEntry)
  logSeq : Nat
  logNext : Nat
  deriving DecidableEq, Repr

/-- A request for a quarter's maintenance token (R290): its rank 1 to 4, and the bank (64 p + bank) and row of a
neighbour refresh. -/
structure MaintReq where
  rank : Nat
  bank : Nat
  row : Nat
  deriving DecidableEq, Repr

/-- One controller quarter: the token's holder with the tick its work started, waiting requests in arrival order,
whether a scrub step was paused and holds its place, self-refresh, and whether Doze asks for it. -/
structure Quarter where
  holder : Option MaintReq
  since : Nat
  queue : List MaintReq
  paused : Bool
  selfRef : Bool
  doze : Bool
  deriving DecidableEq, Repr

/-- Who asked for a scrub pass. -/
inductive ScrubBy where
  | host
  | keeper (op : Nat) (summary : Nat)
  deriving DecidableEq, Repr

/-- One scrub pass (R288, R289): its range, the next address, and its counts. -/
structure ScrubPass where
  by_ : ScrubBy
  stack : Nat
  start : Nat
  len : Nat
  next : Nat
  corrected : Nat
  uncorr : Nat
  first : Option Nat
  poisoned : Nat
  startNs : Option W32
  endNs : W32
  deriving DecidableEq, Repr

/-- Memory controllers: quarters; activation tables by 64 p + bank (entries of row and count); refreshes owed by
64 p + bank; pseudo-channels in power-down; scrub passes per stack in the order requested; the refresh window in ms of
each stack, and the tick at which its present window began; when the present interval of 64 p + bank began, in 1/128 tick; and the last
tick at which a unit wrote device memory, with the memory as it was before (R242). -/
structure MemSt where
  quarters : List (Nat × Quarter)
  acts : List (Nat × List (Nat × Nat))
  owed : List (Nat × Nat)
  pdown : List Nat
  scrubs : List (Nat × List ScrubPass)
  windowMs : List (Nat × Nat)
  windowAt : List (Nat × Nat)
  refAt : List (Nat × Nat)
  trained : Bool
  filled : Bool
  was : Option (Nat × List Host.Cell)
  deriving DecidableEq, Repr

/-! ### Device time and references (R293 to R316) -/

/-- A capture source's instant that no capture has taken up yet (R298). -/
structure CapDue where
  src : Nat
  hop : Nat
  ns : W32
  sub : Nat
  srcId : Nat
  chan : Nat
  index : Nat
  sec : Nat
  nanos : Nat
  deriving DecidableEq, Repr

/-- An entry of the timestamp FIFO (R303). -/
structure TsEntry where
  tx : Bool
  msgType : Nat
  domain : Nat
  seqId : Nat
  ns : W32
  sub : Nat
  ref : Nat
  deriving DecidableEq, Repr

/-- A time-port frame being sent, with the TS and TAG of its GO (R301). -/
structure TxPort where
  frame : List Byte
  ts : Bool
  tag : Nat
  deriving DecidableEq, Repr

/-- The time unit: ticks of the 625 MHz output since PORST_N, nanoseconds of
device time without wrapping (DRAIN_NS, R116), device time and its fraction, the held increment
fraction (R295), capture instants not yet taken up, the timestamp FIFO oldest first, the frame being sent, and the
frames sent. -/
structure TimeSt where
  ticks : Nat
  total : Nat
  ns : W32
  frac : W32
  held : W32
  due : List CapDue
  fifo : List TsEntry
  sending : Option TxPort
  sent : List (List Byte)
  deriving DecidableEq, Repr

/-- The reference unit beside its registers: activity of each input; inputs that have been QUALIFIED since PORST_N;
the tick each wait-to-restore timer started; the correction y in 2⁻⁸ ppb and its value held at the last switch; the history of (tick, y, C(T)) newest first;
the tick each measurement gate began; whether a qualification has changed since selection was last applied, and the tick at
which its second ends; the tick of the next holdover update;
the holdover terms of R311; whether a disagreement stands; ticks of the last switch and of LOCKING; the input before
the switch; the divider instants of R313, the ticks at which the CLKOUT dividers last started and of the last PPSOUT and
SYNCOUT pulses; a REALIGN under way, from its tick. -/
structure RefSt where
  act : List Nat
  everQual : List Nat
  everActive : Bool
  wtrFrom : List (Nat × Nat)
  y : Int
  hist : List (Nat × Int × Frac)
  gateFrom : List (Nat × Nat)
  selDue : Bool
  selNext : Nat
  holdNext : Nat
  yHeld : Int
  yHist : Frac
  cHist : Frac
  ageE : Nat
  noHist : Bool
  disagree : Bool
  since : Nat
  old : Option Nat
  ageNext : Nat
  ppsNext : Nat
  ppsCount : Nat
  clkFrom : Nat
  ppsAt : Option Nat
  syncAt : Option Nat
  realign : Option Nat
  deriving DecidableEq, Repr

/-! ### Beacons and the control fabric (R317 to R338) -/

/-- Beacon events published and not yet delivered, oldest first, as (channel, hop count), and per task input the hop
counts of its admitted events, oldest first: its PEND (R322, R329), with one more than
the tick at which each input admitted its last event (0: none). -/
structure BcnSt where
  flight : List (Nat × Nat)
  pend : List (Nat × List Nat)
  admitAt : List (Nat × Nat)
  deriving DecidableEq, Repr

/-- A transaction at the control fabric: its master, its fabric address, and the words of a store (none: a load of
`beats` words). -/
structure FabReq where
  master : Nat
  addr : Nat
  write : Bool
  beats : Nat
  data : List W32
  be : BitVec 4
  deriving DecidableEq, Repr

/-- The control fabric: requests waiting in arrival order, granted transactions, the master of each (target, class)
granted last, and masters whose first transaction after their reset is still to come (R335). -/
structure XbrSt where
  waiting : List FabReq
  granted : List FabReq
  last : List (Nat × Nat)
  fresh : List Nat
  deriving DecidableEq, Repr

/-! ### Lanes and wedging (R52 to R85, R391) -/

/-- A frame delivered to a lane FIFO (R63, R80): its fields as its format entry decodes them, its payload, its
CRC-32C, and device time at its lamp block. `ty` is 1 DATA, 2 HAIL, 3 BUOY, 0 any other. -/
structure Frame where
  ty : Nat
  fmtOk : Bool
  src : Nat
  chan : Nat
  base : Nat
  index : Nat
  valid : Nat
  len : Nat
  payload : List Byte
  crc : W32
  ns : W32
  sub : Nat
  deriving DecidableEq, Repr

/-- A frame in progress: the format entry as it stood at the lamp block (FD words, CTL, OPT) with its number, the
bytes received, and the blocks of header and payload still due (none: PAYLOAD_LEN not known yet). -/
structure Framing where
  fmt : Nat
  fds : List W32
  ctl : W32
  opt : W32
  bytes : List Byte
  hdrLeft : Nat
  payLeft : Nat
  ns : W32
  sub : Nat
  deriving DecidableEq, Repr

/-- One lane beside its registers: the frame in progress, whether blocks are discarded up to the next lamp block (R63),
the FIFO of 8 frames, consecutive failed frames, sync headers received, newest first, blocks since the last slip,
consecutive valid headers of the hunt, the deserialiser's position, the tick from which EN and signal count together,
consecutive error-free PRBS bits, and the eye measurement's start; of a transmitter the registers of its scrambler and of its
pattern, the tick up to which its line is accounted for, and the bits it last put there. -/
structure Lane where
  frm : Option Framing
  skip : Bool
  fifo : List Frame
  fails : Nat
  hdrs : List Bool
  sinceSlip : Nat
  run : Nat
  pos : Nat
  since : Nat
  prbsRun : Nat
  eye : Option Nat
  scr : BitVec 58
  pat : BitVec 31
  lineAt : Nat
  line : List Bool
  deriving DecidableEq, Repr

def Lane.init : Lane := ⟨none, false, [], 0, [], 0, 0, 0, 0, 0, none, 0, 0, 0, []⟩

/-- A source table entry (R73, R85): state 0 EMPTY, 1 PRESENT, 2 DEPARTED, and the tick of its last attributed
frame. -/
structure SrcEntry where
  state : Nat
  conflict : Bool
  epochBad : Bool
  rate : Nat
  inFirst : Nat
  inCount : Nat
  chFirst : Nat
  chCount : Nat
  lastSeen : W32
  lastTick : Nat
  deriving DecidableEq, Repr

def SrcEntry.empty : SrcEntry := ⟨0, false, false, 0, 0, 0, 0, 0, 0, 0⟩

/-- What a placed input block of a slot is (R77, R79, R81): awaited from a source, stored (CRC-32C, VALID bits, payload),
or blank under the `WDG_CNT` code of its reason. -/
inductive BlkSt where
  | awaited (src : Nat)
  | stored (crc : W32) (valid : Nat) (bytes : List Byte)
  | blank (code : Nat)
  deriving DecidableEq, Repr

/-- An assembly slot (R76 to R79): its block index, the device input blocks it places in order with what each is, its
sample mode, its skew deadline in ticks, whether it is released, the readers that have not consumed it (tile t
as t, Lantern engine e as 1,000 + e), by placed block the ranges of device memory its samples take, as (address, bytes), and whether
it has been read from there (R11). -/
structure Slot where
  blk : Nat
  ins : List Nat
  blocks : List BlkSt
  c3 : Bool
  deadline : Nat
  released : Bool
  readers : List Nat
  ranges : List (List (Nat × Nat))
  taken : Bool
  deriving DecidableEq, Repr

/-- The assembly ring of a channel: its base block once a frame has set it, the slots open or not yet free in block
order, the mode and SRATE it runs under, K, and the highest block released. -/
structure ChanRing where
  base : Option Nat
  slots : List Slot
  c3 : Bool
  srate : Nat
  k : Nat
  rel : Option Nat
  deriving DecidableEq, Repr

def ChanRing.init : ChanRing := ⟨none, [], false, 0, 0, none⟩

/-! ### Placement (R166 to R188) -/

/-- A kiln descriptor (R167). -/
structure KilnDesc where
  pos : Nat
  n : Nat
  chFirst : Nat
  chCount : Nat
  ilen : Nat
  k16 : Bool
  c3 : Bool
  srate : Nat
  deriving DecidableEq, Repr

/-- A beam block descriptor (R167). -/
structure BlockDesc where
  pos : Nat
  n : Nat
  chFirst : Nat
  chCount : Nat
  c3 : Bool
  srate : Nat
  deriving DecidableEq, Repr

/-- A Lantern engine descriptor (R167): `beams` holds BEAMS[0 .. NBEAM − 1] and `others` the further entries, which are fields
(R169) that no capture reads. -/
structure EngDesc where
  chFirst : Nat
  chCount : Nat
  inFirst : Nat
  inCount : Nat
  c3 : Bool
  nbeam : Nat
  prefrac : Nat
  nb : Nat
  nk : Nat
  srate : Nat
  beams : List Nat
  others : List Nat
  deriving DecidableEq, Repr

/-- A plan (R166): its fixed fields, its descriptors by number, and the map. `bad` lists the kilns whose flags byte has a
reserved bit set, and 0xFFFF where LMASK has one: fields outside their stated ranges. -/
structure Plan where
  planId : Nat
  ninput : Nat
  kilns : List (Nat × KilnDesc)
  blocks : List (Nat × BlockDesc)
  engines : List (Nat × EngDesc)
  effect : Nat
  swres : Nat
  hostres : Nat
  seed : W64
  map : List Nat
  bad : List Nat
  deriving DecidableEq, Repr

/-- Where the two banks and exponent tables of a kiln lie (R178, R179): group slots per pseudo-channel, the usable
pseudo-channels in order, and the four regions' pseudo-channel offsets in bytes. -/
structure Layout where
  q : Nat
  usable : List Nat
  bankA : Nat
  bankB : Nat
  expA : Nat
  expB : Nat
  deriving DecidableEq, Repr

/-- A placed kiln: its descriptor, the device inputs its map positions name, chunk length L and stage S (R175), its
layout and its first key (R180). -/
structure KilnPlace where
  desc : KilnDesc
  inputs : List Nat
  l : Nat
  s : Nat
  layout : Layout
  key : W64
  deriving DecidableEq, Repr

/-- A placed beam block: its descriptor, its device inputs, and the slice of its windows (R177). -/
structure BlockPlace where
  desc : BlockDesc
  inputs : List Nat
  slice : Nat
  deriving DecidableEq, Repr

/-- A placed Lantern engine: its descriptor and its buffers (R178). -/
structure EngPlace where
  desc : EngDesc
  base : Nat
  stride : Nat
  deriving DecidableEq, Repr

/-- The work of a tile (R174): consecutive units of one list, a kiln's or the beams' (none). -/
structure TileWork where
  kiln : Option Nat
  first : Nat
  count : Nat
  deriving DecidableEq, Repr

/-- A placement: its plan, the effect index in force, its tiles, units and regions, the usable pseudo-channels they spread
over, and the skew window it read (R76, R78). -/
structure Placement where
  plan : Plan
  effect : Nat
  tiles : List (Nat × TileWork)
  kilns : List (Nat × KilnPlace)
  blocks : List (Nat × BlockPlace)
  engines : List (Nat × EngPlace)
  skewUs : Nat
  asmOff : Nat
  asmSize : Nat
  delayOff : Nat
  delaySize : Nat
  usable : List Nat
  hbmTraffic : Nat
  hostTraffic : Nat
  updTraffic : List (Nat × Nat)
  deriving DecidableEq, Repr

/-- A move of an excluded unit's work under way (R183): the unit, the tick it was excluded, for a tile the tile its work goes
to, and for a slice the re-placement of R184. -/
structure Move where
  unit : ExclUnit
  since : Nat
  dest : Nat
  re : Option Placement
  deriving DecidableEq, Repr

/-- The placer: the placement in effect and the one pending, ticks of corrected errors logged against tiles (t) and
slices (1,000 + n), moves under way, units that failed their self-test, and regions of kilns in SHUT that an omitting
placement leaves occupied. -/
structure PlcSt where
  cur : Option Placement
  pend : Option Placement
  ceTicks : List (Nat × List Nat)
  moves : List Move
  failed : List ExclUnit
  oldAsm : List (Nat × Nat)
  shutKeep : List (Nat × KilnPlace)
  deriving DecidableEq, Repr

/-! ### Tiles, kilns and drains (R86 to R122) -/

/-- A chunk: one block pair of a kiln in one channel, from its first sample index (R88). -/
structure Chunk where
  kiln : Nat
  p : Nat
  q : Nat
  chan : Nat
  first : Nat
  deriving DecidableEq, Repr

/-- A complete accumulator bank: its chunk and the kept cells as (word of the bank, sum) (R90, R111). -/
structure ChunkSum where
  chunk : Chunk
  sums : List (Nat × E48)
  deriving DecidableEq, Repr

/-- A tile: the chunk entering a bank, complete banks not yet drained, oldest first (R89), the order point it has
reached (first index, channel, number in its list of pairs), and the tick from which it has stood idle. -/
structure Tile where
  cur : Option Chunk
  full : List ChunkSum
  at_ : Nat × Nat × Nat
  since : Nat
  deriving DecidableEq, Repr

def Tile.init : Tile := ⟨none, [], (0, 0, 0), 0⟩

/-- What a slice holds for one word and one update span: the span's first index, the chunks added, the exact sum with
the fields that saturated, and whether a contribution was lost to an uncorrectable error (R92, R94, R284). -/
structure SpanAcc where
  first : Nat
  chunks : Nat
  sum : E48
  stuck : Bool × Bool × Bool
  bad : Bool
  deriving DecidableEq, Repr

/-- One bank of a kiln in an integration: its first index, where it lies, its key, lines updated so far, lines with a
saturated field, saturated E48 fields (4 word + field), poisoned lines, whether the span includes a skipped
boundary, and per K16 line the exponents e and e_fit as its last update left them (R43, R114). -/
structure Bank where
  first : Nat
  layout : Layout
  key : W64
  touched : List Nat
  satLines : List Nat
  stuck : List Nat
  poison : List Nat
  skipped : Bool
  fits : List (Nat × Nat × Nat)
  deriving DecidableEq, Repr

def Layout.none : Layout := ⟨0, [], 0, 0, 0, 0⟩
def Bank.init : Bank := ⟨0, Layout.none, 0, [], [], [], [], false, []⟩

/-- A drain in progress (R110 to R116): the bank, sequence number, span, close time, the header's fixed bytes, ring
positions whose header is still to be written, groups done, per ring position the lines written and dropped and the
header's RSEQ, headers dropped, lines poisoned during the drain, device time at the last line record, ring positions
whose completion is still to be written (none: not formed yet), and the lines formed by it. -/
structure Drain where
  bank : Nat
  seq : Nat
  lastIdx : Nat
  closeNs : W32
  closeTotal : Nat
  hdr : List Byte
  groups : Nat
  hdrTodo : List Nat
  done : List Nat
  written : List (Nat × Nat)
  dropped : List (Nat × Nat)
  hdrRseq : List (Nat × W32)
  hdrDropped : List Nat
  poison : List Nat
  poisonTotal : Nat
  lastTotal : Nat
  compTodo : Option (List Nat)
  deriving DecidableEq, Repr

/-- A kiln (R96 to R106): its state (R97), start index, pending boundaries of FIREs with the operation that named each,
end index of a SHUT with its operation, next sequence number, the accumulating bank and the two banks, the drain,
contributions by word, the next span of each line, the highest first index taken up, the boundary whose overrun has been
raised, whether updates are held under STALL, blanked blocks by slot (R114), its rings, the seed of its generator, the
key of its next bank with its counts (R181), a new layout waiting for the next boundary (R184), reference steps
waiting for a close (R117), whether a placement that omits it took effect while it was in SHUT, and the last boundary
removed under SKIP, hop counts of the FIRED and OVERRUN at boundaries that KLN_FIRE set (R329), and the event of
KLN_FIRE taken and not yet accepted, as its hop count and MARGIN (R323), and in a part that joined a pair the index from which it
accumulates (2⁴⁸: not known yet), and boundaries that items of the active part set, with the Keeper and issue number of
the FIRE or SHUT (R348). -/
structure Kiln where
  state : Nat
  s0 : Nat
  first : Nat
  pend : List (Nat × Option Nat)
  endAt : Option (Nat × Option Nat)
  seq : Nat
  bank : Nat
  a : Bank
  b : Bank
  drain : Option Drain
  acc : List (Nat × List SpanAcc)
  lineNext : List (Nat × Nat)
  taken : Option Nat
  overAt : Option Nat
  stalled : Bool
  loss : List (Nat × Nat)
  rings : List Nat
  seed : W64
  key : W64
  newLayout : Option Layout
  steps : Nat
  stepPs : Int
  omitted : Bool
  gone : Nat
  hops : List (Nat × Nat)
  task : Option (Nat × Nat)
  from_ : Nat
  byItem : List (Nat × Nat × Nat)
  deriving DecidableEq, Repr

def Kiln.init : Kiln :=
  ⟨0, 0, 0, [], none, 0, 0, Bank.init, Bank.init, none, [], [], none, none, false, [], [], 0, 0, none, 0, 0, false, 0, [], none, 0, []⟩

/-! ### Beams and detection (R123 to R149) -/

/-- The settings a STEER brings into effect from `from_` on (R133): its coefficient table, n₀ and the 64 shift words
of the block's beams. -/
structure Era where
  from_ : Nat
  table : Nat
  n0 : Int
  shifts : List W32
  deriving DecidableEq, Repr

/-- A STEER accepted and pending (R133): its index, table, n₀, new shift words, and the conduct operation. -/
structure SteerPend where
  ns : Nat
  table : Nat
  n0 : Int
  shifts : Option (List W32)
  op : Option Nat
  deriving DecidableEq, Repr

/-- An evaluated epoch of a block: its number, the tau code of each entry as last evaluated or read from its delay table
(64 × N_m, R131), entries lost, and the visits, as (P, first index), for which a pair's entries have been read (R127). -/
structure EpochTab where
  epoch : Nat
  taus : List Nat
  lost : List Nat
  reads : List (Nat × Nat)
  deriving DecidableEq, Repr

/-- A beam block's steering: whether a STEER has taken effect, settings in effect newest first, the pending STEER, the
index of the last STEER accepted, evaluated epochs, the next epoch to evaluate, entries lost to errors, and the era whose TX
entries are in force (R134). -/
structure BlockSt where
  steered : Bool
  eras : List Era
  pend : Option SteerPend
  lastNs : Nat
  tabs : List EpochTab
  nextEval : Option Nat
  ecc : Nat
  txEra : Option Nat
  deriving DecidableEq, Repr

def BlockSt.init : BlockSt := ⟨false, [], none, 0, [], none, 0, none⟩

/-- A beam window (R126): block, channel, slot, the input blocks that have contributed, 64 × 128 exact sums (beam
major), beams that carry a loss, and beams to which a valid input contributed. -/
structure Window where
  m : Nat
  chan : Nat
  blk : Nat
  got : List Nat
  sums : List (Int × Int)
  loss : List Bool
  any_ : List Bool
  deriving DecidableEq, Repr

/-- Detection samples of one slot: 64 × 128 requantised samples (beam major) and beams that carry a loss. -/
structure DetWin where
  blk : Nat
  samples : List (Int × Int)
  loss : List Bool
  deriving DecidableEq, Repr

/-- One channel of a detection group since its restart: slots of samples still needed, the next coarse and fine output,
and whether a record has been formed. -/
structure DetChan where
  wins : List DetWin
  coarse : Nat
  fine : Nat
  any_ : Bool
  deriving DecidableEq, Repr

def DetChan.init : DetChan := ⟨[], 0, 0, false⟩

/-- A detection group (R140 to R147): the restart index and settings it runs with, restarts still to come, and its
channels. -/
structure DetGrp where
  active : Bool
  nr : Nat
  stokes : Bool
  resp : Nat
  len : Nat
  dec : Nat
  redq : Nat
  mask : Nat
  ring : Nat
  restarts : List Nat
  chans : List (Nat × DetChan)
  deriving DecidableEq, Repr

def DetGrp.init : DetGrp := ⟨false, 0, false, 0, 0, 0, 0, 0, 0, [], []⟩

/-- Beams beside their registers: blocks; open windows; the active gain bank, a pending switch with its operation, the
index of the last switch, and gain words lost to errors (4,096 bank + input) (R128); TX entries' writes waiting for a
STEER (R134); the frame queue of each TX lane, as header and payload, and the frames sent, as blocks; detection groups; BEAM samples that Lantern
captures take, per block, channel and slot. -/
structure BeamSt where
  blocks : List (Nat × BlockSt)
  windows : List Window
  active : Bool
  switch_ : Option (Nat × Option Nat)
  switched : Nat
  badGains : List Nat
  txgPend : List (Nat × W32)
  txq : List (Nat × List (List Byte))
  sent : List (Nat × List Block)
  groups : List (Nat × DetGrp)
  caps : List (Nat × Nat × DetWin)
  deriving DecidableEq, Repr

/-! ### Lantern (R150 to R165) -/

/-- A fine output of a watched stream (R150 to R152): its number and LAST, whether it carries a loss, its extended value
and its beam; or a restart of the group. -/
structure LtnSample where
  restart : Bool
  q : Nat
  last : Nat
  loss : Bool
  val : Int
  beam : Option Nat
  deriving DecidableEq, Repr

/-- A condition unit (R153): samples waiting for evaluation, the run in progress with its width and whether it exceeded
H, the SLEW history newest first and whether its test was last true, and the TIMEOUT's start tick and whether it has
been met since. -/
structure LtnUnit where
  queue : List LtnSample
  run : Option (Nat × Bool)
  hist : List Int
  slew : Bool
  since : Nat
  met : Bool
  deriving DecidableEq, Repr

def LtnUnit.init : LtnUnit := ⟨[], none, [], false, 0, false⟩

/-- A trigger slot (R154): armed, its table state, entry index, LAST of the last step processed, its units, and the tick of the
last event taken with whether that was a TIMEOUT's. -/
structure LtnSlot where
  armed : Bool
  st : Nat
  nIn : Nat
  last : Nat
  u0 : LtnUnit
  u1 : LtnUnit
  evAt : Option (Nat × Bool)
  deriving DecidableEq, Repr

def LtnSlot.init : LtnSlot := ⟨false, 0, 0, 0, LtnUnit.init, LtnUnit.init, none⟩

/-- An accepted request (R155, R160, R162): what its capture record carries. `known` says that the freeze's times are there,
which in a standby come from the active part; `missed` that the
window begins before the first block an engine that joined a pair has written (R358). -/
structure LtnCap where
  t : Nat
  slot : Nat
  unit : Nat
  xEvent : Bool
  beam : Option Nat
  value : Int
  kind : Nat
  first : Bool
  acceptNs : W32
  freezeNs : W32
  prevDead : Nat
  prevIgn : Nat
  buffer : Nat
  known : Bool
  loss : Bool
  lossBlocks : Nat
  missed : Bool
  deriving DecidableEq, Repr

/-- What waits for an engine of a standby (R351): an item of the active part, or the start that an ARM gives it where it is IDLE. -/
inductive EngItem where
  | item (d : Decision)
  | start
  deriving DecidableEq, Repr

/-- An engine (R159, R160): state, current buffer, frozen buffers, the next block index to write, blocks written in the
buffer, the request being captured, captures whose record is still to be written, the capture sequence, dead time (its
start, ticks in all, the length in ns and ignored requests of the last one), flags of the ARM from IDLE, and in a standby the items of
the active part that have still to be applied, in order. -/
structure LtnEng where
  state : Nat
  cur : Nat
  frozen : List Nat
  next : Option Nat
  firstBlk : Nat
  count : Nat
  cap : Option LtnCap
  toWrite : List LtnCap
  cseq : Nat
  deadFrom : Option Nat
  deadTicks : Nat
  ignNow : Nat
  prevDead : Nat
  prevIgn : Nat
  fromIdle : Bool
  firstCap : Bool
  latchHi : W32
  items : List EngItem
  deriving DecidableEq, Repr

def LtnEng.init : LtnEng := ⟨0, 0, [], none, 0, 0, none, [], 0, none, 0, 0, 0, 0, false, false, 0, []⟩

/-! ### Keeper cores (R189 to R217) -/

/-- What follows a delay slot (R204, R209): an address, or the return of RETI. -/
inductive After where
  | goto (a : BitVec 14)
  | reti
  deriving DecidableEq, Repr

/-- A fabric load the core is stalled on (R192): its fabric target as in `FabReq`, where the words go, the pointer
update, and the control state before it issued, `ie` among it, to which a DATA trap returns. -/
structure LoadPend where
  addr : Nat
  beats : Nat
  long : Bool
  half : Nat
  dest : BitVec 4
  ptr : BitVec 3
  ptrVal : W24
  pc : BitVec 14
  after : Option After
  rpt : Bool
  rc : BitVec 13
  ie : BitVec 4
  since : Nat
  deriving DecidableEq, Repr

/-- A Keeper core (R193): run state and reason (`KPR_STAT`), registers, the accumulators and AV, AVS as readers with the
lag of R207 see them, what follows the delay slot the core is in, whether the next instruction is a repeat, a fabric
load and a posted store outstanding, a STOP waiting for its boundary, the cause and address of a conduct fault not yet
trapped, the tick from which it has stalled or waited, whether a fabric access waits behind its own store, and its memories. -/
structure Core where
  run : Nat
  why : Nat
  pc : BitVec 14
  w : Vector W16 16
  a : Vector W40 2
  p : Vector W24 8
  m : Vector W16 8
  l : Vector W16 8
  st : W16
  be : BitVec 4
  rc : BitVec 13
  ir : BitVec 14
  ie : BitVec 4
  im : Byte
  ip : Byte
  tc : W16
  aOld : Vector W40 2
  avOld : BitVec 2
  after : Option After
  rpt : Bool
  load : Option LoadPend
  store : Bool
  stop : Bool
  cfault : Option (Nat × BitVec 14)
  since : Nat
  behind : Bool
  imem : List Host.Cell
  dmem : List Host.Cell
  deriving DecidableEq, Repr

def Core.init : Core :=
  { run := 0, why := 0, pc := 0, w := Vector.replicate 16 0, a := Vector.replicate 2 0, p := Vector.replicate 8 0
    m := Vector.replicate 8 0, l := Vector.replicate 8 0, st := 0, be := 0, rc := 0, ir := 0, ie := 0, im := 0
    ip := 0, tc := 0, aOld := Vector.replicate 2 0, avOld := 0, after := none, rpt := false, load := none
    store := false, stop := false, cfault := none, since := 0, behind := false, imem := [], dmem := [] }

/-! ### Conduct operations (R218 to R235) -/

/-- An entry of a conduct queue (R221): its COP, issue number and instruction address, its copied block (or immediate),
its stage (0 queued, 1 dispatched, 2 barrier waiting, 3 waiting for a release), whether a fabric store issued before it
is still outstanding, its dispatch tick, and what a FENCE.HOST still waits for: POSTs and FIREs by operation, firings by
kiln and sequence number, and in a standby FIREs and SHUTs that it follows by issue number. -/
structure QEntry where
  cop : Nat
  issue : Nat
  addr : BitVec 14
  block : List W16
  stage : Nat
  store : Bool
  since : Nat
  posts : List Nat
  fires : List Nat
  firings : List (Nat × Nat)
  follows : List Nat
  deriving DecidableEq, Repr

/-- An accepted operation that has not completed: its Keeper, issue number, COP, STATUS word, and the kilns it acts on
(R225). -/
structure Op where
  id : Nat
  keeper : Nat
  issue : Nat
  cop : Nat
  status : W16
  kilns : List Nat
  deriving DecidableEq, Repr

/-- A POST record accepted and not yet written (R231); in a standby, the RSEQ it took, once its record is formed (R349), and
after a takeover whether that record has been emitted from the holding buffer, or dropped (R358). -/
structure PostRec where
  op : Nat
  keeper : Nat
  ring : Nat
  len64 : Nat
  tag : Nat
  mirror : Bool
  body : List Byte
  sent : Option Nat
  out : Option Bool
  deriving DecidableEq, Repr

/-- The conduct queues by core, accepted operations, the next operation's number, issue numbers by core, and POST
records waiting for their rings in acceptance order. -/
structure CqSt where
  queues : List (Nat × List QEntry)
  ops : List Op
  nextOp : Nat
  issued : List (Nat × Nat)
  posts : List PostRec
  deriving DecidableEq, Repr

/-! ### Host link, rings, command unit and DMA (R236 to R271) -/

/-- Who offers a record to a ring, or moves data to it: the header, line records and completion of a kiln's firing, a POST by
its Keeper, a detection group, a Lantern engine, the response to a COMMAND ring, and a DMA channel. -/
inductive Offerer where
  | header (k : Nat)
  | lines (k : Nat)
  | completion (k : Nat)
  | post (keeper : Nat)
  | detect (g : Nat)
  | lantern (e : Nat)
  | response (r : Nat)
  | dma (c : Nat)
  deriving DecidableEq, Repr

/-- What a FENCE.HOST waits for (R226): a POST by its operation and Keeper, and a firing by its kiln and sequence number. -/
inductive Owed where
  | post (op keeper : Nat)
  | firing (k seq : Nat)
  deriving DecidableEq, Repr

/-- A ring beside its eight words (R246 to R251, R113): the index of the side the part moves (PROD of a device-to-host
ring, CONS of a COMMAND ring) as placed, which its register reads only once it is written back; the sequence number of
the next record offered; records no message has yet covered, with the tick of the first; who waits for space, and for how
many positions; whose waiting record, or RING transfer, a disabling has ended without its unit having met that yet; and
what FENCE.HOST waits for that is placed and not yet written back. -/
structure RingDyn where
  head : Nat
  rseq : Nat
  unsent : Nat
  firstTick : Nat
  waiting : List (Offerer × Nat)
  lost : List Offerer
  owed : List Owed
  deriving DecidableEq, Repr

def RingDyn.init : RingDyn := ⟨0, 0, 0, 0, [], [], []⟩

/-- A command that has executed and whose response is still to be written or dropped (R252, R256), with the context that owned its ring
as it was served; a DETACH takes its effect on the context named only after that (R255). -/
structure CmdDone where
  op : Nat
  status : Nat
  resp : Bool
  respRing : Nat
  tag : Nat
  result : List Byte
  detach : Option Nat
  owner : Nat
  deriving DecidableEq, Repr

/-- A DMA channel beside its registers (R259 to R266): whether it runs a program, bytes of the active transfer moved,
transfers completed, the four counters, the beacon channel of a WAIT, whether a MOVE is in progress,
and whether a shadow was armed when an abort began. -/
structure DmaChan where
  prog : Bool
  moved : Nat
  done : Nat
  ctr : List Nat
  wait : Option Nat
  moving : Bool
  armed : Bool
  deriving DecidableEq, Repr

def DmaChan.init : DmaChan := ⟨false, 0, 0, [0, 0, 0, 0], none, false, false⟩

/-- The host link: log2 of the size of BAR4 (R242), rings, executed commands awaiting their response by COMMAND ring, the
COMMAND ring served last, DMA channels, MSI-X vectors sent, newest first, and what the last read through BAR0, BAR2 or
BAR4 returned: its bytes, and whether the completion is poisoned (R243). -/
structure HostSt where
  bar4 : Nat
  rings : List (Nat × RingDyn)
  cmds : List (Nat × CmdDone)
  lastRing : Nat
  chans : List (Nat × DmaChan)
  msis : List Nat
  rdata : List Byte
  rpoison : Bool
  deriving DecidableEq, Repr

/-! ### Redundant pairs (R339 to R362) -/

/-- A Waoth message (R345), with the content the manual lists for its type. -/
inductive WMsg where
  | heartbeat (role lanes claim ack : Nat) (nak : Bool)
  | report (p : Positions)
  | conduct (i : ConductItem)
  | decision (d : Decision)
  | loss (chan b : Nat) (mask : List Nat) (watermark : Bool)
  | mirror (keeper ring pos : Nat) (bytes : List Byte)
  | join (units : W32) (plc : List W32)
  | snapshot (s : Snapshot)
  deriving DecidableEq, Repr

/-- A Waoth frame sent: its lane, its SEQ if it is a sequenced type (R344 to R346), its message and which part of 4,096 bytes of the
message it carries (R345), and the bytes the manual fixes: the header block, and the payload of a heartbeat. -/
structure WSent where
  lane : Nat
  seq : Option Nat
  msg : WMsg
  part : Nat
  bytes : List Byte
  deriving DecidableEq, Repr

/-- An entry of a Keeper's follow log (R348): issue number, COP and block of a product operation no CONDUCT item has
matched. -/
structure FollowEntry where
  issue : Nat
  cop : Nat
  block : List W16
  deriving DecidableEq, Repr

/-- The pair stream of an output (R343): a ring, or a TX entry. -/
inductive Stream where
  | ring (r : Nat)
  | txg (j : Nat)
  deriving DecidableEq, Repr

/-- An entry of the holding buffer (R340, R355): its stream, its RSEQ, or for a BEAM frame its sample index and channel, its length in
bytes, and the blocks of 64 bytes of the buffer that hold it, in order. -/
structure HoldEntry where
  stream : Stream
  pos : Nat × Nat
  len : Nat
  blocks : List Nat
  deriving DecidableEq, Repr

/-- A close of the active part that this part has still to make (R347, R349). -/
structure CloseItem where
  k : Nat
  boundary : Nat
  seq : Nat
  closeNs : W32
  stepCount : Nat
  stepPs : Int
  deriving DecidableEq, Repr

/-- The pair unit beside its registers: whether a partner is present; the tick of the last heartbeat on each lane; frames
sent, newest first; the next SEQ to send and the replay buffer, oldest first, with the messages formed while it was full, which wait
for room in order; the last SEQ received in order and whether
a gap stands, with the highest SEQ refused in it; the partner's role in its last heartbeat (0: none heard); the lane of the last
sequenced frame; the tick of the last heartbeat, and report, sent; follow logs by
core, with items (core, issue number) whose entry had not been logged as they arrived, and the issue numbers of the snapshot;
the holding buffer, oldest first, and positions dropped from it; BEAM frames (entry, sample index, channel) that blocks not ready
have missed; closes, skips, re-keys and mirror items of the active
part not yet taken up; loss maps received, and watermarks by channel; slots whose own LOSS item has been sent; emitted
positions of this part and those of the partner's last report; groups emitted since the last report; whether an unfit
PLACE item stopped product items; the boundary and epoch from which each kiln and block is ready, and the block indices each engine still has to write;
the index of the STEER that each block was loaded with; kilns whose output is lost at takeover, and those that were draining as the
snapshot was taken. -/
structure PairSt where
  present : Bool
  hbTick : List (Nat × Nat)
  lastHb : Nat
  sent : List WSent
  txSeq : Nat
  replay : List WSent
  late : List WMsg
  rxSeq : Nat
  nak : Bool
  gapTo : Nat
  heard : Nat
  rr : Nat
  hbSent : List (Nat × Nat)
  repSent : Nat
  follow : List (Nat × List FollowEntry)
  early : List (Nat × Nat)
  snapIssue : List (Nat × Nat)
  hold : List HoldEntry
  holdDrops : List (Stream × (Nat × Nat))
  missed : List (Nat × Nat × Nat)
  closes : List CloseItem
  skips : List (Nat × Nat)
  rekeys : List (Nat × Nat)
  mirrors : List (Nat × Nat × Nat × List Byte)
  losses : List (Nat × Nat × List Nat)
  marks : List (Nat × Nat)
  lossSent : List (Nat × Nat)
  emitted : Positions
  reported : Positions
  unfit : Bool
  kilnFrom : List (Nat × Nat)
  blockFrom : List (Nat × Nat)
  engFrom : List (Nat × Nat)
  eraNs : List (Nat × Nat)
  lost : List Nat
  undrained : List Nat
  deriving DecidableEq, Repr

/-! ### Power, start-up and test access (R363 to R389) -/

/-- A change of power state under way: the state it leads to, the state asked for in the end, its tick, and whether it is
the second step of a Doze that was asked for in Run (R372 to R374). -/
structure PwrChange where
  dest : Nat
  final : Nat
  since : Nat
  fromRun : Bool
  deriving DecidableEq, Repr

/-- The test access port (R384 to R387): the instruction register, the update latch of the boundary scan, the last data
register captured (its length and value), the last FABRIC read data, and the self-test: running, done, failing tiles and
slices. -/
structure TapSt where
  ir : Byte
  scan : BitVec 39
  drLen : Nat
  dr : BitVec 512
  rdata : W32
  busy : Bool
  done : Bool
  tiles : List Nat
  slices : List Nat
  deriving DecidableEq, Repr

/-- Power and start-up beside the registers: rails removed (Off); the input pins WARMRST_N, BOOTSEL, FOGIN_N and
PMB_ALERT_N; whether THERM_TRIP has occurred; ticks of the last reset and of the last sensor read; memories released
(R368); a boot load under way, from its tick; a power-state change under way and a wake event seen meanwhile; the count
`above` of R365; the tick at which the last gate opened;
whether THERM_WARN stands; whether PWR_THERM_CTL.TRIP has been written since PORST_N and so is locked (R7); whether the
regulator of VDD_CORE gave no usable answer (R365); the islands whose clocks have stopped since the present gate opened
(R23); VDD_CORE in 5 mV above 0.60 V, and the VOUT_COMMANDs sent on PMBus as (address, voltage) (R365); and the flash image
that QSPI reads. -/
structure PwrSt where
  off : Bool
  warmLow : Bool
  bootsel : Bool
  foginLow : Bool
  pmbLow : Bool
  tripped : Bool
  since : Nat
  thermTick : Nat
  released : Bool
  loading : Option Nat
  change : Option PwrChange
  wake : Bool
  above : Nat
  gate : Nat
  warn : Bool
  tripLock : Bool
  noPmb : Bool
  stopped : List Nat
  vdd : Nat
  pmb : List (Nat × Nat)
  flash : List Host.Cell
  tap : TapSt
  deriving DecidableEq, Repr

/-! ### The machine -/

/-- The state of the part. `pending` is the queue of commands, first in first out. `regs` is the register file: BAR0
offset and value, in canonical form against `regReset`. `hbm`, `csram` and `host` are device memory, control SRAM and the
host's memory by address. `freeCtr` counts the open values taken so far: it is the model's own field, and no statement
rests on its value. -/
structure State where
  pending : List Instr
  fuse : Fuses
  freeCtr : Nat
  regs : List (Nat × W32)
  hbm : List Host.Cell
  csram : List Host.Cell
  host : List Host.Cell
  link : HostSt
  err : ErrSt
  mem : MemSt
  time : TimeSt
  ref : RefSt
  bcn : BcnSt
  xbr : XbrSt
  lanes : List (Nat × Lane)
  srcs : List (Nat × SrcEntry)
  asm_ : List (Nat × ChanRing)
  plc : PlcSt
  tiles : List (Nat × Tile)
  kilns : List (Nat × Kiln)
  beam : BeamSt
  eng : List (Nat × LtnEng)
  slots : List (Nat × LtnSlot)
  cores : List (Nat × Core)
  cq : CqSt
  pair : PairSt
  pwr : PwrSt
  deriving DecidableEq, Repr

/-- Reasons a command can stop the block. The manual gives every command of the table an effect, or makes it no
occurrence, so none is ever raised: the type has the one constructor that says an address outside every memory was
reached, raised by nothing, safe. -/
inductive Fault where
  | noSuchAddress
  deriving DecidableEq, Repr

/-- Reasons the model refuses a command. `notModelled`: a row without a meaning, raised by the dispatcher only; safe. -/
inductive Refusal where
  | notModelled (mnemonic : String)
  deriving DecidableEq, Repr

/-! ### Reset -/

def ErrSt.init : ErrSt := ⟨[], [], [], 0, 0⟩
def MemSt.init : MemSt := ⟨[], [], [], [], [], [], [], [], false, false, none⟩
def TimeSt.init : TimeSt := ⟨0, 0, 0, 0, 0x9999999A#32, [], [], none, []⟩
def RefSt.init : RefSt :=
  { act := [], everQual := [], everActive := false, wtrFrom := [], y := 0, hist := [], gateFrom := [], selDue := false
    selNext := 625000000, holdNext := 0, yHeld := 0, yHist := .ofInt 0, cHist := .ofInt 0, ageE := 0
    noHist := true, disagree := false, since := 0, old := none, ageNext := 625000000, ppsNext := 625000000
    ppsCount := 0, clkFrom := 0, ppsAt := none, syncAt := none, realign := none }
def BcnSt.init : BcnSt := ⟨[], [], []⟩
def XbrSt.init : XbrSt := ⟨[], [], [], List.range 12⟩
def PlcSt.init : PlcSt := ⟨none, none, [], [], [], [], []⟩
def BeamSt.init : BeamSt := ⟨[], [], false, none, 0, [], [], [], [], [], []⟩
def CqSt.init : CqSt := ⟨[], [], 0, [], []⟩
def Positions.none : Positions := ⟨[], [], []⟩
def HostSt.init : HostSt := ⟨30, [], [], 0, [], [], [], false⟩
def PairSt.init : PairSt :=
  { present := false, hbTick := [], lastHb := 0, sent := [], txSeq := 1, replay := [], late := [], rxSeq := 0, nak := false, gapTo := 0, heard := 0, rr := 0
    hbSent := [], repSent := 0, follow := [], early := [], snapIssue := [], hold := [], holdDrops := [], missed := [], closes := [], skips := [], rekeys := [], mirrors := []
    losses := [], marks := [], lossSent := [], emitted := Positions.none, reported := Positions.none, unfit := false
    kilnFrom := [], blockFrom := [], engFrom := [], eraNs := [], lost := [], undrained := [] }
def TapSt.init : TapSt := ⟨1, 0, 0, 0, 0, false, false, [], []⟩
def PwrSt.init : PwrSt :=
  { off := false, warmLow := false, bootsel := false, foginLow := false, pmbLow := false, tripped := false, since := 0
    thermTick := 0, released := false, loading := none, change := none, wake := false, above := 0, gate := 0
    warn := false, tripLock := false, noPmb := false, stopped := [], vdd := 30, pmb := [], flash := [], tap := TapSt.init }

/-- The fuses of the part that is modelled: an HX7240-F with no verified boot. DESIGN CHOICE (log 2): the manual says the
serial is nonzero and gives no value. -/
def Fuses.init : Fuses := ⟨false, false, false, 1, 0, List.replicate 48 0⟩

/-- The registers that fuses load at reset (R4, R384, R389). -/
def fuseRegs (f : Fuses) : List (Nat × W32) :=
  sset regReset (sset regReset (sset regReset (sset regReset []
    0 (if f.gradeC then 0x17241993#32 else 0x17240993#32))
    8 (if f.gradeC then 0x00FF0203#32 else 0x00FF07FF#32))
    0x20 (lo32 f.serial.toNat)) 0x24 (hi32 f.serial.toNat)

/-- The part right after PORST_N rises: step 1 of R368. -/
def State.reset : State :=
  { pending := [], fuse := Fuses.init, freeCtr := 0, regs := fuseRegs Fuses.init, hbm := [], csram := [], host := []
    link := HostSt.init, err := ErrSt.init, mem := MemSt.init, time := TimeSt.init, ref := RefSt.init, bcn := BcnSt.init
    xbr := XbrSt.init, lanes := [], srcs := [], asm_ := [], plc := PlcSt.init, tiles := [], kilns := []
    beam := BeamSt.init, eng := [], slots := [], cores := [], cq := CqSt.init, pair := PairSt.init
    pwr := PwrSt.init }

end Sys2Proof.Machine
end

