-- ==== Sys2Proof/Machine/Ops.lean ====
section
/-! DEFINITION. The named operations over registers, units, device time and beacons that every meaning is built from. -/

namespace Sys2Proof.Machine

/-! ### The register file (R5 to R9) -/

/-- What the register at a BAR0 offset holds. -/
def State.reg (s : State) (off : Nat) : W32 := sget regReset s.regs off
/-- A state with one register written. -/
def State.setReg (s : State) (off : Nat) (v : W32) : State := { s with regs := sset regReset s.regs off v }
/-- A field of a register, and a state with a field or a bit of one replaced. -/
def State.rf (s : State) (off lo len : Nat) : Nat := fld (s.reg off) lo len
def State.rb (s : State) (off i : Nat) : Bool := bit (s.reg off) i
def State.setRf (s : State) (off lo len v : Nat) : State := s.setReg off (setFld (s.reg off) lo len v)
def State.setRb (s : State) (off i : Nat) (b : Bool) : State := s.setReg off (setBit (s.reg off) i b)
/-- A 64-bit value in two registers, and its write. -/
def State.reg64 (s : State) (off : Nat) : Nat := (s.reg off).toNat + 2 ^ 32 * (s.reg (off + 4)).toNat
def State.setReg64 (s : State) (off v : Nat) : State := (s.setReg off (lo32 v)).setReg (off + 4) (hi32 v)
/-- A counter of `len` bits at bit `lo` that saturates (R8). -/
def State.cntF (s : State) (off lo len n : Nat) : State := s.setRf off lo len (satInc len (s.rf off lo len) n)
/-- A 32-bit counter that saturates at 0xFFFF_FFFF. -/
def State.cnt (s : State) (off : Nat) (n : Nat) : State := s.cntF off 0 32 n
/-- A counter that wraps at 2³². -/
def State.cntWrap (s : State) (off n : Nat) : State := s.setReg off (s.reg off + BitVec.ofNat 32 n)

/-- A word with its software bits written: RW bits under `m` take `v`, W1C bits written 1 clear, W1S bits written 1
set (R7). -/
def writeBits (r : RegRow) (old v : W32) : W32 :=
  let rw := BitVec.ofNat 32 r.rw
  let w1c := BitVec.ofNat 32 r.w1c
  let w1s := BitVec.ofNat 32 r.w1s
  (((old &&& ~~~rw) ||| (v &&& rw)) &&& ~~~(v &&& w1c)) ||| (v &&& w1s)

/-- A state with a register written under its access types, and nothing else. -/
def State.plainWrite (s : State) (off : Nat) (v : W32) : State :=
  match regRow off with
  | some r => s.setReg off (writeBits r (s.reg off) v)
  | none => s

/-! ### Free values -/

/-- An open value, and the state in which it is spent. -/
def State.free (s : State) : W64 × State := (Config.freeWord s.freeCtr, { s with freeCtr := s.freeCtr + 1 })

/-! ### Unit numbers (R1 to R4) -/

def State.gradeC (s : State) : Bool := s.fuse.gradeC
/-- How many units of each kind are present on the part's grade (R1). -/
def State.nTiles (s : State) : Nat := if s.gradeC then 128 else 256
def State.nRx (s : State) : Nat := if s.gradeC then 48 else 96
def State.nTx (s : State) : Nat := if s.gradeC then 0 else 32
def State.nSlices (s : State) : Nat := if s.gradeC then 16 else 32
def State.nStacks (s : State) : Nat := if s.gradeC then 4 else 8
def State.nEng (s : State) : Nat := if s.gradeC then 0 else 4
def State.nRings (s : State) : Nat := if s.gradeC then 16384 else 32768
/-- 48 GiB, and the end of present memory (R242). -/
def stackBytes : Nat := 51539607552
def State.memEnd (s : State) : Nat := s.nStacks * stackBytes

/-- A lane's number in the table of lanes, and its register block (R9, R84). -/
def laneKey : LaneId → Nat
  | .rx n => n
  | .tx n => 96 + n
  | .w n => 128 + n
  | .port => 132
def laneBase : LaneId → Nat
  | .rx n => 0x900000 + 0x1000 * n
  | .tx n => 0x960000 + 0x1000 * n
  | .w n => 0x980000 + 0x1000 * n
  | .port => 0x984000
/-- Whether the part has the lane (R2). -/
def State.hasLane (s : State) : LaneId → Bool
  | .rx n => decide (n < s.nRx)
  | .tx n => decide (n < s.nTx)
  | .w n => decide (n < 4)
  | .port => true

/-- LN_STAT.STATE: 0 DOWN, 1 SIGNAL, 2 BLOCK_LOCK, 3 FRAME_LOCK, 4 UP (R60). -/
def State.laneState (s : State) (l : LaneId) : Nat := s.rf (laneBase l + 4) 29 3

/-! ### Tables of units -/

def State.lane (s : State) (l : LaneId) : Lane := tget Lane.init s.lanes (laneKey l)
def State.setLane (s : State) (l : LaneId) (v : Lane) : State := { s with lanes := tset Lane.init s.lanes (laneKey l) v }
def State.src (s : State) (n : Nat) : SrcEntry := tget SrcEntry.empty s.srcs n
def State.setSrc (s : State) (n : Nat) (v : SrcEntry) : State := { s with srcs := tset SrcEntry.empty s.srcs n v }
def State.ring (s : State) (c : Nat) : ChanRing := tget ChanRing.init s.asm_ c
def State.setRing (s : State) (c : Nat) (v : ChanRing) : State := { s with asm_ := tset ChanRing.init s.asm_ c v }
def State.tile (s : State) (t : Nat) : Tile := tget Tile.init s.tiles t
def State.setTile (s : State) (t : Nat) (v : Tile) : State := { s with tiles := tset Tile.init s.tiles t v }
def State.kiln (s : State) (k : Nat) : Kiln := tget Kiln.init s.kilns k
def State.setKiln (s : State) (k : Nat) (v : Kiln) : State := { s with kilns := tset Kiln.init s.kilns k v }
def State.core (s : State) (k : Nat) : Core := tget Core.init s.cores k
def State.setCore (s : State) (k : Nat) (v : Core) : State := { s with cores := tset Core.init s.cores k v }
def State.ltn (s : State) (e : Nat) : LtnEng := tget LtnEng.init s.eng e
def State.setLtn (s : State) (e : Nat) (v : LtnEng) : State := { s with eng := tset LtnEng.init s.eng e v }
/-- Slot i of engine e is slot 16 e + i. -/
def State.slot (s : State) (i : Nat) : LtnSlot := tget LtnSlot.init s.slots i
def State.setSlot (s : State) (i : Nat) (v : LtnSlot) : State := { s with slots := tset LtnSlot.init s.slots i v }
def State.block (s : State) (m : Nat) : BlockSt := tget BlockSt.init s.beam.blocks m
def State.setBlock (s : State) (m : Nat) (v : BlockSt) : State :=
  { s with beam := { s.beam with blocks := tset BlockSt.init s.beam.blocks m v } }
def State.grp (s : State) (g : Nat) : DetGrp := tget DetGrp.init s.beam.groups g
def State.setGrp (s : State) (g : Nat) (v : DetGrp) : State :=
  { s with beam := { s.beam with groups := tset DetGrp.init s.beam.groups g v } }
def State.queue (s : State) (k : Nat) : List QEntry := tget [] s.cq.queues k
def State.setQueue (s : State) (k : Nat) (v : List QEntry) : State :=
  { s with cq := { s.cq with queues := tset [] s.cq.queues k v } }
def State.rng (s : State) (r : Nat) : RingDyn := tget RingDyn.init s.link.rings r
def State.setRng (s : State) (r : Nat) (v : RingDyn) : State :=
  { s with link := { s.link with rings := tset RingDyn.init s.link.rings r v } }
def State.chan (s : State) (c : Nat) : DmaChan := tget DmaChan.init s.link.chans c
def State.setChan (s : State) (c : Nat) (v : DmaChan) : State :=
  { s with link := { s.link with chans := tset DmaChan.init s.link.chans c v } }

/-! ### Power gates (R366, R372, R373, R376) -/

/-- Rails on: the always-on logic runs (time, references, the TAP). -/
def State.aux (s : State) : Bool := !s.pwr.off
/-- The always-on logic out of reset: beacons and power registers. -/
def State.auxUp (s : State) : Bool := s.aux && !s.pwr.warmLow
/-- The host link's island runs: not stopped by THERM_TRIP; Doze leaves it running. -/
def State.hostUp (s : State) : Bool := s.auxUp && !s.pwr.tripped
/-- PWR_STATE.CUR is Doze. -/
def State.dozing (s : State) : Bool := s.rf 0x100000 28 2 == 2
/-- Every other island runs. -/
def State.up (s : State) : Bool := s.hostUp && !s.dozing

/-- A row that happens only where its gate holds; elsewhere it is no occurrence and nothing changes. -/
def gate (ok : Bool) (s : State) (f : State → State) : Host.Outcome State Fault Refusal :=
  .next (if ok then f s else s)

/-- DOZEACC: a register or memory of a stopped island was accessed in Doze (R373). -/
def State.dozeAcc (s : State) : State := s.setRb 0x100000 25 true

/-- The state a command leads to, where a register write performs that command. -/
def State.by_ (s : State) (o : Host.Outcome State Fault Refusal) : State :=
  match o with
  | .next t => t
  | _ => s

/-- A row that is a write of a register of an island which Doze stops. Where `ok` fails it is no occurrence; in Doze it is
ignored but for DOZEACC (R373). -/
def writeGate (ok : Bool) (s : State) (f : State → State) : Host.Outcome State Fault Refusal :=
  .next (if ok then (if s.up then f s else if s.hostUp then s.dozeAcc else s) else s)

def State.setPwr (s : State) (f : PwrSt → PwrSt) : State := { s with pwr := f s.pwr }

/-! ### Beacons at their producer (R317 to R319, R325, R329) -/

/-- Whether a channel of the beacon network can publish (R318). -/
def State.canPublish (s : State) (c : Nat) : Bool :=
  decide (c < 128) && !(s.gradeC && decide (64 ≤ c) && decide (c < 80))

/-- An event published with a hop count: discarded and counted where its group is disabled, otherwise on its way. -/
def State.publishH (s : State) (c h : Nat) : State :=
  if !s.canPublish c then s
  else if s.rb 0x200030 (c / 8) then { s with bcn := { s.bcn with flight := s.bcn.flight ++ [(c, h)] } }
  else s.cnt (0x200040 + 4 * (c / 8)) 1

/-- An event published by a producer acting on its own: hop count 0. -/
def State.publish (s : State) (c : Nat) : State := s.publishH c 0

/-! ### Device time (R294 to R296) -/

def oTimCtl : Nat := 0x400000
def oTimStat : Nat := 0x400004
def oTimFrac : Nat := 0x40000C
def oTimInt : Nat := 0x400010

/-- TIM_CTL.RUN, and TIM_NS. -/
def State.running (s : State) : Bool := s.rb oTimCtl 0
def State.ns (s : State) : W32 := s.time.ns

/-- `n` wraps of device time: WRAP is set, and TIM_WRAP published for each. -/
def State.wraps (s : State) : Nat → State
  | 0 => s
  | n + 1 => State.wraps ((s.setRb oTimStat 0 true).publish 8) n

/-- `dt` ticks of the 625 MHz output. While RUN = 1, device time and its fraction together advance by dt times the
increment in effect, which is what dt single steps of R294 come to. -/
def State.advance (s : State) (dt : Nat) : State :=
  let t := s.time
  if s.running then
    let v := t.ns.toNat * 2 ^ 32 + t.frac.toNat + dt * (s.rf oTimInt 0 8 * 2 ^ 32 + (s.reg oTimFrac).toNat)
    let ns := v / 2 ^ 32
    let s := { s with time := { t with ticks := t.ticks + dt, total := t.total + (ns - t.ns.toNat)
                                       ns := lo32 ns, frac := lo32 v } }
    s.wraps (ns / 2 ^ 32)
  else { s with time := { t with ticks := t.ticks + dt } }

/-- Ticks of a time in microseconds and in milliseconds, and of a gate of R23. -/
def tUs (n : Nat) : Nat := 625 * n
def tMs (n : Nat) : Nat := 625000 * n

/-- The top 8 bits of the fraction: SUB of a capture or timestamp (R298). -/
def State.sub (s : State) : Nat := s.time.frac.toNat / 2 ^ 24

/-! ### Control SRAM and Keeper memories -/

def csramBytes : Nat := 0x400000

/-! ### Islands (R16 to R24) -/

/-- Whether an island exists on the part's grade (the table of islands). -/
def State.hasIsland (s : State) (n : Nat) : Bool :=
  decide (n < 497) && !(s.gradeC && fusedIsland n)

/-- The nominal frequency of an island in kHz. -/
def islandKhz (n : Nat) : Nat :=
  if 464 ≤ n ∧ n < 472 then 1000000
  else if n = 492 ∨ n = 496 then 1000000
  else if n = 493 then 500000
  else if n = 494 ∨ n = 495 then 625000
  else 1250000

/-! ### Emission (R343, R377) -/

/-- The role of the part in a pair (R341). -/
def State.role (s : State) : Nat := s.rf 0x600004 29 3
/-- FOGHORN_N is driven low (R377): no output stage emits. -/
def State.foghorn (s : State) : Bool := s.rf 0x100040 0 3 != 0
/-- The part's output stages emit: role OFF, SOLO or ACTIVE, and FOGHORN_N high (R343, R377). -/
def State.emits (s : State) : Bool := decide (s.role ≤ 2) && !s.foghorn
/-- The part stands by: its role is STANDBY (R341). -/
def State.standby (s : State) : Bool := decide (s.role = 4)

end Sys2Proof.Machine
end

