-- ==== Sys2Proof/Machine/Ecc.lean ====
section
/-! DEFINITION. Memory integrity: codes, corrected and uncorrectable errors, the sherd log, poisoned lines, activations,
and the reads and writes of device memory and the on-chip memories that meet them (R272 to R287). -/

namespace Sys2Proof.Machine

/-! ### Device addresses (R273) -/

def devStack (a : Nat) : Nat := a / stackBytes
def devPc (a : Nat) : Nat := 64 * devStack a + a % stackBytes / 65536 % 64
def devQuarter (a : Nat) : Nat := devPc a / 16
def pcOffset (a : Nat) : Nat := a % stackBytes / 4194304 * 65536 + a % stackBytes % 65536
def devBank (a : Nat) : Nat := pcOffset a / 1024 % 64
def devRow (a : Nat) : Nat := pcOffset a / 65536
def lineOf (a : Nat) : Nat := a / 64 * 64

/-! ### The sherd log (R286, R287) -/

/-- The entry of the highest sequence number: the newest. -/
def newest (l : List (Nat × LogEntry)) : Option (Nat × LogEntry) :=
  l.foldl (fun m e => match m with
    | none => some e
    | some x => if x.2.seq < e.2.seq then some e else some x) none

/-- The entry of the lowest sequence number that satisfies `f`. -/
def oldest (f : LogEntry → Bool) (l : List (Nat × LogEntry)) : Option (Nat × LogEntry) :=
  (l.filter (fun e => f e.2)).foldl (fun m e => match m with
    | none => some e
    | some x => if e.2.seq < x.2.seq then some e else some x) none

/-- The free place at or after place `i` of 256, cyclically. -/
def freePlace (l : List (Nat × LogEntry)) (i : Nat) : Option Nat :=
  ((List.range 256).map (fun d => (i + d) % 256)).find? (fun p => (l.find? (fun e => e.1 == p)).isNone)

def State.setErr (s : State) (f : ErrSt → ErrSt) : State := { s with err := f s.err }

/-- An entry at a place, with the next sequence number; LOG_FULL is published when the log becomes full. -/
def State.logAt (s : State) (p : Nat) (e : LogEntry) (fills : Bool) : State :=
  let s := s.setErr fun r => { r with log := sput r.log p { e with seq := r.logSeq }, logSeq := r.logSeq + 1
                                      logNext := (p + 1) % 256 }
  if fills ∧ s.err.log.length = 256 then (s.publish 97).setRb 0x100048 4 true else s

/-- An error entered in the log, merged as a repeat, or counted as LOST (R287). -/
def State.logError (s : State) (e : LogEntry) : State :=
  let l := s.err.log
  match newest l with
  | some (p, n) =>
    if !e.ue ∧ n.cls = e.cls ∧ n.addr = e.addr then
      s.setErr fun r => { r with log := sput r.log p { n with rpt := satInc 16 n.rpt 1 } }
    else
      match freePlace l s.err.logNext with
      | some p => s.logAt p e true
      | none =>
        match (if e.ue then oldest (fun x => !x.ue) l else none) with
        | some (p, _) => s.logAt p e false
        | none => s.cntF 0x800080 16 16 1
  | none => s.logAt s.err.logNext e true

/-- The oldest entry freed (R287). -/
def State.logPop (s : State) : State :=
  match oldest (fun _ => true) s.err.log with
  | some (p, _) => s.setErr fun r => { r with log := sdel r.log p }
  | none => s

/-- The 32 bytes of a log entry (R286). -/
def LogEntry.bytes (e : LogEntry) : List Byte :=
  leBytes 4 e.seq ++ leBytes 4 e.timeNs.toNat ++ leBytes 1 (b2n e.ue + 2 * b2n e.poison) ++ leBytes 1 e.cls
    ++ leBytes 1 e.access ++ leBytes 1 e.symbol ++ leBytes 2 e.unit ++ leBytes 2 e.rpt ++ leBytes 8 e.addr
    ++ leBytes 4 e.ctx ++ leBytes 4 0

/-! ### Errors (R279 to R285) -/

/-- Memory error counters of an HBM quarter (R292): k = 0 corrected to 4 lane repairs. -/
def oMemCnt (q k : Nat) : Nat := 0x700100 + 0x10000 * (q / 4) + 0x20 * (q % 4) + 4 * k

/-- An upset strikes: the word it names has a wrong symbol from now on. Every code corrects one wrong symbol (or bit) and
detects two: a word struck again in another symbol is uncorrectable, as is one that was (R279, R282); the parity of a tile
weight is always made good (R283). HBM upsets are held by line; control SRAM and the glaze memories are one unit each. -/
def State.upset (s : State) (up : Option Upset) : State :=
  match up with
  | none => s
  | some u =>
    let u := if u.cls = 0 then { u with addr := lineOf u.addr, unit := devQuarter u.addr }
      else if u.cls = 6 ∨ u.cls = 9 then { u with unit := 0 } else u
    let same := fun (x : Upset) => x.cls == u.cls && x.unit == u.unit && x.addr == u.addr
    s.setErr fun r => { r with upsets := { u with ue := u.cls != 11 && (u.ue || r.upsets.any (fun x => same x && (x.ue || x.symbol != u.symbol))) }
                                            :: r.upsets.filter (fun x => !same x) }

/-- Upsets within addresses lo to hi − 1 of one memory, by rising address. -/
def State.upsetsIn (s : State) (cls unit lo hi : Nat) : List Upset :=
  sortBy (·.addr) (s.err.upsets.filter (fun x => x.cls == cls && (cls == 0 || x.unit == unit) && decide (lo ≤ x.addr)
    && decide (x.addr < hi)))

/-- Words written afresh have valid check bits. -/
def State.clean (s : State) (cls unit lo hi : Nat) : State :=
  s.setErr fun r => { r with upsets := r.upsets.filter (fun x =>
    !(x.cls == cls && (cls == 0 || x.unit == unit) && decide (lo ≤ x.addr) && decide (x.addr < hi))) }

/-- Bytes of a memory with check bits per byte written under enables. -/
def State.cleanEn (s : State) (cls unit : Nat) : Nat → List Bool → State
  | _, [] => s
  | a, e :: t => State.cleanEn (if e then s.clean cls unit a (a + 1) else s) cls unit (a + 1) t

/-- One wrong word met by a read (R283, R284): counted and logged; a corrected one is written back and counts against its
tile or slice (R183), an uncorrectable one stays and publishes ECC_UE. -/
def State.meet (s : State) (access ctx : Nat) (poison : Bool) (u : Upset) : State :=
  let e : LogEntry := ⟨0, s.ns, u.ue, poison && u.ue, u.cls, access, if u.ue then 0xFF else u.symbol, u.unit, 0, u.addr, ctx⟩
  if u.ue then
    let s := s.cnt (0x800040 + 4 * u.cls) 1
    let s := if u.cls = 0 then s.cnt (oMemCnt u.unit 1) 1 else s
    (s.logError e).publish 96
  else
    let s := s.cnt (0x800000 + 4 * u.cls) 1
    let s := if u.cls = 0 then s.cnt (oMemCnt u.unit 0) 1 else s
    let s := (s.logError e).setErr fun r => { r with upsets := r.upsets.filter (· ≠ u) }
    if u.cls = 1 ∨ u.cls = 3 ∨ u.cls = 11 then
      let key := if u.cls = 1 then 1000 + u.unit else u.unit
      let recent := (tget [] s.plc.ceTicks key).filter (fun t => decide (s.time.ticks < t + 625000000))
      { s with plc := { s.plc with ceTicks := tset [] s.plc.ceTicks key (s.time.ticks :: recent) } }
    else s

/-- A read of addresses lo to hi − 1 of a memory: the addresses of the uncorrectable words met, and the state after. -/
def State.scan (s : State) (cls unit lo hi access ctx : Nat) (poison : Bool) : List Nat × State :=
  let us := s.upsetsIn cls unit lo hi
  ((us.filter (·.ue)).map (·.addr), us.foldl (fun s u => s.meet access ctx poison u) s)

/-! ### Activations (R277) -/

/-- A bank's table with one activation of a row counted, and whether the row reached the threshold. -/
def actCount (thresh row : Nat) (t : List (Nat × Nat)) : List (Nat × Nat) × Bool :=
  let bump := fun (t : List (Nat × Nat)) (i c : Nat) => if c ≥ thresh then (t.set i (row, 0), true) else (t.set i (row, c), false)
  match t.findIdx? (fun e => e.1 == row) with
  | some i => bump t i ((t.getD i (0, 0)).2 + 1)
  | none =>
    if t.length < 16 then bump (t ++ [(row, 1)]) t.length 1
    else
      let low := ((t.map (·.2)).min?).getD 0
      bump t (t.findIdx (fun e => e.2 == low)) (low + 1)

def State.setMem (s : State) (f : MemSt → MemSt) : State := { s with mem := f s.mem }
def Quarter.init : Quarter := ⟨none, 0, [], false, false, false⟩
def State.quarter (s : State) (q : Nat) : Quarter := tget Quarter.init s.mem.quarters q
def State.setQuarter (s : State) (q : Nat) (v : Quarter) : State :=
  s.setMem fun m => { m with quarters := tset Quarter.init m.quarters q v }

/-- A request for a quarter's maintenance token, behind those of its rank (R290). -/
def State.askToken (s : State) (q : Nat) (r : MaintReq) : State :=
  let v := s.quarter q
  s.setQuarter q { v with queue := v.queue ++ [r] }

/-- One activation of the row that holds a device address; a row that reaches the threshold asks for a neighbour refresh.
An access wakes its pseudo-channel from power-down (R278). -/
def State.activate (s : State) (a : Nat) : State :=
  let p := devPc a
  let bank := 64 * p + devBank a
  let th := max 256 (s.rf (0x700008 + 0x10000 * devStack a) 0 16)
  let (t, hit) := actCount th (devRow a) (tget [] s.mem.acts bank)
  let s := s.setMem fun m => { m with acts := tset [] m.acts bank t, pdown := m.pdown.filter (· ≠ p) }
  if hit then s.askToken (p / 16) ⟨1, bank, devRow a⟩ else s

/-- The rows of an access of `n` bytes at device address `a`, each activated once (log 12). -/
def State.touch (s : State) (a n : Nat) : State :=
  if n = 0 then s
  else (List.range ((a + n - 1) / 1024 - a / 1024 + 1)).foldl (fun s i => s.activate ((a / 1024 + i) * 1024)) s

/-! ### Device memory -/

/-- A quarter that serves reads and writes: neither retraining nor in self-refresh (R275, R278). -/
def Quarter.serves (v : Quarter) : Bool := !v.selfRef && v.holder.elim true (fun h => h.rank != 2)

/-- Every quarter that an access of `n` bytes at device address `a` touches serves it; one that does not holds the access
back (R22, R275). -/
def State.hbmServes (s : State) (a n : Nat) : Bool :=
  decide (n = 0) || (List.range ((a + n - 1) / 1048576 - a / 1048576 + 1)).all
    (fun i => (s.quarter (devQuarter ((a / 1048576 + i) * 1048576))).serves)

/-! The Reed–Solomon code of a line (R279). PRESUMED (log 80): symbol i is the coefficient of x^(67 − i). -/

/-- A product in GF(2⁸) with field polynomial x⁸ + x⁴ + x³ + x² + 1: the bits of `b` from the lowest, `a` doubled for each. -/
def gfMul : Nat → Byte → Byte → Byte
  | 0, _, _ => 0
  | n + 1, a, b =>
    (if b.getLsbD 0 then a else 0) ^^^ gfMul n ((a <<< 1) ^^^ (if a.getLsbD 7 then 0x1D#8 else 0#8)) (b >>> 1)

/-- Coefficients, from x³ down, of the generator polynomial with roots α⁰ to α³. -/
def rsGen : List Byte := [0x0F#8, 0x36#8, 0x78#8, 0x40#8]

/-- The four check symbols of a line's data: the remainder on division by the generator. -/
def rsCheck (data : List Byte) : List Byte :=
  data.foldl (fun r d =>
    let f := d ^^^ r.headD 0
    (rsGen.zip (r.drop 1 ++ [0#8])).map (fun q => q.2 ^^^ gfMul 8 f q.1)) (List.replicate 4 0#8)

/-- The check symbols that a line holds: those of its data, each exclusive-ored with 0xA5 where it is poisoned (R280). -/
def State.lineCheck (s : State) (l : Nat) : List Byte :=
  let c := rsCheck (rdBytes s.hbm l 64)
  if s.err.poison.contains l then c.map (· ^^^ 0xA5#8) else c

/-- Bytes of device memory read by a unit: the lines with uncorrectable errors, the bytes, and the state after. -/
def State.hbmRead (s : State) (a n access ctx : Nat) : List Nat × List Byte × State :=
  let (bad, s) := s.scan 0 0 (lineOf a) (a + n) access ctx false
  (bad, rdBytes s.hbm a n, s.touch a n)

/-- Whole lines that hold `n` bytes at `a` written afresh: their check symbols are those of their data. -/
def State.freshLines (s : State) (a n : Nat) : State :=
  (s.clean 0 0 (lineOf a) (a + n)).setErr fun r =>
    { r with poison := r.poison.filter (fun l => !(decide (lineOf a ≤ l) && decide (l < a + n))) }

/-- Whole lines of device memory written. -/
def State.hbmPut (s : State) (a : Nat) (b : List Byte) : State :=
  let s := s.freshLines a b.length
  ({ s with hbm := wrBytes s.hbm a b } : State).touch a b.length

/-- Device memory as it was before the writes that units have made at this tick; and the same as a unit is about to write. -/
def State.hbmWas (s : State) : Option (List Host.Cell) := s.mem.was.bind (fun q => if q.1 = s.time.ticks then some q.2 else none)
def State.unitWrites (s : State) : State :=
  if s.hbmWas.isSome then s else { s with mem := { s.mem with was := some (s.time.ticks, s.hbm) } }

/-- Whole lines written by a unit of the part. -/
def State.hbmWrite (s : State) (a : Nat) (b : List Byte) : State := s.unitWrites.hbmPut a b

/-- A write of the host, through BAR4 or by LOAD, is one that no merge undoes. -/
def State.hostWrites (s : State) (a : Nat) (b : List Byte) (en : List Bool) : State :=
  { s with mem := { s.mem with was := s.mem.was.map (fun q => (q.1, wrBytesEn q.2 a b en)) } }

/-- The line that a narrow BAR4 write or a LOAD merges into as the hub has read it: units' writes at this tick may come between the read
and the write back, and be lost (R242, R254, R269; DESIGN CHOICE, log 82). -/
def State.hbmLose (s : State) (l : Nat) : State :=
  match s.hbmWas with
  | none => s
  | some m =>
    let old := rdBytes m l 64
    if old = rdBytes s.hbm l 64 then s
    else
      let (x, s) := s.free
      if x.getLsbD 0 then { s with hbm := wrBytes s.hbm l old } else s

/-- Which lines an access covers only in part, and which of those read with an uncorrectable error: a merge there discards
its write (R243). A merged line is written back whole with fresh check symbols: it is poisoned no longer (R280). The enables
say which bytes are written. -/
def State.hbmMerge (s : State) (a : Nat) (b : List Byte) (en : List Bool) (access : Nat) (ctx : Nat := 0) : List Nat × State :=
  let n := b.length
  let host := access = 5 || access = 6
  let lines := if n = 0 then [] else (List.range ((a + n - 1) / 64 - a / 64 + 1)).map (fun i => lineOf a + 64 * i)
  lines.foldl (fun (acc : List Nat × State) l =>
    let (bad, s) := acc
    let lo := max a l
    let hi := min (a + n) (l + 64)
    let pb := (b.drop (lo - a)).take (hi - lo)
    let pe := (en.drop (lo - a)).take (hi - lo)
    if !pe.any id then (bad, s)
    else if lo = l ∧ hi = l + 64 ∧ pe.all id then
      (bad, if host then (s.hbmPut lo pb).hostWrites lo pb pe else s.hbmWrite lo pb)
    else
      let (ue, s) := s.scan 0 0 l (l + 64) access ctx false
      let s := s.touch l 64
      if ue.isEmpty then
        let s := s.setErr fun r => { r with poison := r.poison.filter (· ≠ l) }
        let s := if host then (s.hbmLose l).hostWrites lo pb pe else s.unitWrites
        (bad, ({ s with hbm := wrBytesEn s.hbm lo pb pe } : State).touch l 64)
      else (bad ++ [l], s)) ([], s)

/-! ### Control SRAM and Keeper memories: check bits per byte -/

/-- Bytes of control SRAM read: whether an uncorrectable error was met, the bytes, and the state after. -/
def State.csRead (s : State) (a n access ctx : Nat) : Bool × List Byte × State :=
  let (bad, s) := s.scan 6 0 a (a + n) access ctx false
  (!bad.isEmpty, rdBytes s.csram a n, s)

/-- Bytes of control SRAM written. -/
def State.csWrite (s : State) (a : Nat) (b : List Byte) : State :=
  let s := s.clean 6 0 a (a + b.length)
  { s with csram := wrBytes s.csram a b }

/-- A word of data memory of core k written by the queue or a unit (R222). -/
def State.dmWrite (s : State) (k a : Nat) (v : W16) : State :=
  let s := s.clean 5 k (2 * a) (2 * a + 2)
  let c := s.core k
  s.setCore k { c with dmem := wrLe c.dmem (2 * a) 2 v.toNat }

end Sys2Proof.Machine
end

