-- ==== Sys2Proof/Machine/Rings.lean ====
section
/-! DEFINITION. Host rings and contexts: placing records, index writeback, interrupts, doorbells, attaching and detaching
(R113, R244 to R251), and the holding of records by a standby (R355). -/

namespace Sys2Proof.Machine

/-! ### A ring's words (R271) -/

def oRng (r w : Nat) : Nat := 0x1100000 + 0x20 * r + 4 * w
def oCtx (c : Nat) : Nat := 0x1060000 + 0x10 * c
def State.rEn (s : State) (r : Nat) : Bool := s.rb (oRng r 2) 31
def State.rDrop (s : State) (r : Nat) : Bool := s.rb (oRng r 2) 30
def State.rFmt (s : State) (r : Nat) : Nat := s.rf (oRng r 2) 24 4
/-- Positions of a ring: its size over 64 (R247). -/
def State.rSize (s : State) (r : Nat) : Nat := 2 ^ s.rf (oRng r 2) 19 5 / 64
def State.rBase (s : State) (r : Nat) : Nat := (s.reg (oRng r 0)).toNat / 4096 * 4096 + 2 ^ 32 * (s.reg (oRng r 1)).toNat
def State.rOwner (s : State) (r : Nat) : Nat := s.rf (oRng r 3) 16 10
/-- A held record of ring r. -/
def HoldEntry.ofRing (r : Nat) (e : HoldEntry) : Bool := decide (e.stream = .ring r)
/-- The fill and the free space of a device-to-host ring, by the PROD the part has placed (R247). -/
def State.rFill (s : State) (r : Nat) : Nat := ((s.rng r).head + 2 ^ 32 - (s.reg (oRng r 5)).toNat) % 2 ^ 32
def State.rFree (s : State) (r : Nat) : Nat := s.rSize r - s.rFill r
/-- A record waits for space: RNG_CFG.STALLED. One held since a takeover waits as the others do. -/
def State.rStalled (s : State) (r : Nat) : Bool :=
  s.rEn r && ((s.rng r).waiting.any (fun w => decide (s.rFree r < w.2))
    || (s.emits && ((s.pair.hold.find? (HoldEntry.ofRing r)).elim false (fun e => decide (s.rFree r < e.len / 64)))))

/-- Rings enabled now, in rising order. -/
def State.enabledRings (s : State) : List Nat :=
  s.regs.filterMap (fun e =>
    if 0x1100000 ≤ e.1 ∧ e.1 < 0x1200000 ∧ (e.1 - 0x1100000) % 0x20 = 8 ∧ bit e.2 31 then some ((e.1 - 0x1100000) / 0x20)
    else none)

/-! ### MSI-X (R236, R250) -/

/-- A vector sent; while its table entry is masked, its pending bit is set instead. -/
def State.msix (s : State) (v : Nat) : State :=
  if s.rb (0x108000C + 16 * v) 0 then s.setRb (0x1090000 + 4 * (v / 32)) (v % 32) true
  else { s with link := { s.link with msis := v :: s.link.msis } }

/-- A write of a table entry's mask: an unmasked vector whose pending bit is set is sent. -/
def State.msixMask (s : State) (v : Nat) (x : W32) : State :=
  let s := s.setReg (0x108000C + 16 * v) (x &&& 1)
  if !bit x 0 && s.rb (0x1090000 + 4 * (v / 32)) (v % 32) then
    (s.setRb (0x1090000 + 4 * (v / 32)) (v % 32) false).msix v
  else s

/-! ### Records (R113, R247, R248) -/

/-- Host memory written at position `x` of a ring, 64 bytes a position, wrapping at the ring's end. -/
def State.rWrite (s : State) (r : Nat) : Nat → List Byte → State
  | x, b =>
    let n := s.rSize r
    let at_ := x % n * 64
    let room := n * 64 - at_
    let m := wrBytes s.host (s.rBase r + at_) (b.take room)
    { s with host := wrBytes m (s.rBase r) (b.drop room) }

/-- What became of an offered record. -/
inductive Offer where
  | written
  | dropped
  | held
  deriving DecidableEq, Repr

/-- The part's claim, which every record it emits carries (R341). -/
def State.claim (s : State) : Nat := s.rf 0x600008 16 16

/-- PR_CTL.EN. -/
def State.paired (s : State) : Bool := s.rb 0x600000 31

/-- A record counted as offered: RSEQ goes up, dropped or not. -/
def State.rCount (s : State) (r : Nat) : State :=
  s.setRng r { s.rng r with rseq := ((s.rng r).rseq + 1) % 2 ^ 32 }

/-- A record dropped and counted (R244, R248). -/
def State.rDropped (s : State) (r : Nat) : State := (s.cnt (oRng r 7) 1).rCount r

/-- `who` waits for `len` positions of a ring. -/
def State.rWait (s : State) (r : Nat) (who : Offerer) (len : Nat) : State :=
  s.setRng r { s.rng r with waiting := (who, len) :: (s.rng r).waiting.filter (fun w => w.1 ≠ who) }
/-- `who` waits no longer, and has met what became of its record. -/
def State.rServed (s : State) (r : Nat) (who : Offerer) : State :=
  s.setRng r { s.rng r with waiting := (s.rng r).waiting.filter (fun w => w.1 ≠ who), lost := (s.rng r).lost.filter (· ≠ who) }

/-- A record placed that a FENCE.HOST may wait for: no writeback covers it yet. A standby places none. -/
def State.rOwe (s : State) (r : Nat) (o : Owed) : State :=
  if s.standby then s else s.setRng r { s.rng r with owed := (s.rng r).owed ++ [o] }

/-! ### The holding buffer (R340, R355) -/

/-- The holding buffer: 256 MiB at the top of the highest present stack (R340), in blocks of 64 bytes. -/
def holdBytes : Nat := 268435456
def State.holdBase (s : State) : Nat := if s.gradeC then 0x2FF0000000 else 0x5FF0000000
def State.holdAddr (s : State) (b : Nat) : Nat := s.holdBase + 64 * b

/-- Bytes of the buffer in use. -/
def State.held (s : State) : Nat := 64 * (s.pair.hold.map (fun e => e.blocks.length)).sum

/-- The lowest `n` numbers that are not in use: they lie among the first `n` and as many as are used. -/
def freeNumbers (used : List Nat) (n : Nat) : List Nat :=
  ((List.range (used.length + n)).filter (fun b => !used.contains b)).take n

/-- The blocks that an entry of `n` bytes takes: the lowest free ones (DESIGN CHOICE, log 92). -/
def State.holdPlace (s : State) (n : Nat) : List Nat := freeNumbers (s.pair.hold.flatMap (·.blocks)) (divUp n 64)

/-- The controllers serve every block of a list (R275). -/
def State.holdServes (s : State) (l : List Nat) : Bool := l.all (fun b => s.hbmServes (s.holdAddr b) 64)

/-- Bytes written into blocks of the buffer, the last filled up with zeros. -/
def State.holdWrite (s : State) : List Nat → List Byte → State
  | [], _ => s
  | b :: t, l => State.holdWrite (s.hbmWrite (s.holdAddr b) (padTo 64 (l.take 64))) t (l.drop 64)

/-- The bytes of an entry as device memory holds them, and as they are read. -/
def State.heldBytes (s : State) (e : HoldEntry) : List Byte :=
  (e.blocks.flatMap (fun b => rdBytes s.hbm (s.holdAddr b) 64)).take e.len
def State.heldRead (s : State) (e : HoldEntry) : List Byte × State :=
  (s.heldBytes e, e.blocks.foldl (fun s b => (s.hbmRead (s.holdAddr b) 64 12 0).2.2) s)

/-- An entry leaves the buffer; and a POST whose record it was learns whether the record was emitted (R358), which a FENCE.HOST may
then wait for (R268). -/
def State.dropHeld (s : State) (e : HoldEntry) : State :=
  { s with pair := { s.pair with hold := s.pair.hold.erase e } }
def State.heldOut (s : State) (r rseq : Nat) (emitted : Bool) : State :=
  let mine := s.cq.posts.filter (fun x => decide (x.ring = r) && decide (x.sent = some rseq))
  let s := if emitted then mine.foldl (fun s x => s.rOwe r (.post x.op x.keeper)) s else s
  { s with cq := { s.cq with posts := s.cq.posts.map (fun x => if mine.contains x then { x with out := some emitted } else x) } }

/-- The standby's handling of a record or frame of a pair stream (R355): discarded if a report covers it, else held, or
dropped where the buffer has no room. -/
def State.hold (s : State) (stream : Stream) (pos : Nat × Nat) (bytes : List Byte) (covered : Bool) : State :=
  let e : HoldEntry := ⟨stream, pos, bytes.length, s.holdPlace bytes.length⟩
  if covered then s.cnt 0x600114 1
  else if s.held + 64 * e.blocks.length ≤ holdBytes then
    let s := s.holdWrite e.blocks bytes
    { s with pair := { s.pair with hold := s.pair.hold ++ [e] } }
  else
    let s := s.cnt 0x600118 1
    { s with pair := { s.pair with holdDrops := s.pair.holdDrops ++ [(stream, pos)] } }

/-! ### Disabling (R244, R246, R263, R269) -/

/-- A DMA channel's registers, the host address or ring of its destination, and its flags (R257, R271). -/
def oDma (c : Nat) : Nat := 0x1000000 + 0x1000 * c
def State.dState (s : State) (c : Nat) : Nat := s.rf (oDma c + 4) 29 3
def State.dCurDst (s : State) (c : Nat) : Nat := s.reg64 (oDma c + 0x38)
def State.dCurFlags (s : State) (c : Nat) : W32 := s.reg (oDma c + 0x44)

/-- Channels whose active transfer goes to ring r (R260). -/
def State.ringDma (s : State) (r : Nat) : List Nat :=
  (List.range 64).filter (fun c => decide (s.dState c ≠ 0) && bit (s.dCurFlags c) 1 && decide (s.dCurDst c % 2 ^ 15 = r))

def Offerer.isDma : Offerer → Bool
  | .dma _ => true
  | _ => false
/-- Offerers of pair streams (R343): not commands, nor channels. -/
def Offerer.pairStream : Offerer → Bool
  | .response _ => false
  | .dma _ => false
  | _ => true

/-- A record of `who` that waited in ring `r` dropped. A header keeps the RSEQ it is counted under, for its completion (R116); one
that goes again after a takeover has been counted (R358). -/
def State.goneOff (s : State) (r : Nat) (who : Offerer) : State :=
  match who with
  | .header k =>
    let v := s.kiln k
    match v.drain, v.rings.findIdx? (· == r) with
    | some d, some i =>
      if d.hdrRseq.any (fun e => e.1 == i) then s.cnt (oRng r 7) 1
      else (s.setKiln k { v with drain := some { d with hdrRseq := sput d.hdrRseq i (lo32 (s.rng r).rseq) } }).rDropped r
    | _, _ => s.rDropped r
  | _ => s.rDropped r

/-- A ring disabled. A record that waits for space is dropped and counted, as one offered from now on is, and its unit learns that
as it next looks; so are the records held since a takeover. A RING transfer to the ring ends with a host error. -/
def State.ringOff (s : State) (r : Nat) : State :=
  let d := s.rng r
  let gone := (d.waiting.map (·.1)).filter (fun w => !w.isDma)
  let held := if s.emits then s.pair.hold.filter (HoldEntry.ofRing r) else []
  let s := gone.foldl (fun s w => s.goneOff r w) s
  let s := held.foldl (fun s e => (s.heldOut r e.pos.1 false).dropHeld e) (s.cnt (oRng r 7) held.length)
  let s := s.setRng r { s.rng r with waiting := [], lost := d.lost ++ gone ++ (s.ringDma r).map Offerer.dma, owed := [] }
  s.setRb (oRng r 2) 31 false

/-- A ring context read, by the hub or through its registers: one with an uncorrectable error is disabled (R284). -/
def State.rLook (s : State) (r : Nat) : State :=
  let (bad, s) := s.scan 7 r 0 32 12 0 false
  if bad.isEmpty || !s.rEn r then s else s.ringOff r

/-- A record of sequence number `rseq` written at PROD, which advances; the first that no message covers starts the time
trigger. -/
def State.rPut (s : State) (r rseq : Nat) (b : List Byte) : State :=
  let d := s.rng r
  let s := s.rWrite r d.head b
  let s := s.setRng r { d with head := (d.head + b.length / 64) % 2 ^ 32, unsent := d.unsent + 1
                               firstTick := if d.unsent = 0 then s.time.ticks else d.firstTick }
  if s.rFmt r ≤ 3 then
    { s with pair := { s.pair with emitted := { s.pair.emitted with rings := sput s.pair.emitted.rings r rseq } } }
  else s

/-- Whether the partner's last report covers record `rseq` of ring `r`; sequence numbers are modulo 2³². -/
def State.ringCovered (s : State) (r rseq : Nat) : Bool :=
  (s.pair.reported.rings.find? (fun e => e.1 == r)).elim false (fun e => decide ((e.2 + 2 ^ 32 - rseq) % 2 ^ 32 < 2 ^ 31))

/-- A record with the part's claim in place of the one it was formed with: bytes 12 and 13 of every pair-stream record. -/
def withClaim (claim : Nat) (b : List Byte) : List Byte := b.take 12 ++ leBytes 2 claim ++ b.drop 14

/-- Held records of ring `r` emitted in order under R248, as long as there is room (R358). -/
def State.emitHeld (s : State) (r : Nat) : List HoldEntry → State
  | [] => s
  | e :: t =>
    if s.rEn r ∧ e.len / 64 ≤ s.rFree r then
      if s.holdServes e.blocks then
        let (b, s) := s.heldRead e
        State.emitHeld (((s.dropHeld e).rPut r e.pos.1 (withClaim s.claim b)).heldOut r e.pos.1 true) r t
      else s
    else if !s.rEn r ∨ s.rDrop r then State.emitHeld (((s.dropHeld e).cnt (oRng r 7) 1).heldOut r e.pos.1 false) r t
    else s
def State.flushHeld (s : State) (r : Nat) : State :=
  let s := s.rLook r
  s.emitHeld r (s.pair.hold.filter (HoldEntry.ofRing r))

/-- A record offered by `who` to a device-to-host ring under a rule that asks `extra` free positions beside its own (R120,
R248). `pairStream` says that the ring is a pair stream (R343), `store` that a standby holds the record (R355). The bytes are a
function of RSEQ and claim. A record that a disabling of the ring dropped while it waited has been counted then. While FOGHORN_N is low
no record is emitted (R377): one that the ring's policy does not let wait is dropped (DESIGN CHOICE, log 76). -/
def State.offerAs (s : State) (r : Nat) (who : Offerer) (pairStream store : Bool) (len extra : Nat) (mk : Nat → Nat → List Byte) :
    Offer × State :=
  let s := s.rLook r
  if (s.rng r).lost.contains who then (.dropped, s.rServed r who)
  else
    let s := if pairStream && s.emits then s.flushHeld r else s
    let rseq := (s.rng r).rseq
    if pairStream && s.emits && s.pair.hold.any (HoldEntry.ofRing r) then (.held, s.rWait r who len)
    else if pairStream && !s.emits then
      let covered := s.ringCovered r rseq
      if s.role ≤ 2 then if !s.rEn r || s.rDrop r then (.dropped, s.rDropped r) else (.held, s)
      else if store ∧ !covered ∧ !s.holdServes (s.holdPlace (64 * len)) then (.held, s)
      else if store then (.written, (s.hold (.ring r) (rseq, 0) (mk rseq s.claim) covered).rCount r)
      else (.written, s.rCount r)
    else if !s.rEn r then (.dropped, s.rDropped r)
    else if len + extra ≤ s.rFree r then (.written, ((s.rPut r rseq (mk rseq s.claim)).rCount r).rServed r who)
    else if s.rDrop r then (.dropped, s.rDropped r)
    else (.held, s.rWait r who len)

/-- A record offered under R248. -/
def State.offer (s : State) (r : Nat) (who : Offerer) (pairStream : Bool) (len : Nat) (mk : Nat → Nat → List Byte) : Offer × State :=
  s.offerAs r who pairStream true len 0 mk

/-! ### Enabling (R246) -/

/-- The least LOG2SIZE of a format. -/
def minLog2 (fmt : Nat) : Nat := if fmt = 0 then 16 else 12

/-- Why an enable with configuration `cfg` for owner `ctx` fails: 0x03 STATE where the owner is not attached, 0x02 RANGE
for any other check (R246, R255). -/
def State.enableFault (s : State) (cfg : W32) (ctx : Nat) : Option Nat :=
  let fmt := fld cfg 24 4
  let l := fld cfg 19 5
  if fmt > 6 ∨ l > 30 ∨ l < minLog2 fmt ∨ (fmt = 6 ∧ bit cfg 30) then some 2
  else if !s.rb (oCtx ctx) 31 then some 3
  else none

/-- A ring enabled: RSEQ restarts at 0, no record of it has been emitted yet (R354), and the part's index starts where its register
stands. -/
def State.ringOn (s : State) (r : Nat) : State :=
  let w := if s.rFmt r = 5 then 5 else 4
  let s := { s with pair := { s.pair with emitted := { s.pair.emitted with
    rings := s.pair.emitted.rings.filter (fun e => decide (e.1 ≠ r)) } } }
  ((s.setRb (oRng r 2) 31 true).setRb (oRng r 2) 18 false).setRng r
    { RingDyn.init with head := (s.reg (oRng r w)).toNat, lost := (s.rng r).lost }

/-- A write of RNG_CFG (R246, R271). -/
def State.ringCfg (s : State) (r : Nat) (v : W32) : State :=
  if s.rEn r then if bit v 31 then s else (s.ringOff r).setReg (oRng r 2) (v &&& 0x6FF80000#32 ||| s.reg (oRng r 2) &&& 0x40000#32)
  else
    let s := s.setReg (oRng r 2) (v &&& 0x6FF80000#32 ||| s.reg (oRng r 2) &&& 0x40000#32)
    if !bit v 31 then s
    else if (s.enableFault v (s.rOwner r)).isSome then s.setRb (oRng r 2) 18 true
    else s.ringOn r

/-- A write of word `w` of a ring's context, which gives the word fresh check bits. While EN = 1 the base, the owner and the
indices stand, and VECTOR and RNG_MOD do not (R271). -/
def State.ringWrite (s : State) (r w : Nat) (v : W32) : State :=
  let s := s.clean 7 r (4 * w) (4 * w + 4)
  let o := oRng r w
  match w with
  | 2 => s.ringCfg r v
  | 3 => if s.rEn r then s.setRf o 0 11 (fld v 0 11) else s.plainWrite o v
  | 6 => s.plainWrite o v
  | _ => if s.rEn r then s else s.plainWrite o v

/-! ### Contexts (R244) -/

/-- Attach: the context gets the index area its registers name. -/
def State.attach (s : State) (c : Nat) : State := s.setRb (oCtx c) 31 true

/-- Detach: rings of the context are disabled, then disowned. -/
def State.detach (s : State) (c : Nat) : State :=
  let rs := s.enabledRings.filter (fun r => s.rOwner r == c)
  let s := rs.foldl (fun s r => (s.ringOff r).setRf (oRng r 3) 16 10 0) s
  s.setRb (oCtx c) 31 false

/-- Address of the index area of a context. -/
def State.ctxIdx (s : State) (c : Nat) : Nat :=
  (s.reg (oCtx c + 4)).toNat / 4096 * 4096 + 2 ^ 32 * (s.reg (oCtx c + 8)).toNat

/-! ### Writeback and interrupts (R249, R250) -/

/-- The register that shows the index the part moves. -/
def State.rIdx (s : State) (r : Nat) : Nat := oRng r (if s.rFmt r = 5 then 5 else 4)

/-- The index written back, behind the barrier. -/
def State.writeback (s : State) (r : Nat) : State :=
  let h := (s.rng r).head
  let s := (s.setReg (s.rIdx r) (lo32 h)).setRng r { s.rng r with owed := [] }
  { s with host := wrLe s.host (s.ctxIdx (s.rOwner r) + 4 * r) 4 h }

/-- The ring's vector sent: no written record is uncovered any more. -/
def State.ringIrq (s : State) (r : Nat) : State :=
  (s.setRng r { s.rng r with unsent := 0, firstTick := 0 }).msix (s.rf (oRng r 3) 0 11)

/-- IE of a device-to-host ring. -/
def State.rIe (s : State) (r : Nat) : Bool := s.rb (oRng r 2) 29 && decide (s.rFmt r ≠ 5)

/-- The count trigger, after the writeback that covers the records. -/
def State.countIrq (s : State) (r : Nat) : State :=
  let c := s.rf (oRng r 6) 16 16
  if s.rIe r ∧ c ≠ 0 ∧ c ≤ (s.rng r).unsent then s.ringIrq r else s

/-! ### Doorbells (R241, R251) -/

/-- The outcome of a doorbell on page c: the register it sets, or none where it is ignored and counted. -/
def State.doorbellAt (s : State) (c r x : Nat) : Option Nat :=
  if !(decide (r < s.nRings) && s.rEn r && s.rOwner r == c) then none
  else
    let cons := (if s.rFmt r = 5 then (s.rng r).head else (s.reg (oRng r 5)).toNat)
    let d := (x + 2 ^ 32 - cons) % 2 ^ 32
    if s.rFmt r = 5 then if d ≤ s.rSize r then some (oRng r 4) else none
    else if d ≤ ((s.reg (oRng r 4)).toNat + 2 ^ 32 - cons) % 2 ^ 32 then some (oRng r 5) else none

/-- An 8-byte write to a page. -/
def State.ringDoorbell (s : State) (c : Nat) (v : W64) : State :=
  let r := v.toNat % 2 ^ 15
  let s := if r < s.nRings then s.rLook r else s
  match (if v.toNat / 2 ^ 15 % 2 ^ 17 = 0 then s.doorbellAt c r (v.toNat / 2 ^ 32) else none) with
  | some o =>
    let s := s.setReg o (hi32 v.toNat)
    if s.emits then s.flushHeld r else s
  | none => s.cnt (oCtx c + 12) 1

/-! ### The commands -/

/-- DOORBELL (R241, R251): only an aligned 8-byte write does anything. -/
def execDoorbell (off len : Nat) (val : W64) (s : State) : Host.Outcome State Fault Refusal :=
  gate (s.hostUp && decide (off < 0x800000) && decide (off % 8 = 0) && decide (len = 8)) s fun s =>
    s.ringDoorbell (off / 0x2000) val

/-- RING_ENABLE_WRITE (R246, R247): a write of RNG_CFG. -/
def execRingEnableWrite (r : Nat) (v : W32) (s : State) : Host.Outcome State Fault Refusal :=
  gate (s.hostUp && decide (r < s.nRings)) s fun s => s.ringWrite r 2 v

/-- CTX_CTL_WRITE (R244): a write of DMA_CTX_CTL. -/
def execCtxCtlWrite (c : Nat) (v : W32) (s : State) : Host.Outcome State Fault Refusal :=
  gate (s.hostUp && decide (c < 1024)) s fun s =>
    if bit v 31 then s.attach c else if s.rb (oCtx c) 31 then s.detach c else s

/-- INDEX_WRITEBACK (R249, R250): the index has advanced past the last value written back. -/
def execIndexWriteback (r : Nat) (s : State) : Host.Outcome State Fault Refusal :=
  gate (s.hostUp && decide (r < s.nRings) && s.rEn r && decide (lo32 (s.rng r).head ≠ s.reg (s.rIdx r))) s fun s =>
    let s := s.rLook r
    if s.rEn r then (s.writeback r).countIrq r else s

/-- MSIX_TIMER (R250): TIME_US µs have passed since the first record no message has covered; the writeback that covers the
records goes before the message. -/
def execMsixTimer (r dt : Nat) (s : State) : Host.Outcome State Fault Refusal :=
  let t := s.rf (oRng r 6) 0 16
  gate (s.hostUp && decide (r < s.nRings) && s.rEn r && s.rIe r && decide (t ≠ 0) && decide ((s.rng r).unsent ≠ 0)
      && decide ((s.rng r).firstTick + tUs t ≤ s.time.ticks + dt)) s fun s =>
    let s := (s.advance dt).rLook r
    if s.rEn r then (s.writeback r).ringIrq r else s

end Sys2Proof.Machine
end

