-- ==== Sys2Proof/Machine/Operands.lean ====
section
/-! DEFINITION. Operand forms of the Keeper instruction set: the words of R197 and R198, the field rules that make a word
legal, addressing (R199), special registers (R195), and the data address space (R190). -/

namespace Sys2Proof.Machine

/-! ### Encodings (R197, R198) -/

/-- A field placed at bit `lo` of an instruction word. -/
def put {n : Nat} (v : BitVec n) (lo : Nat) : W32 := (v.setWidth 32) <<< lo

def encR (op : Nat) (d s t : BitVec 4) (imm : BitVec 1) (n : BitVec 5) : W32 :=
  put (BitVec.ofNat 6 op) 26 ||| put d 22 ||| put s 18 ||| put t 14 ||| put imm 13 ||| put n 8
def encI (op : Nat) (d s : BitVec 4) (imm : W16) : W32 :=
  put (BitVec.ofNat 6 op) 26 ||| put d 22 ||| put s 18 ||| put imm 0
def encM (op : Nat) (w : BitVec 4) (p mode : BitVec 3) (imm : W16) : W32 :=
  put (BitVec.ofNat 6 op) 26 ||| put w 22 ||| put p 19 ||| put mode 16 ||| put imm 0
def encA (op : Nat) (a : BitVec 1) (ty : BitVec 2) (a2 : BitVec 1) (s t : BitVec 4) (sh : BitVec 6) (rs : BitVec 1)
    (d : BitVec 4) : W32 :=
  put (BitVec.ofNat 6 op) 26 ||| put a 25 ||| put ty 23 ||| put a2 22 ||| put s 18 ||| put t 14 ||| put sh 8
    ||| put rs 7 ||| put d 3
def encD (op : Nat) (a : BitVec 1) (ty : BitVec 2) (n pi : BitVec 3) (ci : BitVec 1) (pj : BitVec 3) (cj : BitVec 1) :
    W32 :=
  put (BitVec.ofNat 6 op) 26 ||| put a 25 ||| put ty 23 ||| put n 20 ||| put pi 17 ||| put ci 16 ||| put pj 13
    ||| put cj 12
def encP (op : Nat) (p : BitVec 3) (imm : BitVec 23) : W32 := put (BitVec.ofNat 6 op) 26 ||| put p 23 ||| put imm 0
def encB (op : Nat) (cond s : BitVec 4) (target : BitVec 14) : W32 :=
  put (BitVec.ofNat 6 op) 26 ||| put cond 22 ||| put s 18 ||| put target 0
def encS (op : Nat) (w : BitVec 4) (code : BitVec 6) : W32 :=
  put (BitVec.ofNat 6 op) 26 ||| put w 22 ||| put code 16
def encK (op : Nat) (n : BitVec 12) : W32 := put (BitVec.ofNat 6 op) 26 ||| put n 0

/-- The shift instructions: IMM = 1 with n, or the count in a register. -/
def encShift (op : Nat) (d s : BitVec 4) : Count → W32
  | .imm n => encR op d s 0 1 n
  | .reg t => encR op d s t 0 0

/-- RND: the shift in sh, or with RS = 1 in a register. -/
def encRnd (d : BitVec 4) (a : BitVec 1) : RndShift → W32
  | .imm sh => encA 0x18 a 0 0 0 0 sh 0 d
  | .reg t => encA 0x18 a 0 0 0 t 0 1 d

/-- The opcode, and a field of a word. -/
def opOf (w : W32) : Nat := fld w 26 6

/-- Bits of a word that must be 0, by mask. -/
def clear (w : W32) (mask : Nat) : Bool := w &&& BitVec.ofNat 32 mask = 0

/-- A special-register code that exists (R195). -/
def codeOk (c : Nat) : Bool := decide (c < 14) || (decide (16 ≤ c) && decide (c < 48))

/-- The field rules of M-format words: modes 6 and 7 are illegal, and imm16 is used in modes 0 and 3 only (R197, R199). -/
def memOk (w : W32) : Bool :=
  let mode := fld w 16 3
  decide (mode < 6) && (decide (mode = 0) || decide (mode = 3) || clear w 0xFFFF)

/-- Whether a word is a legal instruction by its own fields (R195, R197 to R199, R202 to R205), the conduct class of
0x3C apart. -/
def wordOk (w : W32) : Bool :=
  match opOf w with
  | 0x00 => clear w 0x03FFFFFF
  | 0x01 | 0x02 | 0x04 | 0x05 | 0x06 => clear w 0x3FFF
  | 0x03 | 0x07 | 0x08 | 0x09 => clear w 0x30000
  | 0x0A | 0x0B | 0x0C => clear w 0xFF && (if bit w 13 then clear w 0x3C000 else clear w 0x1F00)
  | 0x0D => clear w 0x03C03FFF
  | 0x0E => clear w 0x03C30000
  | 0x0F => clear w 0x003F0000
  | 0x10 | 0x11 | 0x12 => clear w 0x0003FFFF
  | 0x13 => clear w 0x03C3FFFF
  | 0x14 | 0x15 | 0x16 => clear w 0x00403FFF
  | 0x17 => clear w 0xFFF && decide (fld w 17 3 ≠ fld w 13 3)
  | 0x18 => clear w 0x01FC0007 && (if bit w 7 then clear w 0x3F00 else clear w 0x3C000 && decide (fld w 8 6 ≤ 39))
  | 0x19 => clear w 0x01C3C0FF && decide (fld w 8 6 ≤ 23)
  | 0x1A => clear w 0x01FFC0FF
  | 0x1B => clear w 0x003FFFFF && decide (fld w 23 2 ≤ 1)
  | 0x1C => clear w 0x01FFFFFF
  | 0x1D => clear w 0x01FFFF87
  | 0x20 | 0x21 | 0x22 => memOk w
  | 0x23 | 0x24 => memOk w && decide (fld w 22 4 % 2 = 0)
  | 0x25 => true
  | 0x26 => clear w 0x03C70000
  | 0x28 => clear w 0x003FC000 && decide (fld w 22 4 ≠ 15)
  | 0x29 => clear w 0x03FFC000
  | 0x2A => clear w 0x03C3FFFF
  | 0x2B => clear w 0x03C3C000
  | 0x2C => clear w 0x03FFFFFF
  | 0x2D => clear w 0x03FFF000
  | 0x2E => clear w 0x03FFFFFF
  | 0x30 => clear w 0xFFFF && codeOk (fld w 16 6)
  | 0x31 => clear w 0xFFFF && codeOk (fld w 16 6) && decide (fld w 16 6 ≠ 7)
  | _ => false

/-- Branches and RETI; RPT and WAITI; MVD to rc, ie or ir; the conduct class. -/
def isBranch (w : W32) : Bool := decide (0x28 ≤ opOf w) && decide (opOf w ≤ 0x2C)
def isRptOrWait (w : W32) : Bool := decide (opOf w = 0x2D) || decide (opOf w = 0x2E)
def isMvdCtl (w : W32) : Bool :=
  decide (opOf w = 0x31) && (decide (fld w 16 6 = 2) || decide (fld w 16 6 = 3) || decide (fld w 16 6 = 4))

/-- R206: what may not stand in a delay slot, and what may not be repeated. -/
def placeOk (c : Core) (w : W32) : Bool :=
  !(c.after.isSome && (isBranch w || isRptOrWait w))
    && !(c.rpt && (isBranch w || isRptOrWait w || isMvdCtl w || decide (opOf w = 0x3C)))

/-! ### Registers -/

def Core.getW (c : Core) (i : BitVec 4) : W16 := c.w.get ⟨i.toNat, i.isLt⟩
def Core.setW (c : Core) (i : BitVec 4) (v : W16) : Core := { c with w := c.w.set i.toNat v i.isLt }
def Core.getA (c : Core) (i : BitVec 1) : W40 := c.a.get ⟨i.toNat, i.isLt⟩
def Core.getAOld (c : Core) (i : BitVec 1) : W40 := c.aOld.get ⟨i.toNat, i.isLt⟩
def Core.setA (c : Core) (i : BitVec 1) (v : W40) : Core := { c with a := c.a.set i.toNat v i.isLt }
def Core.getP (c : Core) (i : BitVec 3) : W24 := c.p.get ⟨i.toNat, i.isLt⟩
def Core.setP (c : Core) (i : BitVec 3) (v : W24) : Core := { c with p := c.p.set i.toNat v i.isLt }
def Core.getM (c : Core) (i : BitVec 3) : W16 := c.m.get ⟨i.toNat, i.isLt⟩
def Core.setM (c : Core) (i : BitVec 3) (v : W16) : Core := { c with m := c.m.set i.toNat v i.isLt }
def Core.getL (c : Core) (i : BitVec 3) : W16 := c.l.get ⟨i.toNat, i.isLt⟩
def Core.setL (c : Core) (i : BitVec 3) (v : W16) : Core := { c with l := c.l.set i.toNat v i.isLt }

/-- st as an instruction with the lag of R207 sees it: AV and AVS (bits 5 and 6) old. -/
def Core.stOld (c : Core) : W16 := (c.st &&& 0xFF9F#16) ||| ((c.avOld.setWidth 16) <<< 5)

/-- AV and AVS. -/
def avBits (st : W16) : BitVec 2 := st.extractLsb' 5 2

/-! ### Addressing (R199) -/

/-- The least power of two at or above `l`. -/
def pow2At (l : Nat) : Nat := if l ≤ 1 then 1 else 2 ^ (Nat.log2 (l - 1) + 1)

/-- circular (R199). -/
def circular (p : W24) (m l : W16) : W24 :=
  if l = 0 then p + m.signExtend 24
  else
    let k := pow2At l.toNat
    let base := p.toNat - p.toNat % k
    let off := (((p.toNat - base : Nat) : Int) + m.toInt) % (l.toNat : Int)
    BitVec.ofNat 24 (base + off.toNat)

/-- bitrev16 and reverse_carry (R199). -/
def bitrev16 (v : W16) : W16 := v.reverse
def reverseCarry (p : W24) (m : W16) : W24 :=
  let lo := bitrev16 (bitrev16 (p.setWidth 16) + bitrev16 m)
  (p &&& 0xFF0000#24) ||| lo.setWidth 24

/-- The effective address of a memory operand, and its pointer after. -/
def ea (c : Core) (p mode : BitVec 3) (imm : W16) : W24 × W24 :=
  let v := c.getP p
  match mode.toNat with
  | 0 => (v + imm.signExtend 24, v)
  | 1 => (v, v + (c.getM p).signExtend 24)
  | 2 => (v, circular v (c.getM p) (c.getL p))
  | 3 => (v, v + imm.signExtend 24)
  | 4 => (v + (c.getM p).signExtend 24, v)
  | _ => (v, reverseCarry v (c.getM p))

/-! ### The data address space (R190) -/

/-- Where a word address leads. -/
inductive Region where
  | dmem
  | sram
  | regs
  | reserved
  deriving DecidableEq, Repr

def regionOf (a : W24) : Region :=
  if a.toNat < 0x8000 then .dmem
  else if a.toNat < 0x200000 then .reserved
  else if a.toNat < 0x400000 then .sram
  else if a.toNat < 0xC00000 then .reserved
  else .regs

/-! ### Special registers (R195) -/

/-- One of the three parts of an accumulator: bits [15:0], [31:16], or [39:32] sign-extended. -/
def accPart (v : W40) (k : Nat) : W16 :=
  match k with
  | 0 => v.extractLsb' 0 16
  | 1 => v.extractLsb' 16 16
  | _ => (v.extractLsb' 32 8).signExtend 16

/-- An accumulator with one part replaced. -/
def setAccPart (v : W40) (k : Nat) (x : W16) : W40 :=
  match k with
  | 0 => (v &&& 0xFFFFFF0000#40) ||| x.setWidth 40
  | 1 => (v &&& 0xFF0000FFFF#40) ||| (x.setWidth 40 <<< 16)
  | _ => (v &&& 0x00FFFFFFFF#40) ||| ((x.setWidth 8).setWidth 40 <<< 32)

/-- What MVS reads. Accumulators and AV, AVS are read with the lag of R207. -/
def readSpecial (c : Core) (code : BitVec 6) : W16 :=
  let n := code.toNat
  if n = 0 then c.stOld
  else if n = 1 then c.be.setWidth 16
  else if n = 2 then c.rc.setWidth 16
  else if n = 3 then c.ir.setWidth 16
  else if n = 4 then c.ie.setWidth 16
  else if n = 5 then c.im.setWidth 16
  else if n = 6 then c.ip.setWidth 16
  else if n = 7 then c.tc
  else if n < 11 then accPart (c.getAOld 0) (n - 8)
  else if n < 14 then accPart (c.getAOld 1) (n - 11)
  else
    let i := BitVec.ofNat 3 n
    if n < 24 then (c.getP i).setWidth 16
    else if n < 32 then ((c.getP i) >>> 16).setWidth 16
    else if n < 40 then c.getM i
    else c.getL i

/-- What MVD writes. -/
def writeSpecial (c : Core) (code : BitVec 6) (v : W16) : Core :=
  let n := code.toNat
  if n = 0 then { c with st := v &&& 0x1FF#16 }
  else if n = 1 then { c with be := if v.toNat > 15 then 15 else v.setWidth 4 }
  else if n = 2 then
    { c with rc := if (v.setWidth 13).toNat > 4096 then 4096 else v.setWidth 13 }
  else if n = 3 then { c with ir := v.setWidth 14 }
  else if n = 4 then { c with ie := (c.ie &&& 0xC#4) ||| (v.setWidth 4 &&& 0x3#4) }
  else if n = 5 then { c with im := v.setWidth 8 }
  else if n = 6 then { c with ip := c.ip &&& ~~~(v.setWidth 8) }
  else if n = 7 then c
  else if n < 11 then c.setA 0 (setAccPart (c.getA 0) (n - 8) v)
  else if n < 14 then c.setA 1 (setAccPart (c.getA 1) (n - 11) v)
  else
    let i := BitVec.ofNat 3 n
    if n < 24 then c.setP i ((c.getP i &&& 0xFF0000#24) ||| v.setWidth 24)
    else if n < 32 then c.setP i ((c.getP i &&& 0x00FFFF#24) ||| ((v.setWidth 8).setWidth 24 <<< 16))
    else if n < 40 then c.setM i v
    else c.setL i v

end Sys2Proof.Machine
end

