-- ==== Sys2Proof/Machine/Flags.lean ====
section
/-! DEFINITION. The status flags of the Keeper core and the results they come from (R194, R200 to R203, R205). -/

namespace Sys2Proof.Machine

/-- A status word with one flag set to `b`. -/
def stBit (st : W16) (i : Nat) (b : Bool) : W16 :=
  if b then st ||| (1#16 <<< i) else st &&& ~~~(1#16 <<< i)

/-- Z and N of a 16-bit result. -/
def setZN (st : W16) (r : W16) : W16 := stBit (stBit st 0 (r = 0)) 1 r.msb

/-- V, with VS set with it (R194). -/
def setV (st : W16) (v : Bool) : W16 :=
  let st := stBit st 3 v
  if v then stBit st 4 true else st

/-- SATW and SATA. -/
def satw (st : W16) : Bool := st.getLsbD 7
def sata (st : W16) : Bool := st.getLsbD 8

/-- A signed result narrowed to 16 bits, saturating with `sat`, and whether it overflowed. -/
def narrow16 (sat : Bool) (v : Int) : W16 × Bool :=
  let ovf := decide (v > 32767) || decide (v < -32768)
  (if ovf && sat then (if v > 0 then 0x7FFF#16 else 0x8000#16) else BitVec.ofInt 16 v, ovf)

/-- ADD, and ADDI with an immediate: Z, N, C, V; VS is set with V (R200). -/
def addFlags (st : W16) (x y : W16) : W16 × W16 :=
  let (r, ovf) := narrow16 (satw st) (x.toInt + y.toInt)
  (r, setV (stBit (setZN st r) 2 (decide (x.toNat + y.toNat ≥ 65536))) ovf)

/-- SUB: C is 1 when no borrow occurs (R194, R200). -/
def subFlags (st : W16) (x y : W16) : W16 × W16 :=
  let (r, ovf) := narrow16 (satw st) (x.toInt - y.toInt)
  (r, setV (stBit (setZN st r) 2 (decide (y.toNat ≤ x.toNat))) ovf)

/-- CMP: as SUB with no register written; SATW does not name it, so the flags are those of the wrapped difference
(R194, R200). -/
def cmpFlags (st : W16) (x y : W16) : W16 :=
  let (r, ovf) := narrow16 false (x.toInt - y.toInt)
  setV (stBit (setZN st r) 2 (decide (y.toNat ≤ x.toNat))) ovf

/-- NEG and ABS: C is cleared; −32,768 overflows (R200). -/
def negFlags (st : W16) (v : Int) : W16 × W16 :=
  let (r, ovf) := narrow16 (satw st) v
  (r, setV (stBit (setZN st r) 2 false) ovf)

/-- Bitwise operations and shifts: Z, N, and V cleared (R200). -/
def logicFlags (st : W16) (r : W16) : W16 := stBit (setZN st r) 3 false

/-- The redundant sign bits of an `n`-bit value below its sign bit (R201, R202). -/
def signBits (n : Nat) (v : Int) : Nat :=
  ((List.range n).reverse.find? (fun h => decide (-(2 ^ (n - 1 - h) : Int) ≤ v) && decide (v < 2 ^ (n - 1 - h)))).getD 0

/-- EXP (R201) and EXPA (R202). -/
def exp16 (x : W16) : Nat := signBits 16 x.toInt
def exp40 (a : W40) : Nat := signBits 40 a.toInt

/-- be lowered to the headroom of a value (STX, BEXP). -/
def lowerBe (c : Core) (x : W16) : Core := { c with be := BitVec.ofNat 4 (min c.be.toNat (exp16 x)) }

/-- The product of R202 selected by T. -/
def mulProduct (ty : BitVec 2) (x y : W16) : Int :=
  match ty.toNat with
  | 0 => x.toInt * y.toInt
  | 1 => (x.toNat : Int) * y.toNat
  | 2 => x.toInt * (y.toNat : Int)
  | _ => 2 * (x.toInt * y.toInt)

/-- An accumulator update (R202): the stored value, and st with AV, and AVS set with it. -/
def accUpdate (st : W16) (v : Int) : W40 × W16 :=
  let ovf := decide (v > 2 ^ 39 - 1) || decide (v < -(2 ^ 39))
  let r : W40 :=
    if ovf && sata st then (if v > 0 then 0x7FFFFFFFFF#40 else 0x8000000000#40) else BitVec.ofInt 40 v
  let st := stBit st 5 ovf
  (r, if ovf then stBit st 6 true else st)

/-- RND (R203): the clamped result and st. -/
def rndFlags (st : W16) (a : W40) (s : Nat) : W16 × W16 :=
  let s := min s 39
  let (r, ovf) := clampS 16 (roundShift a.toInt s)
  let r := BitVec.ofInt 16 r
  (r, setV (setZN st r) ovf)

/-- The condition codes of R205, AO and NAO reading AV with the lag of R207. -/
def condHolds (c : Core) (cc : BitVec 4) : Bool :=
  let z := c.st.getLsbD 0
  let n := c.st.getLsbD 1
  let cy := c.st.getLsbD 2
  let v := c.st.getLsbD 3
  let av := c.avOld.getLsbD 0
  match cc.toNat with
  | 0 => true
  | 1 => z
  | 2 => !z
  | 3 => n != v
  | 4 => n == v
  | 5 => z || n != v
  | 6 => !z && n == v
  | 7 => !cy
  | 8 => cy
  | 9 => n
  | 10 => !n
  | 11 => v
  | 12 => !v
  | 13 => av
  | 14 => !av
  | _ => false

end Sys2Proof.Machine
end

