-- ==== Sys2Proof/Machine/Keeper.lean ====
section
/-! DEFINITION. What each Keeper instruction does to its core (R200 to R206), as a function of the core alone: its new
registers, a branch with its delay slot, a trap, or an access to the control fabric. Issue, traps and the fabric are in
KeeperSys. -/

namespace Sys2Proof.Machine

/-- The outcome of an instruction on its core. `stW` says that MVD wrote st, AV and AVS included (R207). -/
inductive KRes where
  | ok (c : Core) (stW : Bool)
  | jump (c : Core) (t : After)
  | rpt (c : Core)
  | wait (c : Core)
  | trap (cause sub : Nat)
  | load (addr beats : Nat) (long : Bool) (half : Nat) (dest : BitVec 4) (ptr : BitVec 3) (ptrVal : W24)
  | store (c : Core) (addr : Nat) (data : List W32) (be : BitVec 4)
  deriving DecidableEq, Repr

/-- An instruction that changes registers only. -/
def kOk (c : Core) : KRes := .ok c false

/-! ### 16-bit arithmetic (R200) -/

/-- A register and st written together. -/
def setWSt (c : Core) (d : BitVec 4) (r : W16 × W16) : Core := { c.setW d r.1 with st := r.2 }

def kAddSem (d s : BitVec 4) (y : Core → W16) (c : Core) : KRes := kOk (setWSt c d (addFlags c.st (c.getW s) (y c)))
def kSubSem (d s t : BitVec 4) (c : Core) : KRes := kOk (setWSt c d (subFlags c.st (c.getW s) (c.getW t)))
def kLogicSem (f : W16 → W16 → W16) (d s : BitVec 4) (y : Core → W16) (c : Core) : KRes :=
  let r := f (c.getW s) (y c)
  kOk (setWSt c d (r, logicFlags c.st r))

/-- The count of a shift: n, or bits [4:0] of a register. -/
def shiftCount (c : Core) : Count → Nat
  | .imm n => n.toNat
  | .reg t => (c.getW t).toNat % 32

def kShiftSem (f : W16 → Nat → W16) (d s : BitVec 4) (n : Count) (c : Core) : KRes :=
  let r := f (c.getW s) (shiftCount c n)
  kOk (setWSt c d (r, logicFlags c.st r))

def kCmpSem (s : BitVec 4) (y : Core → W16) (c : Core) : KRes := kOk { c with st := cmpFlags c.st (c.getW s) (y c) }
def kMoviSem (d : BitVec 4) (imm : W16) (c : Core) : KRes := kOk (c.setW d imm)
def kNegSem (d s : BitVec 4) (c : Core) : KRes := kOk (setWSt c d (negFlags c.st (-(c.getW s).toInt)))
def kAbsSem (d s : BitVec 4) (c : Core) : KRes := kOk (setWSt c d (negFlags c.st ((c.getW s).toInt.natAbs : Int)))
def kExpSem (d s : BitVec 4) (c : Core) : KRes :=
  let r := BitVec.ofNat 16 (exp16 (c.getW s))
  kOk (setWSt c d (r, setZN c.st r))
def kBexpSem (s : BitVec 4) (c : Core) : KRes := kOk (lowerBe c (c.getW s))

/-! ### Accumulators (R202, R203) -/

/-- An accumulator updated to an exact value, with AV and AVS. -/
def setAcc (c : Core) (a : BitVec 1) (v : Int) : Core :=
  let (x, st) := accUpdate c.st v
  { c.setA a x with st }

def kMulSem (a : BitVec 1) (ty : BitVec 2) (s t : BitVec 4) (c : Core) : KRes :=
  kOk (setAcc c a (mulProduct ty (c.getW s) (c.getW t)))
def kMacSem (sign : Int) (a : BitVec 1) (ty : BitVec 2) (s t : BitVec 4) (c : Core) : KRes :=
  kOk (setAcc c a ((c.getA a).toInt + sign * mulProduct ty (c.getW s) (c.getW t)))
def kLacSem (a : BitVec 1) (s : BitVec 4) (sh : BitVec 6) (c : Core) : KRes :=
  kOk (setAcc c a ((c.getW s).toInt * 2 ^ sh.toNat))
def kShaSem (a : BitVec 1) (sh : BitVec 6) (c : Core) : KRes :=
  let v := (c.getA a).toInt
  let s := sh.toInt
  kOk (setAcc c a (if s ≥ 0 then v * 2 ^ s.toNat else v / 2 ^ (-s).toNat))
/-- ADDA: a forwarded, a2 with the lag of R207. -/
def kAddaSem (a a2 : BitVec 1) (ty : BitVec 2) (c : Core) : KRes :=
  let x := (c.getA a).toInt
  let y := (c.getAOld a2).toInt
  kOk (setAcc c a (if ty = 0 then x + y else x - y))
def kClraSem (a : BitVec 1) (c : Core) : KRes := kOk (setAcc c a 0)
def kRndSem (d : BitVec 4) (a : BitVec 1) (n : RndShift) (c : Core) : KRes :=
  let s := match n with
    | .imm sh => sh.toNat
    | .reg t => (c.getW t).toNat % 64
  kOk (setWSt c d (rndFlags c.st (c.getAOld a) s))
def kExpaSem (d : BitVec 4) (a : BitVec 1) (c : Core) : KRes :=
  let r := BitVec.ofNat 16 (exp40 (c.getAOld a))
  kOk (setWSt c d (r, setZN c.st r))

/-! ### Memory (R190, R199, R204) -/

/-- A data-memory word, and one written. -/
def Core.rdWord (c : Core) (a : Nat) : W16 := BitVec.ofNat 16 (rdLe c.dmem (2 * a) 2)
def Core.wrWord (c : Core) (a : Nat) (v : W16) : Core := { c with dmem := wrLe c.dmem (2 * a) 2 v.toNat }

/-- The fabric address of a control SRAM word (R190, R333): the view of R190 does not depend on REMAP, so the addresses
of the fabric's own targets are named from 2³² on: control SRAM at 2³² and register space at 2³³. -/
def fabSram : Nat := 2 ^ 32
def fabRegs : Nat := 2 ^ 33
def sramByte (a : W24) : Nat := 2 * (a.toNat - 0x200000)
def regByte (a : W24) : Nat := 4 * (a.toNat - 0xC00000)

/-- LD: one word. `ue` says whether the word at a data-memory address reads with an uncorrectable error. -/
def kLdSem (ue : Nat → Bool) (d : BitVec 4) (p mode : BitVec 3) (imm : W16) (c : Core) : KRes :=
  let (a, p') := ea c p mode imm
  match regionOf a with
  | .dmem => if ue a.toNat then .trap 4 1 else kOk ((c.setP p p').setW d (c.rdWord a.toNat))
  | .sram => .load (fabSram + sramByte a / 4 * 4) 1 false (sramByte a / 2 % 2) d p p'
  | .regs => .trap 4 3
  | .reserved => .trap 4 2

/-- ST and STX: one word; STX lowers be as well. -/
def kStSem (stx : Bool) (s : BitVec 4) (p mode : BitVec 3) (imm : W16) (c : Core) : KRes :=
  let (a, p') := ea c p mode imm
  let v := c.getW s
  let c' := if stx then lowerBe (c.setP p p') v else c.setP p p'
  match regionOf a with
  | .dmem => kOk (c'.wrWord a.toNat v)
  | .sram =>
    let h := sramByte a / 2 % 2
    .store c' (fabSram + sramByte a / 4 * 4) [v.setWidth 32 <<< (16 * h)] (if h = 0 then 0b0011 else 0b1100)
  | .regs => .trap 4 3
  | .reserved => .trap 4 2

/-- LDL: two words, or one register. -/
def kLdlSem (ue : Nat → Bool) (d : BitVec 4) (p mode : BitVec 3) (imm : W16) (c : Core) : KRes :=
  let (a, p') := ea c p mode imm
  match regionOf a with
  | .reserved => .trap 4 2
  | .regs => .load (fabRegs + regByte a) 1 true 0 d p p'
  | .dmem =>
    if a.getLsbD 0 then .trap 4 3
    else if ue a.toNat || ue (a.toNat + 1) then .trap 4 1
    else kOk (((c.setP p p').setW d (c.rdWord a.toNat)).setW (d + 1) (c.rdWord (a.toNat + 1)))
  | .sram => if a.getLsbD 0 then .trap 4 3 else .load (fabSram + sramByte a) 1 true 0 d p p'

/-- STL: two words, or one register. -/
def kStlSem (s : BitVec 4) (p mode : BitVec 3) (imm : W16) (c : Core) : KRes :=
  let (a, p') := ea c p mode imm
  let v : W32 := (c.getW s).setWidth 32 ||| ((c.getW (s + 1)).setWidth 32 <<< 16)
  match regionOf a with
  | .reserved => .trap 4 2
  | .regs => .store (c.setP p p') (fabRegs + regByte a) [v] 0b1111
  | .dmem =>
    if a.getLsbD 0 then .trap 4 3
    else kOk (((c.setP p p').wrWord a.toNat (c.getW s)).wrWord (a.toNat + 1) (c.getW (s + 1)))
  | .sram => if a.getLsbD 0 then .trap 4 3 else .store (c.setP p p') (fabSram + sramByte a) [v] 0b1111

/-- DMAC (R202): the product of the old values, then both loads through modes 1 or 2. -/
def kDmacSem (ue : Nat → Bool) (a : BitVec 1) (ty : BitVec 2) (n pi : BitVec 3) (ci : BitVec 1) (pj : BitVec 3)
    (cj : BitVec 1) (c : Core) : KRes :=
  let e : BitVec 4 := n.setWidth 4 <<< 1
  let (ai, pi') := ea c pi (if ci = 0 then 1 else 2) 0
  let (aj, pj') := ea c pj (if cj = 0 then 1 else 2) 0
  let ri := regionOf ai
  let rj := regionOf aj
  if ri = .reserved ∨ rj = .reserved then .trap 4 2
  else if ri ≠ .dmem ∨ rj ≠ .dmem then .trap 4 3
  else if ue ai.toNat || ue aj.toNat then .trap 4 1
  else
    let c1 := setAcc c a ((c.getA a).toInt + mulProduct ty (c.getW e) (c.getW (e + 1)))
    kOk ((((c1.setP pi pi').setP pj pj').setW e (c.rdWord ai.toNat)).setW (e + 1) (c.rdWord aj.toNat))

/-! ### Pointers, control and special registers (R195, R204 to R206) -/

def kLipSem (p : BitVec 3) (imm : BitVec 23) (c : Core) : KRes := kOk (c.setP p (imm.signExtend 24))
def kAddpSem (p : BitVec 3) (imm : W16) (c : Core) : KRes := kOk (c.setP p (c.getP p + imm.signExtend 24))
/-- A branch: taken, the delay slot leads to the target; not taken, to the instruction after it. -/
def branchTo (c : Core) (taken : Bool) (t : BitVec 14) : KRes := .jump c (.goto (if taken then t else c.pc + 2))
def kBSem (cc : BitVec 4) (t : BitVec 14) (c : Core) : KRes := branchTo c (condHolds c cc) t
def kCallSem (t : BitVec 14) (c : Core) : KRes := branchTo (c.setW 15 ((c.pc + 2).setWidth 16)) true t
def kJrSem (s : BitVec 4) (c : Core) : KRes := branchTo c true ((c.getW s).setWidth 14)
def kBdnzSem (s : BitVec 4) (t : BitVec 14) (c : Core) : KRes :=
  let v := c.getW s - 1
  branchTo (c.setW s v) (v ≠ 0) t
def kRptSem (n : BitVec 12) (c : Core) : KRes := .rpt { c with rc := if n = 0 then 4096 else n.setWidth 13 }
def kMvsSem (d : BitVec 4) (code : BitVec 6) (c : Core) : KRes := kOk (c.setW d (readSpecial c code))
def kMvdSem (s : BitVec 4) (code : BitVec 6) (c : Core) : KRes := .ok (writeSpecial c code (c.getW s)) (code = 0)

end Sys2Proof.Machine
end

