-- ==== Sys2Proof/Machine/Xbr.lean ====
section
/-! DEFINITION. The control fabric's map and targets, and the transactions of the host, of the command unit and of DMA programs there
(R332 to R335). -/

namespace Sys2Proof.Machine

/-! ### Targets (R333) -/

/-- Where a fabric address leads. -/
inductive FabAt where
  | none
  | rom (o : Nat)
  | sram (o : Nat)
  | regs (off : Nat)
  | mem (o : Nat)
  | hbm (o : Nat)
  deriving DecidableEq, Repr

/-- Boot ROM in the first 256 KiB of its window. -/
def romAt (o : Nat) : FabAt := if o < 0x40000 then .rom o else .none

/-- The map under REMAP; Keepers' views of control SRAM and registers lie above 2³². -/
def fabMap (remap : Bool) (a : Nat) : FabAt :=
  if fabRegs ≤ a then .regs (a - fabRegs)
  else if fabSram ≤ a then .sram (a - fabSram)
  else if a < 0x400000 then if remap then .sram a else romAt a
  else if a < 0x800000 then if remap then romAt (a - 0x400000) else .sram (a - 0x400000)
  else if 0x4000000 ≤ a ∧ a < 0x6000000 then .regs (a - 0x4000000)
  else if 0x8000000 ≤ a ∧ a < 0x8100000 then .mem (a - 0x8000000)
  else if 0x80000000 ≤ a then .hbm (a - 0x80000000)
  else .none

/-- Targets, each with its arbiter: 0 boot ROM and addresses that lead nowhere, 1 control SRAM, 2 register space, 3 + k the
memories of core k, 11 the HBM aperture. -/
def FabAt.target : FabAt → Nat
  | .none | .rom _ => 0
  | .sram _ => 1
  | .regs _ => 2
  | .mem o => 3 + o / 0x20000 % 8
  | .hbm _ => 11

/-- Masters' classes (R332). -/
def fabClass (m : Nat) : Nat := if m < 8 then 2 else if m < 11 then 1 else 0

def State.setXbr (s : State) (f : XbrSt → XbrSt) : State := { s with xbr := f s.xbr }
def State.fabAt (s : State) (a : Nat) : FabAt := fabMap (s.rb 0x300000 0) a

/-- The target is free: no granted transaction holds it. -/
def State.fabFree (s : State) (target : Nat) : Bool := s.xbr.granted.all (fun r => (s.fabAt r.addr).target != target)

/-! ### Transactions of masters 8 to 10 (R332, R334, R335) -/

/-- Command unit, host BAR0 accesses, and DMA descriptor and program fetch. -/
def fabCmd : Nat := 8
def fabHost : Nat := 9
def fabFetch : Nat := 10

/-- The target is free for master m of class 1, which has no other transaction outstanding, and no master of its class or of a lower one
waits there: its transaction is granted as it comes. -/
def State.fabOpen (s : State) (m target : Nat) : Bool :=
  s.fabFree target && s.xbr.waiting.all (fun r => r.master != m && !(decide (fabClass r.master ≤ 1) && (s.fabAt r.addr).target == target))

/-- A grant to a master at a target: it is the one of its class granted last there, and its next transaction is not its first. -/
def State.fabTake (s : State) (m target : Nat) : State :=
  s.setXbr fun x => { x with fresh := x.fresh.filter (· ≠ m), last := tset 12 x.last (16 * target + fabClass m) m }

/-- A transaction that waits for its grant. -/
def State.fabAsk (s : State) (r : FabReq) : State := s.setXbr fun x => { x with waiting := x.waiting ++ [r] }

/-- A transaction of master 8, 9 or 10: performed by `f` where it is granted as it comes, else waiting for FABRIC_GRANT. In Doze, which
stops the fabric, the host's accesses do not pass it (R372, R373; log 29). -/
def State.fabGo (s : State) (r : FabReq) (f : State → State) : State :=
  let t := (s.fabAt r.addr).target
  if s.dozing then f s
  else if s.fabOpen r.master t then f (s.fabTake r.master t) else s.fabAsk r

/-- The same of a master whose unit holds what it asks for: while one transaction waits, it asks for none beside it (R334). -/
def State.fabUnit (s : State) (r : FabReq) (f : State → State) : State :=
  if s.xbr.waiting.any (fun x => x.master == r.master) then s else s.fabGo r f

/-- A host access of one dword of BAR0 that begins at a fabric address: `be` says which bytes. -/
def hostReq (addr : Nat) (write : Bool) (v : W32) (be : BitVec 4) : FabReq := ⟨fabHost, addr, write, 1, [v], be⟩
/-- A read of `len` bytes: the word that the request carries says how many. -/
def hostRead (addr len : Nat) : FabReq := hostReq addr false (lo32 len) 0xF

end Sys2Proof.Machine
end

