-- ==== Sys2Proof/Machine/Host.lean ====
section
/-! DEFINITION. The host's windows: BAR4 onto device memory, and the Keeper and control memory window of BAR0 (R191, R240 to
R243), with the link's training (R236, R238). -/

namespace Sys2Proof.Machine

def oHlStat : Nat := 0x1040000
def oDmaWin : Nat := 0x1040008

/-- A window access before the memories are released: EARLY is set (R243). -/
def State.early (s : State) : State := s.setRb oHlStat 1 true

/-- What a read completed with: its bytes, and whether it is poisoned. -/
def State.answer (s : State) (b : List Byte) (poison : Bool) : State :=
  { s with link := { s.link with rdata := b, rpoison := poison } }

/-! ### BAR4 (R242, R243) -/

/-- A read of `n` bytes at device address `a`: bytes at or above the end of present memory are 0. -/
def State.bar4Rd (s : State) (a n : Nat) : State :=
  let k := min n (s.memEnd - a)
  let (bad, b, s) := s.hbmRead a k 5 0
  s.answer (b ++ List.replicate (n - k) 0) (!bad.isEmpty)

/-- A write at device address `a`: whole lines directly, partial lines merged. -/
def State.bar4Wr (s : State) (a : Nat) (b : List Byte) (en : List Bool) : State :=
  let k := min b.length (s.memEnd - a)
  (s.hbmMerge a (b.take k) (en.take k) 5).2

/-- The quarters that an access of BAR4 reaches serve it; before the memories are released it reaches none. -/
def State.windowServes (s : State) (off n : Nat) : Bool :=
  let a := s.reg64 oDmaWin + off
  !s.pwr.released || s.hbmServes a (min n (s.memEnd - a))

/-- BAR4_READ. -/
def execBar4Read (off len : Nat) (up : Option Upset) (s : State) : Host.Outcome State Fault Refusal :=
  gate (s.hostUp && decide (off + len ≤ 2 ^ s.link.bar4) && s.windowServes off len) s fun s =>
    let s := s.upset up
    if !s.pwr.released then s.early.answer (List.replicate len 0) false
    else s.bar4Rd (s.reg64 oDmaWin + off) len

/-- BAR4_WRITE: a poisoned write is discarded and reported through AER, which lies outside the manual's registers. -/
def execBar4Write (off : Nat) (bytes : List Byte) (en : List Bool) (poisoned : Bool) (up : Option Upset) (s : State) :
    Host.Outcome State Fault Refusal :=
  gate (s.hostUp && decide (off + bytes.length ≤ 2 ^ s.link.bar4) && s.windowServes off bytes.length) s fun s =>
    let s := s.upset up
    if !s.pwr.released then s.early
    else if poisoned then s
    else s.bar4Wr (s.reg64 oDmaWin + off) bytes en

/-- BAR4_RESIZE: the size, and the window's base moved down to a multiple of it. -/
def execBar4Resize (log2 : Nat) (s : State) : Host.Outcome State Fault Refusal :=
  gate (s.hostUp && decide (30 ≤ log2) && decide (log2 ≤ (if s.gradeC then 38 else 39))) s fun s =>
    ({ s with link := { s.link with bar4 := log2 } } : State).setReg64 oDmaWin (s.reg64 oDmaWin / 2 ^ log2 * 2 ^ log2)

/-- A write of a word of DMA_WIN: ignored where the base would not be a multiple of the window size. -/
def State.winWrite (s : State) (off : Nat) (v : W32) : State :=
  let t := s.setReg off v
  if t.reg64 oDmaWin % 2 ^ s.link.bar4 = 0 then t else s

/-! ### Keeper memories and control SRAM (R191, R371) -/

/-- One memory behind the window or the fabric: control SRAM, or instruction or data memory of a core, with an offset. -/
inductive SramAt where
  | cs (o : Nat)
  | im (k o : Nat)
  | dm (k o : Nat)
  deriving DecidableEq, Repr

/-- Keeper memories by offset from core 0's instruction memory: 0x2_0000 a core, data memory from + 0x1_0000. -/
def keeperMem (o : Nat) : SramAt :=
  if o % 0x20000 < 0x10000 then .im (o / 0x20000) (o % 0x20000) else .dm (o / 0x20000) (o % 0x20000 - 0x10000)

/-- Where a BAR0 offset of the window leads. -/
def windowAt (off : Nat) : Option SramAt :=
  if 0x2000000 ≤ off ∧ off < 0x2400000 then some (.cs (off - 0x2000000))
  else if 0x3000000 ≤ off ∧ off < 0x3100000 then some (keeperMem (off - 0x3000000))
  else none

/-- Bytes read: whether one has an uncorrectable error. -/
def State.sramRd (s : State) (at_ : SramAt) (n access : Nat) : Bool × List Byte × State :=
  match at_ with
  | .cs o => s.csRead o n access 0
  | .im k o =>
    let (bad, s) := s.scan 4 k o (o + n) access 0 false
    (!bad.isEmpty, rdBytes (s.core k).imem o n, s)
  | .dm k o =>
    let (bad, s) := s.scan 5 k o (o + n) access 0 false
    (!bad.isEmpty, rdBytes (s.core k).dmem o n, s)

/-- Bytes written under their enables. Instruction memory is written only while its core is HALTED, and never by host or
fabric where fuse VERIFY is set (R371); `loader` names the boot loader and the command unit. -/
def State.sramWr (s : State) (at_ : SramAt) (loader : Bool) (b : List Byte) (en : List Bool) : State :=
  match at_ with
  | .cs o => { s.cleanEn 6 0 o en with csram := wrBytesEn s.csram o b en }
  | .im k o =>
    let c := s.core k
    if c.run ≠ 0 ∨ (s.fuse.verify ∧ !loader) then s
    else (s.cleanEn 4 k o en).setCore k { c with imem := wrBytesEn c.imem o b en }
  | .dm k o =>
    let c := s.core k
    (s.cleanEn 5 k o en).setCore k { c with dmem := wrBytesEn c.dmem o b en }

/-- Its fabric address, whatever REMAP is (R333). -/
def SramAt.fabAddr : SramAt → Nat
  | .cs o => fabSram + o
  | .im k o => 0x8000000 + 0x20000 * k + o
  | .dm k o => 0x8010000 + 0x20000 * k + o

/-- The byte enables of a dword. -/
def enables (be : BitVec 4) : List Bool := (List.range 4).map (fun i => be.getLsbD i)

/-- MEMORY_WINDOW_WRITE (R191, R240, R243). -/
def execMemoryWindowWrite (off : Nat) (val : W32) (be : BitVec 4) (s : State) : Host.Outcome State Fault Refusal :=
  gate (s.hostUp && decide (0x2000000 ≤ off) && decide (off < 0x4000000)) s fun s =>
    if !s.pwr.released then s.early
    else if s.dozing then s.dozeAcc
    else match windowAt off with
      | some a => s.fabGo (hostReq a.fabAddr true val be) fun s => s.sramWr a false (leBytes 4 val.toNat) (enables be)
      | none => s

/-- HOST_LINK_TRAINING (R236, R238): rate 0 is no link; FLIT mode goes with 64 and 128 GT/s; `mode.relaxed` is Enable Relaxed
Ordering as the host has set it, for lack of a row for configuration writes (log 31). -/
def execHostLinkTraining (rate width : Nat) (mode : LinkMode) (s : State) : Host.Outcome State Fault Refusal :=
  gate (s.hostUp && decide (rate < 8) && (mode.flit == decide (6 ≤ rate))
      && (if rate = 0 then width == 0 else [1, 2, 4, 8, 16].contains width)) s fun s =>
    (((s.setRf oHlStat 28 4 rate).setRf oHlStat 23 5 width).setRb oHlStat 22 mode.flit).setRb oHlStat 21 mode.relaxed

end Sys2Proof.Machine
end

