-- ==== Sys2Proof/Machine/Dma.lean ====
section
/-! DEFINITION. The 64 DMA channels: descriptors, bursts, completion and stops, and program mode (R257 to R268). -/

namespace Sys2Proof.Machine

/-- STATE set: 0 IDLE, 1 RUNNING, 2 ARMED, 3 WAITING, 4 ABORTING. -/
def State.setD (s : State) (c st : Nat) : State := s.setRf (oDma c + 4) 29 3 st
def State.dCurSrc (s : State) (c : Nat) : Nat := s.reg64 (oDma c + 0x30)
def State.dCurLen (s : State) (c : Nat) : Nat := (s.reg (oDma c + 0x40)).toNat
/-- DMA_SREC: 0 writes no records. -/
def State.dSrec (s : State) (c : Nat) : Nat := s.reg64 (oDma c + 0x50) / 32 * 32

/-- Control SRAM as a channel sees it (R257). -/
def dmaCs : Nat := 2 ^ 39

/-! ### Descriptors (R257, R258) -/

/-- The swap unit in bytes: 1 for none. -/
def swapUnit (flags : W32) : Nat := [1, 2, 4, 8, 4].getD (fld flags 4 3) 1

/-- Whether a range lies in the device memory a channel reaches. -/
def State.devRange (s : State) (a n : Nat) : Bool :=
  decide (a + n ≤ s.memEnd) || (decide (dmaCs ≤ a) && decide (a + n ≤ dmaCs + csramBytes))

/-- Whether a ring can take a RING transfer. -/
def State.streamRing (s : State) (r : Nat) : Bool := decide (r < s.nRings) && s.rEn r && s.rFmt r == 6

/-- A faulty descriptor (R258). -/
def State.descBad (s : State) (src dst len : Nat) (flags : W32) : Bool :=
  let u := swapUnit flags
  let ring := bit flags 1
  let dir := bit flags 0
  len == 0 || decide (fld flags 4 3 > 4) || decide (len % u ≠ 0) || decide (src % u ≠ 0)
    || (!ring && decide (dst % u ≠ 0))
    || !s.devRange (if dir then dst else src) len
    || (ring && (dir || decide (len % 64 ≠ 0) || !s.streamRing (dst % 2 ^ 15)))

/-- Pieces of `u` bytes, each passed through `f`. -/
def swapBy (u : Nat) (f : List Byte → List Byte) : Nat → List Byte → List Byte
  | 0, l => l
  | n + 1, l => if l.isEmpty then [] else f (l.take u) ++ swapBy u f n (l.drop u)

/-- The bytes of a burst swapped (R258): bytes within 16, 32 or 64 bits, or the half-words of 32. -/
def swapBytes (flags : W32) (l : List Byte) : List Byte :=
  match fld flags 4 3 with
  | 0 => l
  | 4 => swapBy 4 (fun w => w.drop 2 ++ w.take 2) l.length l
  | _ => swapBy (swapUnit flags) List.reverse l.length l

/-! ### Records and stops (R262 to R265) -/

/-- The status record (R265). -/
def State.srecBytes (s : State) (c cause : Nat) (armed : Bool) : List Byte :=
  leBytes 1 0x50 ++ leBytes 1 c ++ leBytes 1 cause ++ leBytes 1 (b2n armed + 2 * b2n (s.chan c).prog)
    ++ leBytes 4 (s.dCurLen c) ++ leBytes 4 (s.reg (oDma c + 0x60)).toNat ++ leBytes 4 s.ns.toNat
    ++ leBytes 8 (s.dCurSrc c) ++ leBytes 8 (s.dCurDst c)

def State.writeSrec (s : State) (c cause : Nat) (armed : Bool) : State :=
  if s.dSrec c = 0 then s else { s with host := wrBytes s.host (s.dSrec c) (s.srecBytes c cause armed) }

/-- A stop with a cause (R263): the status record reports a discarded shadow; the vector is sent and DMA_STOP published. -/
def State.dStop (s : State) (c cause : Nat) : State :=
  let armed := s.dState c == 2 || (s.chan c).armed
  let s := (s.setD c 0).setRf (oDma c + 4) 26 3 cause
  let s := s.writeSrec c cause armed
  let s := if bit (s.dCurFlags c) 1 then s.rServed (s.dCurDst c % 2 ^ 15) (.dma c) else s
  let s := s.setChan c { s.chan c with wait := none, moving := false, armed := false, prog := false }
  (s.msix (s.rf (oDma c) 0 11)).publish (88 + c / 8)

/-- A descriptor becomes active; a faulty one stops the channel (R259), and a RING transfer looks its ring's context up for that (R284).
DMA_DONE_CNT shows the count again after a KILL. -/
def State.dStart (s : State) (c src dst len : Nat) (flags : W32) : State :=
  let s := if bit flags 1 then s.rLook (dst % 2 ^ 15) else s
  let s := ((s.setReg64 (oDma c + 0x30) src).setReg64 (oDma c + 0x38) dst).setReg (oDma c + 0x40) (lo32 len)
  let s := ((s.setReg (oDma c + 0x44) flags).setReg (oDma c + 0x60) (lo32 (s.chan c).done)).setD c 1
  let s := s.setChan c { s.chan c with moved := 0 }
  let s := if bit flags 1 then s.rServed (dst % 2 ^ 15) (.dma c) else s
  if s.descBad src dst len flags then s.dStop c 4 else s

/-- The shadow descriptor copied and started. -/
def State.dShadow (s : State) (c : Nat) : State :=
  s.dStart c (s.reg64 (oDma c + 0x10)) (s.reg64 (oDma c + 0x18)) (s.reg (oDma c + 0x20)).toNat
    (s.reg (oDma c + 0x24) &&& 0xFF)

/-- The active transfer completes (R262): barrier, status record, vector and DMA_DONE in that order where the descriptor
asks for one of them; then the armed shadow starts, or the program goes on, or the channel is IDLE. -/
def State.dComplete (s : State) (c : Nat) : State :=
  let f := s.dCurFlags c
  let ch := s.chan c
  let s := s.setChan c { ch with done := (ch.done + 1) % 2 ^ 32, moving := false }
  let s := (s.setRb (oDma c + 4) 0 true).setReg (oDma c + 0x60) (lo32 (ch.done + 1))
  let s := if bit f 7 then s.writeSrec c 0 false else s
  let s := if bit f 3 then s.msix (s.rf (oDma c) 0 11) else s
  let s := if bit f 7 || bit f 3 || (bit f 2 && !bit f 0) then s.publish (80 + c / 8) else s
  if ch.prog then s.setReg (oDma c + 0x5C) (lo32 (((s.reg (oDma c + 0x5C)).toNat + 32) % 2 ^ 22))
  else if s.dState c = 2 then s.dShadow c
  else s.setD c 0

/-! ### Bursts (R260) -/

/-- The host address of the next byte. -/
def State.dHostAddr (s : State) (c : Nat) : Nat :=
  let f := s.dCurFlags c
  if bit f 1 then
    let r := s.dCurDst c % 2 ^ 15
    s.rBase r + (s.rng r).head % s.rSize r * 64
  else if bit f 0 then s.dCurSrc c else s.dCurDst c

/-- The bytes of the next burst: at most 4 KiB, up to the next 4 KiB boundary of the host address. -/
def State.dBurst (s : State) (c : Nat) : Nat := min (s.dCurLen c) (4096 - s.dHostAddr c % 4096)

/-- How many of the next `n` device bytes at `a` come before a word that cannot be read: every line, or for a write only
the lines covered in part. -/
def State.devGood (s : State) (a n : Nat) (write : Bool) : Nat :=
  if dmaCs ≤ a then
    if write then n
    else ((s.upsetsIn 6 0 (a - dmaCs) (a - dmaCs + n)).filter (·.ue)).head?.elim n (fun u => u.addr - (a - dmaCs))
  else
    let us := (s.upsetsIn 0 0 (lineOf a) (a + n)).filter (fun u => u.ue
      && (!write || decide (u.addr < a) || decide (a + n < u.addr + 64)))
    us.head?.elim n (fun u => u.addr - a)

/-- Bytes of device memory read, and written, for channel c. -/
def State.devRead (s : State) (c a n : Nat) : List Byte × State :=
  if dmaCs ≤ a then ((s.csRead (a - dmaCs) n 4 c).2) else ((s.hbmRead a n 4 c).2)
def State.devWrite (s : State) (c a : Nat) (b : List Byte) : State :=
  if dmaCs ≤ a then s.csWrite (a - dmaCs) b else (s.hbmMerge a b (List.replicate b.length true) 4 c).2

/-- The position of a channel moved on by `n` bytes; a RING transfer has no host address of its own. -/
def State.dAdvance (s : State) (c n : Nat) : State :=
  let f := s.dCurFlags c
  let s := s.setReg64 (oDma c + 0x30) (s.dCurSrc c + n)
  let s := if bit f 1 then s else s.setReg64 (oDma c + 0x38) (s.dCurDst c + n)
  let s := s.setReg (oDma c + 0x40) (lo32 (s.dCurLen c - n))
  s.setChan c { s.chan c with moved := (s.chan c).moved + n }

/-- `n` bytes moved. -/
def State.dMove (s : State) (c n : Nat) : State :=
  let f := s.dCurFlags c
  if n = 0 then s
  else if bit f 0 then
    let b := swapBytes f (rdBytes s.host (s.dCurSrc c) n)
    (s.devWrite c (s.dCurDst c) b).dAdvance c n
  else
    let (b, s) := s.devRead c (s.dCurSrc c) n
    let b := swapBytes f b
    if bit f 1 then
      let r := s.dCurDst c % 2 ^ 15
      ((s.rPut r (s.rng r).rseq b).rServed r (.dma c)).dAdvance c n
    else ({ s with host := wrBytes s.host (s.dCurDst c) b } : State).dAdvance c n

/-- A burst completes: an uncorrectable word in device memory stops the channel before the failing line; otherwise the
channel goes on, completes, or, aborting, stops. -/
def State.dBurstDone (s : State) (c : Nat) : State :=
  let f := s.dCurFlags c
  let n := s.dBurst c
  let dev := if bit f 0 then s.dCurDst c else s.dCurSrc c
  let good := s.devGood dev n (bit f 0) / swapUnit f * swapUnit f
  if good < n then
    let s := s.dMove c good
    let (_, s) := if dmaCs ≤ dev then s.scan 6 0 (dev + good - dmaCs) (dev + n - dmaCs) 4 c false
      else s.scan 0 0 (lineOf (dev + good)) (dev + n) 4 c false
    s.dStop c 2
  else
    let s := s.dMove c n
    if s.dState c = 4 then s.dStop c 1
    else if s.dCurLen c = 0 then s.dComplete c
    else s

/-- A transfer is active: bursts are under way. -/
def State.dActive (s : State) (c : Nat) : Bool :=
  (s.dState c == 1 || s.dState c == 2 || s.dState c == 4) && (!(s.chan c).prog || (s.chan c).moving)

/-! ### Program mode (R266) -/

/-- The instruction at DMA_PC, or the stop of a fetch that fails. -/
def State.dFetch (s : State) (c : Nat) : Bool × List Byte × State :=
  s.csRead ((s.reg (oDma c + 0x5C)).toNat) 32 4 c

/-- DMA_PC moved to the next instruction. -/
def State.dNext (s : State) (c : Nat) : State :=
  s.setReg (oDma c + 0x5C) (lo32 (((s.reg (oDma c + 0x5C)).toNat + 32) % 2 ^ 22))

/-- Program mode, between instructions. -/
def State.dReady (s : State) (c : Nat) : Bool := s.dState c == 1 && (s.chan c).prog && !(s.chan c).moving

/-! ### The commands -/

/-- DMA_SHADOW_GO (R259). -/
def execDmaShadowGo (c : Nat) (v : W32) (s : State) : Host.Outcome State Fault Refusal :=
  gate (s.hostUp && decide (c < 64) && bit v 0 && !s.rb (oDma c) 29) s fun s =>
    match s.dState c with
    | 0 => s.dShadow c
    | 1 => s.setD c 2
    | _ => s.setRb (oDma c + 4) 1 true

/-- DMA_ABORT (R263, R266): after the current burst, or at once where none is in flight. -/
def execDmaAbort (c : Nat) (s : State) : Host.Outcome State Fault Refusal :=
  gate (s.hostUp && decide (c < 64) && decide (s.dState c ≠ 0) && decide (s.dState c ≠ 4)) s fun s =>
    if s.dActive c then (s.setChan c { s.chan c with armed := s.dState c == 2 }).setD c 4
    else s.dStop c 1

/-- Open bits, as many as asked for. -/
def State.freeMask (s : State) (n : Nat) : List Bool × State :=
  ((List.range n).map (fun i => (Config.freeWord (s.freeCtr + i / 64)).getLsbD (i % 64)), { s with freeCtr := s.freeCtr + n / 64 + 1 })

/-- The device memory of a channel's next burst serves it: one in a quarter that does not is held back (R22, R275). -/
def State.devServes (s : State) (c : Nat) : Bool :=
  let a := if bit (s.dCurFlags c) 0 then s.dCurDst c else s.dCurSrc c
  decide (dmaCs ≤ a) || s.hbmServes a (s.dBurst c)

/-- A burst of a channel that writes to the host is in flight: a RING transfer whose ring has no room, or is disabled, has issued
none, nor has a channel whose device memory is held back (R275). -/
def State.dWrites (s : State) (c : Nat) : Bool :=
  let r := s.dCurDst c % 2 ^ 15
  s.dActive c && !bit (s.dCurFlags c) 0 && s.devServes c
    && (!bit (s.dCurFlags c) 1 || (s.streamRing r && !(s.rng r).lost.contains (.dma c) && decide (s.dBurst c / 64 ≤ s.rFree r)))

/-- KILL (R264): IDLE at once. Writes of the burst in flight may land or not, byte by byte as open values say; what
DMA_CUR_LEN and DMA_DONE_CNT read until the next start is open. -/
def State.dKill (s : State) (c : Nat) : State :=
  let f := s.dCurFlags c
  let s :=
    if s.dWrites c then
      let n := s.dBurst c
      let a := s.dHostAddr c
      let (b, s) := s.devRead c (s.dCurSrc c) n
      let (x, s) := s.freeMask n
      { s with host := wrBytesEn s.host a (swapBytes f b) x }
    else s
  let (y, s) := s.free
  let (z, s) := s.free
  let s := ((s.setD c 0).setRf (oDma c + 4) 26 3 7).setReg (oDma c + 0x40) (y.setWidth 32)
  let s := s.setReg (oDma c + 0x60) (z.setWidth 32)
  let s := if bit f 1 then s.rServed (s.dCurDst c % 2 ^ 15) (.dma c) else s
  s.setChan c { s.chan c with wait := none, moving := false, armed := false, prog := false }

/-- DMA_KILL (R264). -/
def execDmaKill (c : Nat) (s : State) : Host.Outcome State Fault Refusal :=
  gate (s.hostUp && decide (c < 64)) s fun s => s.dKill c

/-- DMA_PROG_START (R266): START in program mode, from IDLE. -/
def execDmaProgStart (c : Nat) (s : State) : Host.Outcome State Fault Refusal :=
  gate (s.hostUp && decide (c < 64) && s.rb (oDma c) 29 && decide (s.dState c = 0)) s fun s =>
    let s := s.setReg (oDma c + 0x5C) (lo32 ((s.reg (oDma c + 0x58)).toNat / 32 * 32))
    let s := s.setChan c { s.chan c with prog := true, moving := false, ctr := [0, 0, 0, 0], wait := none }
    ((s.setReg (oDma c + 0x60) (lo32 (s.chan c).done)).setReg (oDma c + 0x40) 0).setD c 1

/-- DMA_BURST_COMPLETE (R260 to R263): a RING transfer waits while its ring has no room, and a ring that has
been disabled during the transfer is a host error. -/
def execDmaBurstComplete (c : Nat) (up : Option Upset) (s : State) : Host.Outcome State Fault Refusal :=
  gate (s.hostUp && decide (c < 64) && s.dActive c && s.devServes c) s fun s =>
    let s := s.upset up
    let r := s.dCurDst c % 2 ^ 15
    if bit (s.dCurFlags c) 1 then
      let s := s.rLook r
      if !s.streamRing r || (s.rng r).lost.contains (.dma c) then s.dStop c 3
      else if s.dBurst c / 64 ≤ s.rFree r then s.dBurstDone c
      else if s.dState c = 4 then s.dStop c 1
      else s.rWait r (.dma c) (s.dBurst c / 64)
    else s.dBurstDone c

/-- What the program instruction `b` of an opcode does (R266): END; MOVE, one descriptor; LOOP, whose target, where it is not a multiple
of 32, stops the channel with cause PROG; WAIT, WAITING until the next event on the channel; SIGNAL, one event with hop count 0 on a
user channel, no other channel being one that software can publish. An unknown opcode stops the channel with cause PROG. -/
def State.dOp (s : State) (c o : Nat) (b : List Byte) : State :=
  match o with
  | 0 => s.dStop c 6
  | 1 =>
    let s := s.setChan c { s.chan c with moving := true }
    s.dStart c (field b 8 8) (field b 16 8) (field b 4 4) (lo32 (field b 1 1))
  | 2 =>
    let n := field b 1 1
    let ctr := (s.chan c).ctr
    let v := if ctr.getD n 0 = 0 then field b 4 4 else ctr.getD n 0
    let v := (v + 2 ^ 32 - 1) % 2 ^ 32
    let t := field b 8 4
    if n > 3 then s.dStop c 5
    else
      let s := s.setChan c { s.chan c with ctr := ctr.set n v }
      if v = 0 then s.dNext c
      else if t % 32 ≠ 0 then s.dStop c 5
      else s.setReg (oDma c + 0x5C) (lo32 (t % 2 ^ 22))
  | 3 => (s.setChan c { s.chan c with wait := some (field b 4 2) }).setD c 3
  | 4 =>
    let ch := field b 4 2
    (if 120 ≤ ch then s.publish ch else s).dNext c
  | _ => s.dStop c 5

/-- The instruction at DMA_PC fetched and performed; one that cannot be read stops the channel with cause PROG. -/
def State.dFetched (s : State) (c : Nat) : State :=
  let (bad, b, s) := s.dFetch c
  if bad then s.dStop c 5 else s.dOp c (field b 0 1) b

/-- A row of a program instruction: it is no occurrence where another opcode stands at DMA_PC, and the fetch waits for its grant where
its target is not open to it. -/
def State.dInstr (s : State) (c op : Nat) : State :=
  let (bad, b, _) := s.dFetch c
  let o := field b 0 1
  if bad || decide (4 < o) || decide (o = op) then
    s.fabUnit ⟨fabFetch, fabSram + (s.reg (oDma c + 0x5C)).toNat, false, 8, [lo32 c], 0xF⟩ fun s => s.dFetched c
  else s

/-- The gate of every program instruction. -/
def dmaRow (c op : Nat) (s : State) : Host.Outcome State Fault Refusal :=
  gate (s.hostUp && decide (c < 64) && s.dReady c) s fun s => s.dInstr c op

/-- DMA_END, DMA_MOVE, DMA_LOOP, DMA_WAIT and DMA_SIGNAL (R266). -/
def execDmaEnd (c : Nat) (s : State) : Host.Outcome State Fault Refusal := dmaRow c 0 s
def execDmaMove (c : Nat) (s : State) : Host.Outcome State Fault Refusal := dmaRow c 1 s
def execDmaLoop (c : Nat) (s : State) : Host.Outcome State Fault Refusal := dmaRow c 2 s
def execDmaWait (c : Nat) (s : State) : Host.Outcome State Fault Refusal := dmaRow c 3 s
def execDmaSignal (c : Nat) (s : State) : Host.Outcome State Fault Refusal := dmaRow c 4 s

/-- An event delivered on a beacon channel: channels waiting on it go on (R266, R324). -/
def State.dmaEvent (s : State) (ch : Nat) : State :=
  (s.link.chans.filter (fun e => e.2.wait == some ch)).foldl (fun s e =>
    ((s.setChan e.1 { s.chan e.1 with wait := none }).setD e.1 1).dNext e.1) s

/-- A host error for a channel's transfer (R237, R263). -/
def State.dmaHostError (s : State) (c : Nat) : State := if s.dActive c then s.dStop c 3 else s

end Sys2Proof.Machine
end

