-- ==== Sys2Proof/Machine/Time.lean ====
section
/-! DEFINITION. Device time: the increment, compares, captures, and the time port with its timestamp FIFO (R294 to
R303). -/

namespace Sys2Proof.Machine

/-! ### Compares (R297) -/

def oCmp (i : Nat) : Nat := 0x400100 + 16 * i

/-- A PERIOD of 2³¹ or more acts as 0. -/
def State.cmpPeriod (s : State) (i : Nat) : Nat :=
  let p := (s.reg (oCmp i + 4)).toNat
  if p < 2 ^ 31 then p else 0

/-- (TARGET − TIM_NS) mod 2³². -/
def State.cmpDist (s : State) (i : Nat) : Nat := (s.reg (oCmp i) - s.ns).toNat

/-- The multiple of PERIOD by which a missed compare advances: the smallest that gives 1 ≤ d < 2³¹. -/
def missAdvance (d p : Nat) : Nat :=
  let m := divUp (2 ^ 32 - d) p
  if d + m * p = 2 ^ 32 then (m + 1) * p else m * p

/-- A compare judged as at arming, its firing included. After a firing the compare is judged again, and fires again at
most once more, so the fuel of 3 never runs out. -/
def State.cmpJudge (i : Nat) : Nat → State → State
  | 0, s => s
  | n + 1, s =>
    let d := s.cmpDist i
    let p := s.cmpPeriod i
    if d = 0 then
      let s := (s.publish i).setRb (oCmp i + 8) 0 true
      if p = 0 then s.setRb (oCmp i + 8) 31 false
      else State.cmpJudge i n (s.setReg (oCmp i) (s.reg (oCmp i) + BitVec.ofNat 32 p))
    else if d < 2 ^ 31 then s
    else
      let s := s.setRb (oCmp i + 8) 1 true
      if p = 0 then s.setRb (oCmp i + 8) 31 false
      else s.setReg (oCmp i) (s.reg (oCmp i) + BitVec.ofNat 32 (missAdvance d p))

/-- A compare that has reached its target fires (R297, steps 1 to 3). -/
def State.cmpFire (s : State) (i : Nat) : State :=
  let s := (s.publish i).setRb (oCmp i + 8) 0 true
  let p := s.cmpPeriod i
  if p = 0 then s.setRb (oCmp i + 8) 31 false
  else State.cmpJudge i 3 (s.setReg (oCmp i) (s.reg (oCmp i) + BitVec.ofNat 32 p))

/-- An arming: judged only while RUN = 1 (R296). -/
def State.cmpArm (s : State) (i : Nat) : State := if s.running then s.cmpJudge i 3 else s

/-- A write of word 0, 1 or 2 of a compare: TARGET, PERIOD or CTL. -/
def State.cmpWrite (s : State) (i word : Nat) (v : W32) : State :=
  let s := s.plainWrite (oCmp i + 4 * word) v
  if (word = 0 ∧ s.rb (oCmp i + 8) 31) ∨ (word = 2 ∧ bit v 31) then s.cmpArm i else s

/-- Every enabled compare judged anew, when RUN returns to 1 (R296). -/
def State.rejudgeCmps (s : State) : State :=
  (List.range 8).foldl (fun s i => if s.rb (oCmp i + 8) 31 then s.cmpJudge i 3 else s) s

/-! ### The increment (R295) -/

def State.incFrac (s : State) (v : W32) : State := { s with time := { s.time with held := v } }
def State.incCommit (s : State) (v : W32) : State :=
  (s.setReg oTimFrac s.time.held).setReg oTimInt (v &&& 0xFF)

/-- A write of TIM_NS: only while RUN = 0 (R296). -/
def State.nsWrite (s : State) (v : W32) : State :=
  if s.running then s else { s with time := { s.time with ns := v } }

/-! ### Captures (R298, R299) -/

def oCap (j : Nat) : Nat := 0x400200 + 64 * j

/-- Whether capture j watches a source, and for a BUOY the source it names. -/
def State.capWatches (s : State) (j : Nat) (d : CapDue) : Bool :=
  decide (s.rf (oCap j) 0 8 = d.src)
    && (decide (d.src ≠ 0x84) || !s.rb (oCap j) 28 || decide (s.rf (oCap j) 16 12 = d.srcId))

/-- A capture instant at its source: kept until the captures take it up, if any watches. -/
def State.capInstant (s : State) (d : CapDue) : State :=
  if (List.range 16).any (fun j => s.capWatches j d) then { s with time := { s.time with due := s.time.due ++ [d] } }
  else s

/-- The instant of a source without data, now. -/
def State.capNow (s : State) (src hop : Nat) : CapDue := ⟨src, hop, s.ns, s.sub, 0, 0, 0, 0, 0⟩

/-- Capture j takes an instant: stored while VALID = 0, otherwise counted in LOST (R299). A capture made by a beacon event
of hop count h publishes with h + 1 (R329). -/
def State.capStore (s : State) (d : CapDue) (j : Nat) : State :=
  if !s.capWatches j d then s
  else if s.rb (oCap j) 31 then s.cntF (oCap j) 8 8 1
  else
    let o := oCap j
    let s := ((s.setRb o 31 true).setReg (o + 4) d.ns).setReg (o + 8) (lo32 (d.sub * 2 ^ 24 + d.srcId % 4096))
    let s := ((s.setReg (o + 12) (lo32 (d.chan % 65536))).setReg (o + 16) (lo32 d.index)).setReg (o + 20)
      (lo32 (d.index / 2 ^ 32 % 65536))
    let s := ((s.setReg (o + 24) (lo32 d.sec)).setReg (o + 28) (lo32 (d.sec / 2 ^ 32 % 65536))).setReg (o + 32)
      (lo32 (d.nanos % 2 ^ 30))
    s.publishH 9 (if d.src < 0x80 then d.hop + 1 else 0)

/-- A write of word 0 of a capture: clearing VALID also clears LOST (R299). -/
def State.capCtlWrite (s : State) (j : Nat) (v : W32) : State :=
  let s := s.plainWrite (oCap j) v
  if bit v 31 then s.setRf (oCap j) 8 8 0 else s

/-- TIM_CAPTURE: the oldest instant of the source that no capture has taken up; a PPS input's edge is its own. -/
def State.capture (s : State) (src : Nat) : State :=
  if src = 0x80 ∨ src = 0x81 then (List.range 16).foldl (fun s j => s.capStore (s.capNow src 0) j) s
  else
    match s.time.due.find? (fun d => d.src == src) with
    | none => s
    | some d =>
      let s := { s with time := { s.time with due := s.time.due.erase d } }
      (List.range 16).foldl (fun s j => s.capStore d j) s

/-! ### The time port (R300 to R303) -/

/-- The 16-bit field of a frame at an offset, in network order. -/
def be16 (f : List Byte) (o : Nat) : Nat := ofBe ((f.drop o).take 2)

/-- Offset of the EtherType after at most two VLAN tags. -/
def etherAt (f : List Byte) : Nat :=
  let tag := fun o => be16 f o == 0x8100 || be16 f o == 0x88A8
  if tag 12 then if tag 16 then 20 else 16 else 12

/-- Where the PTP message of a frame begins, if the frame carries one (R302). -/
def ptpAt (f : List Byte) : Option Nat :=
  let o := etherAt f
  let h := o + 2
  if be16 f o = 0x88F7 then some h
  else if be16 f o = 0x0800 then
    let ihl := 4 * (field f h 1 % 16)
    if field f h 1 / 16 = 4 ∧ field f (h + 9) 1 = 17 ∧ be16 f (h + 6) % 0x4000 = 0 ∧ be16 f (h + ihl + 2) = 319 then
      some (h + ihl + 8)
    else none
  else if be16 f o = 0x86DD then
    if field f (h + 6) 1 = 17 ∧ be16 f (h + 42) = 319 then some (h + 48) else none
  else none

/-- An event message, by its message type, domain and sequence (R302, R303). -/
def ptpEvent (f : List Byte) : Option (Nat × Nat × Nat) :=
  match ptpAt f with
  | none => none
  | some p =>
    let ty := field f p 1 % 16
    if p + 32 ≤ f.length ∧ field f (p + 1) 1 % 16 = 2 ∧ ty ≤ 3 then some (ty, field f (p + 4) 1, be16 f (p + 30))
    else none

/-- An entry added to the timestamp FIFO, or dropped and counted when it is full (R303). -/
def State.tsAdd (s : State) (e : TsEntry) : State :=
  if s.time.fifo.length < 32 then ({ s with time := { s.time with fifo := s.time.fifo ++ [e] } } : State).publish 10
  else s.cntF 0x400830 16 16 1

/-- Device time of a start-of-frame block, with 3.2 ns added when the start lies in lane 4 (R302): nanoseconds, SUB. -/
def State.sfd (s : State) (lane4 : Bool) : W32 × Nat :=
  let v := s.time.ns.toNat * 2 ^ 32 + s.time.frac.toNat + (if lane4 then 3 * 2 ^ 32 + 858993459 else 0)
  (lo32 (v / 2 ^ 32), v / 2 ^ 24 % 256)

/-- Whether the port takes a destination: its own MAC, or a group address, broadcast among them (R300). -/
def State.macOk (s : State) (f : List Byte) : Bool :=
  (f.headD 0).getLsbD 0 || ofBe (f.take 6) == (s.reg 0x400804).toNat + 2 ^ 32 * s.rf 0x400808 0 16

def oPortCnt (k : Nat) : Nat := 0x984040 + 4 * k

/-- A received frame, without its FCS (R300). -/
def State.tportRx (s : State) (f : List Byte) (fcsOk lane4 : Bool) : State :=
  if f.length + 4 < 64 ∨ f.length + 4 > 2000 then s
  else if !fcsOk then s.cnt (oPortCnt 1) 1
  else if !s.macOk f then s
  else
    let slot := s.rf 0x40080C 16 4
    if s.dozing || s.rb 0x40080C slot then s.cnt (oPortCnt 2) 1
    else
      let (ns, sub) := s.sfd lane4
      let a := s.rf 0x400800 15 7 * 32768 + 2048 * slot
      let m := leBytes 2 f.length ++ [0, 0] ++ leBytes 4 ns.toNat ++ f
      let s := s.csWrite a m
      let s := ((s.setRb 0x40080C slot true).setRf 0x40080C 16 4 ((slot + 1) % 16)).publish 10
      let s := s.cnt (oPortCnt 0) 1
      match ptpEvent f with
      | some (ty, dom, seq) => s.tsAdd ⟨false, ty, dom, seq, ns, sub, slot⟩
      | none => s

/-- TIM_PORT_TXADDR as the port uses it. A value that is no multiple of 8 acts as the nearest one (R316, R390); halfway between
two, as the lower (DESIGN CHOICE, log 97: R316 leaves the tie open), and above the highest as the highest. -/
def State.tportAddr (s : State) : Nat := min ((s.rf 0x400814 0 22 + 3) / 8 * 8) 0x3FFFF8

/-- A write of TIM_PORT_TX: with GO, one frame leaves control SRAM, unless BUSY or LEN is out of range (R301). -/
def State.tportTx (s : State) (v : W32) : State :=
  let busy := s.rb 0x400810 30
  let s := s.plainWrite 0x400810 v
  let len := fld v 0 11
  if !bit v 31 || busy || decide (len < 60) || decide (len > 1996) then s
  else
    let (_, b, s) := s.csRead s.tportAddr len 12 0
    { s.setRb 0x400810 30 true with time := { s.time with sending := some ⟨b, bit v 29, fld v 16 12⟩ } }

def fcsBits : Nat → W32 → W32
  | 0, c => c
  | n + 1, c => fcsBits n (if c.getLsbD 0 then (c >>> 1) ^^^ 0xEDB88320#32 else c >>> 1)
/-- The frame check sequence of an Ethernet frame, as it is sent. PRESUMED: CRC-32 of IEEE 802.3 (log 81). -/
def etherFcs (l : List Byte) : List Byte :=
  leBytes 4 (~~~(l.foldl (fun c b => fcsBits 8 (c ^^^ b.setWidth 32)) 0xFFFFFFFF#32)).toNat

/-- The frame has left, its FCS appended: BUSY clears, and an event message sent with TS = 1 adds a TX entry with the time of
its start-of-frame block (R301, R302). -/
def State.tportDone (s : State) (x : TxPort) (at_ : W32 × Nat) : State :=
  let s := { s.setRb 0x400810 30 false with
    time := { s.time with sending := none, sent := s.time.sent ++ [x.frame ++ etherFcs x.frame] } }
  match (if x.ts then ptpEvent x.frame else none) with
  | some (ty, dom, seq) => s.tsAdd ⟨true, ty, dom, seq, at_.1, at_.2, x.tag⟩
  | none => s

/-- The oldest timestamp entry removed (R303). -/
def State.tsPop (s : State) (v : W32) : State :=
  if bit v 0 then { s with time := { s.time with fifo := s.time.fifo.drop 1 } } else s

/-! ### The commands -/

/-- TIM_WRAP (R294): `dt` ticks, within which device time wraps. -/
def execTimWrap (dt : Nat) (s : State) : Host.Outcome State Fault Refusal :=
  gate (s.aux && s.running
    && decide (2 ^ 64 ≤ s.time.ns.toNat * 2 ^ 32 + s.time.frac.toNat
        + dt * (s.rf oTimInt 0 8 * 2 ^ 32 + (s.reg oTimFrac).toNat))) s fun s => s.advance dt

/-- TIM_INC_FRAC_WRITE (R295). -/
def execTimIncFracWrite (v : W32) (s : State) : Host.Outcome State Fault Refusal :=
  gate s.aux s fun s => s.incFrac v

/-- TIM_INC_COMMIT (R295). -/
def execTimIncCommit (v : W32) (s : State) : Host.Outcome State Fault Refusal :=
  gate s.aux s fun s => s.incCommit v

/-- TIM_CMP_ARM (R297): a write of a compare's TARGET, PERIOD or CTL. -/
def execTimCmpArm (i word : Nat) (v : W32) (s : State) : Host.Outcome State Fault Refusal :=
  gate (s.aux && decide (i < 8) && decide (word < 3)) s fun s => s.cmpWrite i word v

/-- A compare is due: enabled, running, and (TIM_NS − TARGET) mod 2³² < 2³¹ (R297). -/
def State.cmpDue (s : State) (i : Nat) : Bool :=
  s.running && s.rb (oCmp i + 8) 31 && decide ((s.ns - s.reg (oCmp i)).toNat < 2 ^ 31)

/-- TIM_CMP_FIRE (R297): after `dt` ticks the compare has reached its target. -/
def execTimCmpFire (i dt : Nat) (s : State) : Host.Outcome State Fault Refusal :=
  gate (s.aux && decide (i < 8) && (s.advance dt).cmpDue i) s fun s => (s.advance dt).cmpFire i

/-- TIM_CAPTURE (R298, R299). -/
def execTimCapture (src : Nat) (s : State) : Host.Outcome State Fault Refusal :=
  gate s.aux s fun s => s.capture src

/-- TPORT_FRAME_RX (R300, R302, R303): taken in while EN = 1 and the port holds block lock. -/
def execTportFrameRx (frame : List Byte) (fcsOk lane4 : Bool) (s : State) : Host.Outcome State Fault Refusal :=
  gate (s.auxUp && s.rb 0x400800 31 && decide (s.laneState .port = 4)) s fun s => s.tportRx frame fcsOk lane4

/-- TPORT_TX_GO (R301). -/
def execTportTxGo (v : W32) (s : State) : Host.Outcome State Fault Refusal :=
  gate s.aux s fun s => s.tportTx v

/-- TPORT_TX_DONE (R301, R302): the start-of-frame block leaves after `at_.start` ticks, and the frame has left
`at_.dt` ticks later. -/
def execTportTxDone (at_ : TxTimes) (lane4 : Bool) (s : State) : Host.Outcome State Fault Refusal :=
  gate (s.aux && s.time.sending.isSome) s fun s =>
    match s.time.sending with
    | some x =>
      let s := s.advance at_.start
      (s.advance at_.dt).tportDone x (s.sfd lane4)
    | none => s

/-- TIM_TS_POP (R303). -/
def execTimTsPop (v : W32) (s : State) : Host.Outcome State Fault Refusal :=
  gate s.aux s fun s => s.tsPop v

end Sys2Proof.Machine
end

