-- ==== Sys2Proof/Machine/Line.lean ====
section
/-! DEFINITION. The line of a lane: CRC-32C, blocks, the scrambler, test patterns, and what a transmitter puts on its line (R52,
R54, R59, R61, R62, R64). -/

namespace Sys2Proof.Machine

/-! ### Registers of a lane -/

def isTxLane : LaneId → Bool
  | .tx _ => true
  | _ => false
def oLnCtl (l : LaneId) : Nat := laneBase l
def oLnStat (l : LaneId) : Nat := laneBase l + 4
def State.lnBit (s : State) (l : LaneId) (i : Nat) : Bool := s.rb (oLnCtl l) i
/-- MODE: 0 framed, 1 PRBS7, 2 PRBS31; 3 acts as 0 (R59). -/
def State.lnMode (s : State) (l : LaneId) : Nat := s.rf (oLnCtl l) 26 2 % 3
def State.lnRate (s : State) (l : LaneId) : Nat := s.rf (oLnCtl l) 24 2

/-- Ticks of a number of bits at a rate: 25.78125, 53.125 or 106.25 Gbit/s, and 10.3125 for the time port. -/
def bitTicks (l : LaneId) (rate bits : Nat) : Nat :=
  if l = .port then bits * 2 / 33
  else match rate with
    | 0 => bits * 4 / 165
    | 1 => bits / 85
    | _ => bits / 170

/-- Bits of the line in a number of ticks, at the rate of a TX or Waoth lane. -/
def tickBits (rate n : Nat) : Nat :=
  match rate with
  | 0 => n * 165 / 4
  | 1 => n * 85
  | _ => n * 170

/-! ### CRC-32C (R64) -/

def crcBits : Nat → W32 → W32
  | 0, c => c
  | n + 1, c => crcBits n (if c.getLsbD 0 then (c >>> 1) ^^^ 0x82F63B78#32 else c >>> 1)
/-- CRC-32C of a byte string: reflected, initial value and final exclusive-or 0xFFFF_FFFF. -/
def crc32c (l : List Byte) : W32 :=
  ~~~(l.foldl (fun c b => crcBits 8 (c ^^^ b.setWidth 32)) 0xFFFFFFFF#32)

/-! ### The line (R59, R61, R62) -/

/-- Clause 49 idle: block type 0x1E, eight idle characters of 7 bits 0 (PRESUMED, log 85). -/
def idleBlock : Block := ⟨0b10, 0x1E#8 :: List.replicate 7 0⟩

/-- The bits of a block in line order, least significant first: the sync header, then the block's 64 bits. -/
def lineBits (b : Block) : List Bool :=
  (List.range 2).map (fun i => b.sync.getLsbD i) ++ b.bytes.flatMap (fun x => (List.range 8).map (fun i => x.getLsbD i))

/-- The self-synchronising scrambler x⁵⁸ + x³⁹ + 1 on bits in line order; `r` holds the last 58 bits sent, the latest lowest. -/
def scramble (r : BitVec 58) : List Bool → List Bool × BitVec 58
  | [] => ([], r)
  | b :: t =>
    let o := b ^^ r.getLsbD 38 ^^ r.getLsbD 57
    let (l, r) := scramble ((r <<< 1) ||| (if o then 1 else 0)) t
    (o :: l, r)

/-- The descrambler of a receiver, from the bits received. -/
def descramble (r : BitVec 58) : List Bool → List Bool × BitVec 58
  | [] => ([], r)
  | b :: t =>
    let o := b ^^ r.getLsbD 38 ^^ r.getLsbD 57
    let (l, r) := descramble ((r <<< 1) ||| (if b then 1 else 0)) t
    (o :: l, r)

/-- Blocks on the line: the scrambler covers the 64 bits of each block and not its sync header. -/
def lineOut (r : BitVec 58) : List Block → List Bool × BitVec 58
  | [] => ([], r)
  | b :: t =>
    let (x, r) := scramble r ((lineBits b).drop 2)
    let (l, r) := lineOut r t
    ((lineBits b).take 2 ++ x ++ l, r)

/-- The next `n` bits of the pattern that MODE 1 (x⁷ + x⁶ + 1) or 2 (x³¹ + x²⁸ + 1) sends, and the last bits sent after them,
from those before, the latest lowest. -/
def prbs (mode : Nat) : Nat → BitVec 31 → List Bool × BitVec 31
  | 0, r => ([], r)
  | n + 1, r =>
    let o := if mode = 1 then r.getLsbD 6 ^^ r.getLsbD 5 else r.getLsbD 30 ^^ r.getLsbD 27
    let (l, r) := prbs mode n ((r <<< 1) ||| (if o then 1 else 0))
    (o :: l, r)

/-! ### Frames as their sender puts them on the line (R62) -/

/-- The lamp block. -/
def lampBytes : List Byte := [0xD2#8, 0x5A#8, 0xC3#8, 0x96#8, 0x0F#8, 0xE1#8, 0x78#8, 0x2D#8]

/-- Data blocks of a string of bytes, the last one filled with zeros. -/
def dataBlocks : Nat → List Byte → List Block
  | 0, _ => []
  | n + 1, l => ⟨0b01, padTo 8 (l.take 8)⟩ :: dataBlocks n (l.drop 8)

/-- A frame as its sender puts it on the line: the lamp block, header and payload in data blocks, and the trailer, whose bytes
1–3 are 0 and bytes 4–7 the CRC-32C (R62 to R64). -/
def frameBlocks (bytes : List Byte) : List Block :=
  [⟨0b10, lampBytes⟩] ++ dataBlocks (divUp bytes.length 8) bytes
    ++ [⟨0b10, [0xE1#8, 0#8, 0#8, 0#8] ++ leBytes 4 (crc32c bytes).toNat⟩]

/-! ### What a transmitter sends -/

/-- A transmitter begins to send now. -/
def State.startLine (s : State) (l : LaneId) : State := s.setLane l { s.lane l with lineAt := s.time.ticks, line := [] }

/-- The line of a transmitter up to now: in a PRBS mode its pattern, in place of frames (R59); else idle blocks and then the
blocks given (R61), scrambled. POL inverts it (R54). DESIGN CHOICE (log 94): a frame ends at the tick of its row. -/
def State.lineTo (s : State) (l : LaneId) (bs : List Block) : State :=
  let v := s.lane l
  let n := tickBits (s.lnRate l) (s.time.ticks - v.lineAt)
  let (x, scr, pat) :=
    if s.lnMode l = 0 then
      let (x, r) := lineOut v.scr (List.replicate (n / 66 - bs.length) idleBlock ++ bs)
      (x, r, v.pat)
    else
      let (x, r) := prbs (s.lnMode l) n v.pat
      (x, v.scr, r)
  s.setLane l { v with scr, pat, lineAt := s.time.ticks, line := if s.lnBit l 28 then x.map not else x }

end Sys2Proof.Machine
end

