-- ==== Sys2Proof/Machine/Waoth.lean ====
section
/-! DEFINITION. Sending over the Waoth link (R344 to R347): the sequenced frames and their replay buffer, and the items of
the saggar that an ACTIVE part sends. -/

namespace Sys2Proof.Machine

/-! ### Sizes (R344 to R346) -/

/-- Payload bytes of a message by its content: the manual fixes the heartbeat's layout only, so the others are what their
content needs, in bytes (log 40). -/
def WMsg.size : WMsg → Nat
  | .heartbeat _ _ _ _ _ => 16
  | .report p => 8 * (p.rings.length + p.groups.length) + 12 * p.tx.length
  | .conduct i => 24 + 2 * i.block.length + i.plan.length + 6 * i.spans.length + 9 * i.keys.length + 4 * i.gains.length
  | .decision _ => 32
  | .loss _ _ _ _ => 40
  | .mirror _ _ _ b => 8 + b.length
  | .join _ p => 4 + 4 * p.length
  | .snapshot x => x.plan.length + 6 * x.spans.length + 9 * x.keys.length + 64 * x.kilns.length + 4 * x.gains0.length
      + 4 * x.gains1.length + 320 * x.blocks.length + 64

/-- TYPE, and SEQD (R345). -/
def WMsg.type : WMsg → Nat
  | .heartbeat _ _ _ _ _ => 1
  | .report _ => 2
  | .conduct _ => 3
  | .decision _ => 4
  | .loss _ _ _ _ => 5
  | .mirror _ _ _ _ => 6
  | .join _ _ => 7
  | .snapshot _ => 8
def WMsg.seqd (m : WMsg) : Bool := decide (3 ≤ m.type)

/-- Frames over which a message is split, and payload bytes of the part `i` (R345). -/
def WMsg.frames (m : WMsg) : Nat := max 1 (divUp m.size 4096)
def WMsg.len (m : WMsg) (i : Nat) : Nat := min 4096 (alignUp m.size 8 - 4096 * i)

/-- The header block of a frame (R344). -/
def WMsg.header (m : WMsg) (seq i : Nat) : List Byte :=
  leBytes 1 m.type ++ leBytes 1 (b2n m.seqd) ++ leBytes 2 (m.len i) ++ leBytes 4 seq

/-- The payload of part `i`: a heartbeat's is laid out by R345; that of every other message holds what the manual lists in an order
it does not give, so its bytes are open: those of free values from `ctr` on (log 40). -/
def WMsg.payload (m : WMsg) (i ctr : Nat) : List Byte :=
  match m with
  | .heartbeat role lanes claim ack nak =>
    leBytes 1 role ++ leBytes 1 lanes ++ leBytes 2 claim ++ leBytes 4 ack ++ leBytes 1 (b2n nak) ++ leBytes 7 0
  | _ => (List.range (m.len i)).map (fun j => (Config.freeWord (ctr + j / 8) >>> (8 * (j % 8))).setWidth 8)

/-- Part `i` of a message as a frame; SEQ is 0 in a frame that is not of a sequenced type. -/
def WMsg.frame (m : WMsg) (lane : Nat) (seq : Option Nat) (i ctr : Nat) : WSent :=
  ⟨lane, seq, m, i, m.header (seq.getD 0) i ++ m.payload i ctr⟩

/-- A frame formed, its open bytes spent. -/
def State.wFrame (s : State) (m : WMsg) (seq : Option Nat) (i : Nat) : WSent × State :=
  (m.frame 0 seq i s.freeCtr, { s with freeCtr := s.freeCtr + 512 })

/-- Bytes of a frame: lamp block, header, payload in whole blocks, trailer. -/
def WSent.frameBytes (x : WSent) : Nat := 24 + x.msg.len x.part

/-- The 1 MiB replay buffer is full: every producer of sequenced messages is held. -/
def State.replayFull (s : State) : Bool := decide (((s.pair.replay.map WSent.frameBytes).sum) ≥ 1048576)

/-- The part is in a pair with its partner: it sends and receives sequenced messages. -/
def State.joined (s : State) : Bool := decide (2 ≤ s.role) && decide (s.role ≤ 4)

/-- A sequenced message can go into the replay buffer: it has room, and none waits for it. -/
def State.seqRoom (s : State) : Bool := !s.replayFull && s.pair.late.isEmpty

/-- A producer of sequenced messages may go on (R346). -/
def State.sagRoom (s : State) : Bool := !s.joined || s.seqRoom

def State.setPair (s : State) (f : PairSt → PairSt) : State := { s with pair := f s.pair }

/-! ### Lanes (R346) -/

/-- Waoth lanes that are UP. -/
def State.wUp (s : State) : List Nat := (List.range 4).filter (fun n => s.laneState (.w n) == 4)

/-- The lane after lane `r` in turn that is UP. -/
def State.nextLane (s : State) (r : Nat) : Option Nat :=
  ((List.range 4).map (fun d => (r + 1 + d) % 4)).find? (fun n => s.wUp.contains n)

/-- A frame put on lane n: its lamp block, its header and payload in data blocks, and its trailer follow what the lane has sent
(R61, R62, R344). In a PRBS mode the lane sends its pattern in place of it (R59). -/
def State.wPutOn (s : State) (f : WSent) (n : Nat) : State :=
  (s.lineTo (.w n) (frameBlocks f.bytes)).setPair fun p => { p with sent := { f with lane := n } :: p.sent }

/-- A frame put on the next UP lane in turn; with no lane UP it waits in the replay buffer for a NAK. -/
def State.wPut (s : State) (f : WSent) : State :=
  match s.nextLane s.pair.rr with
  | some n => (s.wPutOn f n).setPair fun p => { p with rr := n }
  | none => s

/-- The saggar's items are counted as they are sent (R347). -/
def oPrCnt (k : Nat) : Nat := 0x600100 + 4 * k
def WMsg.isItem (m : WMsg) : Bool := decide (3 ≤ m.type) && decide (m.type ≤ 6)

/-- A sequenced message: consecutive frames, each with the next SEQ and kept in the replay buffer until an ACK covers it. -/
def State.putSeq (s : State) (m : WMsg) : State :=
  let s := (List.range m.frames).foldl (fun s i =>
    let (f, s) := s.wFrame m (some s.pair.txSeq) i
    (s.setPair fun p => { p with txSeq := (p.txSeq + 1) % 2 ^ 32, replay := p.replay ++ [f] }).wPut f) s
  if m.isItem then s.cnt (oPrCnt 3) 1 else s

/-- A sequenced message sent, or kept in order until the replay buffer has room for it. Producers that can be held are held there
instead (R346); what can't be held, a write of LTN_ENG_REL or the answer to a JOIN, has its effect, and its message waits (DESIGN
CHOICE, log 101). -/
def State.sendSeq (s : State) (m : WMsg) : State :=
  if s.seqRoom then s.putSeq m else s.setPair fun p => { p with late := p.late ++ [m] }

/-- Messages that waited sent in order as far as there is room. -/
def State.sendLate (s : State) : State :=
  let l := s.pair.late
  l.foldl (fun s m => s.sendSeq m) (s.setPair fun p => { p with late := [] })

/-! ### The saggar (R347) -/

/-- A decision of an ACTIVE part, sent to the standby. -/
def State.decide_ (s : State) (d : Decision) : State := if s.role = 2 then s.sendSeq (.decision d) else s

/-- An accepted product operation of an ACTIVE part, sent to the standby. -/
def State.sendConduct (s : State) (i : ConductItem) : State := if s.role = 2 then s.sendSeq (.conduct i) else s

/-! ### Readiness (R356) -/

def oPrReady : Nat := 0x60000C
def oPrReadyX : Nat := 0x600010

/-- A unit ready when it reaches the point from which it is. -/
def State.kilnReach (s : State) (k x : Nat) : State :=
  if s.pair.kilnFrom.any (fun e => e.1 == k && decide (e.2 ≤ x)) then
    (s.setPair fun p => { p with kilnFrom := p.kilnFrom.filter (fun e => e.1 ≠ k) }).setRb oPrReady k true
  else s
def State.blockReach (s : State) (m x : Nat) : State :=
  if s.pair.blockFrom.any (fun e => e.1 == m && decide (e.2 ≤ x)) then
    (s.setPair fun p => { p with blockFrom := p.blockFrom.filter (fun e => e.1 ≠ m) }).setRb oPrReadyX m true
  else s
/-- An engine has written one block index more; `engFrom` holds how many are still to come. -/
def State.engReach (s : State) (e : Nat) : State :=
  if s.pair.engFrom.any (fun r => r.1 == e && decide (r.2 ≤ 1)) then
    (s.setPair fun p => { p with engFrom := p.engFrom.filter (fun r => r.1 ≠ e) }).setRb oPrReadyX (24 + e) true
  else s.setPair fun p => { p with engFrom := p.engFrom.map (fun r => if r.1 = e then (e, r.2 - 1) else r) }

end Sys2Proof.Machine
end

