-- ==== Sys2Proof/Machine/Cq.lean ====
section
/-! DEFINITION. The conduct queues of the Keeper cores: status words, completion, faults, cancelling, barriers and the
waits for device time (R221, R222, R225 to R230, R232, R296). -/

namespace Sys2Proof.Machine

/-! ### Registers and operations (R218, R235) -/

def oKpr (k : Nat) : Nat := 0xF00000 + 0x10000 * k
/-- KPR_CNT and KPR_CQ_CNT. -/
def State.kCnt (s : State) (k j n : Nat) : State := s.cnt (oKpr k + 0x40 + 4 * j) n
def State.cqCnt (s : State) (k j : Nat) : State := s.cnt (oKpr k + 0x60 + 4 * j) 1

/-- The words of an operation's block: 0 for an immediate operand, none for a reserved COP. -/
def copWords (cop : Nat) : Option Nat :=
  match cop with
  | 0x01 => some 6
  | 0x02 => some 9
  | 0x03 | 0x04 => some 7
  | 0x05 => some 16
  | 0x06 => some 11
  | 0x07 | 0x08 => some 3
  | 0x09 => some 4
  | 0x0A => some 5
  | 0x0B => some 0
  | 0x0C => some 8
  | 0x0D => some 14
  | 0x10 | 0x11 | 0x12 | 0x1F => some 0
  | _ => none

/-- WAITT, WAITB and the fences (R221). -/
def isBarrier (cop : Nat) : Bool := [0x09, 0x0A, 0x10, 0x11, 0x12].contains cop

/-- Word i of an entry's block, a field of several words, low word first, and its STATUS word (0 where the operation has
no block). -/
def QEntry.word (e : QEntry) (i : Nat) : Nat := (e.block.getD i 0).toNat
def QEntry.words (e : QEntry) (i n : Nat) : Nat := (List.range n).foldr (fun j a => e.word (i + j) + 65536 * a) 0
def QEntry.status (e : QEntry) : W16 := if copWords e.cop = some 0 then 0 else e.block.getD 0 0
/-- FLAGS, and its NEXT bit. -/
def QEntry.flag (e : QEntry) (i : Nat) : Bool := (e.block.getD 1 0).getLsbD i

def State.setCq (s : State) (f : CqSt → CqSt) : State := { s with cq := f s.cq }

/-! ### Outcomes (R222, R223) -/

/-- OUTCOME codes. -/
def qDone : Nat := 1
def qSkipped : Nat := 2
def qRejected : Nat := 3
def qPassed : Nat := 4
def qTimeout : Nat := 5
def qDropped : Nat := 6
def qFollowed : Nat := 7
def qCancelled : Nat := 8
def qFaulted : Nat := 9

/-- The status word written, where SW = 1. -/
def State.qStatus (s : State) (k : Nat) (st : W16) (outcome detail : Nat) : State :=
  if st.getLsbD 15 then s.dmWrite k (st.toNat % 32768) (BitVec.ofNat 16 (256 * outcome + detail)) else s

/-- An accepted operation completes. -/
def State.opDone (s : State) (id outcome detail : Nat) : State :=
  match s.cq.ops.find? (fun o => o.id == id) with
  | some o =>
    ((s.setCq fun q => { q with ops := q.ops.filter (fun x => x.id != id) }).qStatus o.keeper o.status outcome detail).cqCnt
      o.keeper 1
  | none => s

def State.opDone? (s : State) (id : Option Nat) (outcome : Nat) : State := id.elim s (fun i => s.opDone i outcome 0)

/-- Every entry of every queue replaced, by its Keeper. -/
def State.mapQueues (s : State) (f : Nat → QEntry → QEntry) : State :=
  s.setCq fun q => { q with queues := q.queues.map (fun e => (e.1, e.2.map (f e.1))) }

/-- The bank of a FIRE or SHUT has closed: a FENCE.HOST that waits for it waits for that firing from now on (R226). -/
def State.opFiring (s : State) (id : Option Nat) (k seq : Nat) : State :=
  match id with
  | some i => s.mapQueues fun _ x =>
      if x.fires.contains i then { x with fires := x.fires.filter (· ≠ i), firings := x.firings ++ [(k, seq)] } else x
  | none => s

/-- A FIRE completes as its bank closes. -/
def State.opFired (s : State) (id : Option Nat) (k seq : Nat) : State := (s.opFiring id k seq).opDone? id qDone

/-- The FIREs and SHUTs of items that set boundary `b` of kiln k (R348), as Keeper and issue number; and the kiln without them. -/
def Kiln.itemsAt (v : Kiln) (b : Nat) : List (Nat × Nat) := (v.byItem.filter (fun e => e.1 == b)).map (·.2)
def Kiln.dropItems (v : Kiln) (b : Nat) : Kiln := { v with byItem := v.byItem.filter (fun e => e.1 != b) }

/-- A boundary that items set has closed as firing `seq`: a FENCE.HOST that waits for them waits for that firing from now on. -/
def State.itemsFired (s : State) (k b seq : Nat) : State :=
  let is := (s.kiln k).itemsAt b
  (s.setKiln k ((s.kiln k).dropItems b)).mapQueues fun kp x =>
    let hit := x.follows.filter (fun i => is.contains (kp, i))
    { x with follows := x.follows.filter (fun i => !hit.contains i), firings := x.firings ++ hit.map (fun _ => (k, seq)) }

/-! ### The queue (R221, R230, R232) -/

/-- The head of a queue, and its entry replaced or removed. -/
def State.qHead (s : State) (k : Nat) : Option QEntry := (s.queue k).head?
def State.qSetHead (s : State) (k : Nat) (e : QEntry) : State := s.setQueue k (e :: (s.queue k).drop 1)
def State.qPop (s : State) (k : Nat) : State := s.setQueue k ((s.queue k).drop 1)

/-- Every entry of a queue that is still in it cancelled, oldest first. Entries leave the queue at acceptance, and a
barrier at its completion. -/
def State.qCancel (s : State) (k : Nat) : State :=
  let es := s.queue k
  es.foldl (fun s e => (s.qStatus k e.status qCancelled 0).cqCnt k 3) (s.setQueue k [])

/-- The head entry faults: it has no effect, every entry behind it is cancelled, and the core takes a CONDUCT trap at its
next boundary. -/
def State.qFault (s : State) (k : Nat) (e : QEntry) (cause : Nat) : State :=
  let s := ((s.qPop k).qStatus k e.status qFaulted cause).cqCnt k 2
  let s := s.qCancel k
  s.setCore k { s.core k with cfault := some (cause, e.addr) }

/-- The head entry accepted: it leaves the queue and becomes an operation, whose number is the state's `nextOp` before. -/
def State.qAccept (s : State) (k : Nat) (e : QEntry) (kilns : List Nat) : State :=
  let s := s.qPop k
  s.setCq fun q => { q with ops := q.ops ++ [⟨q.nextOp, k, e.issue, e.cop, e.status, kilns⟩], nextOp := q.nextOp + 1 }

/-- The head entry accepted and completed at once. -/
def State.qFinish (s : State) (k : Nat) (e : QEntry) (outcome detail : Nat) : State :=
  ((s.qPop k).qStatus k e.status outcome detail).cqCnt k 1

/-- The barrier at the head begins to wait. -/
def State.qWait (s : State) (k : Nat) (e : QEntry) : State := s.qSetHead k { e with stage := 2, since := s.time.ticks }

/-! ### Barriers on device time (R228, R296) -/

/-- T of a WAITT. -/
def QEntry.target (e : QEntry) : W32 := lo32 (e.words 2 2)

/-- A WAITT judged as at dispatch: it waits while RUN = 0 or its target lies ahead. -/
def State.waittJudge (s : State) (k : Nat) (e : QEntry) : State :=
  let d := (e.target - s.ns).toNat
  if !s.running then s.qWait k e
  else if d = 0 then s.qFinish k e qDone 0
  else if d ≥ 2 ^ 31 then s.qFinish k e qPassed 0
  else s.qWait k e

/-- The barrier that waits at the head of a queue, if its COP is this one. -/
def State.waiting (s : State) (k cop : Nat) : Option QEntry :=
  match s.qHead k with
  | some e => if e.cop = cop ∧ e.stage = 2 then some e else none
  | none => none

/-- Every waiting WAITT judged again. -/
def State.rejudgeWaitts (s : State) : State :=
  (List.range 8).foldl (fun s k => match s.waiting k 0x09 with
    | some e => s.waittJudge k e
    | none => s) s

/-- An event on a channel ends the WAITBs that wait for it (R223, R324). -/
def State.waitbEvent (s : State) (c : Nat) : State :=
  (List.range 8).foldl (fun s k => match s.waiting k 0x0A with
    | some e => if e.word 2 = c then s.qFinish k e qDone 0 else s
    | none => s) s

/-! ### Fences (R225, R226, R349) -/

/-- A firing's completion records are visible or counted as dropped: its drain is over. -/
def State.firingOver (s : State) (k seq : Nat) : Bool :=
  match (s.kiln k).drain with
  | some d => !(d.seq == seq)
  | none => true

/-- The follow log of a Keeper (R348). -/
def State.followLog (s : State) (k : Nat) : List FollowEntry := tget [] s.pair.follow k

/-- A FIRE or SHUT that a standby follows has no firing of its own yet: its item has not come, or its boundary has not closed. -/
def State.following (s : State) (k i : Nat) : Bool :=
  (s.followLog k).any (fun f => f.issue == i) || s.kilns.any (fun e => e.2.byItem.any (fun x => x.2 == (k, i)))

/-- Some ring's index has not been written back over what a FENCE.HOST waits for (R268). -/
def State.owes (s : State) (o : Owed) : Bool := s.link.rings.any (fun e => e.2.owed.contains o)

/-- Whether the condition of a waiting fence is met. An operation is in `ops` until it completes; entries behind the fence
are not accepted while it waits, so every operation of its Keeper there is an earlier one. -/
def State.fenceMet (s : State) (k : Nat) (e : QEntry) : Bool :=
  let mine := s.cq.ops.filter (fun o => o.keeper == k)
  match e.cop with
  | 0x10 => mine.isEmpty
  | 0x11 => mine.all (fun o => !o.kilns.contains (e.word 0))
  | _ => e.posts.all (fun i => s.cq.ops.all (fun o => o.id != i) && !s.owes (.post i k))
      && e.fires.all (fun i => s.cq.ops.all (fun o => o.id != i))
      && e.follows.all (fun i => !s.following k i)
      && e.firings.all (fun f => s.firingOver f.1 f.2 && !s.owes (.firing f.1 f.2))

/-! ### TIM_RUN_WRITE (R296, R297) -/

/-- A write of TIM_CTL: a restart of device time judges compares and waiting WAITTs again. -/
def execTimRunWrite (v : W32) (s : State) : Host.Outcome State Fault Refusal :=
  gate s.auxUp s fun s =>
    let on := !s.running && bit v 0
    let s := s.plainWrite oTimCtl v
    if on then s.rejudgeCmps.rejudgeWaitts else s

end Sys2Proof.Machine
end

