-- ==== Sys2Proof/Machine/KeeperSys.lean ====
section
/-! DEFINITION. Running Keeper cores: issue with the timing of R207, traps, interrupts, starting and stopping, and one meaning
per instruction (R196, R200 to R217). What an instruction does to its core is in Keeper. -/

namespace Sys2Proof.Machine

/-! ### Boundaries (R209, R215) -/

/-- The next instruction is no delay slot and no repeat, and no fabric load is outstanding. -/
def Core.interruptible (c : Core) : Bool := c.after.isNone && !c.rpt && c.load.isNone
/-- An interrupt pending, enabled and unmasked. -/
def Core.irqReady (c : Core) : Bool := c.ie.getLsbD 0 && decide (c.ip &&& c.im ≠ 0)
/-- Every lag of R207 over: entry and RETI complete every issued instruction. -/
def Core.flushLag (c : Core) : Core := { c with aOld := c.a, avOld := avBits c.st }

/-- Core cycles of 1.0 GHz in ticks of the 625 MHz output, rounded down. -/
def cyclesOf (ticks : Nat) : Nat := ticks * 8 / 5

/-- The cycles of a spell in which the core stalled or waited counted, under counter j as well where given. -/
def State.kSpell (s : State) (k : Nat) (j : Option Nat) : State :=
  let n := cyclesOf (s.time.ticks - (s.core k).since)
  let s := s.kCnt k 0 n
  j.elim s (fun j => s.kCnt k j n)

/-- A core that stalled or waited runs again: its cycles are counted, under counter j as well where given. -/
def State.kResume (s : State) (k : Nat) (j : Option Nat) : State :=
  (s.setCore k { s.core k with run := 1, behind := false }).kSpell k j

/-- A read of the counters of core k finds the cycles of its present spell in them (R217). -/
def State.kLook (s : State) (k : Nat) : State :=
  let c := s.core k
  let j := if c.run = 3 then some (if c.load.isSome then 2 else 3) else none
  if c.run = 2 ∨ c.run = 3 ∨ c.behind then (s.kSpell k j).setCore k { c with since := s.time.ticks } else s

/-- Leave WAITI, a stall on a full queue, or the wait behind a store. -/
def State.kWake (s : State) (k : Nat) : State :=
  let c := s.core k
  if c.run = 2 ∨ c.run = 1 ∧ c.behind then s.kResume k none
  else if c.run = 3 ∧ c.load.isNone then s.kResume k (some 3)
  else s

/-- A core halted for a reason; its unaccepted entries are cancelled by STOP alone. -/
def State.kHalt (s : State) (k why : Nat) : State :=
  let s := s.kWake k
  s.setCore k { s.core k with run := 0, why := why, stop := false }

/-- A STOP that has been waiting takes effect once its boundary has come (R215, R232). -/
def State.kSettle (s : State) (k : Nat) : State :=
  let c := s.core k
  if c.stop && c.interruptible && decide (c.run ≠ 0) then (s.kHalt k 1).qCancel k else s

/-! ### Traps (R212 to R214) -/

/-- tc of a trap. -/
def tcOf (cause sub : Nat) (ds rp : Bool) : W16 := BitVec.ofNat 16 (cause + 16 * b2n ds + 32 * b2n rp + 256 * sub)

/-- Entry to a trap at the core's next instruction, or the halt that stands in its place. -/
def State.kTrap (s : State) (k cause sub : Nat) : State :=
  let s := s.kWake k
  let c := s.core k
  let tc := tcOf cause sub c.after.isSome c.rpt
  let s := (s.setReg (oKpr k + 0xC) (lo32 (65536 * tc.toNat + c.pc.toNat))).kCnt k 4 1
  let halt := fun (why : Nat) => (s.kHalt k why).publish 101
  if s.rb (oKpr k) 1 then halt 4
  else if c.ie.getLsbD 3 then halt 3
  else
    let ie : BitVec 4 := (c.ie &&& 0x4#4) ||| 0x8#4 ||| (if c.ie.getLsbD 0 then 0x2#4 else 0)
    (((s.setCore k { c.flushLag with ir := c.pc, tc := tc, ie := ie, pc := 0x10, after := none, rpt := false }).kCnt k 0 3)).kSettle k

/-- The conduct fault reported to the core taken as a trap. -/
def State.kCfault (s : State) (k cause : Nat) (addr : BitVec 14) : State :=
  let s := s.setReg (oKpr k + 0x10) (lo32 (2 ^ 24 * cause + addr.toNat))
  (s.setCore k { s.core k with cfault := none }).kTrap k 3 cause

/-! ### Interrupts (R208, R209) -/

/-- Bits of ip set; a core in WAITI goes on once an unmasked bit is pending. -/
def State.setIp (s : State) (k : Nat) (b : Byte) : State :=
  let c := s.core k
  let s := s.setCore k { c with ip := c.ip ||| b }
  if c.run = 2 ∧ (c.ip ||| b) &&& c.im ≠ 0 then s.kWake k else s

/-- Interrupt entry. -/
def State.kInterrupt (s : State) (k : Nat) : State :=
  let s := s.kWake k
  let c := s.core k
  let ie : BitVec 4 := (c.ie &&& 0x8#4) ||| 0x4#4 ||| 0x2#4
  ((s.setCore k { c.flushLag with ir := c.pc, ie := ie, pc := 0x20 }).kCnt k 5 1).kCnt k 0 3

/-! ### Issue (R197, R206, R207, R213) -/

/-- A core that can issue: running, or stalled on a full queue whose instruction tries again; no trap or interrupt comes
first at this boundary. -/
def State.kIssues (s : State) (k : Nat) : Bool :=
  let c := s.core k
  decide (k < 8) && c.load.isNone && (decide (c.run = 1) || decide (c.run = 3)) && c.cfault.isNone
    && !(c.interruptible && c.irqReady)

/-- The word at the PC. -/
def Core.word (c : Core) : W32 := BitVec.ofNat 32 (rdLe c.imem (4 * c.pc.toNat) 4)

/-- The word at the PC fetched: whether it has an uncorrectable error, and the state after. -/
def State.kFetch (s : State) (k : Nat) : Bool × State :=
  let a := 4 * (s.core k).pc.toNat
  let (bad, s) := s.scan 4 k a (a + 4) 8 0 false
  (!bad.isEmpty, s)

/-- The counters of an instruction that issues: a repeat counts rc down before it reads its sources. -/
def Core.beforeIssue (c : Core) : Core := if c.rpt then { c with rc := c.rc - 1 } else c

/-- Where control goes after an instruction that is no branch: to what follows a delay slot, round a repeat, or on. -/
def Core.nextPc (c : Core) : Core :=
  match c.after with
  | some (.goto t) => { c with after := none, pc := t }
  | some .reti =>
    let pie := c.ie.getLsbD 1
    let ie : BitVec 4 := (c.ie &&& 0x2#4) ||| (if pie then 0x1#4 else 0)
    { c.flushLag with after := none, pc := c.ir, ie := ie }
  | none =>
    if c.rpt then if c.rc = 0 then { c with rpt := false, pc := c.pc + 1 } else c
    else { c with pc := c.pc + 1 }

/-- What an instruction right after sees of accumulators and of AV, AVS: the values before this one, but for st written by
MVD. -/
def lagAfter (old new : Core) (stW : Bool) : Core := { new with aOld := old.a, avOld := avBits (if stW then new.st else old.st) }

/-- An issue counted: one cycle, one instruction. -/
def State.kCount (s : State) (k : Nat) : State := (s.kCnt k 0 1).kCnt k 1 1

/-- A request posted to the control fabric (R192, R332). -/
def State.fabPost (s : State) (r : FabReq) : State := { s with xbr := { s.xbr with waiting := s.xbr.waiting ++ [r] } }

/-- The outcome of an instruction carried out. `old` is the core before it. -/
def State.kApply (s : State) (k : Nat) (old : Core) : KRes → State
  | .ok c stW => ((s.kCount k).setCore k (lagAfter old c stW).nextPc).kSettle k
  | .jump c t => (s.kCount k).setCore k { lagAfter old c false with after := some t, pc := c.pc + 1 }
  | .rpt c => (s.kCount k).setCore k { lagAfter old c false with rpt := true, pc := c.pc + 1 }
  | .wait c =>
    let c := (lagAfter old c false).nextPc
    ((s.kCount k).setCore k (if c.ip &&& c.im = 0 then { c with run := 2, since := s.time.ticks } else c)).kSettle k
  | .trap cause sub => (s.setCore k old).kTrap k cause sub
  | .load addr beats long half dest ptr v =>
    let c := (lagAfter old old.beforeIssue false).nextPc
    let l : LoadPend := ⟨addr, beats, long, half, dest, ptr, v, old.pc, old.after, old.rpt, old.rc, old.ie, s.time.ticks⟩
    (s.setCore k { c with load := some l, run := 3, since := s.time.ticks }).fabPost ⟨k, addr, false, beats, [], 0xF⟩
  | .store c addr data be =>
    let c := (lagAfter old c false).nextPc
    (((s.kCount k).setCore k { c with store := true }).fabPost ⟨k, addr, true, 1, data, be⟩).kSettle k

/-- An access to the fabric waits for the core's store before it (R192). -/
def KRes.isFabric : KRes → Bool
  | .load .. | .store .. => true
  | _ => false

/-- An instruction that traps has no effect. -/
def KRes.traps : KRes → Bool
  | .trap .. => true
  | _ => false

/-- A fabric access waits behind the core's own store: its cycles count from here (R192, R217). -/
def State.kBehind (s : State) (k : Nat) : State :=
  let c := s.core k
  if c.behind ∨ c.run ≠ 1 then s else s.setCore k { c with behind := true, since := s.time.ticks }

/-- One instruction with its word: it issues if it is the word at the PC. A word with an uncorrectable error traps FETCH; an
illegal word, or one that may not stand there, traps ILLEGAL. -/
def State.kIssue (s : State) (k : Nat) (w : W32) (f : Core → KRes) : State :=
  let (ue, s1) := s.kFetch k
  let s1 := s1.kWake k
  let c := s1.core k
  if c.word ≠ w then s
  else if ue then s1.kTrap k 2 0
  else if !(wordOk w && placeOk c w) then s1.kTrap k 1 0
  else
    let r := f c.beforeIssue
    if r.isFabric && c.store then s.kBehind k else s1.kApply k c r

/-- The Keepers' island runs, and they are released (R281). -/
def State.kUp (s : State) : Bool := s.up && s.pwr.released

/-- The gate of every instruction row. -/
def kRow (k : Nat) (s : State) (f : State → State) : Host.Outcome State Fault Refusal :=
  gate (s.kUp && s.kIssues k) s f

/-- A data-memory load: the words that read with an uncorrectable error, and the state that has met the errors of the words
at these addresses (R283, R284). -/
def State.dmUe (s : State) (k a : Nat) : Bool :=
  s.err.upsets.any (fun u => u.ue && u.cls == 5 && u.unit == k && (u.addr == 2 * a || u.addr == 2 * a + 1))
def State.dmMeet (s : State) (k : Nat) (as : List Nat) : State :=
  as.foldl (fun s a => (s.scan 5 k (2 * a) (2 * a + 2) 9 0 false).2) s

/-- The data-memory words an instruction reads from the core's own memory. -/
def ownWords (c : Core) (long : Bool) (p mode : BitVec 3) (imm : W16) : List Nat :=
  let a := (ea c p mode imm).1
  if regionOf a = .dmem then if long then if a.getLsbD 0 then [] else [a.toNat, a.toNat + 1] else [a.toNat] else []

/-- A load: upsets strike, the words are read with their errors met, and the instruction goes on. -/
def State.kLoad (s : State) (k : Nat) (w : W32) (up : Option Upset) (as : Core → List Nat)
    (f : (Nat → Bool) → Core → KRes) : State :=
  let s0 := s.upset up
  let c := s0.core k
  if c.word = w ∧ wordOk w ∧ placeOk c w ∧ !(s0.kFetch k).1 then
    let ue := s0.dmUe k
    (s0.dmMeet k (as c)).kIssue k w (f ue)
  else s0.kIssue k w (f (fun _ => false))

/-- A store carried out in the core's own memory: the words it wrote have fresh check bits (R192, R283). -/
def State.kStore (s : State) (k : Nat) (w : W32) (as : Core → List Nat) (f : Core → KRes) : State :=
  let c := s.core k
  let t := s.kIssue k w f
  if c.word = w ∧ wordOk w ∧ placeOk c w ∧ !(s.kFetch k).1 ∧ !(f c.beforeIssue).traps then
    (as c).foldl (fun t a => t.clean 5 k (2 * a) (2 * a + 2)) t
  else t

/-! ### The instructions -/

def execKNop (k : Nat) (s : State) : Host.Outcome State Fault Refusal := kRow k s fun s => s.kIssue k 0 kOk
def execKAdd (k : Nat) (d a b : BitVec 4) (s : State) : Host.Outcome State Fault Refusal :=
  kRow k s fun s => s.kIssue k (encR 0x01 d a b 0 0) (kAddSem d a (fun c => c.getW b))
def execKSub (k : Nat) (d a b : BitVec 4) (s : State) : Host.Outcome State Fault Refusal :=
  kRow k s fun s => s.kIssue k (encR 0x02 d a b 0 0) (kSubSem d a b)
def execKAddi (k : Nat) (d a : BitVec 4) (imm : W16) (s : State) : Host.Outcome State Fault Refusal :=
  kRow k s fun s => s.kIssue k (encI 0x03 d a imm) (kAddSem d a (fun _ => imm))
def execKAnd (k : Nat) (d a b : BitVec 4) (s : State) : Host.Outcome State Fault Refusal :=
  kRow k s fun s => s.kIssue k (encR 0x04 d a b 0 0) (kLogicSem (· &&& ·) d a (fun c => c.getW b))
def execKOr (k : Nat) (d a b : BitVec 4) (s : State) : Host.Outcome State Fault Refusal :=
  kRow k s fun s => s.kIssue k (encR 0x05 d a b 0 0) (kLogicSem (· ||| ·) d a (fun c => c.getW b))
def execKXor (k : Nat) (d a b : BitVec 4) (s : State) : Host.Outcome State Fault Refusal :=
  kRow k s fun s => s.kIssue k (encR 0x06 d a b 0 0) (kLogicSem (· ^^^ ·) d a (fun c => c.getW b))
def execKAndi (k : Nat) (d a : BitVec 4) (imm : W16) (s : State) : Host.Outcome State Fault Refusal :=
  kRow k s fun s => s.kIssue k (encI 0x07 d a imm) (kLogicSem (· &&& ·) d a (fun _ => imm))
def execKOri (k : Nat) (d a : BitVec 4) (imm : W16) (s : State) : Host.Outcome State Fault Refusal :=
  kRow k s fun s => s.kIssue k (encI 0x08 d a imm) (kLogicSem (· ||| ·) d a (fun _ => imm))
def execKXori (k : Nat) (d a : BitVec 4) (imm : W16) (s : State) : Host.Outcome State Fault Refusal :=
  kRow k s fun s => s.kIssue k (encI 0x09 d a imm) (kLogicSem (· ^^^ ·) d a (fun _ => imm))
def execKShl (k : Nat) (d a : BitVec 4) (n : Count) (s : State) : Host.Outcome State Fault Refusal :=
  kRow k s fun s => s.kIssue k (encShift 0x0A d a n) (kShiftSem (fun x n => x <<< n) d a n)
def execKAsr (k : Nat) (d a : BitVec 4) (n : Count) (s : State) : Host.Outcome State Fault Refusal :=
  kRow k s fun s => s.kIssue k (encShift 0x0B d a n) (kShiftSem (fun x n => x.sshiftRight n) d a n)
def execKLsr (k : Nat) (d a : BitVec 4) (n : Count) (s : State) : Host.Outcome State Fault Refusal :=
  kRow k s fun s => s.kIssue k (encShift 0x0C d a n) (kShiftSem (fun x n => x >>> n) d a n)
def execKCmp (k : Nat) (a b : BitVec 4) (s : State) : Host.Outcome State Fault Refusal :=
  kRow k s fun s => s.kIssue k (encR 0x0D 0 a b 0 0) (kCmpSem a (fun c => c.getW b))
def execKCmpi (k : Nat) (a : BitVec 4) (imm : W16) (s : State) : Host.Outcome State Fault Refusal :=
  kRow k s fun s => s.kIssue k (encI 0x0E 0 a imm) (kCmpSem a (fun _ => imm))
def execKMovi (k : Nat) (d : BitVec 4) (imm : W16) (s : State) : Host.Outcome State Fault Refusal :=
  kRow k s fun s => s.kIssue k (encI 0x0F d 0 imm) (kMoviSem d imm)
def execKNeg (k : Nat) (d a : BitVec 4) (s : State) : Host.Outcome State Fault Refusal :=
  kRow k s fun s => s.kIssue k (encR 0x10 d a 0 0 0) (kNegSem d a)
def execKAbs (k : Nat) (d a : BitVec 4) (s : State) : Host.Outcome State Fault Refusal :=
  kRow k s fun s => s.kIssue k (encR 0x11 d a 0 0 0) (kAbsSem d a)
def execKExp (k : Nat) (d a : BitVec 4) (s : State) : Host.Outcome State Fault Refusal :=
  kRow k s fun s => s.kIssue k (encR 0x12 d a 0 0 0) (kExpSem d a)
def execKBexp (k : Nat) (a : BitVec 4) (s : State) : Host.Outcome State Fault Refusal :=
  kRow k s fun s => s.kIssue k (encR 0x13 0 a 0 0 0) (kBexpSem a)
def execKMul (k : Nat) (a : BitVec 1) (ty : BitVec 2) (x y : BitVec 4) (s : State) : Host.Outcome State Fault Refusal :=
  kRow k s fun s => s.kIssue k (encA 0x14 a ty 0 x y 0 0 0) (kMulSem a ty x y)
def execKMac (k : Nat) (a : BitVec 1) (ty : BitVec 2) (x y : BitVec 4) (s : State) : Host.Outcome State Fault Refusal :=
  kRow k s fun s => s.kIssue k (encA 0x15 a ty 0 x y 0 0 0) (kMacSem 1 a ty x y)
def execKMsu (k : Nat) (a : BitVec 1) (ty : BitVec 2) (x y : BitVec 4) (s : State) : Host.Outcome State Fault Refusal :=
  kRow k s fun s => s.kIssue k (encA 0x16 a ty 0 x y 0 0 0) (kMacSem (-1) a ty x y)

/-- The data-memory words of DMAC, where both addresses lie there. -/
def dmacWords (pi pj : BitVec 3) (c : Core) : List Nat :=
  let x := c.getP pi
  let y := c.getP pj
  if regionOf x = .dmem ∧ regionOf y = .dmem then [x.toNat, y.toNat] else []

def execKDmac (k : Nat) (a : BitVec 1) (ty : BitVec 2) (n pi : BitVec 3) (ci : BitVec 1) (pj : BitVec 3) (cj : BitVec 1)
    (s : State) : Host.Outcome State Fault Refusal :=
  kRow k s fun s => s.kLoad k (encD 0x17 a ty n pi ci pj cj) none (dmacWords pi pj)
    (fun ue => kDmacSem ue a ty n pi ci pj cj)
def execKRnd (k : Nat) (d : BitVec 4) (a : BitVec 1) (n : RndShift) (s : State) : Host.Outcome State Fault Refusal :=
  kRow k s fun s => s.kIssue k (encRnd d a n) (kRndSem d a n)
def execKLac (k : Nat) (a : BitVec 1) (x : BitVec 4) (sh : BitVec 6) (s : State) : Host.Outcome State Fault Refusal :=
  kRow k s fun s => s.kIssue k (encA 0x19 a 0 0 x 0 sh 0 0) (kLacSem a x sh)
def execKSha (k : Nat) (a : BitVec 1) (sh : BitVec 6) (s : State) : Host.Outcome State Fault Refusal :=
  kRow k s fun s => s.kIssue k (encA 0x1A a 0 0 0 0 sh 0 0) (kShaSem a sh)
def execKAdda (k : Nat) (a a2 : BitVec 1) (ty : BitVec 2) (s : State) : Host.Outcome State Fault Refusal :=
  kRow k s fun s => s.kIssue k (encA 0x1B a ty a2 0 0 0 0 0) (kAddaSem a a2 ty)
def execKClra (k : Nat) (a : BitVec 1) (s : State) : Host.Outcome State Fault Refusal :=
  kRow k s fun s => s.kIssue k (encA 0x1C a 0 0 0 0 0 0 0) (kClraSem a)
def execKExpa (k : Nat) (d : BitVec 4) (a : BitVec 1) (s : State) : Host.Outcome State Fault Refusal :=
  kRow k s fun s => s.kIssue k (encA 0x1D a 0 0 0 0 0 0 d) (kExpaSem d a)
def execKLd (k : Nat) (d : BitVec 4) (p mode : BitVec 3) (imm : W16) (up : Option Upset) (s : State) :
    Host.Outcome State Fault Refusal :=
  kRow k s fun s => s.kLoad k (encM 0x20 d p mode imm) up (fun c => ownWords c false p mode imm)
    (fun ue => kLdSem ue d p mode imm)
def execKSt (k : Nat) (x : BitVec 4) (p mode : BitVec 3) (imm : W16) (s : State) : Host.Outcome State Fault Refusal :=
  kRow k s fun s => s.kStore k (encM 0x21 x p mode imm) (fun c => ownWords c false p mode imm) (kStSem false x p mode imm)
def execKStx (k : Nat) (x : BitVec 4) (p mode : BitVec 3) (imm : W16) (s : State) : Host.Outcome State Fault Refusal :=
  kRow k s fun s => s.kStore k (encM 0x22 x p mode imm) (fun c => ownWords c false p mode imm) (kStSem true x p mode imm)
def execKLdl (k : Nat) (d : BitVec 4) (p mode : BitVec 3) (imm : W16) (up : Option Upset) (s : State) :
    Host.Outcome State Fault Refusal :=
  kRow k s fun s => s.kLoad k (encM 0x23 d p mode imm) up (fun c => ownWords c true p mode imm)
    (fun ue => kLdlSem ue d p mode imm)
def execKStl (k : Nat) (x : BitVec 4) (p mode : BitVec 3) (imm : W16) (s : State) : Host.Outcome State Fault Refusal :=
  kRow k s fun s => s.kStore k (encM 0x24 x p mode imm) (fun c => ownWords c true p mode imm) (kStlSem x p mode imm)
def execKLip (k : Nat) (p : BitVec 3) (imm : BitVec 23) (s : State) : Host.Outcome State Fault Refusal :=
  kRow k s fun s => s.kIssue k (encP 0x25 p imm) (kLipSem p imm)
def execKAddp (k : Nat) (p : BitVec 3) (imm : W16) (s : State) : Host.Outcome State Fault Refusal :=
  kRow k s fun s => s.kIssue k (encM 0x26 0 p 0 imm) (kAddpSem p imm)
def execKB (k : Nat) (cc : BitVec 4) (target : BitVec 14) (s : State) : Host.Outcome State Fault Refusal :=
  kRow k s fun s => s.kIssue k (encB 0x28 cc 0 target) (kBSem cc target)
def execKCall (k : Nat) (target : BitVec 14) (s : State) : Host.Outcome State Fault Refusal :=
  kRow k s fun s => s.kIssue k (encB 0x29 0 0 target) (kCallSem target)
def execKJr (k : Nat) (x : BitVec 4) (s : State) : Host.Outcome State Fault Refusal :=
  kRow k s fun s => s.kIssue k (encB 0x2A 0 x 0) (kJrSem x)
def execKBdnz (k : Nat) (x : BitVec 4) (target : BitVec 14) (s : State) : Host.Outcome State Fault Refusal :=
  kRow k s fun s => s.kIssue k (encB 0x2B 0 x target) (kBdnzSem x target)
def execKReti (k : Nat) (s : State) : Host.Outcome State Fault Refusal :=
  kRow k s fun s => s.kIssue k (encB 0x2C 0 0 0) (fun c => .jump c .reti)
def execKRpt (k : Nat) (n : BitVec 12) (s : State) : Host.Outcome State Fault Refusal :=
  kRow k s fun s => s.kIssue k (encK 0x2D n) (kRptSem n)
def execKWaiti (k : Nat) (s : State) : Host.Outcome State Fault Refusal :=
  kRow k s fun s => s.kIssue k (encK 0x2E 0) .wait
def execKMvs (k : Nat) (d : BitVec 4) (code : BitVec 6) (s : State) : Host.Outcome State Fault Refusal :=
  kRow k s fun s => s.kIssue k (encS 0x30 d code) (kMvsSem d code)
def execKMvd (k : Nat) (x : BitVec 4) (code : BitVec 6) (s : State) : Host.Outcome State Fault Refusal :=
  kRow k s fun s => s.kIssue k (encS 0x31 x code) (kMvdSem x code)

/-! ### Conduct instructions (R218, R219) -/

/-- The word of a conduct instruction. -/
def encC (cop : BitVec 6) (p : BitVec 3) (imm : W16) : W32 := put (BitVec.ofNat 6 0x3C) 26 ||| put cop 20 ||| put p 17 ||| put imm 0

/-- The field rules of R218: a COP that exists; for an immediate operand p is 0 and imm16 obeys the operand's rule (a
SIGNAL channel or a FENCE.KILN number outside its range is no field rule: it faults as RANGE). -/
def conductOk (cop : BitVec 6) (p : BitVec 3) (imm : W16) : Bool :=
  match copWords cop.toNat with
  | none => false
  | some 0 => decide (p = 0) && (decide (cop = 0x0B) || decide (cop = 0x11) || decide (imm = 0))
  | some _ => true

/-- The address of a block: p + imm16 modulo 2²⁴. -/
def blockAddr (c : Core) (p : BitVec 3) (imm : W16) : W24 := c.getP p + imm.signExtend 24

/-! ### Starting and stopping (R196, R215, R232) -/

/-- A halted core started at an address. Its memories, its queue, a store still on its way and a conduct fault not yet
trapped stand; its issue numbers start again (R348). -/
def State.kStart (s : State) (k : Nat) (entry : BitVec 14) : State :=
  let c := s.core k
  if c.run ≠ 0 then s
  else
    let s := s.setCore k { Core.init with run := 1, why := c.why, pc := entry, be := 15, store := c.store, cfault := c.cfault
                                          imem := c.imem, dmem := c.dmem }
    s.setCq fun q => { q with issued := tset 0 q.issued k 0 }

/-- STOP: the core halts at its next interruptible boundary, now where it stands at one. -/
def State.kStop (s : State) (k : Nat) : State :=
  let c := s.core k
  if c.run = 0 then s else (s.setCore k { c with stop := true }).kSettle k

/-! ### Events of the core -/

/-- ILLEGAL_INSTRUCTION (R212, R213): the word at the PC is illegal, or reads with an uncorrectable error. -/
def execIllegalInstruction (k : Nat) (s : State) : Host.Outcome State Fault Refusal :=
  kRow k s fun s =>
    let (ue, s1) := s.kFetch k
    let c := s1.core k
    let w := c.word
    let ok := if opOf w = 0x3C then !bit w 16 && conductOk (BitVec.ofNat 6 (fld w 20 6)) (BitVec.ofNat 3 (fld w 17 3)) (w.setWidth 16)
      else wordOk w
    if ue then s1.kTrap k 2 0
    else if !(ok && placeOk c w) then s1.kTrap k 1 0
    else s

/-- TRAP_CONDUCT (R213): a conduct fault waits, and the core is at a boundary. -/
def execTrapConduct (k : Nat) (s : State) : Host.Outcome State Fault Refusal :=
  let c := s.core k
  gate (s.kUp && decide (k < 8) && decide (c.run ≠ 0) && c.load.isNone) s fun s =>
    match c.cfault with
    | some (cause, addr) => s.kCfault k cause addr
    | none => s

/-- INTERRUPT_ENTRY (R209). -/
def execInterruptEntry (k : Nat) (s : State) : Host.Outcome State Fault Refusal :=
  let c := s.core k
  gate (s.kUp && decide (k < 8) && (decide (c.run = 1) || decide (c.run = 3)) && c.interruptible && c.irqReady
      && c.cfault.isNone) s fun s => s.kInterrupt k

/-- KEEPER_START (R196): START written to KPR_CTL. -/
def execKeeperStart (k : Nat) (s : State) : Host.Outcome State Fault Refusal :=
  writeGate (decide (k < 8)) s fun s => s.kStart k (BitVec.ofNat 14 (s.rf (oKpr k + 4) 0 14))

/-- KEEPER_STOP (R215): STOP written to KPR_CTL. -/
def execKeeperStop (k : Nat) (s : State) : Host.Outcome State Fault Refusal :=
  writeGate (decide (k < 8)) s fun s => s.kStop k

/-- KPR_IRQ_SET (R208): ones written to KPR_IRQ.PEND. -/
def execKprIrqSet (k : Nat) (v : W32) (s : State) : Host.Outcome State Fault Refusal :=
  writeGate (decide (k < 8)) s fun s => s.setIp k (v.setWidth 8)

end Sys2Proof.Machine
end

