-- ==== Sys2Proof/Machine/Ref.lean ====
section
/-! DEFINITION. The reference unit: qualification, selection, switches, holdover, and the outputs divided from the 625 MHz
output (R304 to R314). -/

namespace Sys2Proof.Machine

def oRefCtl : Nat := 0x500000
def oRefStat : Nat := 0x500004
def oRefIn (n : Nat) : Nat := 0x500100 + 16 * n
def secTicks : Nat := 625000000

/-- QSTATE: 0 OFF, 1 DISQUALIFIED, 2 WAIT, 3 QUALIFIED (R305). -/
def State.qstate (s : State) (n : Nat) : Nat := s.rf (oRefIn n) 29 2
def State.setRef (s : State) (f : RefSt → RefSt) : State := { s with ref := f s.ref }
/-- A change of qualification, which publishes REF_QUAL and has the selection rule applied (R305, R306). -/
def State.setQ (s : State) (n q : Nat) : State :=
  if s.qstate n = q then s
  else ((s.setRf (oRefIn n) 29 2 q).publish 11).setRef fun r => { r with selDue := true }

def State.refMeas (s : State) (n : Nat) : Int := (s.reg (oRefIn n + 4)).toInt
def State.refRank (s : State) (n : Nat) : Nat := s.rf (oRefIn n) 16 4
def State.refState (s : State) : Nat := s.rf oRefStat 29 3
def State.refActive (s : State) : Nat := s.rf oRefStat 26 3
/-- A candidate (R306): QUALIFIED, with a rank from 0 to 14. -/
def State.isCand (s : State) (n : Nat) : Bool := s.qstate n == 3 && decide (s.refRank n ≤ 14)
def isPps (n : Nat) : Bool := n == 2 || n == 3

/-! ### The oscillator's curve and the natural logarithm (R311, R312) -/

/-- C(T) in 2⁻⁸ ppb at a temperature in 1/16 °C, exact (R51 rounds the holdover's result alone). -/
def State.curve (s : State) (t : Int) : Frac :=
  let t0 := signI 16 (s.rf 0x500030 16 16)
  let st := max 1 (s.rf 0x500030 0 8)
  let pt := fun (k : Nat) => (s.reg (0x500200 + 4 * k)).toInt
  let d := t - t0
  if d ≤ 0 then ⟨pt 0, 256⟩
  else if d ≥ 63 * st then ⟨pt 63, 256⟩
  else
    let k := d.toNat / st
    let r := d.toNat % st
    ⟨pt k * (st - r : Nat) + pt (k + 1) * (r : Nat), st * 256⟩

/-- The temperature in use (R312). -/
def State.refTemp (s : State) : Int := signI 16 (s.rf 0x50002C 0 16)
/-- T read: from TEMP_SW with TEMPSRC = 1, else from the hub die's sensor (R312). -/
def State.readTemp (s : State) (sensor : BitVec 16) : State :=
  s.setRf 0x50002C 0 16 (if s.rb oRefCtl 30 then s.rf 0x50002C 16 16 else sensor.toNat)

/-- 2⁹⁶ times the sum of `n` terms of atanh's series from the term z^(2j+1). -/
def atanhTerms : Nat → Nat → Nat → Nat → Nat
  | 0, _, _, _ => 0
  | n + 1, j, t, z2 => t / (2 * j + 1) + atanhTerms n (j + 1) (t * z2 / 2 ^ 96) z2

/-- 2⁹⁶ times ln(a / b) for 0 < b ≤ a < 2 b. -/
def lnNear (a b : Nat) : Nat :=
  let z := (a - b) * 2 ^ 96 / (a + b)
  2 * atanhTerms 64 0 z (z * z / 2 ^ 96)

/-- 2⁹⁶ times ln(a / b) for a, b > 0, to within 2⁻⁸⁰: a / b brought between 1 and 2 by a power of two. -/
def lnRatio (a b : Nat) : Int :=
  let k := (Nat.log2 a : Int) - Nat.log2 b
  let (a', b') := if k ≥ 0 then (a, b * 2 ^ k.toNat) else (a * 2 ^ (-k).toNat, b)
  if a' ≥ b' then k * lnNear 2 1 + lnNear a' b' else (k - 1) * lnNear 2 1 + lnNear (2 * a') b'

/-- y of R311 in 2⁻⁸ ppb, from the held history and the age in seconds. -/
def State.holdY (s : State) (yHist cHist c : Frac) (age ageE : Nat) : Int :=
  let d0 := max 1 (min 65535 (s.reg 0x50003C).toNat) * 86400
  let lin := (s.reg 0x500034).toInt * ((age : Int) - ageE)
  let log := (s.reg 0x500038).toInt * lnRatio (d0 + age) (d0 + ageE)
  let aged : Frac := ⟨lin * 2 ^ 92 + log * 86400, 86400 * 2 ^ 104⟩
  let y := (((yHist.add c.neg).add cHist).add aged.neg).round
  max (-25600000) (min 25600000 y)

/-! ### Loop states (R308) -/

/-- Entry to HOLDOVER: the means of R311 are fixed, and REF_HOLDOVER published. -/
def State.enterHoldover (s : State) : State :=
  let h := (s.ref.hist.filter (fun e => decide (e.1 + 4 * secTicks ≤ s.time.ticks))).take 64
  let n := h.length
  let s := s.setRef fun r => { r with
    yHist := if n = 0 then .ofInt r.y else .mean (h.map (fun e => .ofInt e.2.1))
    cHist := if n = 0 then s.curve s.refTemp else .mean (h.map (fun e => e.2.2))
    noHist := n = 0, ageE := (s.reg 0x500040).toNat, holdNext := s.time.ticks }
  let s := s.setReg 0x500028 (lo32 (wrapI 32 s.ref.yHist.round))
  ((s.setRf oRefStat 29 3 4).setRf oRefStat 26 3 7).publish 13

/-- Entry to SWITCHING towards input n, which publishes REF_SWITCH. A switch begun again for another candidate still leaves
the input that the output follows (R308, R309). -/
def State.enterSwitching (s : State) (n : Nat) : State :=
  let old := if s.refState = 1 then s.ref.old else if s.refActive = 7 then none else some s.refActive
  let s := s.setRef fun r => { r with since := s.time.ticks, old, everActive := true, yHeld := r.y }
  ((s.setRf oRefStat 29 3 1).setRf oRefStat 26 3 n).publish 12

/-- Whether two candidates of equal rank disagree (R307). -/
def State.disagreePair (s : State) (a b : Nat) : Bool :=
  decide ((s.refMeas a - s.refMeas b).natAbs > (s.reg 0x500018).toNat * 256)

/-- The unit looks for disagreement: the flag is set while it stands, the event published when it begins (R307). -/
def State.checkAgree (s : State) (cands : List Nat) : State :=
  let dis := cands.any (fun a => cands.any (fun b => decide (a < b) && s.refRank a == s.refRank b && s.disagreePair a b))
  let was := s.ref.disagree
  let s := s.setRef fun r => { r with disagree := dis }
  if dis then
    let s := s.setRb oRefStat 24 true
    if was then s else s.publish 15
  else s

/-- The input of the list whose MEAS is nearest to y, the first of those equally near. -/
def State.nearest (s : State) : List Nat → Option Nat
  | [] => none
  | n :: t =>
    match s.nearest t with
    | none => some n
    | some m => if (s.refMeas n - s.ref.y).natAbs ≤ (s.refMeas m - s.ref.y).natAbs then some n else some m

/-- The best candidate (R307). -/
def State.bestCand (s : State) : Option Nat :=
  let cands := (List.range 5).filter (fun n => s.isCand n)
  match (cands.map (fun n => s.refRank n)).min? with
  | none => none
  | some r =>
    let best := cands.filter (fun n => s.refRank n == r)
    if best.contains s.refActive then some s.refActive
    else if s.refState = 0 then best.head?
    else if best.any (fun a => best.any (fun b => s.disagreePair a b)) then s.nearest best
    else best.head?

/-- The selection rule (R306). -/
def State.refSelectRule (s : State) : State :=
  let s := s.checkAgree ((List.range 5).filter (fun n => s.isCand n))
  let a := s.refActive
  match s.bestCand with
  | none => if s.refState = 0 ∨ s.refState = 4 then s else s.enterHoldover
  | some b =>
    if a = 7 ∨ !s.isCand a then s.enterSwitching b
    else if s.rb oRefCtl 31 ∧ s.refState ≠ 1 ∧ s.refRank b < s.refRank a then s.enterSwitching b
    else s

/-! ### The commands -/

/-- An input loses activity: at once DISQUALIFIED, with its measurement no longer taken (R304, R305). -/
def State.inputLost (s : State) (n : Nat) : State :=
  let s := s.setRef fun r => { r with act := r.act.filter (· ≠ n) }
  if s.qstate n = 0 then s else s.setQ n 1

/-- REF_ACTIVITY_LOST. -/
def execRefActivityLost (n : Nat) (s : State) : Host.Outcome State Fault Refusal :=
  gate (s.aux && decide (n < 5)) s fun s => s.inputLost n

/-- The lane that REF_RXLANE names: values above 95 act as 95 (R316); on HX7240-C one above 47 names none (R304). -/
def State.rxclkLane (s : State) : Option Nat :=
  let l := min 95 (s.reg 0x50001C).toNat
  if l < s.nRx then some l else none

/-- Whether an input can be active at all: RXCLK needs its lane in SIGNAL or beyond (R304). -/
def State.canBeActive (s : State) (n : Nat) : Bool :=
  if n = 4 then s.rxclkLane.elim false (fun l => decide (s.laneState (.rx l) ≥ 1)) else true

/-- RX lane l has left SIGNAL for DOWN: RXCLK, where it is the clock of that lane, loses activity (R304). -/
def State.rxclkLost (s : State) (l : Nat) : State := if s.rxclkLane = some l then s.inputLost 4 else s

/-- Ticks of an input's measurement gate: 16 s for PPS inputs, else 1 s (R304). -/
def refGate (n : Nat) : Nat := if isPps n then 16 * secTicks else secTicks

/-- The loop follows its active input: locked, y is its measurement; locking, y is open within ±10 ppm of the y held at
the switch (R304, R308). -/
def State.followY (s : State) (n : Nat) (meas : Int) : State :=
  if n ≠ s.refActive then s
  else if s.refState = 3 then s.setRef fun r => { r with y := max (-25600000) (min 25600000 meas) }
  else if s.refState = 2 then
    let (v, s) := s.free
    s.setRef fun r => { r with y := max (-25600000) (min 25600000 (r.yHeld - 2560000 + (v.toNat % 5120001 : Nat))) }
  else s

/-- An input newly QUALIFIED. -/
def State.qualify (s : State) (n : Nat) : State :=
  (s.setRef fun r => { r with everQual := n :: r.everQual.filter (· ≠ n) }).setQ n 3

/-- REF_GATE_END (R304, R305): an input's gate is over; MEAS is stored, in 2⁻⁸ ppb, the qualification follows it, and the
next gate begins. -/
def execRefGateEnd (n dt : Nat) (meas : Int) (s : State) : Host.Outcome State Fault Refusal :=
  gate (s.aux && decide (n < 5) && decide (s.qstate n ≠ 0) && s.canBeActive n
      && decide (tget 0 s.ref.gateFrom n + refGate n ≤ s.time.ticks + dt)) s fun s =>
    let s := s.advance dt
    let s := s.setRef fun r => { r with gateFrom := tset 0 r.gateFrom n s.time.ticks }
    let m := (clampS 32 meas).1
    let s := (s.setReg (oRefIn n + 4) (lo32 (wrapI 32 m))).setRef fun r => { r with act := n :: r.act.filter (· ≠ n) }
    let s := s.followY n m
    let good := decide (m.natAbs ≤ (s.reg 0x500014).toNat * 256)
    if !good then s.setQ n 1
    else if s.qstate n = 1 then
      if !s.ref.everQual.contains n || s.reg 0x500010 == 0 then s.qualify n
      else (s.setRef fun r => { r with wtrFrom := tset 0 r.wtrFrom n s.time.ticks }).setQ n 2
    else s

/-- The wait-to-restore time in ticks (0 to 3,600 s). -/
def State.wtrTicks (s : State) : Nat := min 3600 (s.reg 0x500010).toNat * secTicks

/-- REF_WTR_EXPIRY (R305). -/
def execRefWtrExpiry (n dt : Nat) (s : State) : Host.Outcome State Fault Refusal :=
  gate (s.aux && decide (n < 5) && decide (s.qstate n = 2)
      && decide (tget 0 s.ref.wtrFrom n + s.wtrTicks ≤ s.time.ticks + dt)) s fun s => (s.advance dt).qualify n

/-- REF_SELECT (R306 to R308): after a change of qualification, or at the end of a second. -/
def execRefSelect (dt : Nat) (s : State) : Host.Outcome State Fault Refusal :=
  gate (s.aux && (s.ref.selDue || decide (s.ref.selNext ≤ s.time.ticks + dt))) s fun s =>
    let s := s.advance dt
    (s.setRef fun r => { r with
      selDue := false
      selNext := if r.selNext ≤ s.time.ticks then r.selNext + secTicks else r.selNext }).refSelectRule

/-- A phase step wrapped into (−h, +h] ps (R309). -/
def wrapStep (h step : Int) : Int :=
  let r := step % (2 * h)
  if r > h then r - 2 * h else r

/-- The step in ps counts for the next close of every kiln that is open, firing or ending (R117). -/
def State.countStep (s : State) (ps : Int) : State :=
  { s with kilns := s.kilns.map (fun e =>
      if e.2.state ≥ 2 then (e.1, { e.2 with steps := e.2.steps + 1, stepPs := e.2.stepPs + ps }) else e) }

/-- REF_SWITCH_DONE (R308 to R310): the new input runs; the measured step is written, then REF_STEP published, and LOCKING
begins. An input lost meanwhile ends no switch: REF_SELECT then leaves SWITCHING. -/
def execRefSwitchDone (dt : Nat) (step : Int) (s : State) : Host.Outcome State Fault Refusal :=
  gate (s.aux && decide (s.refState = 1) && decide (s.qstate s.refActive = 3)) s fun s =>
    let s := s.advance dt
    let pps := isPps s.refActive || (s.ref.old.elim false isPps)
    let w := wrapStep (if pps then 500000000000 else 400000) step
    let c := max (-(2 ^ 31 - 1)) (min (2 ^ 31 - 1) w)
    let s := s.setReg 0x50000C (lo32 (wrapI 32 c))
    let s := if c ≠ w then s.setRb oRefStat 25 true else s
    let s := ((s.publish 14).countStep c).setRf oRefStat 29 3 2
    s.setRef fun r => { r with since := s.time.ticks, yHeld := r.y }

/-- 10 τ in ticks for a bandwidth code, at least 1 s (R308). -/
def tenTau (code : Nat) : Nat :=
  max secTicks ([994718394325, 99471839433, 9947183944, 994718395].getD code 0)

/-- REF_LOCKED (R308): the phase error has stayed within ±2 ns for 10 τ. -/
def execRefLocked (dt : Nat) (s : State) : Host.Outcome State Fault Refusal :=
  let bw := s.rf oRefCtl 0 3
  let code := if isPps s.refActive then min bw 1 else bw
  gate (s.aux && decide (s.refState = 2) && decide (s.qstate s.refActive = 3) && decide (s.ref.since + tenTau code ≤ s.time.ticks + dt)) s fun s =>
    let s := (s.advance dt).setRf oRefStat 29 3 3
    s.setRef fun r => { r with y := max (-25600000) (min 25600000 (s.refMeas s.refActive)) }

/-- REF_HOLDOVER_UPDATE (R311, R312): once per second in HOLDOVER, and in FREERUN with no history. T is read first. -/
def execRefHoldoverUpdate (dt : Nat) (temp : BitVec 16) (s : State) : Host.Outcome State Fault Refusal :=
  gate (s.aux && (s.refState == 0 || s.refState == 4) && decide (s.ref.holdNext ≤ s.time.ticks + dt)) s fun s =>
    let s := (s.advance dt).readTemp temp
    let c := s.curve s.refTemp
    let age := (s.reg 0x500040).toNat
    let y := if s.refState = 4 then s.holdY s.ref.yHist s.ref.cHist c age s.ref.ageE
      else s.holdY (.ofInt 0) (.ofInt 0) c age 0
    s.setRef fun r => { r with y, holdNext := s.time.ticks + secTicks }

/-- REF_AGE_TICK (R312): each 625,000,000 ticks. Outside HOLDOVER and FREERUN, whose updates read it, T is read here, once
per second; LOCKED, y and C(T) are recorded for the history (R308). -/
def execRefAgeTick (x : TempTick) (s : State) : Host.Outcome State Fault Refusal :=
  gate (s.aux && decide (s.ref.ageNext ≤ s.time.ticks + x.dt)) s fun s =>
    let s := (s.advance x.dt).cntWrap 0x500040 1
    let s := s.setRef fun r => { r with ageNext := r.ageNext + secTicks }
    let s := if s.refState = 0 ∨ s.refState = 4 then s else s.readTemp x.temp
    if s.refState = 3 then
      s.setRef fun r => { r with hist := ((s.time.ticks, r.y, s.curve s.refTemp) :: r.hist).take 68 }
    else s

/-- SYNC_N: 0 acts as 1. -/
def State.syncN (s : State) : Nat := max 1 (s.rf 0x500020 16 16)

/-- How far an output divided from 625 MHz is into its period, in 1/2500 of it, by its code of REF_OUT: 10, 100 or
156.25 MHz; none where it is off (R313, R314). -/
def State.clkOut (s : State) (code : Nat) : Option Nat :=
  match code with
  | 0 => none
  | c => some ((s.time.ticks - s.ref.clkFrom) * [40, 400].getD (c - 1) 625 % 2500)
def State.clkOutA (s : State) : Option Nat := s.clkOut (s.rf 0x500020 0 2)
def State.clkOutB (s : State) : Option Nat := s.clkOut (s.rf 0x500020 2 2)
/-- The levels of PPSOUT and SYNCOUT: high for 10 µs from each pulse (R313). -/
def State.ppsOut (s : State) : Bool := s.ref.ppsAt.elim false (fun t => decide (s.time.ticks < t + tUs 10))
def State.syncOut (s : State) : Bool := s.ref.syncAt.elim false (fun t => decide (s.time.ticks < t + tUs 10))

/-- PPSOUT_PULSE (R313): every 625,000,000 ticks, with SYNCOUT at every SYNC_N-th pulse; both are capture sources. -/
def execPpsoutPulse (dt : Nat) (s : State) : Host.Outcome State Fault Refusal :=
  gate (s.aux && decide (s.ref.ppsNext ≤ s.time.ticks + dt)) s fun s =>
    let s := s.advance dt
    let s := s.capInstant (s.capNow 0x82 0)
    let sync := decide (s.ref.ppsCount % s.syncN = 0)
    let s := if sync then s.capInstant (s.capNow 0x83 0) else s
    s.setRef fun r => { r with ppsNext := r.ppsNext + secTicks, ppsCount := r.ppsCount + 1, ppsAt := some s.time.ticks
                               syncAt := if sync then some s.time.ticks else r.syncAt }

/-- REF_REALIGN (R314): a write of REF_CMD. -/
def execRefRealign (v : W32) (s : State) : Host.Outcome State Fault Refusal :=
  gate (s.aux && bit v 31) s fun s => s.setRef fun r => { r with realign := some s.time.ticks }

/-- 1.1 s in ticks. -/
def realignTicks : Nat := 687500000

/-- REF_REALIGN_ALIGN (R314): the chosen instant arrives, an edge now or the first tick after the write, and the output
dividers restart from it; SYNCOUT accompanies the first pulse after it. -/
def execRefRealignAlign (dt : Nat) (s : State) : Host.Outcome State Fault Refusal :=
  gate (s.aux && s.ref.realign.elim false (fun t =>
      if s.rf 0x500020 4 2 ≥ 2 then decide (t < s.time.ticks + dt)
      else decide (s.time.ticks + dt ≤ t + realignTicks))) s fun s =>
    let s := s.advance dt
    let t := if s.rf 0x500020 4 2 ≥ 2 then s.ref.realign.elim s.time.ticks (· + 1) else s.time.ticks
    s.setRef fun r => { r with realign := none, ppsNext := t + secTicks, ppsCount := 0, clkFrom := t }

/-- REF_REALIGN_TIMEOUT (R314): no edge within 1.1 s. -/
def execRefRealignTimeout (dt : Nat) (s : State) : Host.Outcome State Fault Refusal :=
  gate (s.aux && decide (s.rf 0x500020 4 2 < 2)
      && s.ref.realign.elim false (fun t => decide (t + realignTicks ≤ s.time.ticks + dt))) s fun s =>
    ((s.advance dt).setRef fun r => { r with realign := none }).setRb oRefStat 23 true

end Sys2Proof.Machine
end

