-- ==== Sys2Proof/Machine/Lanes.lean ====
section
/-! DEFINITION. Serial lanes: states, hunting and block lock, framing, CRC-32C, the eye monitor and PRBS checker, and frames
decoded under their format entry (R52 to R65, R71, R84). -/

namespace Sys2Proof.Machine

/-! ### Registers of a lane -/

def State.lnEn (s : State) (l : LaneId) : Bool := s.lnBit l 31
def State.lnAlign (s : State) (l : LaneId) : Bool := s.lnBit l 30
def State.lnFmt (s : State) (l : LaneId) : Nat := s.rf (oLnCtl l) 21 3
/-- A counter of the lane (R83); TX lanes have none of 1 to 5. DESIGN CHOICE (log 104): LN_CNT 0 of a TX lane, to which no frame comes,
stays 0 (R84). -/
def State.lnCnt (s : State) (l : LaneId) (k n : Nat) : State :=
  if isTxLane l && decide (k ≠ 0) then s else s.cnt (laneBase l + 0x40 + 4 * k) n
/-- A counter of wedging (R83). -/
def State.wdgCnt (s : State) (k : Nat) : State := s.cnt (0xA00100 + 4 * k) 1

def isWLane : LaneId → Bool
  | .w _ => true
  | _ => false
/-- Wedging takes the frames of RX lanes; while it does not, they are discarded uncounted (R85). -/
def State.wdgOn (s : State) : Bool := s.rb 0xA00000 0
/-- A frame of an RX or Waoth lane that is abandoned (`k` = 3) or fails CRC-32C (`k` = 1): a Waoth frame counts in PR_CNT 2
(R344), but with PR_CTL.EN = 0 Waoth lanes are ignored (R341). -/
def State.frameCnt (s : State) (l : LaneId) (k : Nat) : State :=
  match l with
  | .w _ => if s.rb 0x600000 31 then s.cnt 0x600108 1 else s
  | .rx _ => if s.wdgOn then s.lnCnt l k 1 else s
  | _ => s.lnCnt l k 1

/-- A write of a register of a lane: the islands of RX and TX lanes stop in Doze (R373). -/
def laneWrite (l : LaneId) (ok : Bool) (s : State) (f : State → State) : Host.Outcome State Fault Refusal :=
  match l with
  | .rx _ | .tx _ => writeGate (s.hasLane l && ok) s f
  | .w _ | .port => gate (s.hostUp && s.hasLane l && ok) s f

/-- Whether the lane's island runs: the time port's and the Waoth lanes' run in Doze (R345, R373). -/
def State.laneOn (s : State) (l : LaneId) : Bool :=
  s.hasLane l && (match l with
    | .rx _ | .tx _ => s.up
    | .w _ | .port => s.hostUp)

/-! ### States (R60) -/

/-- The frames queued on a TX lane dropped and counted (R138, R148). -/
def State.txDrop (s : State) (n : Nat) : State :=
  let q := tget [] s.beam.txq n
  let s := s.cnt (0xD08104 + 8 * n) q.length
  { s with beam := { s.beam with txq := tset [] s.beam.txq n [] } }

/-- A state entered; leaving UP sets LEFT_UP, and on RX lanes publishes LANE_LOST; on TX lanes it drops the queued frames, and
its line begins as it enters UP. -/
def State.toState (s : State) (l : LaneId) (st : Nat) : State :=
  let old := s.laneState l
  let s := if old ≠ 4 ∧ st = 4 ∧ isTxLane l then s.startLine l else s
  let s := s.setRf (oLnStat l) 29 3 st
  if old = 4 ∧ st ≠ 4 then
    let s := s.setRb (oLnStat l) 0 true
    match l with
    | .rx _ => s.publish 16
    | .tx n => s.txDrop n
    | _ => s
  else s

/-- A frame that fails its check or is abandoned: UP bears three in a row, FRAME_LOCK none. -/
def State.frameFailed (s : State) (l : LaneId) : State :=
  let v := s.lane l
  let s := s.setLane l { v with frm := none, fails := 0 }
  if s.laneState l = 3 then s.toState l 2
  else if s.laneState l = 4 then
    if v.fails + 1 < 4 then s.setLane l { v with frm := none, fails := v.fails + 1 } else s.toState l 2
  else s

/-- A frame abandoned under R63: one STRUCT. -/
def State.abandon (s : State) (l : LaneId) : State := (s.frameCnt l 3).frameFailed l

/-- Block lock lost, or a slip in SLIP mode: to SIGNAL; a frame in progress is one STRUCT. -/
def State.toSignal (s : State) (l : LaneId) : State :=
  let v := s.lane l
  let s := if v.frm.isSome then s.frameCnt l 3 else s
  (s.setLane l { v with frm := none, skip := false, fails := 0, run := 0 }).toState l 1

/-- To DOWN, from which EN and the signal count anew. A frame in progress is discarded, and counted as STRUCT where the
signal was lost. -/
def State.toDown (s : State) (l : LaneId) (lost : Bool) : State :=
  let v := s.lane l
  let s := if lost && v.frm.isSome then s.frameCnt l 3 else s
  let s := (s.setLane l { v with frm := none, skip := false, fails := 0, run := 0, prbsRun := 0, since := s.time.ticks }).toState l 0
  match l with
  | .rx n => s.rxclkLost n
  | _ => s

/-- PRBS_LOCK cleared (R59). -/
def State.prbsClear (s : State) (l : LaneId) : State :=
  (s.setLane l { s.lane l with prbsRun := 0 }).setRb (oLnStat l) 27 false

/-! ### Sync headers (R60, R61, R65) -/

/-- LN_HDR_CNT follows the headers received. -/
def State.hdrCnt (s : State) (l : LaneId) (v : Lane) : State :=
  (s.setLane l v).setReg (laneBase l + 0x10)
    (lo32 ((if v.sinceSlip < 4096 then 2 ^ 31 else 0) + (v.hdrs.filter id).length))

/-- A header is 0b01 or 0b10. -/
def syncOk (h : BitVec 2) : Bool := decide (h = 0b01) || decide (h = 0b10)

/-- The deserialiser slips one bit. -/
def State.slip (s : State) (l : LaneId) : State :=
  let v := s.lane l
  s.hdrCnt l { v with pos := (v.pos + 1) % 66, sinceSlip := 0, run := 0 }

/-- The state entered on block lock: the time port reads UP while it holds it (R299). -/
def lockState (l : LaneId) : Nat := if l = .port then 4 else 2

/-- One sync header received. In SIGNAL the lane hunts while ALIGN = 0 and MODE = 0; a header received otherwise belongs to no
row of valid ones. From block lock on an invalid header is counted, abandons a frame in
progress, and with 15 others among 64 loses block lock unless in SLIP mode. -/
def State.header (s : State) (l : LaneId) (h : BitVec 2) : State :=
  let st := s.laneState l
  if st = 0 then s
  else
    let ok := syncOk h
    let v := s.lane l
    let s := s.hdrCnt l { v with hdrs := (ok :: v.hdrs).take 4096, sinceSlip := min 4096 (v.sinceSlip + 1) }
    let v := s.lane l
    if st = 1 then
      if s.lnAlign l || s.lnMode l != 0 then s.setLane l { v with run := 0 }
      else if !ok then s.slip l
      else if v.run + 1 < 64 then s.setLane l { v with run := v.run + 1 }
      else (s.setLane l { v with run := 0 }).toState l (lockState l)
    else if ok then s
    else
      let s := s.lnCnt l 5 1
      if !s.lnAlign l && decide (((v.hdrs.take 64).filter (!·)).length ≥ 16) then s.toSignal l
      else if v.frm.isSome then s.abandon l
      else s

/-- Headers received until the lane's state changes. -/
def State.headers (s : State) (l : LaneId) : List (BitVec 2) → State
  | [] => s
  | h :: t =>
    let s' := s.header l h
    if s'.laneState l = s.laneState l then State.headers s' l t else s'

/-! ### Format entries (R66, R71, R72) -/

def oFmt (e : Nat) : Nat := 0xA01000 + 0x40 * e
/-- The field descriptors of entry 0, which R66 fixes. -/
def nativeFd : List W32 :=
  [0x000C0000#32, 0x0004000C#32, 0x00030010#32, 0x00100020#32, 0x000C0030#32, 0x00300040#32, 0x00100070#32, 0x00100080#32]
def State.fmtFds (s : State) (e : Nat) : List W32 :=
  if e = 0 then nativeFd else (List.range 8).map (fun f => s.reg (oFmt e + 4 * f))
/-- CTL and OPT of an entry; those of entry 0 are fixed. -/
def State.fmtCtlOf (s : State) (e : Nat) : W32 := if e = 0 then 0x83010203#32 else s.reg (oFmt e + 0x20)
def State.fmtOptOf (s : State) (e : Nat) : W32 := if e = 0 then 0 else s.reg (oFmt e + 0x24)
/-- Entry 0 is always valid. -/
def State.fmtValid (s : State) (e : Nat) : Bool := decide (e = 0) || s.rb (oFmt e + 0x20) 31

def fdOff (d : W32) : Nat := fld d 0 9
def fdWidth (d : W32) : Nat := fld d 16 6
def fdBe (d : W32) : Bool := bit d 24

/-- A field of a header under its descriptor. -/
def fdGet (hdr : List Byte) (d : W32) : Nat :=
  let w := fdWidth d
  if fdBe d then ofBe ((hdr.drop (fdOff d / 8)).take (divUp w 8)) % 2 ^ w else (ofLe hdr >>> fdOff d) % 2 ^ w

/-- The checks of R72. DESIGN CHOICE (log 86): a field of width 0 must still have its OFFSET within the header. -/
def fmtOk (fds : List W32) (ctl : W32) : Bool :=
  let max := [12, 8, 3, 16, 12, 48, 16, 16]
  let bits := 64 * (fld ctl 24 3 + 1)
  (List.range 8).all (fun f =>
    let d := fds.getD f 0
    let w := fdWidth d
    let m := max.getD f 0
    decide (w ≤ m) && (if f = 2 ∨ f = 6 then decide (w = 0) || decide (w = m) else decide (1 ≤ w))
      && decide (fdOff d + (if fdBe d then 8 * divUp w 8 else w) ≤ bits) && (!fdBe d || decide (fdOff d % 8 = 0)))

/-- The frame a header and payload decode to (R72). DESIGN CHOICE (log 104): where type values of an entry coincide, DATA comes before
HAIL, and HAIL before BUOY. -/
def decodeFrame (f : Framing) (hdr pay : List Byte) (crc : W32) : Frame :=
  let g := fun i => fdGet hdr (f.fds.getD i 0)
  let w := fun i => fdWidth (f.fds.getD i 0)
  let ty := g 1
  let valid := if w 6 = 0 then 65535 else if bit f.opt 8 then 65535 - g 6 else g 6
  { ty := if ty = fld f.ctl 16 8 then 1 else if ty = fld f.ctl 8 8 then 2 else if ty = fld f.ctl 0 8 then 3 else 0
    fmtOk := w 2 == 0 || g 2 == f.fmt
    src := g 0, chan := g 3, base := g 4, index := g 5 * 2 ^ fld f.opt 0 3 % 2 ^ 48, valid := valid, len := g 7
    payload := pay, crc := crc, ns := f.ns, sub := f.sub }

/-! ### Framing (R62, R63) -/

def isLampBlock (b : Block) : Bool := decide (b.sync = 0b10) && decide (b.bytes = lampBytes)
def isCtl (b : Block) (t : Byte) : Bool := decide (b.sync = 0b10) && decide (b.bytes.headD 0 = t)

/-- The field descriptors under which a Waoth header reads: LEN in bytes 2–3 (R344). -/
def waothFd : List W32 := [0, 0, 0, 0, 0, 0, 0, 0x00100010#32]
/-- The longest payload of a frame: that of a Waoth frame is 4,096 bytes (R63, R344). -/
def maxPayload (l : LaneId) : Nat := if isWLane l then 4096 else 3072

/-- An entry read by a lane: an uncorrectable error clears its VALID (R284). Entry 0 carries no check bits. -/
def State.fmtLook (s : State) (e : Nat) : State :=
  if e = 0 then s
  else
    let (bad, s) := s.scan 10 e 0 64 12 0 false
    if bad.isEmpty then s else s.setRb (oFmt e + 0x20) 31 false

/-- A frame opened by a lamp block. -/
def State.openFrame (s : State) (l : LaneId) (f : Framing) : State :=
  let s := s.setLane l { s.lane l with frm := some f, skip := false }
  if s.laneState l = 2 then s.toState l 3 else s

/-- A lamp block opens a frame. On an entry that is not valid it counts once as FORMAT and nothing is framed; DESIGN CHOICE (log
86): it leaves the lane's state as it was, since it opens no frame that could pass or fail. With wedging off nothing is
counted (R85). -/
def State.lampIn (s : State) (l : LaneId) : State :=
  if isWLane l then s.openFrame l ⟨0, waothFd, 0, 0, [], 1, 0, s.ns, s.sub⟩ else
  let e := s.lnFmt l
  let s := s.fmtLook e
  let v := s.lane l
  if !s.fmtValid e then
    let s := s.setLane l { v with frm := none, skip := true }
    if s.wdgOn then s.wdgCnt 2 else s
  else
    let ctl := s.fmtCtlOf e
    s.openFrame l ⟨e, s.fmtFds e, ctl, s.fmtOptOf e, [], fld ctl 24 3 + 1, 0, s.ns, s.sub⟩

/-- A frame that passes CRC-32C goes to the lane FIFO, or is dropped: FIFO full, type, format (R80). With wedging off it is
discarded uncounted. -/
def State.deliver (s : State) (l : LaneId) (f : Frame) : State :=
  if !s.wdgOn then s
  else
    let v := s.lane l
    if v.fifo.length ≥ 8 then s.lnCnt l 2 1
    else
      let s := s.lnCnt l 0 1
      if f.ty = 0 then s.wdgCnt 1
      else if !f.fmtOk then s.wdgCnt 2
      else s.setLane l { v with fifo := v.fifo ++ [f] }

/-- The end of a frame at its trailer. What a Waoth frame says has a command of its own (log 87). -/
def State.frameEnd (s : State) (l : LaneId) (f : Framing) (b : Block) : State :=
  let crc := crc32c f.bytes
  if crc.toNat ≠ field b.bytes 4 4 then (s.frameCnt l 1).frameFailed l
  else
    let v := s.lane l
    let s := s.setLane l { v with frm := none, fails := 0 }
    let s := if s.laneState l = 3 then s.toState l 4 else s
    let h := 8 * (fld f.ctl 24 3 + 1)
    if isWLane l then s else s.deliver l (decodeFrame f (f.bytes.take h) (f.bytes.drop h) crc)

/-- A data block of header or payload. -/
def State.frameData (s : State) (l : LaneId) (f : Framing) (b : Block) : State :=
  let v := s.lane l
  let bytes := f.bytes ++ b.bytes
  if f.hdrLeft = 1 then
    let len := fdGet bytes (f.fds.getD 7 0)
    if len % 8 ≠ 0 ∨ len > maxPayload l then s.abandon l
    else s.setLane l { v with frm := some { f with bytes, hdrLeft := 0, payLeft := len / 8 } }
  else if f.hdrLeft > 1 then s.setLane l { v with frm := some { f with bytes, hdrLeft := f.hdrLeft - 1 } }
  else s.setLane l { v with frm := some { f with bytes, payLeft := f.payLeft - 1 } }

/-- A block with a valid header, on a lane from block lock on. While the lane's entry is not valid every block up to the next lamp
block is discarded uncounted (R63). DESIGN CHOICE (log 86): a trailer block where a header or payload block is due, which
none of R63's cases names, abandons the frame as any other control block there does. -/
def State.blockIn (s : State) (l : LaneId) (b : Block) : State :=
  let v := s.lane l
  match v.frm with
  | none =>
    if isLampBlock b then s.lampIn l
    else if v.skip || isCtl b 0x1E#8 then s
    else if !isWLane l && !s.fmtValid (s.lnFmt l) then s.setLane l { v with skip := true }
    else s.lnCnt l 3 1
  | some f =>
    let due := f.hdrLeft ≠ 0 ∨ f.payLeft ≠ 0
    if due ∧ b.sync = 0b01 then s.frameData l f b
    else if !decide due && isCtl b 0xE1#8 then s.frameEnd l f b
    else
      let s := s.abandon l
      if isLampBlock b then s.lampIn l else s

/-- Blocks received on a lane. The time port's carry Ethernet, whose frames have a command of their own. DESIGN CHOICE (log 94):
the block whose header completes block lock is itself framed and counted as in BLOCK_LOCK. -/
def State.blocksIn (s : State) (l : LaneId) (bs : List Block) : State :=
  bs.foldl (fun s b =>
    let s := s.header l b.sync
    if s.laneState l ≥ 2 && syncOk b.sync && l != .port then s.blockIn l b else s) s

/-- A whole Waoth frame on lane n, as the command of its message brings it: its lamp block and its end move the lane as those of
any other frame do (R60, R344); one that fails CRC-32C or its structure counts in PR_CNT 2. -/
def State.waothFrame (s : State) (n : Nat) (good : Bool) : State :=
  let l := LaneId.w n
  let s := if s.laneState l = 2 then s.toState l 3 else s
  if !good then (if s.paired then s.cnt 0x600108 1 else s).frameFailed l
  else
    let s := s.setLane l { s.lane l with frm := none, skip := false, fails := 0 }
    if s.laneState l = 3 then s.toState l 4 else s

/-! ### The commands -/

/-- A lane has a transmitter whose line the rules give: a TX lane, or a Waoth lane (R59, R61). -/
def hasLine (l : LaneId) : Bool := isTxLane l || isWLane l

/-- A transmitter sends: a TX lane that is UP (R60). DESIGN CHOICE (log 94): of a Waoth lane, whose states are its receiver's, from
EN = 1 on, whatever state that is in, idle blocks while it sends no frame. -/
def State.sends (s : State) (l : LaneId) : Bool :=
  match l with
  | .tx _ => decide (s.laneState l = 4)
  | .w _ => s.lnEn l
  | _ => false

/-- A write of LN_CTL at a transmitter, whose line up to now is accounted for under the old setting: a Waoth lane's begins with EN; a
pattern begins where the manual does not say, at an open value that is not 0 (R59). -/
def State.newLine (s : State) (l : LaneId) (old new : W32) : State :=
  let s := if isWLane l && !bit old 31 && bit new 31 then s.startLine l else s
  if !hasLine l || fld old 26 2 % 3 == fld new 26 2 % 3 then s
  else
    let (x, s) := s.free
    s.setLane l { s.lane l with pat := x.setWidth 31 ||| 1 }

/-- LN_CTL_WRITE (R52, R54, R59, R60, R65): EN = 0 takes the lane to DOWN, and so does a change of POL, RATE or MODE under
EN = 1. DESIGN CHOICE (log 94): a change is one of the field's code, so that MODE from 0 to 3, which acts as 0, is one too. -/
def State.lnCtl (s : State) (l : LaneId) (v : W32) : State :=
  let old := s.reg (oLnCtl l)
  let s := if s.sends l then s.lineTo l [] else s
  let s := s.plainWrite (oLnCtl l) v
  let new := s.reg (oLnCtl l)
  let s := s.newLine l old new
  let s := s.setRb (oLnStat l) 28 (fld new 24 2 == 3)
  let s := if fld old 26 2 % 3 ≠ fld new 26 2 % 3 then s.prbsClear l else s
  let restart := fld old 24 5 ≠ fld new 24 5
  if !bit new 31 then s.toDown l false
  else if !bit old 31 || restart then s.toDown l false
  else if bit new 30 && bit new 29 && decide (s.lnMode l = 0) && decide (s.laneState l = 1) && !isTxLane l then
    s.toState l (lockState l)
  else s

def execLnCtlWrite (l : LaneId) (v : W32) (s : State) : Host.Outcome State Fault Refusal :=
  laneWrite l true s fun s => s.lnCtl l v

/-- LN_CTLE_WRITE (R56): codes above 36 set 36. -/
def State.lnCtle (s : State) (l : LaneId) (v : W32) : State := s.setReg (laneBase l + 8) (lo32 (min 36 (fld v 0 6)))
def execLnCtleWrite (l : LaneId) (v : W32) (s : State) : Host.Outcome State Fault Refusal :=
  laneWrite l (!isTxLane l) s fun s => s.lnCtle l v

/-- LANE_SIGNAL_DETECT (R60): EN and a signal together for 10 µs. -/
def execLaneSignalDetect (l : LaneId) (dt : Nat) (s : State) : Host.Outcome State Fault Refusal :=
  gate (s.laneOn l && !isTxLane l && s.lnEn l && decide (s.lnRate l ≠ 3) && decide (s.laneState l = 0)
      && decide ((s.lane l).since + tUs 10 ≤ s.time.ticks + dt)) s fun s => (s.advance dt).toState l 1

/-- LANE_LOSS_OF_SIGNAL (R59, R60, R63). -/
def execLaneLossOfSignal (l : LaneId) (dt : Nat) (s : State) : Host.Outcome State Fault Refusal :=
  gate (s.laneOn l && !isTxLane l && decide (s.laneState l ≠ 0) && decide (tUs 1 ≤ dt)) s fun s =>
    ((s.advance dt).prbsClear l).toDown l true

/-- LANE_BLOCK_LOCK (R60): sync headers received while hunting. -/
def execLaneBlockLock (l : LaneId) (hdrs : List (BitVec 2)) (s : State) : Host.Outcome State Fault Refusal :=
  gate (s.laneOn l && !isTxLane l && decide (s.laneState l = 1)) s fun s => s.headers l hdrs

/-- LANE_BLOCK_LOCK_LOST (R60, R65): sync headers received from block lock on, counted whether or not they end it. -/
def execLaneBlockLockLost (l : LaneId) (hdrs : List (BitVec 2)) (s : State) : Host.Outcome State Fault Refusal :=
  gate (s.laneOn l && !isTxLane l && decide (s.laneState l ≥ 2)) s fun s =>
    hdrs.foldl (fun s h => if s.laneState l ≥ 2 then s.header l h else s) s

/-- TX_LANE_UP (R60): 10 µs after EN = 1 with a valid RATE. -/
def execTxLaneUp (n dt : Nat) (s : State) : Host.Outcome State Fault Refusal :=
  gate (s.laneOn (.tx n) && s.lnEn (.tx n) && decide (s.lnRate (.tx n) ≠ 3) && decide (s.laneState (.tx n) = 0)
      && decide ((s.lane (.tx n)).since + tUs 10 ≤ s.time.ticks + dt)) s fun s => (s.advance dt).toState (.tx n) 4

/-- LN_SLIP (R65): ignored while ALIGN = 0. -/
def State.lnSlip (s : State) (l : LaneId) (v : W32) : State :=
  if !bit v 0 || !s.lnAlign l then s
  else
    let s := (s.slip l).setRb (oLnCtl l) 29 false
    if s.laneState l ≥ 2 then s.toSignal l else s
def execLnSlip (l : LaneId) (v : W32) (s : State) : Host.Outcome State Fault Refusal :=
  laneWrite l (!isTxLane l) s fun s => s.lnSlip l v

/-- EYE_START (R58): a write of LN_EYE_CTL; START is ignored while BUSY. DESIGN CHOICE (log 94): the other fields are written while
BUSY too, and the measurement under way runs by them; and a lane that is DOWN or disabled is measured as any other. -/
def State.eyeCtl (s : State) (l : LaneId) (v : W32) : State :=
  let s := s.plainWrite (laneBase l + 0x20) v
  if bit v 31 && !s.rb (laneBase l + 0x20) 30 then
    (s.setRb (laneBase l + 0x20) 30 true).setLane l { s.lane l with eye := some s.time.ticks }
  else s
def execEyeStart (l : LaneId) (v : W32) (s : State) : Host.Outcome State Fault Refusal :=
  laneWrite l (!isTxLane l) s fun s => s.eyeCtl l v

/-- EYE_MEASURE_DONE (R58): the dwell of 2^(24 + DWELL) bits is over. -/
def execEyeMeasureDone (l : LaneId) (dt mism : Nat) (s : State) : Host.Outcome State Fault Refusal :=
  match (s.lane l).eye with
  | some t =>
    gate (s.laneOn l && !isTxLane l
        && decide (t + bitTicks l (s.lnRate l) (2 ^ (24 + s.rf (laneBase l + 0x20) 24 4)) ≤ s.time.ticks + dt)) s fun s =>
      let s := s.advance dt
      ((s.setLane l { s.lane l with eye := none }).setRb (laneBase l + 0x20) 30 false).setReg (laneBase l + 0x24)
        (lo32 (min mism (2 ^ 32 - 1)))
  | none => .next s

/-- One bit at the PRBS checker: in error or not. -/
def State.prbsBit (s : State) (l : LaneId) (err : Bool) : State :=
  let v := s.lane l
  if s.rb (oLnStat l) 27 then if err then s.lnCnt l 4 1 else s
  else if err then s.setLane l { v with prbsRun := 0 }
  else if v.prbsRun + 1 < 64 then s.setLane l { v with prbsRun := v.prbsRun + 1 }
  else (s.setLane l { v with prbsRun := 0 }).setRb (oLnStat l) 27 true

/-- PRBS_LOCK (R59): bits at the checker of a receiver in a PRBS mode. -/
def execPrbsLock (l : LaneId) (errs : List Bool) (s : State) : Host.Outcome State Fault Refusal :=
  gate (s.laneOn l && !isTxLane l && decide (s.lnMode l ≠ 0) && decide (s.laneState l = 1)) s fun s =>
    errs.foldl (fun s e => s.prbsBit l e) s

/-- RX_FRAME_RECEIVED (R60 to R65, R299, R344): blocks on an RX lane, a Waoth lane or the time port. -/
def execRxFrameReceived (l : LaneId) (blocks : List Block) (s : State) : Host.Outcome State Fault Refusal :=
  gate (s.laneOn l && !isTxLane l && decide (s.laneState l ≠ 0)) s fun s => s.blocksIn l blocks

/-- FMT_VALIDATE (R72): a write of WDG_FMT_CTL. A valid entry takes nothing but the clearing of VALID. Bytes written have fresh check
bits (R282). -/
def State.fmtCtl (s : State) (e : Nat) (v : W32) : State :=
  let o := oFmt e + 0x20
  if e = 0 then s
  else if s.rb o 31 then if bit v 31 then s else (s.clean 10 e 0x23 0x24).setRb o 31 false
  else
    let s := s.clean 10 e 0x20 0x24
    let ctl := (s.reg o &&& 0x40000000#32) ||| (v &&& 0x07FFFFFF#32)
    if !bit v 31 then s.setReg o ctl
    else if fmtOk (s.fmtFds e) ctl then s.setReg o ((ctl &&& 0xBFFFFFFF#32) ||| 0x80000000#32)
    else s.setReg o (ctl ||| 0x40000000#32)
def execFmtValidate (e : Nat) (v : W32) (s : State) : Host.Outcome State Fault Refusal :=
  writeGate (decide (e < 8)) s fun s => s.fmtCtl e v

end Sys2Proof.Machine
end

