-- ==== Sys2Proof/Machine/Plan.lean ====
section
/-! DEFINITION. Plans and their sizes: reading a plan from its bytes (R166, R167), chunk lengths (R175), the formulas
of R107, R157 and R76, and the interleave of groups (R179). -/

namespace Sys2Proof.Machine

/-! ### Reading a plan (R166, R167) -/

def KilnDesc.parse (b : List Byte) : KilnDesc :=
  let o := field b 14 1
  ⟨field b 0 2, field b 2 2, field b 4 2, field b 6 2, field b 8 6, o % 2 = 1, o / 2 % 2 = 1, field b 16 4⟩

def BlockDesc.parse (b : List Byte) : BlockDesc :=
  ⟨field b 0 2, field b 2 2, field b 4 2, field b 6 2, field b 8 1 % 2 = 1, field b 12 4⟩

def EngDesc.parse (b : List Byte) : EngDesc :=
  let n := field b 9 1
  { chFirst := field b 0 2, chCount := field b 2 2, inFirst := field b 4 2, inCount := field b 6 2
    c3 := field b 8 1 % 2 = 1, nbeam := n, prefrac := field b 10 1, nb := field b 11 1
    nk := field b 12 4, srate := field b 16 4
    beams := (List.range (min n 16)).map (fun j => field b (32 + 2 * j) 2)
    others := (List.range (16 - n)).map (fun j => field b (32 + 2 * (n + j)) 2) }

/-- The descriptors a mask names: number and parsed bytes. -/
def described {α : Type} (mask n base size : Nat) (l : List Byte) (f : List Byte → α) : List (Nat × α) :=
  (bitsOf n mask).map (fun k => (k, f ((l.drop (base + size * k)).take size)))

/-- The bytes of a plan whose NINPUT is `n`. -/
def planBytes (n : Nat) : Nat := 1216 + 2 * n

/-- A plan from its bytes. `bad` marks reserved bits of LMASK and of kilns' flags. -/
def Plan.parse (l : List Byte) : Plan :=
  let ninput := field l 4 2
  let lmask := field l 11 1
  { planId := field l 0 4, ninput
    kilns := described (field l 6 2) 16 64 32 l KilnDesc.parse
    blocks := described (field l 8 3) 24 576 16 l BlockDesc.parse
    engines := described (lmask % 16) 4 960 64 l EngDesc.parse
    effect := field l 12 6, swres := field l 18 2, hostres := field l 20 4
    seed := BitVec.ofNat 64 (field l 24 8)
    map := (List.range (min ninput 4096)).map (fun i => field l (1216 + 2 * i) 2)
    bad := (if lmask ≥ 16 then [0xFFFF] else [])
      ++ (bitsOf 16 (field l 6 2)).filter (fun k => decide (field l (64 + 32 * k + 14) 1 ≥ 4)) }

/-- The bytes of descriptors, and of a plan, as R166 and R167 lay them out (R347, R356). -/
def KilnDesc.bytes (d : KilnDesc) : List Byte :=
  leBytes 2 d.pos ++ leBytes 2 d.n ++ leBytes 2 d.chFirst ++ leBytes 2 d.chCount ++ leBytes 6 d.ilen
    ++ leBytes 1 (b2n d.k16 + 2 * b2n d.c3) ++ [0#8] ++ leBytes 4 d.srate ++ List.replicate 12 0
def BlockDesc.bytes (d : BlockDesc) : List Byte :=
  leBytes 2 d.pos ++ leBytes 2 d.n ++ leBytes 2 d.chFirst ++ leBytes 2 d.chCount ++ leBytes 1 (b2n d.c3) ++ List.replicate 3 0
    ++ leBytes 4 d.srate
def EngDesc.bytes (d : EngDesc) : List Byte :=
  leBytes 2 d.chFirst ++ leBytes 2 d.chCount ++ leBytes 2 d.inFirst ++ leBytes 2 d.inCount ++ leBytes 1 (b2n d.c3)
    ++ leBytes 1 d.nbeam ++ leBytes 1 d.prefrac ++ leBytes 1 d.nb ++ leBytes 4 d.nk ++ leBytes 4 d.srate ++ List.replicate 12 0
    ++ (List.range 16).flatMap (fun j => leBytes 2 ((d.beams ++ d.others).getD j 0))

def descBytes {α : Type} (n size : Nat) (l : List (Nat × α)) (f : α → List Byte) : List Byte :=
  (List.range n).flatMap (fun k => (l.find? (fun e => e.1 == k)).elim (List.replicate size 0) (fun e => f e.2))
def maskOf {α : Type} (l : List (Nat × α)) : Nat := l.foldl (fun a e => a ||| 2 ^ e.1) 0

def Plan.bytes (p : Plan) : List Byte :=
  leBytes 4 p.planId ++ leBytes 2 p.ninput ++ leBytes 2 (maskOf p.kilns) ++ leBytes 3 (maskOf p.blocks) ++ leBytes 1 (maskOf p.engines)
    ++ leBytes 6 p.effect ++ leBytes 2 p.swres ++ leBytes 4 p.hostres ++ leBytes 8 p.seed.toNat ++ List.replicate 32 0
    ++ descBytes 16 32 p.kilns KilnDesc.bytes ++ descBytes 24 16 p.blocks BlockDesc.bytes ++ descBytes 4 64 p.engines EngDesc.bytes
    ++ p.map.flatMap (leBytes 2)

/-- The device inputs that map positions `pos` to `pos + n - 1` name. -/
def Plan.inputs (p : Plan) (pos n : Nat) : List Nat := (p.map.drop pos).take n

/-- The device input blocks a descriptor of the plan uses for channel `c` (R76), by number. -/
def inRange (c first count : Nat) : Bool := decide (first ≤ c) && decide (c < first + count)

/-- The placed input blocks of channel `c`: the union over every descriptor whose range covers it (R76). -/
def Plan.inBlocks (p : Plan) (c : Nat) : List Nat :=
  let ks := (p.kilns.filter (fun k => inRange c k.2.chFirst k.2.chCount)).map
    (fun k => (p.inputs k.2.pos k.2.n).map (· / 16))
  let bs := (p.blocks.filter (fun b => inRange c b.2.chFirst b.2.chCount)).map
    (fun b => (p.inputs b.2.pos b.2.n).map (· / 16))
  let es := (p.engines.filter (fun e => inRange c e.2.chFirst e.2.chCount)).map
    (fun e => (List.range (divUp e.2.inCount 16)).map (fun i => e.2.inFirst / 16 + i))
  let all := (ks ++ bs ++ es).flatten
  (List.range 256).filter (fun b => all.contains b)

/-- The mode and rate every descriptor gives channel `c` (R167), of the first that uses it. -/
def Plan.mode (p : Plan) (c : Nat) : Option (Bool × Nat) :=
  ((p.kilns.filter (fun k => inRange c k.2.chFirst k.2.chCount)).map (fun k => (k.2.c3, k.2.srate))
    ++ (p.blocks.filter (fun b => inRange c b.2.chFirst b.2.chCount)).map (fun b => (b.2.c3, b.2.srate))
    ++ (p.engines.filter (fun e => inRange c e.2.chFirst e.2.chCount)).map (fun e => (e.2.c3, e.2.srate))).head?

/-- Every described channel range with the mode and rate it asks for. -/
def Plan.ranges (p : Plan) : List (Nat × Nat × Bool × Nat) :=
  p.kilns.map (fun k => (k.2.chFirst, k.2.chCount, k.2.c3, k.2.srate))
    ++ p.blocks.map (fun b => (b.2.chFirst, b.2.chCount, b.2.c3, b.2.srate))
    ++ p.engines.map (fun e => (e.2.chFirst, e.2.chCount, e.2.c3, e.2.srate))

/-- Whether a plan places channel `c`. -/
def Plan.places (p : Plan) (c : Nat) : Bool := p.ranges.any (fun r => inRange c r.1 r.2.1)

/-- The channel axis cut at every end of a described range: segments (first, count) on which the set of descriptors is
one. -/
def Plan.segments (p : Plan) : List (Nat × Nat) :=
  let cuts := sortUp (p.ranges.flatMap (fun r => [r.1, r.1 + r.2.1])).eraseDups
  (List.zip cuts (cuts.drop 1)).filterMap (fun (a, b) => if p.places a then some (a, b - a) else none)

/-! ### Sizes (R107, R111, R157, R76) -/

/-- Baselines of N inputs, visibility words of a bank, and groups of a bank. -/
def KilnDesc.baselines (d : KilnDesc) : Nat := d.n * (d.n + 1) / 2
def KilnDesc.words (d : KilnDesc) : Nat := d.chCount * d.baselines
def KilnDesc.perGroup (d : KilnDesc) : Nat := if d.k16 then 512 else 256
def KilnDesc.groups (d : KilnDesc) : Nat := divUp d.words d.perGroup
def KilnDesc.bankBytes (d : KilnDesc) : Nat := 4096 * d.groups
def KilnDesc.expBytes (d : KilnDesc) : Nat := if d.k16 then 64 * d.groups else 0
def KilnDesc.blocks64 (d : KilnDesc) : Nat := divUp d.n 64
/-- Block pairs in triangle order (R86, R174), and the word of a baseline (R111). -/
def KilnDesc.pairs (d : KilnDesc) : List (Nat × Nat) :=
  (List.range d.blocks64).flatMap (fun p => (List.range (d.blocks64 - p)).map (fun i => (p, p + i)))
def KilnDesc.nPairs (d : KilnDesc) : Nat := d.blocks64 * (d.blocks64 + 1) / 2
def KilnDesc.word (d : KilnDesc) (c i j : Nat) : Nat :=
  c * d.baselines + (i * d.n - i * (i - 1) / 2 + (j - i))

/-- The update traffic of a kiln at span G, in bytes per second, as a fraction (R107). -/
def KilnDesc.updTraffic (d : KilnDesc) (g : Nat) : Nat × Nat :=
  ((if d.k16 then 16 * d.words + 128 * divUp d.words 512 else 32 * d.words) * d.srate, g)

/-- The bytes of one firing with R rings (R122). -/
def KilnDesc.drainBytes (d : KilnDesc) (r : Nat) : Nat := (if d.k16 then 4224 else 4160) * d.groups + 256 * r

/-- Shelf words the kiln needs when staged (R107). -/
def KilnDesc.shelfWords (d : KilnDesc) : Nat := d.chCount * (2080 * d.blocks64 + 4096 * (d.blocks64 * (d.blocks64 - 1) / 2))

/-- Streams, block bytes and buffer bytes of an engine (R157, R161). -/
def EngDesc.streams (d : EngDesc) : Nat := d.inCount + d.beams.length
def EngDesc.rawBytes (d : EngDesc) : Nat := d.inCount * (if d.c3 then 96 else 192)
def EngDesc.blockBytes (d : EngDesc) : Nat :=
  alignUp (64 + d.rawBytes + 256 * d.beams.length + 16 * d.streams) 64
def EngDesc.statsBytes (d : EngDesc) : Nat := 48 * d.chCount * d.streams
def EngDesc.bufBytes (d : EngDesc) : Nat := d.nk * d.chCount * d.blockBytes + d.statsBytes
/-- The pre-trigger count P (R156). -/
def EngDesc.pre (d : EngDesc) : Nat := min (d.nk - 1) (d.nk * d.prefrac / 256)

/-- K of a channel's ring (R76). -/
def ringK (skewUs srate : Nat) : Nat := divUp (skewUs * srate) 128000000 + 4

/-- The bytes of a slot with `n` placed input blocks (R76). -/
def slotBytes (c3 : Bool) (n : Nat) : Nat := 16 * n * (if c3 then 96 else 192)

/-! ### Chunk length and staging (R175) -/

/-- The divisors of `n` in increasing order. -/
def divisors (n : Nat) : List Nat :=
  let r := isqrt n
  let small := (List.range r).filterMap (fun i => if n % (i + 1) = 0 then some (i + 1) else none)
  small ++ (small.reverse.filterMap (fun d => if d * d = n then none else some (n / d)))

/-- L and S of a span G: none where the choice is not admissible. -/
def spanLS (c3 : Bool) (g : Nat) : Option (Nat × Nat) :=
  let lmax := if c3 then 256 else 65536
  if g ≤ lmax ∧ ¬ (c3 ∧ g % 256 ≠ 0 ∧ g ≠ 128) then some (g, 1)
  else
    match (List.range (lmax / 128)).reverse.find? (fun i => g % (128 * (i + 1)) = 0) with
    | some i => let l := 128 * (i + 1); if g / l ≤ 65535 then some (l, g / l) else none
    | none => none

/-- The admissible spans of a kiln with L and S, in increasing order. -/
def KilnDesc.spans (d : KilnDesc) : List (Nat × Nat × Nat) :=
  (divisors (d.ilen / 128)).filterMap (fun v =>
    let g := 128 * v
    if d.c3 ∧ d.ilen % 256 = 0 ∧ g % 256 ≠ 0 then none
    else (spanLS d.c3 g).map (fun ls => (g, ls.1, ls.2)))

/-! ### Interleave (R178 to R180) -/

/-- feistel (R179): the four rounds from `i` on. -/
def feistelRounds (key : W64) (h : Nat) : Nat → Nat → Nat × Nat → Nat × Nat
  | 0, _, ab => ab
  | n + 1, i, (a, b) =>
    let z := (mix (BitVec.ofNat 64 b ^^^ (key + BitVec.ofNat 64 i * 0x9E3779B97F4A7C15#64))).toNat % 2 ^ h
    feistelRounds key h n (i + 1) (b, a ^^^ z)

def feistel (x : Nat) (key : W64) (h : Nat) : Nat :=
  let (a, b) := feistelRounds key h 4 0 (x >>> h, x % 2 ^ h)
  a * 2 ^ h + b

/-- Number of bits of a number. -/
def bitLen (n : Nat) : Nat := if n = 0 then 0 else Nat.log2 n + 1

/-- The walk of place_group: feistel again until the result is a slot. A permutation of 2^k < 4 M values comes back below
M within 4 M passes, so the fuel never runs out. -/
def placeWalk (key : W64) (h m : Nat) : Nat → Nat → Nat
  | 0, x => x
  | n + 1, x => let y := feistel x key h; if y < m then y else placeWalk key h m n y

/-- place_group (R179). -/
def placeGroup (g : Nat) (key : W64) (q pn : Nat) : Nat :=
  let m := q * pn
  let k := max 2 (alignUp (bitLen (m - 1)) 2)
  placeWalk key (k / 2) m (4 * m + 4) g

/-- The device address of offset `y` of pseudo-channel `p` (R273). -/
def pcAddr (p y : Nat) : Nat :=
  (p / 64) * 51539607552 + (y / 65536) * 4194304 + (p % 64) * 65536 + y % 65536

/-- 64 KiB. -/
def kib64 : Nat := 65536

/-- Where `n` bytes at offset `x` of a spread region lie that has `size` bytes at offset `off` of each usable pseudo-channel:
DESIGN CHOICE (log 41), the pseudo-channels in order. It is cut at every 64 KiB, the interleave of R273. -/
def spreadRanges (usable : List Nat) (off size x n : Nat) : List (Nat × Nat) :=
  (List.range (divUp (x % kib64 + n) kib64)).map (fun i =>
    let lo := max x ((x / kib64 + i) * kib64)
    let hi := min (x + n) ((x / kib64 + i + 1) * kib64)
    (pcAddr (usable.getD (lo / size) 0) (off + lo % size), hi - lo))

/-- The pseudo-channel and slot of group `g` of a bank (R179). -/
def Layout.place (l : Layout) (key : W64) (g : Nat) : Nat × Nat :=
  let pn := l.usable.length
  let x := placeGroup g key l.q pn
  (l.usable.getD (x % pn) 0, x / pn)

/-- The device address of group `g` of bank 0 (A) or 1 (B), and of its exponent line. -/
def Layout.groupAddr (l : Layout) (key : W64) (bank g : Nat) : Nat :=
  let (p, s) := l.place key g
  pcAddr p ((if bank = 0 then l.bankA else l.bankB) + 4096 * s)
def Layout.expAddr (l : Layout) (key : W64) (bank g : Nat) : Nat :=
  let (p, s) := l.place key g
  pcAddr p ((if bank = 0 then l.expA else l.expB) + 64 * s)

/-- A kiln's first key, and the key after a re-key (R180). -/
def firstKey (seed : W64) (k : Nat) : W64 := mix (seed ^^^ (BitVec.ofNat 64 (k + 1) * 0xD6E8FEB86659FD93#64))
def nextKey (key : W64) : W64 := mix (key + 0x9E3779B97F4A7C15#64)

end Sys2Proof.Machine
end

