-- ==== Sys2Proof/Machine/Placer.lean ====
section
/-! DEFINITION. The placer as a function of a plan and of what R185 lists: the checks of R171 in their order, tiles
(R174), spans (R175, R176), shelf (R177), memory layout (R178), host bandwidth (R182), and the record (R187). -/

namespace Sys2Proof.Machine

/-- What a placement depends on besides the plan (R185): the grade, available tiles and usable slices in order, kilns
kept under R170 with their L, S, layout and current key, engines kept, occupied ranges of the spread regions, and the
register values PLACE reads. `fixed` keeps L, S and key of every kiln while its layout is computed anew (R184). -/
structure PlaceEnv where
  gradeC : Bool
  tiles : List Nat
  slices : List Nat
  kept : List (Nat × KilnPlace)
  fixed : List (Nat × Nat × Nat × W64)
  keptEng : List (Nat × EngPlace)
  occupied : List (Nat × Nat)
  skewUs : Nat
  pct : Nat
  hostBw : Nat
  deriving DecidableEq, Repr

/-- A rejection: REASON, DETAIL, NEED and AVAIL (R171). -/
structure Reject where
  reason : Nat
  detail : Nat
  need : Nat
  avail : Nat
  deriving DecidableEq, Repr

/-- No unit to name. -/
def noUnit : Nat := 0xFFFF

/-! ### PLAN (R172) and LANTERN (R173) -/

def badRange (first count : Nat) : Bool := decide (count = 0) || decide (first + count > 65536)

def KilnDesc.bad (p : Plan) (d : KilnDesc) : Bool :=
  decide (d.n = 0) || decide (d.n > 4096) || badRange d.chFirst d.chCount || decide (d.ilen = 0)
    || decide (d.ilen % 128 ≠ 0) || decide (d.srate = 0) || decide (d.pos + d.n > p.ninput)

def BlockDesc.bad (p : Plan) (d : BlockDesc) : Bool :=
  decide (d.n = 0) || decide (d.n > 4096) || decide (d.pos % 64 ≠ 0) || decide (d.n % 64 ≠ 0)
    || badRange d.chFirst d.chCount || decide (d.srate = 0) || decide (d.pos + d.n > p.ninput)

def EngDesc.bad (d : EngDesc) : Bool :=
  badRange d.chFirst d.chCount || decide (d.chCount > 4096) || decide (d.srate = 0) || decide (d.nbeam > 16)
    || decide (d.nb = 0) || decide (d.nb > 16)

/-- Whether the map breaks R166: runs of 16 consecutive device inputs from a multiple of 16, none twice. -/
def Plan.mapBad (p : Plan) : Bool :=
  let runs := (List.range (p.ninput / 16)).map (fun j => p.map.getD (16 * j) 0)
  (List.range p.ninput).any (fun i => decide (p.map.getD i 0 ≠ runs.getD (i / 16) 0 + i % 16))
    || runs.any (fun r => decide (r % 16 ≠ 0) || decide (r > 4080)) || decide (runs.eraseDups.length ≠ runs.length)

/-- Whether a channel is given two modes or rates. -/
def Plan.mixed (p : Plan) : Bool :=
  let r := p.ranges
  r.any (fun a => r.any (fun b =>
    decide (a.1 < b.1 + b.2.1) && decide (b.1 < a.1 + a.2.1) && decide (a.2.2 ≠ b.2.2)))

/-- R172: the unit a PLAN rejection names. -/
def Plan.check (p : Plan) : Option Nat :=
  if p.ninput < 16 ∨ p.ninput > 4096 ∨ p.ninput % 16 ≠ 0 ∨ p.bad.contains noUnit ∨ p.swres > 12288 ∨ p.effect % 256 ≠ 0 then some noUnit
  else if p.mapBad then some noUnit
  else if let some k := p.kilns.find? (fun k => k.2.bad p || p.bad.contains k.1) then some k.1
  else if let some b := p.blocks.find? (fun b => b.2.bad p) then some b.1
  else if let some e := p.engines.find? (fun e => e.2.bad) then some e.1
  else if p.mixed then some noUnit
  else none

/-- 64 GiB, 48 GiB and 4 MiB. -/
def gib64 : Nat := 68719476736
def gib48 : Nat := 51539607552
def mib4 : Nat := 4194304

/-- R173. -/
def Plan.lanternCheck (p : Plan) (gradeC : Bool) : Option Reject :=
  let unplaced (d : EngDesc) : Bool := d.beams.any (fun b => !(p.blocks.any (fun m => decide (m.1 = b / 64))))
  let badEng (d : EngDesc) : Bool :=
    decide (d.inFirst % 16 ≠ 0) || decide (d.inCount % 16 ≠ 0)
      || (List.range (d.inCount / 16)).any (fun i => !(p.map.contains (d.inFirst + 16 * i)))
      || unplaced d || (decide (d.nbeam = 0) && decide (d.inCount = 0)) || decide (d.nk = 0)
  let total := (p.engines.map (fun e => e.2.nb * e.2.bufBytes)).sum
  if gradeC ∧ p.engines ≠ [] then some ⟨2, noUnit, 0, 0⟩
  else match p.engines.find? (fun e => badEng e.2) with
    | some e => some ⟨2, e.1, 0, 0⟩
    | none => if total > gib64 then some ⟨2, noUnit, total, gib64⟩ else none

/-! ### Tiles (R13, R174) -/

/-- Tile cycles per second of one tile, in units of 1/256. -/
def tileCap : Nat := 1250000000 * 256

/-- The rate of a kiln unit, in units of 1/256. -/
def KilnDesc.rate (d : KilnDesc) : Nat :=
  if d.c3 then (if d.ilen % 256 = 0 then 128 * d.srate else 140 * d.srate) else 256 * d.srate

/-- The rate of a beam unit, in units of 1/256. -/
def BlockDesc.rate (d : BlockDesc) : Nat := if d.c3 then 132 * d.srate else 264 * d.srate

/-- The lists of units in the order served: a kiln's number (none: the beams) and runs of (count, rate). -/
def Plan.unitLists (p : Plan) : List (Option Nat × List (Nat × Nat)) :=
  p.kilns.map (fun k => (some k.1, [(k.2.nPairs * k.2.chCount, k.2.rate)]))
    ++ (if p.blocks = [] then []
        else [(none, p.blocks.map (fun b => (b.2.n / 64 * b.2.chCount, b.2.rate)))])

/-- Tiles a list requires: the runs in turn, with what the last tile taken has used. -/
def tilesNeeded : List (Nat × Nat) → Nat → Nat → Nat
  | [], _, n => n
  | (c, r) :: t, used, n =>
    let fit := if n = 0 then 0 else min c ((tileCap - used) / r)
    if c - fit = 0 then tilesNeeded t (used + fit * r) n
    else
      let per := tileCap / r
      let rest := c - fit
      tilesNeeded t (((rest - 1) % per + 1) * r) (n + divUp rest per)

/-- Units one tile takes from the runs, and the runs left. -/
def takeTile : List (Nat × Nat) → Nat → Nat × List (Nat × Nat)
  | [], _ => (0, [])
  | (c, r) :: t, free =>
    let fit := min c (free / r)
    if fit = c then let (n, rest) := takeTile t (free - fit * r); (c + n, rest)
    else (fit, (c - fit, r) :: t)

/-- The work of the tiles of one list, from unit `first` on, over the tiles given, and the tiles left. -/
def fillList (kiln : Option Nat) : List Nat → Nat → List (Nat × Nat) → List (Nat × TileWork) × List Nat
  | tiles, _, [] => ([], tiles)
  | [], _, _ => ([], [])
  | t :: ts, first, runs =>
    let (n, rest) := takeTile runs tileCap
    let (w, left) := fillList kiln ts (first + n) rest
    ((t, ⟨kiln, first, n⟩) :: w, left)

/-- The tiles of every list in turn. -/
def fillTiles : List (Option Nat × List (Nat × Nat)) → List Nat → List (Nat × TileWork)
  | [], _ => []
  | (k, runs) :: t, tiles => let (w, left) := fillList k tiles 0 runs; w ++ fillTiles t left

/-- R174: the tiles' work, or ARRAY. -/
def Plan.fill (p : Plan) (tiles : List Nat) : Except Reject (List (Nat × TileWork)) :=
  let lists := p.unitLists
  if lists.any (fun l => l.2.any (fun r => decide (r.2 > tileCap))) then
    .error ⟨3, noUnit, 2 ^ 64 - 1, tiles.length⟩
  else
    let need := (lists.map (fun l => tilesNeeded l.2 0 0)).sum
    if need > tiles.length then .error ⟨3, noUnit, need, tiles.length⟩ else .ok (fillTiles lists tiles)

/-! ### Traffic and spans (R176) -/

/-- Sums of fractions, as (numerator, denominator). -/
def fadd (a b : Nat × Nat) : Nat × Nat := (a.1 * b.2 + b.1 * a.2, a.2 * b.2)

/-- The terms of R176 that do not depend on the spans. -/
def Plan.baseTraffic (p : Plan) : Nat × Nat :=
  let asm := (p.segments.map (fun (a, n) =>
    let m := (p.mode a).getD (false, 0)
    (3 * n * 16 * (p.inBlocks a).length * m.2, if m.1 then 2 else 1)))
  let drains := p.kilns.map (fun k => ((k.2.bankBytes + k.2.expBytes) * k.2.srate, k.2.ilen))
  let delays := p.blocks.map (fun b => (32768 * (b.2.n / 64) * b.2.srate, if b.2.c3 then 256 else 128))
  let eng := p.engines.map (fun e => (e.2.blockBytes * e.2.chCount * e.2.srate, 128))
  (asm ++ drains ++ delays ++ eng).foldl fadd (0, 1)

/-- A kiln with its candidate spans left, the first the present one. -/
abbrev Cand := Nat × KilnDesc × List (Nat × Nat × Nat)

def candTerm (c : Cand) : Nat × Nat := c.2.1.updTraffic ((c.2.2.head?.map (·.1)).getD 1)

def candTraffic (base : Nat × Nat) (cs : List Cand) : Nat × Nat := (cs.map candTerm).foldl fadd base

/-- The kiln to lengthen: of those with a further candidate the one whose term is largest, ties to the lowest. -/
def pickCand : List Cand → Option Cand
  | [] => none
  | c :: t =>
    match pickCand t with
    | none => if c.2.2.length > 1 then some c else none
    | some d =>
      if c.2.2.length > 1 ∧ (candTerm c).1 * (candTerm d).2 ≥ (candTerm d).1 * (candTerm c).2 then some c else some d

/-- The span procedure of R176; the fuel is the number of candidates. -/
def chooseSpans (base : Nat × Nat) (budget : Nat) : Nat → List Cand → Except Reject (List Cand)
  | n, cs =>
    let t := candTraffic base cs
    if t.1 ≤ budget * t.2 then .ok cs
    else
      match n, pickCand cs with
      | n + 1, some k =>
        chooseSpans base budget n (cs.map (fun c => if c.1 = k.1 then (c.1, c.2.1, c.2.2.drop 1) else c))
      | _, _ => .error ⟨4, noUnit, divUp t.1 t.2, budget⟩

/-! ### Shelf (R177) -/

/-- Words of one slice. -/
def sliceWords : Nat := 294912

/-- The words already asked of each slice, and the slice a beam block takes: the most free, ties to the lower. -/
def takeSlice (used : List (Nat × Nat)) : Option Nat :=
  (used.foldl (fun (best : Option (Nat × Nat)) u =>
    match best with
    | none => some u
    | some b => if u.2 < b.2 then some u else best) none).map (·.1)

def assignSlices : List (Nat × BlockDesc) → List (Nat × Nat) → List (Nat × Nat) × List (Nat × Nat)
  | [], used => ([], used)
  | (m, _) :: t, used =>
    match takeSlice used with
    | none => ([], used)
    | some s =>
      let (w, u) := assignSlices t (used.map (fun x => if x.1 = s then (x.1, x.2 + 131072) else x))
      ((m, s) :: w, u)

/-- Words a staged kiln asks of every slice. -/
def stagedWords (d : KilnDesc) (pn : Nat) : Nat := 16 * divUp d.groups pn * d.perGroup

/-- R177: the slice of each block, beside blocks that hold theirs, or SHELF. The words asked where no slice is usable, and R177's
quotient has no value, are the shelf words R107 gives each staged kiln and 131,072 for each block (DESIGN CHOICE, log 99). -/
def shelf (blocks : List (Nat × BlockDesc)) (held : List (Nat × Nat)) (staged : List KilnDesc) (slices : List Nat) :
    Except Reject (List (Nat × Nat)) :=
  if slices = [] then
    if staged = [] ∧ blocks = [] then .ok []
    else .error ⟨5, noUnit, (staged.map KilnDesc.shelfWords).sum + 131072 * blocks.length, 0⟩
  else
    let base := (staged.map (fun d => stagedWords d (16 * slices.length))).sum
    let (w, used) := assignSlices blocks (slices.map (fun n => (n, base + 131072 * (held.filter (fun e => e.2 == n)).length)))
    match used.find? (fun u => decide (u.2 > sliceWords)) with
    | some u => .error ⟨5, u.1, u.2, sliceWords⟩
    | none => .ok w

/-! ### Memory layout (R178) -/

/-- The first offset at or after `at_` where `size` bytes fit among occupied ranges sorted by offset. -/
def lowestFree (size : Nat) : List (Nat × Nat) → Nat → Nat
  | [], at_ => at_
  | (o, n) :: t, at_ => if at_ + size ≤ o then at_ else lowestFree size t (max at_ (o + n))

/-- Ranges sorted by offset. -/
def sortRanges (l : List (Nat × Nat)) : List (Nat × Nat) := sortBy (·.1) l

/-- Lay regions of the given sizes in turn, each at the lowest free range; an empty region takes no place. -/
def layRegions : List Nat → List (Nat × Nat) → List Nat
  | [], _ => []
  | 0 :: t, occ => 0 :: layRegions t occ
  | n :: t, occ =>
    let o := lowestFree n (sortRanges occ) 0
    o :: layRegions t ((o, n) :: occ)

/-- The largest free range below `limit` beside occupied ranges sorted by offset. -/
def largestFree (limit : Nat) : List (Nat × Nat) → Nat → Nat
  | [], at_ => limit - at_
  | (o, n) :: t, at_ => max (min o limit - at_) (largestFree limit t (max at_ (o + n)))

/-- Bytes of the assembly rings of a plan (R76, R178). -/
def Plan.ringBytes (p : Plan) (skewUs : Nat) : Nat :=
  (p.segments.map (fun (a, n) =>
    let m := (p.mode a).getD (false, 0)
    n * ringK skewUs m.2 * slotBytes m.1 (p.inBlocks a).length)).sum

/-- Where the ring of channel `c` begins among the rings, which lie in channel order (log 41). -/
def Plan.ringOffset (p : Plan) (skewUs c : Nat) : Nat :=
  (p.segments.map (fun (a, n) =>
    let m := (p.mode a).getD (false, 0)
    min n (c - a) * ringK skewUs m.2 * slotBytes m.1 (p.inBlocks a).length)).sum

/-- The ranges of device memory that the placed blocks of slot (c, b) take (R76, R178). -/
def Placement.slotRanges (p : Placement) (c b : Nat) : List (List (Nat × Nat)) :=
  let m := (p.plan.mode c).getD (false, 0)
  let n := (p.plan.inBlocks c).length
  let x := p.plan.ringOffset p.skewUs c + b % ringK p.skewUs m.2 * slotBytes m.1 n
  (List.range n).map (fun i => spreadRanges p.usable p.asmOff p.asmSize (x + i * slotBytes m.1 1) (slotBytes m.1 1))

/-- The ranges of device memory that `n` bytes at offset `x` of the delay table of block `m` for epochs of the parity of `e`
take (R131, R178): the blocks' pairs of tables in order (log 41). -/
def Placement.delayRanges (p : Placement) (m e x n : Nat) : List (Nat × Nat) :=
  let base := ((p.blocks.filter (fun b => decide (b.1 < m))).map (fun b => 1024 * b.2.desc.n)).sum
  let half := 512 * ((p.blocks.find? (fun b => b.1 == m)).elim 0 (fun b => b.2.desc.n))
  spreadRanges p.usable p.delayOff p.delaySize (base + e % 2 * half + x) n

/-- Bytes of the delay tables. -/
def Plan.delayBytes (p : Plan) : Nat := (p.blocks.map (fun b => 2 * 64 * b.2.n * 8)).sum

/-- The highest place in a stack with room for `size` bytes below its tops, among `n` stacks: per stack the space used
from above (software area and buffers) against the spread regions from below. -/
def engPlace1 (spread : Nat) (size : Nat) (tops : List Nat) : Option Nat :=
  (List.range tops.length).reverse.find? (fun s => decide (spread + size ≤ tops.getD s 0))

/-- The highest run of `n` consecutive stacks that each has room. -/
def engRun (spread size n : Nat) (tops : List Nat) : Option Nat :=
  (List.range (tops.length + 1 - n)).reverse.find? (fun s =>
    (List.range n).all (fun i => decide (spread + size ≤ tops.getD (s + i) 0)))

/-- The lowest used offset of each stack from above after a buffer set (R178). -/
def takeTop (tops : List Nat) (s v : Nat) : List Nat := tops.set s v

/-- Place the buffers of engines in turn (R178). -/
def layEngines (spread : Nat) : List (Nat × EngDesc) → List Nat → Except Reject (List (Nat × EngPlace))
  | [], _ => .ok []
  | (e, d) :: t, tops =>
    let size := alignUp d.bufBytes mib4
    match engPlace1 spread (d.nb * size) tops with
    | some s =>
      let o := tops.getD s 0 - d.nb * size
      (layEngines spread t (takeTop tops s o)).map (fun r => (e, ⟨d, gib48 * s + o, size⟩) :: r)
    | none =>
      match engRun spread size d.nb tops with
      | some s =>
        let low := (List.range d.nb).foldl (fun a i => min a (tops.getD (s + i) 0)) (tops.getD s 0) - size
        let tops' := (List.range d.nb).foldl (fun a i => takeTop a (s + i) low) tops
        (layEngines spread t tops').map (fun r => (e, ⟨d, gib48 * s + low, gib48⟩) :: r)
      | none => .error ⟨6, e, size, (tops.map (fun x => x - spread)).foldl max 0⟩

/-- The tops of the stacks below the software area and below buffers that stay where they are. -/
def stackTops (gradeC : Bool) (swres : Nat) (kept : List (Nat × EngPlace)) : List Nat :=
  (List.range (if gradeC then 4 else 8)).map (fun s =>
    let used := kept.flatMap (fun e => (List.range e.2.desc.nb).map (fun i => e.2.base + i * e.2.stride))
    (used.filter (fun a => decide (a / gib48 = s))).foldl (fun t a => min t (a - gib48 * s)) (gib48 - swres * mib4))

/-- What the layout of R178 gives: kilns' layouts, assembly and delay regions, engines, the end of the spread. -/
structure LayoutOut where
  kilns : List (Nat × Layout)
  asm : Nat × Nat
  delay : Nat × Nat
  engines : List (Nat × EngPlace)
  spread : Nat
  deriving DecidableEq, Repr

/-- The sizes of a kiln's regions per pseudo-channel. -/
def kilnSizes (d : KilnDesc) (pn : Nat) : List Nat :=
  let q := divUp d.groups pn
  let a := alignUp (q * 4096) kib64
  let x := if d.k16 then alignUp (q * 64) kib64 else 0
  [a, a, x, x]

/-- R178. Spread regions that do not fit below the software area, and below buffers that stay where they are, are rejected: NEED is the bytes per pseudo-channel of the
regions to lay and AVAIL the largest free range beside those that stay (log 67). DESIGN CHOICE (log 106): Spread total is the highest end
of the regions laid and of those that stay, holes below it included (R187). -/
def Plan.layout (p : Plan) (env : PlaceEnv) : Except Reject LayoutOut :=
  let usable := env.slices.flatMap (fun n => (List.range 16).map (fun i => 16 * n + i))
  let pn := usable.length
  let limit := (stackTops env.gradeC p.swres env.keptEng).foldl min gib48 / 64
  let new := p.kilns.filter (fun k => !(env.kept.any (fun x => x.1 == k.1)))
  if pn = 0 ∧ (p.kilns ≠ [] ∨ p.ranges ≠ []) then
    let ask := (p.kilns.map (fun k => 2 * (k.2.bankBytes + k.2.expBytes))).sum + p.ringBytes env.skewUs + p.delayBytes
    if ask = 0 then .ok ⟨[], (0, 0), (0, 0), [], 0⟩ else .error ⟨6, noUnit, ask, 0⟩
  else
    let asm := alignUp (divUp (p.ringBytes env.skewUs) pn) kib64
    let dly := alignUp (divUp p.delayBytes pn) kib64
    let keptRanges := env.kept.flatMap (fun k =>
      let l := k.2.layout
      let s := kilnSizes k.2.desc l.usable.length
      [(l.bankA, s.getD 0 0), (l.bankB, s.getD 1 0), (l.expA, s.getD 2 0), (l.expB, s.getD 3 0)].filter
        (fun r => decide (r.2 ≠ 0)))
    let occ := keptRanges ++ env.occupied
    let sizes := new.flatMap (fun k => kilnSizes k.2 pn) ++ [asm, dly]
    let offs := layRegions sizes occ
    let ends := (List.zip offs sizes).map (fun (o, n) => o + n) ++ occ.map (fun (o, n) => o + n)
    let spread := ends.foldl max 0
    let lay := (List.zip (List.range new.length) new).map (fun (i, k) =>
      (k.1, (⟨divUp k.2.groups pn, usable, offs.getD (4 * i) 0, offs.getD (4 * i + 1) 0, offs.getD (4 * i + 2) 0,
        offs.getD (4 * i + 3) 0⟩ : Layout)))
    let n := 4 * new.length
    let newEng := p.engines.filter (fun e => !(env.keptEng.any (fun x => x.1 == e.1)))
    if spread > limit then .error ⟨6, noUnit, sizes.sum, largestFree limit (sortRanges occ) 0⟩
    else match layEngines (64 * spread) newEng (stackTops env.gradeC p.swres env.keptEng) with
      | .error r => .error r
      | .ok es =>
        .ok { kilns := lay ++ env.kept.map (fun k => (k.1, k.2.layout)), asm := (offs.getD n 0, asm)
              delay := (offs.getD (n + 1) 0, dly), engines := env.keptEng ++ es, spread }

/-! ### Host bandwidth (R182) and the whole placement -/

/-- R182, in bytes per second. A kiln above the limit puts the sum above it too; the manual does not say which of the two DETAIL
reports, and the sum is tested first, so that DETAIL is 0xFFFF and no kiln is named (DESIGN CHOICE, log 99). -/
def Plan.hostCheck (p : Plan) (hostBw : Nat) : Except Reject Nat :=
  let h := (hostBw - p.hostres) * 100000000
  let sum := (p.kilns.map (fun k => (k.2.drainBytes 16 * k.2.srate, k.2.ilen))).foldl fadd (0, 1)
  if sum.1 > h * sum.2 then .error ⟨7, noUnit, divUp sum.1 sum.2, h⟩
  else match p.kilns.find? (fun k => decide (k.2.drainBytes 16 * k.2.srate > k.2.ilen * h)) with
    | some k => .error ⟨7, k.1, divUp (k.2.drainBytes 16 * k.2.srate) k.2.ilen, h⟩
    | none => .ok (sum.1 / sum.2)

/-- The candidates of each kiln: the present span of a kiln that keeps its L and S, else every admissible span. -/
def Plan.cands (p : Plan) (env : PlaceEnv) : List Cand :=
  p.kilns.map (fun k =>
    match env.kept.find? (fun x => x.1 == k.1), env.fixed.find? (fun x => x.1 == k.1) with
    | some x, _ => (k.1, k.2, [(x.2.l * x.2.s, x.2.l, x.2.s)])
    | none, some x => (k.1, k.2, [(x.2.1 * x.2.2.1, x.2.1, x.2.2.1)])
    | none, none => (k.1, k.2, k.2.spans))

/-- A placement from a plan (R171 to R182). -/
def Plan.place (p : Plan) (env : PlaceEnv) : Except Reject Placement := do
  if let some d := p.check then throw ⟨1, d, 0, 0⟩
  if let some r := p.lanternCheck env.gradeC then throw r
  let tiles ← p.fill env.tiles
  let peak := if env.gradeC then 10240000000000 else 20480000000000
  let budget := env.pct * (peak / 100)
  let cs := p.cands env
  let fuel := (cs.map (fun c => c.2.2.length)).sum
  let chosen ← chooseSpans p.baseTraffic budget fuel cs
  let ls := chosen.map (fun c => (c.1, (c.2.2.head?.map (·.2)).getD (128, 1)))
  let staged := (p.kilns.filter (fun k => ls.any (fun x => x.1 == k.1 && decide (x.2.2 ≥ 2)))).map (·.2)
  let slices ← shelf p.blocks [] staged env.slices
  let lay ← p.layout env
  let host ← p.hostCheck env.hostBw
  let t := candTraffic p.baseTraffic chosen
  return {
    plan := p, effect := p.effect, tiles
    kilns := p.kilns.map (fun k =>
      let x := (ls.find? (fun x => x.1 == k.1)).elim (128, 1) (·.2)
      let key := match env.kept.find? (fun x => x.1 == k.1), env.fixed.find? (fun x => x.1 == k.1) with
        | some x, _ => x.2.key
        | none, some x => x.2.2.2
        | none, none => firstKey p.seed k.1
      (k.1, ⟨k.2, p.inputs k.2.pos k.2.n, x.1, x.2,
        (lay.kilns.find? (fun x => x.1 == k.1)).elim Layout.none (·.2), key⟩))
    blocks := p.blocks.map (fun b =>
      (b.1, ⟨b.2, p.inputs b.2.pos b.2.n, (slices.find? (fun x => x.1 == b.1)).elim 0 (·.2)⟩))
    engines := lay.engines
    skewUs := env.skewUs
    asmOff := lay.asm.1, asmSize := lay.asm.2, delayOff := lay.delay.1, delaySize := lay.delay.2
    usable := env.slices.flatMap (fun n => (List.range 16).map (fun i => 16 * n + i))
    hbmTraffic := t.1 / t.2, hostTraffic := host
    updTraffic := chosen.map (fun c => (c.1, (candTerm c).1 / (candTerm c).2)) }

/-! ### The record (R187) -/

/-- The record of a rejected plan: bytes 0 to 23. -/
def Reject.record (r : Reject) (planId : Nat) : List Byte :=
  leBytes 2 r.reason ++ leBytes 2 r.detail ++ leBytes 4 planId ++ leBytes 8 r.need ++ leBytes 8 r.avail

/-- The record of an accepted placement; `now` says that it applied at acceptance, `gone` names excluded or fused tiles. -/
def Placement.record (pl : Placement) (now : Bool) (pn spread : Nat) (gone : Nat → Bool) : List Byte :=
  let tileByte (t : Nat) : Nat :=
    match pl.tiles.find? (fun x => x.1 == t) with
    | some (_, w) => w.kiln.elim 0x80 (fun k => 0x10 + k)
    | none => if gone t then 0xFF else 0
  let kilnRec (k : Nat) : List Byte :=
    match pl.kilns.find? (fun x => x.1 == k) with
    | none => List.replicate 48 0
    | some (_, d) =>
      leBytes 2 (d.l / 128) ++ leBytes 2 d.s ++ leBytes 4 (d.desc.ilen / (d.l * d.s)) ++ leBytes 4 d.layout.q
        ++ leBytes 4 (d.layout.bankA / kib64) ++ leBytes 4 (d.layout.bankB / kib64)
        ++ leBytes 4 (d.layout.expA / kib64) ++ leBytes 4 (d.layout.expB / kib64) ++ leBytes 8 d.key.toNat
        ++ leBytes 8 ((pl.updTraffic.find? (fun x => x.1 == k)).elim 0 (·.2)) ++ leBytes 4 0
  let blockRec (m : Nat) : List Byte :=
    match pl.blocks.find? (fun x => x.1 == m) with
    | none => List.replicate 16 0
    | some (_, d) => leBytes 4 d.slice ++ leBytes 4 (pl.delayOff / kib64) ++ leBytes 4 (2 * 64 * d.desc.n * 8) ++ leBytes 4 0
  let engRec (e : Nat) : List Byte :=
    match pl.engines.find? (fun x => x.1 == e) with
    | none => List.replicate 32 0
    | some (_, d) => leBytes 8 d.base ++ leBytes 8 d.stride ++ leBytes 4 d.desc.nk ++ leBytes 4 d.desc.pre ++ leBytes 8 0
  let maxK := (pl.plan.ranges.map (fun r => ringK pl.skewUs r.2.2.2)).foldl max 0
  leBytes 2 0 ++ leBytes 2 noUnit ++ leBytes 4 pl.plan.planId ++ leBytes 16 0
    ++ leBytes 8 (if now then 0 else pl.effect) ++ leBytes 8 pl.hbmTraffic ++ leBytes 8 pl.hostTraffic
    ++ leBytes 2 pl.tiles.length ++ leBytes 2 pn ++ leBytes 4 (spread / kib64) ++ leBytes 8 0
    ++ (List.range 256).map (fun t => BitVec.ofNat 8 (tileByte t)) ++ (List.range 16).flatMap kilnRec
    ++ (List.range 24).flatMap blockRec ++ (List.range 4).flatMap engRec
    ++ leBytes 4 (pl.asmOff / kib64) ++ leBytes 4 maxK ++ List.replicate 440 0

end Sys2Proof.Machine
end

