-- ==== Sys2Proof/Machine/Work.lean ====
section
/-! DEFINITION. The work of the placement in effect: which tiles and engines read a slot, the units of a tile in their order,
and the samples of a slot (R11, R30, R86 to R88, R124, R125, R174). -/

namespace Sys2Proof.Machine

/-! ### The placement in effect -/

def State.placedKiln (s : State) (k : Nat) : Option KilnPlace :=
  s.plc.cur.bind (fun p => (p.kilns.find? (fun e => e.1 == k)).map (·.2))
def State.placedBlock (s : State) (m : Nat) : Option BlockPlace :=
  s.plc.cur.bind (fun p => (p.blocks.find? (fun e => e.1 == m)).map (·.2))
def State.placedEng (s : State) (e : Nat) : Option EngPlace :=
  s.plc.cur.bind (fun p => (p.engines.find? (fun x => x.1 == e)).map (·.2))
def State.tileWork (s : State) (t : Nat) : Option TileWork :=
  s.plc.cur.bind (fun p => (p.tiles.find? (fun e => e.1 == t)).map (·.2))
/-- The update span G of a kiln (R94). -/
def KilnPlace.g (p : KilnPlace) : Nat := p.l * p.s

/-! ### Units of a tile (R174): pair-major, channels ascending -/

/-- The pair numbers lo to hi − 1 of channel offset `j`, of the `n` units from unit `first` on in a list of `c` channels. -/
def pairSpan (first n c j : Nat) : Nat × Nat := (divUp (first - j) c, divUp (first + n - j) c)

/-- One pair of a tile in one channel: of a kiln, its number in triangle order; of a beam block, the block and P. -/
inductive Unit_ where
  | pair (k i : Nat)
  | beam (m p : Nat)
  deriving DecidableEq, Repr

/-- The beam blocks with the unit number at which each begins. -/
def beamLists (bs : List (Nat × BlockPlace)) : List (Nat × BlockDesc × Nat) :=
  (bs.foldl (fun (acc : List (Nat × BlockDesc × Nat) × Nat) b =>
    (acc.1 ++ [(b.1, b.2.desc, acc.2)], acc.2 + divUp b.2.desc.n 64 * b.2.desc.chCount)) ([], 0)).1

/-- The units of a tile in channel `c`, in the order of its list. -/
def Placement.unitsIn (p : Placement) (w : TileWork) (c : Nat) : List Unit_ :=
  match w.kiln with
  | some k =>
    match p.kilns.find? (fun e => e.1 == k) with
    | none => []
    | some (_, d) =>
      if !inRange c d.desc.chFirst d.desc.chCount then []
      else
        let (lo, hi) := pairSpan w.first w.count d.desc.chCount (c - d.desc.chFirst)
        (List.range (hi - lo)).map (fun i => .pair k (lo + i))
  | none =>
    (beamLists p.blocks).flatMap (fun b =>
      let (m, d, at_) := b
      let n := divUp d.n 64 * d.chCount
      if !inRange c d.chFirst d.chCount ∨ w.first + w.count ≤ at_ ∨ at_ + n ≤ w.first then []
      else
        let lo0 := w.first - at_
        let hi0 := min n (w.first + w.count - at_)
        let (lo, hi) := pairSpan lo0 (hi0 - lo0) d.chCount (c - d.chFirst)
        (List.range (hi - lo)).map (fun i => .beam m (lo + i)))

/-- The channels of a tile's list, as (first, count) ranges that cover them. -/
def Placement.tileChans (p : Placement) (w : TileWork) : List (Nat × Nat) :=
  match w.kiln with
  | some k => (p.kilns.filter (fun e => e.1 == k)).map (fun e => (e.2.desc.chFirst, e.2.desc.chCount))
  | none => p.blocks.map (fun b => (b.2.desc.chFirst, b.2.desc.chCount))

/-! ### Who reads a slot (R11, R78, R97, R133, R159) -/

/-- Whether a kiln accumulates index `x`: it is OPEN or FIRING, has begun, and no SHUT ends before. -/
def State.kilnTakes (s : State) (k x : Nat) : Bool :=
  let v := s.kiln k
  (decide (v.state = 2) || decide (v.state = 3)) && decide (max v.s0 v.from_ ≤ x) && v.endAt.elim true (fun e => decide (x < e.1))

/-- Whether block m forms beams at index `x`: its first STEER has taken effect at or before it, or is pending there. -/
def State.blockTakes (s : State) (m x : Nat) : Bool :=
  let b := s.block m
  (b.steered && b.eras.any (fun e => decide (e.from_ ≤ x))) || b.pend.elim false (fun q => decide (q.ns ≤ x))

def State.unitTakes (s : State) (x : Nat) : Unit_ → Bool
  | .pair k _ => s.kilnTakes k x
  | .beam m _ => s.blockTakes m x

/-- Whether tile t reads slot (c, b). -/
def State.tileReads (s : State) (t c b : Nat) : Bool :=
  match s.plc.cur, s.tileWork t with
  | some p, some w => (p.unitsIn w c).any (s.unitTakes (128 * b))
  | _, _ => false

/-- Whether engine e reads slot (c, b): it writes into a buffer and covers the channel (R158, R159). -/
def State.engReads (s : State) (e c b : Nat) : Bool :=
  match s.placedEng e with
  | some p =>
    let v := s.ltn e
    inRange c p.desc.chFirst p.desc.chCount && decide (1 ≤ v.state) && decide (v.state ≤ 3)
      && v.next.elim true (fun n => decide (n ≤ b))
  | none => false

/-- The readers of a slot as it is released: tile t as t, engine e as 1,000 + e. -/
def State.readersOf (s : State) (c b : Nat) : List Nat :=
  match s.plc.cur with
  | none => []
  | some p => ((p.tiles.map (·.1)).filter (fun t => s.tileReads t c b))
      ++ ((p.engines.map (·.1)).filter (fun e => s.engReads e c b)).map (1000 + ·)

/-! ### Slots -/

/-- The channel's ring, under the mode and rate of the placement where it has not begun. -/
def State.slotAt (s : State) (c b : Nat) : Option Slot := (s.ring c).slots.find? (fun x => x.blk == b)
def State.isReleased (s : State) (c b : Nat) : Bool := (s.slotAt c b).elim false (·.released)
/-- Released already, free again or not: slots are released in block order (R79). -/
def State.wasReleased (s : State) (c b : Nat) : Bool := (s.ring c).rel.elim false (fun x => decide (b ≤ x))
/-- The highest block index released in any of these channels. -/
def State.lastReleased (s : State) (rs : List (Nat × Nat)) : Option Nat :=
  s.asm_.foldl (fun m e => if rs.any (fun r => inRange e.1 r.1 r.2) then
    e.2.rel.elim m (fun x => some (m.elim x (max x))) else m) none

/-- Leading released slots with no reader left are free, and the base moves on (R78). -/
def freeLead : Nat → List Slot → Nat × List Slot
  | base, [] => (base, [])
  | base, x :: t => if x.released && x.readers.isEmpty then freeLead (base + 1) t else (base, x :: t)

def State.freeSlots (s : State) (c : Nat) : State :=
  let r := s.ring c
  match r.base with
  | none => s
  | some b =>
    let (b', l) := freeLead b r.slots
    s.setRing c { r with base := some b', slots := l }

/-- A reader has consumed slots lo to hi − 1 of a channel. -/
def State.consume (s : State) (reader c lo hi : Nat) : State :=
  let r := s.ring c
  let drop := fun (x : Slot) =>
    if x.released && decide (lo ≤ x.blk) && decide (x.blk < hi) then { x with readers := x.readers.filter (· ≠ reader) } else x
  (s.setRing c { r with slots := r.slots.map drop }).freeSlots c

/-- A reader given up on every slot of every channel that satisfies `f`. -/
def State.unread (s : State) (reader : Nat) (f : Nat → Nat → Bool) : State :=
  s.asm_.foldl (fun s e =>
    let r := s.ring e.1
    let drop := fun (x : Slot) => if f e.1 x.blk then { x with readers := x.readers.filter (· ≠ reader) } else x
    (s.setRing e.1 { r with slots := r.slots.map drop }).freeSlots e.1) s

/-- Tiles that no longer need a slot give it up: after a kiln ends, or work moves. -/
def State.refreshReaders (s : State) : State :=
  s.asm_.foldl (fun s e =>
    let r := s.ring e.1
    let keep := fun (x : Slot) =>
      { x with readers := x.readers.filter (fun q => decide (1000 ≤ q) || s.tileReads q e.1 x.blk) }
    (s.setRing e.1 { r with slots := r.slots.map keep }).freeSlots e.1) s

/-! ### Samples (R29, R30, R68) -/

/-- What the slot holds of a device input's block. -/
def Slot.block (x : Slot) (input : Nat) : BlkSt :=
  match x.ins.findIdx? (· == input / 16) with
  | some i => x.blocks.getD i (.blank 0)
  | none => .blank 0

/-- The stored payload of a device input that is valid in the slot. -/
def Slot.valid? (x : Slot) (input : Nat) : Option (List Byte) :=
  match x.block input with
  | .stored _ v p => if v.testBit (input % 16) then some p else none
  | _ => none

/-- Whether an input's block of the slot is blank. -/
def Slot.isBlank (x : Slot) (input : Nat) : Bool :=
  match x.block input with
  | .blank _ => true
  | _ => false

/-- The 128 samples of a valid input. -/
def samplesOf (c3 : Bool) (pay : List Byte) (input : Nat) : List (Int × Int) :=
  (List.range 128).map (fun t => paySample c3 pay (input % 16) t)

end Sys2Proof.Machine
end

