-- ==== Sys2Proof/Machine/Wedging.lean ====
section
/-! DEFINITION. Wedging: sources, the checks of R80, assembly slots with their deadlines and release, and the loss maps of a
pair (R66 to R83, R352, R391). -/

namespace Sys2Proof.Machine

def oWdgCtl : Nat := 0xA00000
def State.epochChk (s : State) : Bool := s.rb oWdgCtl 1
def State.epochBlank (s : State) : Bool := s.rb oWdgCtl 2

/-! ### Slots (R76 to R78) -/

/-- The skew window in µs as WDG_SKEW_US stands (R85). -/
def State.skewNow (s : State) : Nat := let v := s.rf 0xA00004 0 16; if v = 0 then 1 else min v 64000

/-- The PRESENT source whose ranges cover an input block in a channel. -/
def State.owner (s : State) (c ib : Nat) : Option Nat :=
  (s.srcs.find? (fun e => decide (e.2.state = 1) && decide (e.2.inFirst ≤ 16 * ib)
    && decide (16 * ib + 16 ≤ e.2.inFirst + e.2.inCount) && inRange c e.2.chFirst e.2.chCount)).map (·.1)

/-- What a placed block is as its slot opens: blank where no PRESENT source owns it, or its epoch is bad. -/
def State.openBlk (s : State) (c ib : Nat) : BlkSt :=
  match s.owner c ib with
  | none => .blank 33
  | some o => if s.epochBlank && (s.src o).epochBad then .blank 36 else .awaited o

/-- The blank reasons of a list of blocks counted. -/
def State.countBlanks (s : State) (l : List BlkSt) : State :=
  l.foldl (fun s b => match b with
    | .blank n => s.wdgCnt n
    | _ => s) s

/-- One placed block of a slot replaced. -/
def State.setBlk (s : State) (c b ib : Nat) (v : BlkSt) : State :=
  let r := s.ring c
  let put := fun (x : Slot) =>
    if x.blk = b then { x with blocks := x.blocks.set (x.ins.findIdx (· == ib)) v } else x
  s.setRing c { r with slots := r.slots.map put }

/-- A block awaited from a source that satisfies `f`. -/
def BlkSt.awaitedFrom (f : Nat → Bool) : BlkSt → Bool
  | .awaited o => f o
  | _ => false
def BlkSt.isAwaited (b : BlkSt) : Bool := b.awaitedFrom (fun _ => true)

/-- Awaited blocks of open slots that satisfy `f` (channel, block, source) blanked for a reason, each counted. -/
def State.blankAwaited (s : State) (code : Nat) (f : Nat → Nat → Nat → Bool) : State :=
  s.asm_.foldl (fun s e =>
    let r := s.ring e.1
    let hit := fun (x : Slot) (b : BlkSt) => !x.released && b.awaitedFrom (f e.1 x.blk)
    let n := (r.slots.map (fun x => (x.blocks.filter (hit x)).length)).sum
    let put := fun (x : Slot) => { x with blocks := x.blocks.map (fun b => if hit x b then .blank code else b) }
    (s.setRing e.1 { r with slots := r.slots.map put }).cnt (0xA00100 + 4 * code) n) s

/-- Blocks awaited from a source blanked (R77). -/
def State.blankOwned (s : State) (src code : Nat) : State := s.blankAwaited code (fun _ _ o => o == src)

/-! ### Sources (R69, R73 to R75) -/

/-- A PRESENT source departs to a state: SRC_DEPARTED, and its outstanding blocks are blanked. -/
def State.depart (s : State) (n st : Nat) : State :=
  let v := s.src n
  if v.state = 1 then
    ((s.setSrc n { v with state := st }).publish 18).blankOwned n 34
  else s

/-- An entry set EMPTY (R73). DESIGN CHOICE (log 86): FORGET clears every field of the entry, EPOCH_BAD and CONFLICT too. -/
def State.forget (s : State) (n : Nat) : State := (s.depart n 0).setSrc n SrcEntry.empty

/-- An entry of the source table read by wedging: an uncorrectable error sets it EMPTY (R284). -/
def State.srcLook (s : State) (n : Nat) : State :=
  let (bad, s) := s.scan 8 n 0 16 12 0 false
  if bad.isEmpty then s else (s.clean 8 n 0 16).forget n

/-- Every entry of the source table read. -/
def State.srcLookAll (s : State) : State :=
  ((s.err.upsets.filter (fun u => u.cls == 8)).map (·.unit)).eraseDups.foldl State.srcLook s

/-- Every unopened slot from the base up to block b opened, with one deadline. DESIGN CHOICE (log 95): the frame that opens them
arrives at the tick at which wedging takes it from its lane's FIFO. -/
def State.openTo (s : State) (c b : Nat) (p : Placement) : State :=
  let s := s.srcLookAll
  let r := s.ring c
  match r.base with
  | none => s
  | some base =>
    let from_ := base + r.slots.length
    let ins := p.plan.inBlocks c
    let mk := fun (i : Nat) => (⟨from_ + i, ins, ins.map (s.openBlk c), r.c3, s.time.ticks + tUs p.skewUs, false, [],
      p.slotRanges c (from_ + i), false⟩ : Slot)
    let new := (List.range (b + 1 - from_)).map mk
    (new.foldl (fun s x => s.countBlanks x.blocks) s).setRing c { r with slots := r.slots ++ new }

/-- LAST_SEEN and the timeout restart (R73). -/
def State.attribute_ (s : State) (n : Nat) (ns : W32) : State :=
  s.setSrc n { s.src n with lastSeen := ns, lastTick := s.time.ticks }

/-- The entry a HAIL payload announces; none where it breaks R69. DESIGN CHOICE (log 86): EPOCH_BAD and CONFLICT stay as they
are. -/
def hailEntry (f : Frame) (v : SrcEntry) : Option SrcEntry :=
  let p := f.payload
  let inF := field p 0 2
  let inC := field p 2 2
  let chF := field p 4 2
  let chC := if field p 6 2 = 0 then 65536 else field p 6 2
  let r := field p 8 1
  if f.len ≠ 32 ∨ inF ≥ 4096 ∨ inC ≥ 8192 ∨ r ≥ 16 ∨ !(p.drop 9).all (· == 0) then none
  else if inF % 16 ≠ 0 ∨ inC % 16 ≠ 0 ∨ inC < 16 ∨ inC > 4096 ∨ inF + inC > 4096 ∨ chF + chC > 65536 then none
  else some { v with state := 1, rate := r, inFirst := inF, inCount := inC, chFirst := chF, chCount := chC }

/-- Whether two ranges overlap. -/
def overlap (a n b m : Nat) : Bool := decide (a < b + m) && decide (b < a + n)

/-- R74: another PRESENT source whose input range and channel range both overlap. -/
def State.hailClash (s : State) (n : Nat) (v : SrcEntry) : Bool :=
  s.srcs.any (fun e => e.1 != n && decide (e.2.state = 1) && overlap e.2.inFirst e.2.inCount v.inFirst v.inCount
    && overlap e.2.chFirst e.2.chCount v.chFirst v.chCount)

/-- A HAIL frame (R69, R73, R74). -/
def State.hailIn (s : State) (f : Frame) : State :=
  let n := f.src
  let s := s.srcLookAll.attribute_ n s.ns
  let v := s.src n
  match hailEntry f v with
  | none => s.wdgCnt 15
  | some v' =>
    if s.hailClash n v' then ((s.wdgCnt 16).setSrc n { v with conflict := true }).publish 19
    else
      let s := s.setSrc n v'
      if v.state = 1 then s else s.publish 17

/-- P of a source's rate, in 2⁻³² ns (R75). -/
def State.ratePeriod (s : State) (r : Nat) : Nat :=
  (s.reg (0xA00040 + 8 * r)).toNat + 2 ^ 32 * s.rf (0xA00044 + 8 * r) 0 24

/-- The epoch check: whether the implied epoch lies outside the tolerance. A rate whose period is 0 fails it. -/
def State.epochFails (s : State) (v : SrcEntry) (f : Frame) : Bool :=
  let p := s.ratePeriod v.rate
  let t : Nat := (field f.payload 0 6 * 1000000000 + field f.payload 6 4) * 2 ^ 32
  let sec := (s.reg 0xA00010).toNat + 2 ^ 32 * s.rf 0xA00014 0 16
  let epoch : Nat := (sec * 1000000000 + min 999999999 (s.rf 0xA00018 0 30)) * 2 ^ 32
  let d : Int := (t : Int) - ((f.index * p : Nat) : Int) - (epoch : Int)
  decide (p = 0) || decide (d.natAbs > (s.reg 0xA0001C).toNat * 2 ^ 32)

/-- The result of an epoch check taken up (R75, R77). -/
def State.epochSet (s : State) (n : Nat) (bad : Bool) : State :=
  let v := s.src n
  let s := s.setSrc n { v with epochBad := bad }
  if bad && !v.epochBad then
    let s := s.publish 20
    if s.epochBlank then s.blankOwned n 36 else s
  else s

/-- Checks 6 and 7 of R80, the attribution, and the frame's own part where they pass. -/
def State.fromSource (s : State) (f : Frame) (k : State → State) : State :=
  let s := s.srcLook f.src
  let st := (s.src f.src).state
  if st = 2 then s.wdgCnt 4
  else
    let s := s.attribute_ f.src s.ns
    if st = 0 then s.wdgCnt 3 else k s

/-- A BUOY frame (R70, R75, R298). DESIGN CHOICE (log 86): R80 checks no PAYLOAD_LEN of a BUOY; bytes that are not there read 0. -/
def State.buoyIn (s : State) (f : Frame) : State :=
  s.fromSource f fun s =>
    let s := s.wdgCnt 17
    let s := if s.epochChk then s.epochSet f.src (s.epochFails (s.src f.src) f) else s
    s.capInstant ⟨0x84, 0, f.ns, f.sub, f.src, f.chan, f.index, field f.payload 0 6, field f.payload 6 4⟩

/-! ### DATA frames (R80, R81) -/

/-- A ring that has not begun takes the mode and rate of the placement in effect; K is always the placement's. -/
def State.ringFor (s : State) (p : Placement) (c : Nat) : ChanRing :=
  let r := s.ring c
  match p.plan.mode c with
  | some (c3, f) => if r.base.isNone then { r with c3, srate := f, k := ringK p.skewUs f } else { r with k := ringK p.skewUs f }
  | none => r

/-- Blanked in its open slot other than by copies that differ. DESIGN CHOICE (log 95): R80 names the reasons of R77 for LATE; a block
blanked for another reason in a slot not yet released (ECC, PAIR, or missing) counts as LATE too. -/
def BlkSt.blankR77 : BlkSt → Bool
  | .blank n => n != 35
  | _ => false

/-- A block's samples stored: the lines they take in device memory hold them with fresh check symbols. -/
def State.storeBlk (s : State) (c b ib : Nat) (v : BlkSt) : State :=
  let ranges := (s.slotAt c b).elim [] (fun x => x.ranges.getD (x.ins.findIdx (· == ib)) [])
  ranges.foldl (fun s r => (s.freshLines r.1 r.2).touch r.1 r.2) (s.setBlk c b ib v)

/-- A frame that has passed checks 1 to 13, for block `ib` of slot (c, b). DESIGN CHOICE (log 86): a block that is placed now
but has no place in a slot kept from the placement before counts as UNPLANNED. -/
def State.dataStore (s : State) (p : Placement) (f : Frame) (c b ib : Nat) : State :=
  let r := s.ringFor p c
  let base := r.base.getD b
  let r := { r with base := some base }
  let s := s.setRing c r
  let far := if r.slots.head?.elim false (·.released) then s.wdgCnt 12 else s.wdgCnt 11
  match s.slotAt c b with
  | some x =>
    if b < base ∨ x.released ∨ (x.ins.contains ib ∧ (x.block (16 * ib)).blankR77) then s.wdgCnt 10
    else if base + r.k ≤ b then far
    else match x.block (16 * ib) with
      | .awaited _ => (s.storeBlk c b ib (.stored f.crc f.valid f.payload)).wdgCnt 0
      | .stored crc _ _ => if crc = f.crc then s.wdgCnt 13 else ((s.setBlk c b ib (.blank 35)).wdgCnt 14).wdgCnt 35
      | .blank n => if n = 35 then s.wdgCnt 13 else if x.ins.contains ib then s.wdgCnt 10 else s.wdgCnt 7
  | none =>
    if b < base then s.wdgCnt 10
    else if base + r.k ≤ b then far
    else
      let s := s.openTo c b p
      match (s.slotAt c b).map (fun x => x.block (16 * ib)) with
      | some (BlkSt.awaited _) => (s.storeBlk c b ib (.stored f.crc f.valid f.payload)).wdgCnt 0
      | _ => s.wdgCnt 10

/-- A DATA frame of a PRESENT source: checks 9 to 13 of R80. DESIGN CHOICE (log 95): after a new HAIL the ranges it gives are those of
check 10 for slots opened before it too. -/
def State.dataIn (s : State) (f : Frame) : State :=
  s.fromSource f fun s =>
    let v := s.src f.src
    if f.base % 16 ≠ 0 ∨ f.index % 128 ≠ 0 then s.wdgCnt 5
    else if !(decide (v.inFirst ≤ f.base) && decide (f.base + 16 ≤ v.inFirst + v.inCount) && inRange f.chan v.chFirst v.chCount)
    then s.wdgCnt 6
    else match s.plc.cur with
      | none => s.wdgCnt 7
      | some p =>
        if !(p.plan.inBlocks f.chan).contains (f.base / 16) then s.wdgCnt 7
        else if f.len ≠ (if ((p.plan.mode f.chan).map (·.1)).getD false then 1536 else 3072) then s.wdgCnt 8
        else if s.epochBlank && v.epochBad then s.wdgCnt 9
        else s.dataStore p f f.chan (f.index / 128) (f.base / 16)

/-- The frame at the head of a lane's FIFO, if it has the type, taken; `k` says what becomes of it. With wedging off it is
discarded uncounted (R85). -/
def State.takeFrame (s : State) (n ty : Nat) (k : State → Frame → State) : State :=
  let v := s.lane (.rx n)
  match v.fifo with
  | f :: t =>
    if f.ty ≠ ty then s
    else
      let u := s.setLane (.rx n) { v with fifo := t }
      if s.wdgOn then k u f else u
  | [] => s

/-- The controllers serve the lines in which a DATA frame has its block stored, from s to t; where they do not, wedging waits and
the frame stays in the FIFO (R22, R275, R278). -/
def State.storeServes (s t : State) (f : Frame) : Bool :=
  match t.slotAt f.chan (f.index / 128) with
  | some x =>
    match x.block f.base with
    | .stored _ _ _ =>
      decide ((s.slotAt f.chan (f.index / 128)).map (fun y => y.block f.base) = some (x.block f.base))
        || (x.ranges.getD (x.ins.findIdx (· == f.base / 16)) []).all (fun r => s.hbmServes r.1 r.2)
    | _ => true
  | none => true

/-! ### Release (R79, R83, R352) -/

/-- The first slot of a channel that is not released. -/
def State.nextSlot (s : State) (c : Nat) : Option Slot := (s.ring c).slots.find? (fun x => !x.released)

/-- Blocks of a slot replaced by `f` (input block, block). -/
def State.mapBlks (s : State) (c b : Nat) (f : Nat → BlkSt → BlkSt) : State :=
  let r := s.ring c
  let put := fun (x : Slot) => if x.blk = b then { x with blocks := (x.ins.zip x.blocks).map (fun q => f q.1 q.2) } else x
  s.setRing c { r with slots := r.slots.map put }

/-- A slot marked as read (R11). -/
def State.slotMark (s : State) (c b : Nat) : State :=
  let r := s.ring c
  s.setRing c { r with slots := r.slots.map (fun x => if x.blk = b then { x with taken := true } else x) }

/-- The stored blocks of a slot read, once (R11): an uncorrectable error blanks the block it hits (R83, R284). -/
def State.readSlot (s : State) (c : Nat) (x : Slot) : State :=
  if x.taken then s
  else (x.ins.zip x.ranges).foldl (fun s e =>
    match x.block (16 * e.1) with
    | .stored _ _ _ =>
      let (bad, s) := e.2.foldl (fun (acc : Bool × State) r =>
        let (ue, s) := acc.2.scan 0 0 r.1 (r.1 + r.2) 2 0 false
        (acc.1 || !ue.isEmpty, s.touch r.1 r.2)) (false, s)
      if bad then (s.setBlk c x.blk e.1 (.blank 38)).wdgCnt 38 else s
    | _ => s) (s.slotMark c x.blk)

/-- The controllers serve the memory of a slot that has still to be read (R11, R275). -/
def State.slotServes (s : State) (x : Slot) : Bool := x.taken || x.ranges.all (fun l => l.all (fun r => s.hbmServes r.1 r.2))

/-- Every awaited block of a slot, received or not, blanked for an error (R79, R83, R284), each counted. -/
def State.slotLost (s : State) (c : Nat) (x : Slot) : State :=
  let hit := fun (b : BlkSt) => match b with
    | .blank _ => false
    | _ => true
  (s.mapBlks c x.blk (fun _ b => if hit b then .blank 38 else b)).cnt (0xA00100 + 4 * 38) (x.blocks.filter hit).length

/-- What strikes as a slot's bookkeeping is read: an uncorrectable error in assembly SRAM blanks every awaited block of it. -/
def State.slotUpset (s : State) (c : Nat) (x : Slot) (up : Option Upset) : State :=
  let s := s.upset up
  match up with
  | some u =>
    if u.cls = 2 then
      let (bad, s) := s.scan 2 u.unit u.addr (u.addr + 1) 2 0 false
      if bad.isEmpty then s else s.slotLost c x
    else s
  | none => s

/-- The input blocks a slot blanks. -/
def Slot.mask (x : Slot) : List Nat :=
  ((x.ins.zip x.blocks).filter (fun q => match q.2 with
    | .blank _ => true
    | _ => false)).map (·.1)

/-- The partner's loss map of a slot: a mask, or one of a watermark (R352). -/
def State.partnerLoss (s : State) (c b : Nat) : Option (List Nat) :=
  match s.pair.losses.find? (fun e => e.1 == c && e.2.1 == b) with
  | some e => some e.2.2
  | none => if (s.pair.marks.find? (fun e => e.1 == c)).elim false (fun e => decide (b ≤ e.2)) then some [] else none

/-- This part's LOSS item for a slot that meets its local condition, sent once. -/
def State.sendLoss (s : State) (c : Nat) (x : Slot) : State :=
  if s.pair.lossSent.contains (c, x.blk) ∨ !s.joined then s
  else
    let m := x.mask
    (s.setPair fun p => { p with lossSent := p.lossSent ++ [(c, x.blk)] }).sendSeq (.loss c x.blk m m.isEmpty)

/-- Blocks blanked only in the partner blanked here (BLANK_PAIR). -/
def State.pairBlank (s : State) (c : Nat) (x : Slot) (m : List Nat) : State :=
  let hit := (x.ins.zip x.blocks).filter (fun q => m.contains q.1 && (match q.2 with
    | .blank _ => false
    | _ => true))
  (s.mapBlks c x.blk (fun i b => if hit.any (fun q => q.1 == i) then .blank 37 else b)).cnt (0xA00100 + 4 * 37) hit.length

/-- The loss map of a released slot carried to the kilns (R79, R114): per kiln that takes the slot, blanked blocks of its
inputs by slot. -/
def State.lossToKilns (s : State) (c : Nat) (x : Slot) : State :=
  match s.plc.cur with
  | none => s
  | some p => p.kilns.foldl (fun s e =>
      let (k, d) := e
      let n := (x.mask.filter (fun ib => d.inputs.any (fun i => i / 16 == ib))).length
      if inRange c d.desc.chFirst d.desc.chCount ∧ s.kilnTakes k (128 * x.blk) ∧ n ≠ 0 then
        let v := s.kiln k
        s.setKiln k { v with loss := (x.blk, n) :: v.loss }
      else s) s

/-- The slot released: its readers take it from now on (R11, R79). -/
def State.releaseSlot (s : State) (c b : Nat) : State :=
  let r := s.ring c
  let rd := s.readersOf c b
  let put := fun (x : Slot) => if x.blk = b then { x with released := true, readers := rd } else x
  let s := s.setRing c { r with slots := r.slots.map put, rel := some b }
  let s := (s.slotAt c b).elim s (fun x => s.lossToKilns c x)
  (s.setPair fun p => { p with lossSent := p.lossSent.filter (· ≠ (c, b))
                               losses := p.losses.filter (fun e => !(e.1 == c && e.2.1 == b)) }).freeSlots c

/-- Whether a pending placement holds the release: the slot lies at or after EFFECT in a channel placed before or after
(R169). -/
def State.heldByPlacement (s : State) (c b : Nat) : Bool :=
  match s.plc.pend with
  | some p => decide (p.effect ≤ 128 * b) && (p.plan.places c || s.plc.cur.elim false (fun q => q.plan.places c))
  | none => false

/-! ### The commands -/

/-- DATA_FRAME (R80, R81), HAIL_FRAME (R73, R74) and BUOY_FRAME (R75): wedging takes the frame at the head of lane n. -/
def execDataFrame (n : Nat) (s : State) : Host.Outcome State Fault Refusal :=
  gate (s.up && decide (n < s.nRx)) s fun s => s.takeFrame n 1 fun u f =>
    let t := u.dataIn f
    if u.storeServes t f then t else s
def execHailFrame (n : Nat) (s : State) : Host.Outcome State Fault Refusal :=
  gate (s.up && decide (n < s.nRx)) s fun s => s.takeFrame n 2 State.hailIn
def execBuoyFrame (n : Nat) (s : State) : Host.Outcome State Fault Refusal :=
  gate (s.up && decide (n < s.nRx)) s fun s => s.takeFrame n 3 State.buoyIn

/-- The departure timeout in ticks. -/
def State.srcTimeoutTicks (s : State) : Nat := tMs (s.rf 0xA00008 0 16)

/-- SRC_TIMEOUT (R73): no attributed frame for the timeout. -/
def execSrcTimeout (src dt : Nat) (s : State) : Host.Outcome State Fault Refusal :=
  let v := s.src src
  gate (s.up && decide (src < 4096) && decide (v.state = 1) && decide (s.srcTimeoutTicks ≠ 0)
      && decide (v.lastTick + s.srcTimeoutTicks ≤ s.time.ticks + dt)) s fun s =>
    let s := s.advance dt
    (s.srcLook src).depart src 2

/-- SRC_FORGET (R73, R74): a write of word 0 of WDG_SRC clears CONFLICT where written 1, and forgets the entry. -/
def State.srcWrite (s : State) (src : Nat) (v : W32) : State :=
  let s := if bit v 29 then s.setSrc src { s.src src with conflict := false } else s
  if bit v 23 then s.forget src else s
def execSrcForget (src : Nat) (v : W32) (s : State) : Host.Outcome State Fault Refusal :=
  writeGate (decide (src < 4096)) s fun s => s.srcWrite src v

/-- SRC_TIMEOUT_WRITE (R73): the new timeout counts from each source's last attributed frame. -/
def execSrcTimeoutWrite (v : W32) (s : State) : Host.Outcome State Fault Refusal :=
  writeGate true s fun s => s.plainWrite 0xA00008 v

/-- SLOT_DEADLINE (R78, R79): the missing awaited blocks of a slot are blanked. -/
def execSlotDeadline (chan b dt : Nat) (s : State) : Host.Outcome State Fault Refusal :=
  match s.slotAt chan b with
  | some x =>
    gate (s.up && !x.released && decide (x.deadline ≤ s.time.ticks + dt)) s fun s =>
      (s.advance dt).blankAwaited 32 (fun c b' _ => c == chan && b' == b)
  | none => .next s

end Sys2Proof.Machine
end

