-- ==== Sys2Proof/Machine/Exclude.lean ====
section
/-! DEFINITION. What the placer reads of the part, excluded units, and the moves of their work (R177, R178, R183 to R186). -/

namespace Sys2Proof.Machine

/-! ### Units and regions in use -/

def State.tileExcl (s : State) (t : Nat) : Bool := s.rb (0xB00020 + 4 * (t / 32)) (t % 32)
def State.sliceExcl (s : State) (n : Nat) : Bool := s.rb 0xB00040 n
/-- Available tiles and usable slices, in order. -/
def State.availTiles (s : State) : List Nat :=
  (List.range s.nTiles).filter (fun t => !s.tileExcl t && !s.plc.failed.contains (.tile t))
def State.usableSlices (s : State) : List Nat :=
  (List.range s.nSlices).filter (fun n => !s.sliceExcl n && !s.plc.failed.contains (.slice n))

/-- The region ranges of a kiln's layout. -/
def Layout.ranges (l : Layout) (d : KilnDesc) : List (Nat × Nat) :=
  let z := kilnSizes d l.usable.length
  [(l.bankA, z.getD 0 0), (l.bankB, z.getD 1 0), (l.expA, z.getD 2 0), (l.expB, z.getD 3 0)].filter (fun r => decide (r.2 ≠ 0))

/-- A bank of a kiln, by number. -/
def Kiln.bankOf (v : Kiln) (b : Nat) : Bank := if b = 0 then v.a else v.b
def Kiln.setBank (v : Kiln) (b : Nat) (x : Bank) : Kiln := if b = 0 then { v with a := x } else { v with b := x }
/-- The kiln integrates: OPEN or FIRING. -/
def Kiln.live (v : Kiln) : Bool := decide (v.state = 2) || decide (v.state = 3)

/-- Layouts that the accumulating and the draining bank of a kiln use. -/
def Kiln.layouts (v : Kiln) : List Layout :=
  (if v.live then [(v.bankOf v.bank).layout] else []) ++ (v.drain.elim [] (fun d => [(v.bankOf d.bank).layout]))

/-- A slot has samples in a region, given as an offset of each pseudo-channel and bytes there. -/
def Slot.inRegion (x : Slot) (r : Nat × Nat) : Bool :=
  x.ranges.any (fun l => l.any (fun q => decide (r.1 ≤ pcOffset q.1) && decide (pcOffset q.1 < r.1 + r.2)))

/-- Assembly regions of placements before, each while a slot that lies there is not free (R178, R391). -/
def State.oldAsmLive (s : State) : List (Nat × Nat) :=
  s.plc.oldAsm.filter (fun r => s.asm_.any (fun e => e.2.slots.any (fun x => x.inRegion r)))

/-- The assembly regions that slots may lie in once the placement in effect gives way: its own, and those before it. -/
def State.leaveAsm (s : State) : List (Nat × Nat) :=
  (s.plc.cur.elim [] (fun p => if p.asmSize = 0 then [] else [(p.asmOff, p.asmSize)])) ++ s.oldAsmLive

/-- Ranges that stay in use beside those of kept kilns (R178): banks that drain, kilns in SHUT that were omitted, and the
assembly regions. -/
def State.occupied (s : State) : List (Nat × Nat) :=
  (match s.plc.cur with
    | none => []
    | some p => p.kilns.flatMap (fun e => (s.kiln e.1).layouts.flatMap (fun l => l.ranges e.2.desc))
        ++ (p.kilns.filter (fun e => decide ((s.kiln e.1).state = 4))).flatMap (fun e => e.2.layout.ranges e.2.desc)
        ++ (if p.asmSize = 0 then [] else [(p.asmOff, p.asmSize)]))
  ++ s.plc.shutKeep.flatMap (fun e => e.2.layout.ranges e.2.desc) ++ s.oldAsmLive

/-- Kilns kept under R170, with their layout and current key. -/
def State.keptKilns (s : State) (p : Plan) : List (Nat × KilnPlace) :=
  match s.plc.cur with
  | none => []
  | some c => (c.kilns.filter (fun e => (s.kiln e.1).live && p.kilns.any (fun x => x.1 == e.1))).map (fun e =>
      let v := s.kiln e.1
      (e.1, { e.2 with layout := v.newLayout.getD e.2.layout, key := (v.bankOf v.bank).key }))

/-- Engines kept under R170: those whose descriptor the plan repeats. -/
def State.keptEngs (s : State) (p : Plan) : List (Nat × EngPlace) :=
  match s.plc.cur with
  | none => []
  | some c => c.engines.filter (fun e => p.engines.any (fun x => x.1 == e.1 && decide (x.2 = e.2.desc)))

/-- PLC_HBM.PCT as it acts (R188). -/
def State.hbmPct (s : State) : Nat := let v := s.rf 0xB00000 0 7; if v = 0 then 40 else min v 90

/-- What a placement of the plan depends on (R185). -/
def State.placeEnv (s : State) (p : Plan) : PlaceEnv :=
  { gradeC := s.gradeC, tiles := s.availTiles, slices := s.usableSlices, kept := s.keptKilns p, fixed := []
    keptEng := s.keptEngs p, occupied := s.occupied, skewUs := s.skewNow, pct := s.hbmPct, hostBw := s.rf 0xB00004 0 16 }

/-! ### Exclusion (R183, R184) -/

def State.setPlc (s : State) (f : PlcSt → PlcSt) : State := { s with plc := f s.plc }

/-- An excluded unit that could not be relieved. -/
def State.degraded (s : State) : State := s.setRb 0xB00010 30 true

/-- The re-placement of the plan in effect over the usable slices: the layout anew, every region in use counted as occupied, and
a slice of their own for the blocks whose windows lie in a slice that is not usable; none where it does not fit. -/
def State.replace_ (s : State) (p : Placement) : Option Placement :=
  let staged := (p.kilns.filter (fun e => decide (e.2.s ≥ 2))).map (·.2.desc)
  let env := { s.placeEnv p.plan with
    kept := [], keptEng := p.engines, skewUs := p.skewUs
    occupied := s.occupied ++ p.kilns.flatMap (fun e => e.2.layout.ranges e.2.desc)
      ++ (if p.delaySize = 0 then [] else [(p.delayOff, p.delaySize)]) }
  let held := (p.blocks.filter (fun e => s.usableSlices.contains e.2.slice)).map (fun e => (e.1, e.2.slice))
  match shelf (p.plan.blocks.filter (fun b => !(held.any (fun e => e.1 == b.1)))) held staged s.usableSlices, p.plan.layout env with
  | .ok sl, .ok lay =>
    some { p with
      kilns := p.kilns.map (fun e => (e.1, { e.2 with layout := (lay.kilns.find? (fun x => x.1 == e.1)).elim e.2.layout (·.2) }))
      blocks := p.blocks.map (fun e => (e.1, { e.2 with slice := (sl.find? (fun x => x.1 == e.1)).elim e.2.slice (·.2) }))
      asmOff := lay.asm.1, asmSize := lay.asm.2, delayOff := lay.delay.1, delaySize := lay.delay.2
      usable := env.slices.flatMap (fun n => (List.range 16).map (fun i => 16 * n + i)) }
  | _, _ => none

/-- A placed kiln's layout replaced in the placement in effect. -/
def State.setLayout (s : State) (k : Nat) (l : Layout) : State :=
  s.setPlc fun q => { q with cur := q.cur.map (fun p => { p with kilns := p.kilns.map (fun e =>
    if e.1 = k then (e.1, { e.2 with layout := l }) else e) }) }

def isTile : ExclUnit → Bool
  | .tile _ => true
  | .slice _ => false

/-- The work of an excluded tile set to move to the lowest-numbered available tile without work, or DEGRADED (R183). -/
def State.tileMove (s : State) (t since : Nat) (p : Placement) : State :=
  let free := s.availTiles.filter (fun x => !(p.tiles.any (fun e => e.1 == x)) && !(s.plc.moves.any (fun m => isTile m.unit && m.dest == x)))
  match free.head? with
  | some x => s.setPlc fun q => { q with moves := q.moves ++ [⟨.tile t, since, x, none⟩] }
  | none => s.degraded

/-- Moves to a tile that is itself excluded now go elsewhere. -/
def State.redest (s : State) (t : Nat) : State :=
  match s.plc.cur with
  | none => s
  | some p =>
    let hit := fun (m : Move) => isTile m.unit && m.dest == t
    let s' := s.setPlc fun q => { q with moves := q.moves.filter (fun m => !hit m) }
    (s.plc.moves.filter hit).foldl (fun s m => match m.unit with
      | .tile u => s.tileMove u m.since p
      | .slice _ => s) s'

/-- The work of an excluded unit of the placement in effect set to move, or DEGRADED (R183). A kiln that integrates takes its new layout
with the next bank that begins; one in SHUT keeps the old one until its final drain completes (R178, R184). -/
def State.planMove (s : State) (u : ExclUnit) : State :=
  match s.plc.cur with
  | none => s
  | some p =>
    match u with
    | .tile t =>
      if !(p.tiles.any (fun e => e.1 == t)) then s
      else s.tileMove t s.time.ticks p
    | .slice _ =>
      match s.replace_ p with
      | none => s.degraded
      | some r =>
        let s := s.setPlc fun q => { q with moves := q.moves.filter (fun m => isTile m.unit) ++ [⟨u, s.time.ticks, 0, some r⟩] }
        r.kilns.foldl (fun s e =>
          let v := s.kiln e.1
          if v.live ∨ v.state = 4 then s.setKiln e.1 { v with newLayout := some e.2.layout } else s.setLayout e.1 e.2.layout) s

/-- A unit excluded at run time: shown, published, and its work set to move. -/
def State.exclude (s : State) (u : ExclUnit) : State :=
  match u with
  | .tile t => if s.tileExcl t then s else ((s.setRb (0xB00020 + 4 * (t / 32)) (t % 32) true).publish 100).planMove u |>.redest t
  | .slice n => if s.sliceExcl n then s else ((s.setRb 0xB00040 n true).publish 100).planMove u

/-- Units with more corrected errors within 1 s than PLC_CE_LIMIT are excluded (R183). -/
def State.excludeCheck (s : State) : State :=
  let lim := s.rf 0xB0000C 0 8
  if lim = 0 then s
  else s.plc.ceTicks.foldl (fun s e =>
    if (e.2.filter (fun t => decide (s.time.ticks < t + 625000000))).length > lim then
      s.exclude (if e.1 < 1000 then .tile e.1 else .slice (e.1 - 1000))
    else s) s

/-- Excluded units that a placement coming into effect uses move as those excluded after it (R186). -/
def State.planMoves (s : State) : State :=
  match s.plc.cur with
  | none => s
  | some p =>
    let s := ((p.tiles.map (·.1)).filter s.tileExcl).foldl (fun s t => s.planMove (.tile t)) s
    let used := (p.kilns.flatMap (fun (e : Nat × KilnPlace) => e.2.layout.usable.map (fun (n : Nat) => n / 16)) ++ p.blocks.map (·.2.slice)).eraseDups
    match used.find? s.sliceExcl with
    | some n => s.planMove (.slice n)
    | none => s

end Sys2Proof.Machine
end

