-- ==== Sys2Proof/Machine/Kiln.lean ====
section
/-! DEFINITION. Correlation: a tile's chunks, contributions to a line, and the updates of a kiln line (R86 to R95, R101). -/

namespace Sys2Proof.Machine

def oKln (k : Nat) : Nat := 0xC20000 + 0x100 * k
def oWhl (t : Nat) : Nat := 0xC00000 + 0x10 * t
/-- A tile is stalled: both banks are full, or its kiln holds updates under STALL (R89, R104). -/
def State.tileStalls (s : State) (t : Nat) : Bool :=
  decide ((s.tile t).full.length = 2) || (s.tileWork t).elim false (fun w => w.kiln.elim false (fun k => (s.kiln k).stalled))

/-- The stall of a tile up to now counted in WHL_STALL, two cycles for each tick (log 37). -/
def State.stallNow (s : State) (t : Nat) : State :=
  if s.tileStalls t then (s.cnt (oWhl t + 8) (2 * (s.time.ticks - (s.tile t).since))).setTile t { s.tile t with since := s.time.ticks } else s

def State.auto (s : State) (k : Nat) : Bool := s.rb (oKln k) 1
/-- KLN_CTL.OVERRUN is SKIP. -/
def State.skipPolicy (s : State) (k : Nat) : Bool := s.rb (oKln k) 0

/-- Where a kiln's units lie: of the placement in effect, or of the one before for a kiln omitted in SHUT. -/
def State.kilnPlace (s : State) (k : Nat) : Option KilnPlace :=
  (s.placedKiln k).or ((s.plc.shutKeep.find? (fun e => e.1 == k)).map (·.2))

/-! ### Boundaries (R100, R104, R105) -/

/-- The lesser of two indices that may be absent. -/
def leastOf (a b : Option Nat) : Option Nat :=
  match a, b with
  | some x, some y => some (min x y)
  | some x, none => some x
  | none, y => y

/-- The first boundary of a kiln after index `x`; those under AUTO = 1 up to `g` are gone (R104). -/
def State.boundaryPast (s : State) (k i x g : Nat) : Option Nat :=
  let v := s.kiln k
  let a := if s.auto k then some (v.s0 + ((max x g - v.s0) / i + 1) * i) else (v.pend.find? (fun e => decide (x < e.1))).map (·.1)
  leastOf a (v.endAt.bind (fun e => if x < e.1 then some e.1 else none))
def State.boundaryAfter (s : State) (k i x : Nat) : Option Nat := s.boundaryPast k i x x

/-- The boundary that ends the accumulating integration. A FIRE or SHUT may name again an index whose boundary SKIP removed. -/
def State.boundary (s : State) (k : Nat) : Option Nat :=
  let v := s.kiln k
  (s.placedKiln k).bind (fun p => s.boundaryPast k p.desc.ilen (v.bankOf v.bank).first v.gone)

/-! ### The next unit of a tile (R88) -/

/-- The first unit of a tile's list at or after a channel and a position, within one index. -/
def Placement.unitFrom (p : Placement) (w : TileWork) (c i : Nat) : Option (Nat × Nat × Unit_) :=
  let rs := p.tileChans w
  let hi := (rs.map (fun r => r.1 + r.2)).foldl max 0
  let lo := max c ((rs.map (·.1)).foldl min hi)
  ((List.range (hi - lo)).map (lo + ·)).findSome? (fun ch =>
    let j := if ch = c then i else 0
    ((p.unitsIn w ch)[j]?).map (fun u => (ch, j, u)))

/-- The next unit of a correlate tile: its first index, channel, position and pair number, with the kiln. -/
def State.nextPair (s : State) (t : Nat) : Option (Nat × KilnPlace × Nat × Nat × Nat × Nat) :=
  match s.plc.cur, s.tileWork t with
  | some p, some w =>
    match w.kiln with
    | none => none
    | some k =>
      match s.placedKiln k with
      | none => none
      | some kp =>
        let v := s.kiln k
        let (x, c, i) := (s.tile t).at_
        let x0 := max v.s0 v.from_
        let (x, c, i) := if x < x0 then (x0, 0, 0) else (x, c, i)
        let found := match p.unitFrom w c i with
          | some u => some (x, u)
          | none => (p.unitFrom w 0 0).map (fun u => (x + kp.l, u))
        match found with
        | some (x, ch, j, .pair _ n) => if s.kilnTakes k x then some (k, kp, x, ch, j, n) else none
        | _ => none
  | _, _ => none

/-- The blocks of a chunk, and whether every slot it covers has been released. -/
def chunkBlocks (first l : Nat) : List Nat := (List.range (l / 128)).map (first / 128 + ·)

/-- The kiln holds updates under STALL, and an index lies at or after the boundary that waits (R104). -/
def Kiln.holds (v : Kiln) (x : Nat) : Bool := v.stalled && v.overAt.elim false (fun b => decide (b ≤ x))

/-! ### Chunks (R86 to R90) -/

/-- The samples of device input `i` in each block of a chunk, where it is valid. -/
def State.chunkSamples (s : State) (c : Nat) (blks : List Nat) (c3 : Bool) (i : Option Nat) : List (Option (List (Int × Int))) :=
  blks.map (fun b => i.bind (fun i => (s.slotAt c b).bind (fun x => (x.valid? i).map (fun p => samplesOf c3 p i))))

/-- The sum of one cell over a chunk: products of R31 where both inputs are valid, and 128 counts for each such slot. -/
def cellSum (x y : List (Option (List (Int × Int)))) : E48 :=
  (List.zip x y).foldl (fun a q => match q with
    | (some u, some v) =>
      let z := (List.zipWith product u v).foldl (fun (t : Int × Int) p => (t.1 + p.1, t.2 + p.2)) (0, 0)
      ⟨a.re + z.1, a.im + z.2, a.count + 128⟩
    | _ => a) E48.zero

/-- The kept cells of a block pair: row, column, and the word of the bank in channel offset `c` (R90, R111). -/
def KilnDesc.cells (d : KilnDesc) (p q c : Nat) : List (Nat × Nat × Nat) :=
  (List.range 64).flatMap (fun r => (List.range 64).filterMap (fun k =>
    let i := 64 * p + r
    let j := 64 * q + k
    if i < d.n ∧ j < d.n ∧ i ≤ j then some (r, k, d.word c i j) else none))

/-- The sums of a chunk's kept cells. -/
def State.chunkSums (s : State) (kp : KilnPlace) (h : Chunk) : List (Nat × E48) :=
  let blks := chunkBlocks h.first kp.l
  let side := fun (b : Nat) => (List.range 64).map (fun r => s.chunkSamples h.chan blks kp.desc.c3 (kp.inputs[64 * b + r]?))
  let rows := side h.p
  let cols := side h.q
  (kp.desc.cells h.p h.q (h.chan - kp.desc.chFirst)).map (fun x => (x.2.2, cellSum (rows.getD x.1 []) (cols.getD x.2.1 [])))

/-- TILE_CHUNK_START (R88): the tile's bank is free, and every slot its next chunk covers has been released. -/
def execTileChunkStart (t : Nat) (s : State) : Host.Outcome State Fault Refusal :=
  let w := s.tile t
  match s.nextPair t with
  | some (k, kp, x, c, i, n) =>
    gate (s.up && w.cur.isNone && decide (w.full.length ≤ 1) && !(s.kiln k).holds x
        && (chunkBlocks x kp.l).all (s.isReleased c)) s fun s =>
      let pq := kp.desc.pairs.getD n (0, 0)
      s.setTile t { w with cur := some ⟨k, pq.1, pq.2, c, x⟩, at_ := (x, c, i) }
  | none => .next s

/-- CHUNK_END (R87, R89): the bank is complete. The tile's last chunk of a channel and index consumes the slots; a C3 chunk
of 128 samples costs the stall of 6 cycles. -/
def State.chunkEnd (s : State) (t : Nat) (h : Chunk) (p : Placement) (w : TileWork) (kp : KilnPlace) : State :=
  let v := s.tile t
  let i := v.at_.2.2
  let full := v.full ++ [⟨h, s.chunkSums kp h⟩]
  let s := s.setTile t { v with cur := none, full, at_ := (h.first, h.chan, i + 1)
                                since := if full.length = 2 ∧ !(s.kiln h.kiln).stalled then s.time.ticks else v.since }
  let s := if kp.desc.c3 ∧ kp.l = 128 then s.cnt (oWhl t + 8) 6 else s
  if (p.unitsIn w h.chan).length ≤ i + 1 then s.consume t h.chan (h.first / 128) ((h.first + kp.l) / 128) else s

def execChunkEnd (t : Nat) (s : State) : Host.Outcome State Fault Refusal :=
  match (s.tile t).cur, s.plc.cur, s.tileWork t with
  | some h, some p, some w =>
    match s.placedKiln h.kiln with
    | some kp => gate (s.up && !(s.kiln h.kiln).holds h.first) s fun s => s.chunkEnd t h p w kp
    | none => .next s
  | _, _, _ => .next s

/-! ### Contributions (R92, R94) -/

/-- A chunk's sum added to what a slice holds for its word and span. -/
def SpanAcc.add (a : SpanAcc) (d : E48) (bad : Bool) : SpanAcc :=
  let (re, sr) := e48Add a.stuck.1 a.sum.re d.re
  let (im, si) := e48Add a.stuck.2.1 a.sum.im d.im
  let (n, sc) := countAdd a.stuck.2.2 a.sum.count d.count
  { a with chunks := a.chunks + 1, sum := ⟨re, im, n⟩, stuck := (sr, si, sc), bad := a.bad || bad }

def Kiln.contribute (v : Kiln) (w x : Nat) (d : E48) (bad : Bool) : Kiln :=
  let l := tget [] v.acc w
  let a := (l.find? (fun a => a.first == x)).getD ⟨x, 0, E48.zero, (false, false, false), false⟩
  { v with acc := tset [] v.acc w (l.filter (fun a => a.first != x) ++ [a.add d bad]) }

/-- Words of cells that a tile's accumulator reads wrong. The cell of row r and column c is number 64 r + c of its bank; its RE
and IM are word 2 n of the memory and its count lane, which has its own check bits, word 2 n + 1 (R282, log 80). -/
def badWords (d : KilnDesc) (h : Chunk) (bad : List Nat) : List Nat :=
  (d.cells h.p h.q (h.chan - d.chFirst)).filterMap (fun x =>
    if bad.any (fun w => w / 2 == 64 * x.1 + x.2.1) then some x.2.2 else none)

/-- CONTEXT of an error met in kiln updates: the kiln, and the bank that takes index `x` (R286). -/
def State.updCtx (s : State) (k x : Nat) : Nat :=
  let v := s.kiln k
  k + 16 * (if (s.boundary k).elim true (fun b => decide (x < b)) then v.bank else 1 - v.bank)

/-! ### Banks -/

/-- The bank that begins accumulating at `first`: the layout waiting for the next boundary, or the present one, under the
kiln's key (R181, R184, R186). -/
def State.freshBank (s : State) (k first : Nat) : Bank :=
  let v := s.kiln k
  { Bank.init with first, layout := v.newLayout.getD ((s.kilnPlace k).elim Layout.none (·.layout)), key := v.key }
def State.beginBank (s : State) (k b first : Nat) : State :=
  let v := s.kiln k
  let x := s.freshBank k first
  let s := s.setKiln k ({ v with newLayout := none }.setBank b x)
  if v.newLayout.isSome then s.setLayout k x.layout else s

/-- The first update for bank `b` beyond the boundary `y` of the accumulating bank begins it there. -/
def State.begins (s : State) (k b : Nat) : Option Nat :=
  let v := s.kiln k
  (s.boundary k).bind (fun y => if b ≠ v.bank ∧ (v.bankOf b).first ≠ y then some y else none)
/-- The bank an update is applied to, as it stands then. -/
def State.updInto (s : State) (k b : Nat) : Bank := ((s.begins k b).map (s.freshBank k)).getD ((s.kiln k).bankOf b)
def Bank.lineAddr (x : Bank) (b n : Nat) : Nat := x.layout.groupAddr x.key b (n / 64) + 64 * (n % 64)
def Bank.expLine (x : Bank) (b n : Nat) : Nat := x.layout.expAddr x.key b (n / 64)

/-! ### Lines of a bank (R91, R112) and the shelf's staged words (R177) -/

def KilnDesc.perLine (d : KilnDesc) : Nat := if d.k16 then 8 else 4
/-- Lines that hold a word of a baseline, and the words of one. -/
def KilnDesc.lines (d : KilnDesc) : Nat := divUp d.words d.perLine
def KilnDesc.lineWords (d : KilnDesc) (n : Nat) : List Nat :=
  ((List.range d.perLine).map (n * d.perLine + ·)).filter (fun w => decide (w < d.words))

/-- The bank that takes index `x`. -/
def State.takingBank (s : State) (k x : Nat) : Bank :=
  let v := s.kiln k
  s.updInto k (if (s.boundary k).elim true (fun b => decide (x < b)) then v.bank else 1 - v.bank)

/-- Words that a slice holds for the staged kilns below k. -/
def State.shelfBase (s : State) (k : Nat) : Nat :=
  (s.plc.cur.elim [] (·.kilns)).foldl (fun a e =>
    if e.1 < k ∧ 2 ≤ e.2.s then a + 16 * e.2.layout.q * (64 * e.2.desc.perLine) else a) 0

/-- The slice that holds word `w` of a staged kiln, and the place there: kilns by number, in each its groups by pseudo-channel and
slot (DESIGN CHOICE, log 96). -/
def Bank.shelfAt (x : Bank) (d : KilnDesc) (base w : Nat) : Nat × Nat :=
  let z := 64 * d.perLine
  let (p, j) := x.layout.place x.key (w / z)
  (p / 16, base + (p % 16 * x.layout.q + j) * z + w % z)

/-- Staged words read and written back as they are added to or taken up: those read with an uncorrectable error (R284). -/
def State.shelfScan (s : State) (k : Nat) (p : KilnPlace) (x : Bank) (ws : List Nat) (ctx : Nat) : List Nat × State :=
  if p.s < 2 ∨ s.err.upsets.all (fun u => u.cls != 1) then ([], s)
  else
    let base := s.shelfBase k
    ws.foldl (fun (q : List Nat × State) w =>
      let a := x.shelfAt p.desc base w
      let (bad, t) := q.2.scan 1 a.1 a.2 (a.2 + 1) 0 ctx true
      (if bad.isEmpty then q.1 else w :: q.1, t.clean 1 a.1 a.2 (a.2 + 1))) ([], s)

def State.chunkDrained (s : State) (t : Nat) (h : ChunkSum) (rest : List ChunkSum) (kp : KilnPlace) : State :=
  let v := s.tile t
  let k := h.chunk.kiln
  let x := h.chunk.first / kp.g * kp.g
  let us := s.upsetsIn 3 t 0 8192
  let ctx := s.updCtx k x
  let bw := badWords kp.desc h.chunk ((us.filter (·.ue)).map (·.addr))
  let s := us.foldl (fun s u => s.meet 0 ctx (!(badWords kp.desc h.chunk [u.addr]).isEmpty) u) s
  let s := s.clean 3 t 0 8192
  let (sw, s) := s.shelfScan k kp (s.takingBank k x) (h.sums.map (·.1)) ctx
  let s := s.setKiln k (h.sums.foldl (fun y e => y.contribute e.1 x e.2 (bw.contains e.1 || sw.contains e.1)) (s.kiln k))
  let s := s.stallNow t
  ((s.setTile t { v with full := rest, since := s.time.ticks }).cnt (oWhl t + 4) 1).excludeCheck

/-- CHUNK_DRAINED (R89, R94): the oldest complete bank has been sent to the slices, and is empty. -/
def execChunkDrained (t : Nat) (up : Option Upset) (s : State) : Host.Outcome State Fault Refusal :=
  match (s.tile t).full with
  | h :: rest =>
    match s.placedKiln h.chunk.kiln with
    | some kp => gate (s.up && !(s.kiln h.chunk.kiln).holds h.chunk.first) s fun s => (s.upset up).chunkDrained t h rest kp
    | none => .next s
  | [] => .next s

/-! ### Spans of a line (R92, R285) -/

def Kiln.lineNext' (v : Kiln) (n : Nat) : Nat := sget (fun _ => max v.s0 v.from_) v.lineNext n
def Kiln.spanAt (v : Kiln) (w x : Nat) : Option SpanAcc := (tget [] v.acc w).find? (fun a => a.first == x)

/-- Every contribution to a line for the span at `x` has arrived. -/
def Kiln.lineReady (v : Kiln) (p : KilnPlace) (n x : Nat) : Bool :=
  (p.desc.lineWords n).all (fun w => (v.spanAt w x).elim false (fun a => decide (a.chunks = p.s)))

/-- Open bytes, eight for each word. -/
def State.freeBytes (s : State) : Nat → List Byte × State
  | 0 => ([], s)
  | n + 1 =>
    let (w, s) := s.free
    let (l, s) := State.freeBytes s n
    (leBytes 8 w.toNat ++ l, s)

/-- A line of device memory written poisoned (R280, R285): what its data reads is left open. -/
def State.poisonAt (s : State) (a : Nat) : State :=
  let (b, s) := s.freeBytes 8
  (s.hbmWrite a b).setErr fun r => { r with poison := sortUp (a :: r.poison).eraseDups }

/-! ### A bank begins, and takes updates (R101) -/

/-- The controllers serve the line and, in K16, its exponent line. -/
def State.lineServes (s : State) (x : Bank) (d : KilnDesc) (b n : Nat) : Bool :=
  s.hbmServes (x.lineAddr b n) 64 && (!d.k16 || s.hbmServes (x.expLine b n) 64)

/-- The bank that an update at `x` is applied to, if it may be applied now (R101, R103): the accumulating one below the
boundary, the other where it is free and the boundary after lies beyond. A standby holds it until the close of the
boundary has been decided (R349). -/
def State.updBank (s : State) (k : Nat) (p : KilnPlace) (x : Nat) : Option Nat :=
  let v := s.kiln k
  match s.boundary k with
  | none => some v.bank
  | some b =>
    if v.endAt.elim false (fun e => decide (e.1 ≤ x)) then none
    else if x < b then some v.bank
    else if v.drain.isSome then none
    else if s.standby && !(s.pair.closes.any (fun c => c.k == k && c.boundary == b)) then none
    else if (s.boundaryAfter k p.desc.ilen b).elim true (fun b2 => decide (x < b2)) then some (1 - v.bank)
    else none

/-! ### One update (R92 to R95, R285) -/

/-- The sums of a line's words for the span, padding words being zero. -/
def Kiln.lineSums (v : Kiln) (d : KilnDesc) (n x : Nat) : List SpanAcc :=
  (List.range d.perLine).map (fun q => (v.spanAt (n * d.perLine + q) x).getD ⟨x, 0, E48.zero, (false, false, false), false⟩)

/-- One E48 word of a line updated: the word and the fields that are stuck, as 4 w + field. -/
def e48Upd (stuck : List Nat) (w : Nat) (old : E48) (a : SpanAcc) : E48 × List Nat :=
  let one := fun (f : Nat) (ss : Bool) (o d : Int) =>
    if stuck.contains (4 * w + f) then (o, true) else if ss then (d, true) else e48Add false o d
  let (re, sr) := one 0 a.stuck.1 old.re a.sum.re
  let (im, si) := one 1 a.stuck.2.1 old.im a.sum.im
  let (n, sc) := if stuck.contains (4 * w + 2) then (old.count, true) else countAdd a.stuck.2.2 (if a.stuck.2.2 then countMax else old.count) a.sum.count
  (⟨re, im, n⟩, (if sr then [4 * w] else []) ++ (if si then [4 * w + 1] else []) ++ (if sc then [4 * w + 2] else []))

/-- Lines of a bank poisoned by this part: marked in the bank, and written poisoned. -/
def State.poisonLines (s : State) (k b : Nat) (ns : List Nat) : State :=
  let x := (s.kiln k).bankOf b
  let s := ns.foldl (fun s n => s.poisonAt (x.lineAddr b n)) s
  let v := s.kiln k
  let x := v.bankOf b
  s.setKiln k (v.setBank b { x with poison := sortUp (x.poison ++ ns).eraseDups, touched := (x.touched ++ ns).eraseDups })

/-- The new line is in the bank: touched, and with a saturated field if `sat`. -/
def State.touchLine (s : State) (k b n : Nat) (sat : Bool) (stuck : List Nat) : State :=
  let v := s.kiln k
  let x := v.bankOf b
  s.setKiln k (v.setBank b { x with
    touched := if x.touched.contains n then x.touched else n :: x.touched
    satLines := if sat && !x.satLines.contains n then n :: x.satLines else x.satLines
    stuck := x.stuck ++ stuck.filter (fun f => !x.stuck.contains f) })

/-- A K16 line after the `u`-th update of its integration carries BND where `u` exceeds 65,536 and its exponent is not zero: set so
with each such update, it stands at the end of the integration as R41 has it (DESIGN CHOICE, log 100). -/
def K16Line.bounded (l : K16Line) (u : Nat) : K16Line := { l with bnd := decide (65536 < u) && decide (1 ≤ l.e) }

/-- The two exponents of a K16 line as its update leaves them, e and e_fit (R43): those of its last update go into the header
(R114). -/
def State.setFit (s : State) (k b n e fit : Nat) : State :=
  let v := s.kiln k
  let x := v.bankOf b
  s.setKiln k (v.setBank b { x with fits := sput x.fits n (e, fit) })

/-- The exponents that lines poisoned in an update count with: none is stated (DESIGN CHOICE, log 100), so both are left open. -/
def State.openFits (s : State) (k b : Nat) (ns : List Nat) : State :=
  ns.foldl (fun s n =>
    let (f, s) := s.free
    s.setFit k b n (f.toNat % 32) (min (f.toNat % 32) (f.toNat / 32 % 32))) s

/-- An update of line `n` of an E48 bank. -/
def State.updE48 (s : State) (k b n ctx : Nat) (lost : Bool) (a : List SpanAcc) : State :=
  let x := (s.kiln k).bankOf b
  let addr := x.lineAddr b n
  let seen := x.touched.contains n
  let (bad, s) := if seen then s.scan 0 0 addr (addr + 64) 0 ctx true else ([], s)
  if lost ∨ bad ≠ [] then s.poisonLines k b [n]
  else
    let old := if seen then rdBytes s.hbm addr 64 else List.replicate 64 0
    let s := if seen then s.touch addr 64 else s
    let ws := (List.range 4).map (fun q =>
      e48Upd x.stuck (4 * n + q) (E48.ofBytes ((old.drop (16 * q)).take 16)) (a.getD q ⟨0, 0, E48.zero, (false, false, false), false⟩))
    let st := ws.flatMap (·.2)
    (s.hbmWrite addr (ws.flatMap (fun w => w.1.bytes))).touchLine k b n (!st.isEmpty) st

/-- An update of line `n` of a K16 bank by `g` samples: the group's exponent line is read once and written once. An exponent line
with an uncorrectable error is not written (R284). -/
def State.updK16 (s : State) (k b n first g ctx : Nat) (lost : Bool) (a : List SpanAcc) : State :=
  let v := s.kiln k
  let x := v.bankOf b
  let addr := x.lineAddr b n
  let ea := x.expLine b n
  let seen := x.touched.contains n
  let grp := (List.range 64).map (n / 64 * 64 + ·)
  let open_ := grp.any (fun m => x.touched.contains m)
  let (ebad, s) := if open_ then s.scan 0 0 ea (ea + 64) 0 ctx true else ([], s)
  if ebad ≠ [] then (s.poisonLines k b grp).openFits k b grp
  else
    let s := if open_ then s.touch ea 64 else s
    let (bad, s) := if seen then s.scan 0 0 addr (addr + 64) 0 ctx true else ([], s)
    let exps := (List.zip grp (rdBytes s.hbm ea 64)).map (fun q => if x.touched.contains q.1 then q.2 else 0#8)
    if lost ∨ bad ≠ [] then
      let (e, s) := s.free
      ((s.hbmWrite ea (exps.set (n % 64) (BitVec.ofNat 8 e.toNat))).poisonLines k b [n]).openFits k b [n]
    else
      let old := if seen then K16Line.ofBytes (rdBytes s.hbm addr 64) (exps.getD (n % 64) 0) else K16Line.zero
      let s := if seen then s.touch addr 64 else s
      let l := (k16Update old v.seed n first (a.flatMap (fun w => [w.sum.re, w.sum.im])) (a.map (fun w => w.sum.count))).bounded
        ((first + g - x.first) / g)
      (((s.hbmWrite addr l.bytes).hbmWrite ea (exps.set (n % 64) l.expByte)).touchLine k b n l.sat []).setFit k b n l.e (fitDown l.m l.e)

/-- The update has been applied or discarded: its sums are gone, and the line's next span follows. DESIGN CHOICE (log 88): the
kiln has taken an update up (R100) once it is applied. -/
def State.updDone (s : State) (k : Nat) (p : KilnPlace) (n x : Nat) : State :=
  let v := s.kiln k
  let acc := (p.desc.lineWords n).foldl (fun t w => tset [] t w ((tget [] t w).filter (fun a => a.first != x))) v.acc
  s.setKiln k { v with acc, lineNext := sput v.lineNext n (x + p.g), taken := some (v.taken.elim x (max x)) }

/-- A shelf word of a staged kiln read wrong (R284), by the upset that struck as it was read: its line is written poisoned. -/
def State.shelfLost (s : State) (p : KilnPlace) (slice ctx : Nat) (up : Option Upset) : Bool × State :=
  match up with
  | some u =>
    if u.cls = 1 ∧ u.unit = slice ∧ 2 ≤ p.s then
      let (bad, s) := s.scan 1 slice u.addr (u.addr + 1) 0 ctx true
      (!bad.isEmpty, s.clean 1 slice u.addr (u.addr + 1))
    else (false, s)
  | none => (false, s)

def State.kilnUpdate (s : State) (k n x b : Nat) (p : KilnPlace) (up : Option Upset) : State :=
  let v := s.kiln k
  let s := (s.begins k b).elim s (s.beginBank k b)
  let s := s.upset up
  let y := (s.kiln k).bankOf b
  let slice := devQuarter (y.lineAddr b n)
  let (lost, s) := s.shelfLost p slice (k + 16 * b) up
  let (sw, s) := s.shelfScan k p y (p.desc.lineWords n) (k + 16 * b)
  let lost := lost || !sw.isEmpty
  let a := v.lineSums p.desc n x
  let s := if y.poison.contains n then s.touch (y.lineAddr b n) 64
    else
      let s := s.cnt (0xC10004 + 0x20 * slice) 1
      let lost := lost || a.any (·.bad)
      if p.desc.k16 then s.updK16 k b n x p.g (k + 16 * b) lost a else s.updE48 k b n (k + 16 * b) lost a
  (s.updDone k p n x).excludeCheck

/-- KILN_UPDATE (R92 to R94, R101): the next span of the line is complete, the bank it belongs to can take it, and the
controllers serve it. -/
def execKilnUpdate (k line : Nat) (up : Option Upset) (s : State) : Host.Outcome State Fault Refusal :=
  match s.placedKiln k with
  | some p =>
    let v := s.kiln k
    let x := v.lineNext' line
    match s.updBank k p x with
    | some b => gate (s.up && v.live && decide (line < p.desc.lines) && v.lineReady p line x
        && s.lineServes (s.updInto k b) p.desc b line) s fun s => s.kilnUpdate k line x b p up
    | none => .next s
  | none => .next s

/-- KLN_CTL_WRITE (R98, R104, R106): AUTO takes a write only in IDLE or PLACED; a standby ignores the register (R349). -/
def execKlnCtlWrite (k : Nat) (v : W32) (s : State) : Host.Outcome State Fault Refusal :=
  writeGate (decide (k < 16)) s fun s =>
    if s.standby then s
    else
      let s := s.setRb (oKln k) 0 (bit v 0)
      if (s.kiln k).state ≤ 1 then s.setRb (oKln k) 1 (bit v 1) else s

/-- KLN_SEED_WRITE (R98): takes effect only in IDLE or PLACED; a standby takes its seed from the saggar (R349). -/
def execKlnSeedWrite (k : Nat) (hi : Bool) (v : W32) (s : State) : Host.Outcome State Fault Refusal :=
  writeGate (decide (k < 16)) s fun s =>
    if !s.standby && decide ((s.kiln k).state ≤ 1) then s.setReg (oKln k + (if hi then 12 else 8)) v else s

end Sys2Proof.Machine
end

