-- ==== Sys2Proof/Machine/Firing.lean ====
section
/-! DEFINITION. The close of a kiln bank, overrun, and the firing records of a drain (R97 to R106, R109 to R121, R181). -/

namespace Sys2Proof.Machine

/-! ### The header (R113, R114, R117) -/

/-- The common part of every firing record (R113). -/
def firingCommon (ty k len seq rseq claim i log2 : Nat) : List Byte :=
  leBytes 1 ty ++ leBytes 1 k ++ leBytes 2 len ++ leBytes 4 seq ++ leBytes 4 rseq ++ leBytes 2 claim
    ++ leBytes 1 (i + 16 * log2) ++ [0#8]

/-- A 32-bit count that saturates. -/
def sat32 (n : Nat) : Nat := min n (2 ^ 32 - 1)

/-- Eight entries of a poison list, unused ones all ones. -/
def poison8 (l : List Nat) : List Byte :=
  ((l.take 8) ++ List.replicate (8 - l.length) 0xFFFFFFFF).flatMap (leBytes 4)

/-- The flags known at close (R117). -/
def closeFlags (sat bound ref loss poison skip final : Bool) : Nat :=
  b2n sat + 2 * b2n bound + 4 * b2n ref + 8 * b2n loss + 16 * b2n poison + 32 * b2n skip + 64 * b2n final

/-- What the part fixes at a close: bytes 16 to 127 of the header. -/
def headerBytes (p : KilnPlace) (x : Bank) (last flags peak fit u loss steps : Nat) (stepPs : Int) (ns : W32) : List Byte :=
  let d := p.desc
  leBytes 8 x.first ++ leBytes 8 last ++ leBytes 4 ns.toNat
    ++ leBytes 1 (b2n d.k16 + 2 * b2n d.c3 + 4 * b2n (decide (2 ≤ p.s))) ++ leBytes 1 peak ++ leBytes 1 fit ++ leBytes 1 flags
    ++ leBytes 4 d.chCount ++ leBytes 2 d.n ++ leBytes 2 0 ++ leBytes 4 d.groups ++ leBytes 4 (sat32 u)
    ++ leBytes 4 (sat32 loss) ++ leBytes 4 (sat32 x.satLines.length) ++ leBytes 4 (wrapI 32 (max (-(2 ^ 31 - 1)) (min (2 ^ 31 - 1) stepPs)))
    ++ leBytes 1 (min steps 255) ++ leBytes 3 0 ++ leBytes 4 x.poison.length ++ leBytes 4 0 ++ poison8 x.poison
    ++ List.replicate 16 0

/-- The largest e and e_fit of a K16 bank's lines, each as its last update left it (R43, R114). -/
def Bank.peak (x : Bank) : Nat := (x.fits.map (·.2.1)).foldl max 0
def Bank.fit (x : Bank) : Nat := (x.fits.map (·.2.2)).foldl max 0

/-! ### Headers offered (R110, R120) -/

/-- log₂ of the number of rings. -/
def log2R (n : Nat) : Nat := Nat.log2 n

/-- A firing record of kiln k offered by `who`. After a takeover the firing of a bank that this part could not fill is lost: nothing is
emitted, and each record counts in PR_CNT 9 (R358). -/
def State.firingLost (s : State) (k : Nat) : Bool := decide (s.role ≤ 2) && s.pair.lost.contains k
def State.offerFiring (s : State) (k r : Nat) (who : Offerer) (store : Bool) (len extra : Nat) (mk : Nat → Nat → List Byte) : Offer × State :=
  if s.firingLost k then (.dropped, (s.cnt (oPrCnt 9) 1).rCount r) else s.offerAs r who true store len extra mk

/-- A ring stands behind the last record of it that the partner has reported (R354). -/
def State.afterReport (s : State) (r : Nat) : State :=
  match s.pair.reported.rings.find? (fun e => e.1 == r) with
  | some (_, q) => if s.ringCovered r (s.rng r).rseq then s.setRng r { s.rng r with rseq := (q + 1) % 2 ^ 32 } else s
  | none => s

/-- The header record of ring position `i` offered; a held one waits. After a takeover it goes again, with its original RSEQ
(R358). Lines of the ring that the partner has reported before this part's close come between it and the ring's next record. -/
def State.offerHeader (s : State) (k i : Nat) : State :=
  let v := s.kiln k
  match v.drain with
  | none => s
  | some d =>
    let r := v.rings.getD i 0
    let cur := (s.rng r).rseq
    let again := (d.hdrRseq.find? (fun e => e.1 == i)).map (·.2.toNat)
    let rseq := again.getD cur
    let back := fun (s : State) => if again.isSome then s.setRng r { s.rng r with rseq := cur } else s
    let s := s.setRng r { s.rng r with rseq }
    let mk := fun rs cl => firingCommon 1 k 2 d.seq rs cl i (log2R v.rings.length) ++ d.hdr
    let (o, s) := s.offerFiring k r (.header k) true 2 (if s.rDrop r then 2 else 0) mk
    let s := back s
    match o with
    | .held => s
    | _ =>
      let s := if again.isNone ∧ 0 < tget 0 d.written i then s.afterReport r else s
      s.setKiln k { s.kiln k with drain := some { d with
        hdrTodo := d.hdrTodo.filter (· ≠ i), hdrRseq := sput d.hdrRseq i (lo32 rseq)
        hdrDropped := if o = .dropped then d.hdrDropped ++ [i] else d.hdrDropped } }

/-- Headers that wait for room offered again. -/
def State.retryHeaders (s : State) (k : Nat) : State :=
  ((s.kiln k).drain.elim [] (·.hdrTodo)).foldl (fun s i => s.offerHeader k i) s

/-! ### Re-keying (R181) -/

def oKeyStat (k : Nat) : Nat := 0xB00108 + 0x10 * k

/-- The skew of a close: the largest count times 256 over the mean count. -/
def skewOf (maxAct totAct banks : Nat) : Nat := if totAct = 0 then 0 else min maxAct totAct * 256 * banks / totAct

/-- A re-key of a kiln: its next bank takes the new key. -/
def State.rekey (s : State) (k : Nat) : State :=
  let v := s.kiln k
  (s.setKiln k { v with key := nextKey v.key }).cntF (oKeyStat k) 16 12 1

/-- The skew recorded at a close (a skew beyond its field reads 0xFFFF), and RUN; the eighth close above the limit re-keys. In a standby RUN never acts, and the re-key
item of the active part does. -/
def State.skewClose (s : State) (k b maxAct totAct banks : Nat) : State :=
  let z := skewOf maxAct totAct banks
  let s := s.setRf (oKeyStat k) 0 16 (min 65535 z)
  let run := if z > max 257 (s.rf 0xB00008 0 16) then s.rf (oKeyStat k) 28 4 + 1 else 0
  if s.pair.rekeys.contains (k, b) then
    ((s.setRf (oKeyStat k) 28 4 0).setPair fun p => { p with rekeys := p.rekeys.filter (· ≠ (k, b)) }).rekey k
  else if s.standby then s.setRf (oKeyStat k) 28 4 (min run 7)
  else if run ≥ 8 then ((s.setRf (oKeyStat k) 28 4 0).rekey k).decide_ (.rekey k b)
  else s.setRf (oKeyStat k) 28 4 run

/-! ### What a partner has reported of a drain (R349, R354) -/

/-- One ring position's count raised. -/
def bump (l : List (Nat × Nat)) (i : Nat) : List (Nat × Nat) := tset 0 l i (tget 0 l i + 1)

/-- The RSEQ of the completion record of ring position `i` behind a header of RSEQ `h` and the lines of the ring. -/
def Drain.lastRseq (d : Drain) (n i h : Nat) : Nat :=
  (h + 1 + (if i < d.groups then (d.groups - 1 - i) / n + 1 else 0)) % 2 ^ 32
def Drain.compRseq (d : Drain) (n i : Nat) : Nat := d.lastRseq n i (sget (fun _ => 0) d.hdrRseq i).toNat

/-- Reported groups of a drain are done, written by the partner; groups of a firing not closed here yet wait. -/
def State.reportGroups (s : State) (k : Nat) : State :=
  let v := s.kiln k
  match v.drain with
  | none => s
  | some d =>
    let mine := ((s.pair.reported.groups.filter (fun q => q.1 == k && !d.done.contains q.2 && decide (q.2 < d.groups))).map (·.2)).eraseDups
    let n := v.rings.length
    let done := d.done ++ mine
    let d := { d with done, written := mine.foldl (fun w g => bump w (g % n)) d.written
                      compTodo := if done.length = d.groups then some (List.range n) else d.compTodo }
    (s.setKiln k { v with drain := some d }).setPair fun p => { p with reported := { p.reported with
      groups := p.reported.groups.filter (fun q => !(q.1 == k && mine.contains q.2)) } }

/-- Tiles that serve a kiln. -/
def State.kilnTiles (s : State) (k : Nat) : List Nat :=
  s.plc.cur.elim [] (fun p => (p.tiles.filter (fun e => e.2.kiln == some k)).map (·.1))

/-- A kiln's tiles begin to stall, or the stall ends and its cycles are counted. -/
def State.stallTiles (s : State) (k : Nat) : State :=
  (s.kilnTiles k).foldl (fun s t =>
    let v := s.tile t
    if v.full.length = 2 then s else s.setTile t { v with since := s.time.ticks }) s
def State.unstallTiles (s : State) (k : Nat) : State :=
  (s.kilnTiles k).foldl State.stallNow s

/-- The drain is complete: the bank is free (R102, R105, R169). The final drain of a SHUT brings in a layout that a re-placement has
computed meanwhile (R184). -/
def State.drainDone (s : State) (k : Nat) : State :=
  let v := s.kiln k
  let s := if v.stalled then s.unstallTiles k else s
  let v := { v with drain := none, stalled := false }
  let s := s.setPair fun q => { q with lost := q.lost.filter (· ≠ k)
                                       emitted := { q.emitted with groups := q.emitted.groups.filter (fun e => e.1 ≠ k) } }
  if v.state = 4 then
    let s := s.setKiln k { v with state := if v.omitted then 0 else 1, endAt := none, omitted := false, newLayout := none }
    let s := if v.omitted then s else v.newLayout.elim s (s.setLayout k)
    let s := s.opDone? (v.endAt.bind (·.2)) qDone
    s.setPlc fun q => { q with shutKeep := q.shutKeep.filter (fun e => e.1 ≠ k) }
  else s.setKiln k { v with state := 2 }

/-- Every record of a firing that closes after a takeover was emitted by the partner: it has reported all groups, and on every ring the
completion record behind them (R358). -/
def State.partnerDone (s : State) (k : Nat) : Bool :=
  let v := s.kiln k
  decide (s.role ≤ 2) && v.drain.elim false (fun d => d.compTodo.isSome
    && (List.range v.rings.length).all (fun i => s.ringCovered (v.rings.getD i 0) (d.lastRseq v.rings.length i (s.rng (v.rings.getD i 0)).rseq)))

/-- The drain of a bank that has just closed begins with its headers (R110). Groups that the partner has reported already are done, and
a firing that it has emitted whole is at its end. -/
def State.startDrain (s : State) (k : Nat) : State :=
  let s := s.reportGroups k
  if s.partnerDone k then ((s.kiln k).rings.foldl State.afterReport s).drainDone k else s.retryHeaders k

/-! ### The close (R101, R105) -/

/-- Every line has had every update below `b`. -/
def Kiln.linesTo (v : Kiln) (d : KilnDesc) (b : Nat) : Bool := (List.range d.lines).all (fun n => decide (b ≤ v.lineNext' n))

/-- The close item of the active part, which a standby waits for and a part that has taken over may still hold. -/
def State.closeItem (s : State) (k b : Nat) : Option CloseItem := s.pair.closes.find? (fun c => c.k == k && c.boundary == b)

/-- Whether the bank of kiln k closes at `b`: its updates are applied, the other bank is free, and a standby has the close
of the active part. -/
def State.closeReady (s : State) (k b : Nat) (p : KilnPlace) : Bool :=
  let v := s.kiln k
  v.live && v.drain.isNone && v.linesTo p.desc b && (!s.standby || (s.closeItem k b).isSome)

/-- The kiln fields that a close leaves. -/
def Kiln.closed (v : Kiln) (b seq : Nat) (final : Bool) (d : Drain) : Kiln :=
  { v with state := if final then 4 else 3, bank := 1 - v.bank, drain := some d, seq := (seq + 1) % 2 ^ 32
           pend := v.pend.filter (fun e => e.1 ≠ b), hops := v.hops.filter (fun e => decide (b < e.1)), loss := v.loss.filter (fun e => decide (b ≤ 128 * e.1))
           steps := 0, stepPs := 0, overAt := none, stalled := false }

/-- SKIP: the boundary goes, and the FIRE that named it completes as skipped. -/
def State.skipBoundary (s : State) (k b : Nat) : State :=
  let v := s.kiln k
  let op := (v.pend.find? (fun e => e.1 == b)).bind (·.2)
  let v := { v.dropItems b with gone := b, pend := v.pend.filter (fun e => e.1 ≠ b), overAt := none }
  let s := s.setKiln k (v.setBank v.bank { v.bankOf v.bank with skipped := true })
  ((s.opDone? op qSkipped).cnt (oKln k + 0x38) 1).decide_ (.skip k b)

/-- A skip item of the active part acts once its boundary is the one that ends the accumulating integration: earlier ones close
first (R104, R347). -/
def State.takeSkip (s : State) (k : Nat) : State :=
  match s.boundary k with
  | some b =>
    if s.pair.skips.contains (k, b) then (s.setPair fun q => { q with skips := q.skips.filter (· ≠ (k, b)) }).skipBoundary k b else s
  | none => s
/-- Every skip item whose turn has come taken, in order. -/
def State.takeSkips (s : State) (k : Nat) : State := s.pair.skips.foldl (fun s _ => s.takeSkip k) s

def State.bankClose (s : State) (k b maxAct totAct : Nat) (p : KilnPlace) : State :=
  let v := s.kiln k
  let d := p.desc
  let final := v.endAt.elim false (fun e => e.1 == b)
  let x := v.bankOf v.bank
  let (seq, ns, steps, stepPs) :=
    (s.closeItem k b).elim (v.seq, s.ns, v.steps, v.stepPs) (fun c => (c.seq, c.closeNs, c.stepCount, c.stepPs))
  let u := (b - x.first) / p.g
  let loss := ((v.loss.filter (fun e => decide (x.first ≤ 128 * e.1) && decide (128 * e.1 < b))).map (·.2)).sum
  let flags := closeFlags (!x.satLines.isEmpty) (decide (u > 65536) && decide (1 ≤ x.peak)) (decide (steps ≥ 1))
    (decide (loss ≥ 1)) (!x.poison.isEmpty) x.skipped final
  let dr : Drain :=
    { bank := v.bank, seq, lastIdx := b - 1, closeNs := ns, closeTotal := s.time.total
      hdr := headerBytes p x (b - 1) flags x.peak x.fit u loss steps stepPs ns
      groups := d.groups, hdrTodo := List.range v.rings.length, done := [], written := [], dropped := [], hdrRseq := []
      hdrDropped := [], poison := [], poisonTotal := x.poison.length, lastTotal := s.time.total, compTodo := none }
  let op := ((v.pend.find? (fun e => e.1 == b)).bind (·.2))
  let s := if final ∨ (v.bankOf (1 - v.bank)).first = b then s else s.beginBank k (1 - v.bank) b
  let s := s.setKiln k ((s.kiln k).closed b seq final dr)
  let s := ((s.setReg (oKln k + 0x30) (lo32 seq)).setRb (oKln k + 4) 0 true).publishH (32 + 2 * k) (tget 0 v.hops b)
  let s := s.setPair fun q => { q with closes := q.closes.filter (fun c => !(c.k == k && c.boundary == b)), undrained := q.undrained.filter (· ≠ k) }
  let s := (s.skewClose k b maxAct totAct (64 * x.layout.usable.length)).decide_ (.close k b seq ns (min steps 255) stepPs)
  let s := if final then s.opFiring (v.endAt.bind (·.2)) k seq else s
  let s := (((s.opFired op k seq).itemsFired k b seq).takeSkips k).startDrain k
  (if final then s.refreshReaders else s).kilnReach k b

/-- KILN_BANK_CLOSE (R101, R105, R110, R181): the counts are those the memory controllers made of the activations that the
kiln's updates caused in this integration. -/
def execKilnBankClose (k maxAct totAct : Nat) (s : State) : Host.Outcome State Fault Refusal :=
  match s.placedKiln k, s.boundary k with
  | some p, some b => gate (s.up && s.sagRoom && s.closeReady k b p) s fun s => s.bankClose k b maxAct totAct p
  | _, _ => .next s

/-! ### Overrun (R103, R104) -/

/-- Some line's update for an index at or after `b` is ready. -/
def State.updateReadyAt (s : State) (k b : Nat) (p : KilnPlace) : Bool :=
  let v := s.kiln k
  (List.range p.desc.lines).any (fun n => decide (b ≤ v.lineNext' n) && v.lineReady p n (v.lineNext' n))

/-- What FIRE_OVERRUN shows. -/
def State.overrunShown (s : State) (k : Nat) : State :=
  ((s.setRb (oKln k + 4) 1 true).publishH (33 + 2 * k) ((s.boundary k).elim 0 (tget 0 (s.kiln k).hops))).cnt (oKln k + 0x34) 1

/-- FIRE_OVERRUN (R103, R104, R106): the first update at or after the boundary is ready while the other bank drains. -/
def execFireOverrun (k : Nat) (s : State) : Host.Outcome State Fault Refusal :=
  match s.placedKiln k, s.boundary k with
  | some p, some b =>
    let v := s.kiln k
    gate (s.up && s.sagRoom && v.live && v.drain.isSome && !s.standby && decide (v.overAt ≠ some b)
        && !(v.endAt.elim false (fun e => e.1 == b)) && s.updateReadyAt k b p) s fun s =>
      let s := (s.overrunShown k).decide_ (.overrun k)
      if s.skipPolicy k then s.skipBoundary k b
      else (s.setKiln k { s.kiln k with stalled := true, overAt := some b }).stallTiles k
  | _, _ => .next s

/-! ### Line records (R110, R115, R120) -/

/-- A record of `len` positions would wait for room in a ring now. -/
def State.wouldHold (s : State) (r len : Nat) : Bool :=
  !s.emits || (s.rEn r && !s.rDrop r && decide (s.rFree r < len))

/-- The group read for the drain: lines found with an error, exponent bytes, data, and the state after. The words of a line found
with an error are left open (R117). -/
def State.readGroup (s : State) (k b g : Nat) (p : KilnPlace) (x : Bank) : List Nat × List Byte × List Byte × State :=
  let ns := (List.range 64).map (64 * g + ·)
  let ctx := k + 16 * b
  let a := x.lineAddr b (64 * g)
  let (bad, data, s) := s.hbmRead a 4096 1 ctx
  let (ebad, ex, s) := if p.desc.k16 then s.hbmRead (x.expLine b (64 * g)) 64 1 ctx else ([], [], s)
  let lost := ns.filter (fun n => !x.poison.contains n && (!ebad.isEmpty || bad.contains (x.lineAddr b n)))
  let (fr, s) := s.freeBytes (9 * lost.length)
  let open_ := fun (n : Nat) => (lost.findIdx? (· == n)).map (fun i => (fr.drop (72 * i)).take 72)
  let seen := fun (n : Nat) => x.touched.contains n
  (lost, (List.zip ns ex).map (fun q => (open_ q.1).elim (if seen q.1 then q.2 else 0) (fun l => l.getD 64 0)),
    ns.flatMap (fun n => (open_ n).elim (if seen n then (data.drop (64 * (n % 64))).take 64 else List.replicate 64 0) (·.take 64)), s)

/-- The controllers serve a group of the draining bank (R275). -/
def State.groupServes (s : State) (k g : Nat) (p : KilnPlace) (d : Drain) : Bool :=
  let x := (s.kiln k).bankOf d.bank
  s.hbmServes (x.lineAddr d.bank (64 * g)) 4096 && (!p.desc.k16 || s.hbmServes (x.expLine d.bank (64 * g)) 64)

/-- A group's line record offered to its ring. -/
def State.lineRecord (s : State) (k g : Nat) (p : KilnPlace) (d : Drain) : State :=
  let v := s.kiln k
  let i := g % v.rings.length
  let r := v.rings.getD i 0
  let x := v.bankOf d.bank
  let (lost, ex, data, s) := s.readGroup k d.bank g p x
  let mask := (x.poison ++ d.poison ++ lost).foldl (fun m n => if n / 64 = g then m ||| 2 ^ (n % 64) else m) 0
  let len := if p.desc.k16 then 66 else 65
  let body := leBytes 8 g ++ leBytes 8 mask ++ List.replicate 32 0 ++ ex ++ data
  let (o, s) := s.offerFiring k r (.lines k) false len (if s.rDrop r then 2 else 0)
    (fun rs cl => firingCommon 2 k len d.seq rs cl i (log2R v.rings.length) ++ body)
  let w := decide (o = .written)
  let done := d.done ++ [g]
  let d := { d with done, written := if w then bump d.written i else d.written
                    dropped := if w then d.dropped else bump d.dropped i
                    poison := sortUp (d.poison ++ lost), poisonTotal := d.poisonTotal + lost.length
                    lastTotal := s.time.total
                    compTodo := if done.length = d.groups then some (List.range v.rings.length) else none }
  let s := s.setKiln k { s.kiln k with drain := some d }
  if w then s.setPair fun q => { q with emitted := { q.emitted with groups := q.emitted.groups ++ [(k, g)] } } else s

/-- FIRING_LINE_RECORD_WRITE (R110, R120, R121): headers that wait go first; a group is read only once its ring has room,
or drops. A standby stores no line record (R355). -/
def execFiringLineRecordWrite (k g : Nat) (up : Option Upset) (s : State) : Host.Outcome State Fault Refusal :=
  match (s.kiln k).drain, s.kilnPlace k with
  | some d, some p =>
    gate (s.up && decide (s.role ≤ 2) && decide (g < d.groups) && !d.done.contains g) s fun s =>
      let s := s.retryHeaders k
      let v := s.kiln k
      let i := g % v.rings.length
      let r := v.rings.getD i 0
      let len := if p.desc.k16 then 66 else 65
      let s := s.rLook r
      match v.drain with
      | none => s
      | some d =>
        if d.hdrTodo.contains i then s
        else if !s.firingLost k && !(s.rng r).lost.contains (.lines k) && s.wouldHold r len then (if s.emits then s.rWait r (.lines k) len else s)
        else if !s.groupServes k g p d then s
        else (s.upset up).lineRecord k g p d
  | _, _ => .next s

/-! ### Completion (R102, R116, R118 to R120) -/

/-- Bytes 16 to 127 of the completion record of ring position `i`. -/
def completionBytes (d : Drain) (i : Nat) : List Byte :=
  let fl := ((d.hdr.getD 23 0).toNat ||| (if d.poisonTotal = 0 then 0 else 16)) % 128
    + (if d.hdrDropped ≠ [] ∨ d.dropped ≠ [] then 128 else 0)
  leBytes 4 (tget 0 d.written i) ++ leBytes 4 (tget 0 d.dropped i) ++ leBytes 4 d.groups ++ leBytes 1 fl
    ++ leBytes 1 (b2n (d.hdrDropped.contains i)) ++ leBytes 2 0 ++ leBytes 4 d.poisonTotal
    ++ leBytes 4 (sat32 (d.lastTotal - d.closeTotal)) ++ leBytes 4 (sget (fun _ => 0) d.hdrRseq i).toNat ++ leBytes 4 0
    ++ poison8 d.poison ++ List.replicate 48 0

/-- The completion record of one ring position offered. -/
def State.offerCompletion (s : State) (k i : Nat) : State :=
  let v := s.kiln k
  match v.drain with
  | none => s
  | some d =>
    let r := v.rings.getD i 0
    let (o, s) := s.offerFiring k r (.completion k) true 2 0 (fun rs cl => firingCommon 3 k 2 d.seq rs cl i (log2R v.rings.length) ++ completionBytes d i)
    let s := if o = .written then s.rOwe r (.firing k d.seq) else s
    match o with
    | .held => s
    | _ => s.setKiln k { s.kiln k with drain := some { d with compTodo := d.compTodo.map (fun l => l.filter (· ≠ i)) } }

/-- FIRING_COMPLETION_WRITE (R110, R116, R120): every line record is written or dropped; the completion records go to the
rings that have room for them, and the last one ends the drain. Headers that still wait go first (R118). A standby holds the
records (R355), and its drain ends as reports cover them (R349). -/
def execFiringCompletionWrite (k : Nat) (s : State) : Host.Outcome State Fault Refusal :=
  match (s.kiln k).drain.bind (·.compTodo) with
  | some l =>
    gate s.up s fun s =>
      let s := s.retryHeaders k
      let s := if (s.kiln k).drain.elim true (fun d => d.hdrTodo.isEmpty) then l.foldl (fun s i => s.offerCompletion k i) s else s
      if s.role ≤ 2 ∧ (s.kiln k).drain.bind (·.compTodo) = some [] then s.drainDone k else s
  | none => .next s

end Sys2Proof.Machine
end

