-- ==== Sys2Proof/Machine/Beams.lean ====
section
/-! DEFINITION. Beams: glaze weights, epochs, visits, windows, requantisation, TX entries and BEAM frames (R123 to R139). -/

namespace Sys2Proof.Machine

def State.setBeam (s : State) (f : BeamSt → BeamSt) : State := { s with beam := f s.beam }

/-! ### Weights (R129, R132) -/

/-- π in units of 2⁻⁹⁶. -/
def piFix : Nat := 248902613312231085230521944622
/-- The terms of the sine series from `t` on, alternately added and taken away, in units of 2⁻⁹⁶. -/
def sineTerms (x2 : Nat) : Nat → Nat → Int → Int
  | 0, _, _ => 0
  | n + 1, i, t => t + sineTerms x2 n (i + 2) (-(t * x2 / 2 ^ 96 / ((i * (i + 1) : Nat) : Int)))
/-- round(32,768 sin(2πk / 4,096)) for k in the first quarter. -/
def sineQuarter (k : Nat) : Nat :=
  let x := piFix * k / 2048
  ((sineTerms (x * x / 2 ^ 96) 24 2 x * 32768 + 2 ^ 95) / 2 ^ 96).toNat
/-- The sine table S (R132). -/
def sineTab (k : Nat) : Int :=
  let k := k % 4096
  let q : Nat := if k % 2048 ≤ 1024 then sineQuarter (k % 2048) else sineQuarter (2048 - k % 2048)
  if k < 2048 then (min 32767 q : Nat) else -(q : Int)

def sine (phi : Nat) : Int :=
  let k := phi / 2 ^ 20
  let d : Nat := phi % 2 ^ 20
  let a := sineTab k
  (a * 2 ^ 20 + (sineTab (k + 1) - a) * d + 2 ^ 19) / 2 ^ 20

/-- glaze_weight: the parts of a weight. -/
def glazeWeight (gr gi : Int) (f t : Nat) : Int × Int :=
  let phi := (f * (t % 2 ^ 60) + 2 ^ 27) / 2 ^ 28 % 2 ^ 32
  let sn := sine phi
  let co := sine ((phi + 2 ^ 30) % 2 ^ 32)
  let part := fun (v : Int) => (clampS 8 ((v + 2 ^ 21) / 2 ^ 22)).1
  (part (gr * co - gi * sn), part (gr * sn + gi * co))

/-- F(c), in 2⁻⁸ Hz. -/
def State.freq (s : State) (c : Nat) : Nat :=
  let df : Int := sfld (s.reg 0xD00008) 0 32
  (((s.reg 0xD00000).toNat + 2 ^ 32 * s.rf 0xD00004 0 16 + df * c) % 2 ^ 48).toNat

/-! ### Epochs (R131, R133) -/

/-- tau (R131): a delay code. -/
def tauCode (c0 c1 c2 c3 : Int) (d : Int) : Nat :=
  wrapI 64 ((c0 * 2 ^ 60 + c1 * d * 2 ^ 40 + c2 * d ^ 2 * 2 ^ 20 + c3 * d ^ 3 + 2 ^ 59) / 2 ^ 60)

def oBlk (m : Nat) : Nat := 0xD00100 + 0x20 * m
/-- E of a block. -/
def State.epochLen (s : State) (m : Nat) : Nat := 256 * max 1 (s.rf (oBlk m) 0 16)

/-- The settings in effect for a block at an index. -/
def BlockSt.eraAt (b : BlockSt) (x : Nat) : Option Era := b.eras.find? (fun e => decide (e.from_ ≤ x))

/-- The shift word of a beam of a block, as `GLZ_BEAM` lays it out. -/
def Era.tx (e : Era) (k : Nat) : Nat := fld (e.shifts.getD k 0) 16 5
def Era.det (e : Era) (k : Nat) : Nat := fld (e.shifts.getD k 0) 0 5

/-! ### A beam tile's visits (R125) -/

/-- Samples of a visit of a block. -/
def visitLen (c3 : Bool) : Nat := if c3 then 256 else 128

/-- A slot that the tile cannot read any more: it was released while no beam of the tile took it, or is free again. -/
def State.slotGone (s : State) (t c b : Nat) : Bool :=
  s.wasReleased c b && !(s.slotAt c b).elim false (fun x => x.readers.contains t)

/-- Whether the tile has a visit of unit `u` at index `x` in channel `c`. -/
def State.hasVisit (s : State) (t x c : Nat) : Unit_ → Bool
  | .beam m _ =>
    match s.placedBlock m with
    | some p => s.blockTakes m x && decide (x % visitLen p.desc.c3 = 0)
        && (List.range (visitLen p.desc.c3 / 128)).all (fun i => !s.slotGone t c (x / 128 + i))
    | none => false
  | .pair _ _ => false

/-- Indices at which a beam tile's next visit can lie: where it stands, and slots of the rings of its channels. -/
def State.visitIndices (s : State) (p : Placement) (w : TileWork) (x0 : Nat) : List Nat :=
  let chans := p.tileChans w
  let rings := s.asm_.filter (fun e => chans.any (fun r => inRange e.1 r.1 r.2))
  let xs := rings.flatMap (fun e =>
    (List.range (e.2.slots.length + 1)).map (fun i => 128 * (e.2.base.getD 0 + i)))
  sortUp ((x0 :: xs.flatMap (fun x => [x, x + 128])).filter (fun x => decide (x0 ≤ x))).eraseDups

/-- The next visit of a beam tile: first index, channel, position, block and P. -/
def State.nextVisit (s : State) (t : Nat) : Option (Nat × Nat × Nat × Nat × Nat) :=
  match s.plc.cur, s.tileWork t with
  | some p, some w =>
    if w.kiln.isSome then none
    else
      let (x0, c0, i0) := (s.tile t).at_
      let rs := p.tileChans w
      let hi := (rs.map (fun r => r.1 + r.2)).foldl max 0
      (s.visitIndices p w x0).findSome? (fun x =>
        (List.range hi).findSome? (fun c =>
          if x = x0 ∧ c < c0 then none
          else
            let us := p.unitsIn w c
            ((List.range us.length).find? (fun i => !(decide (x = x0) && decide (c = c0) && decide (i < i0))
              && (us[i]?).elim false (s.hasVisit t x c))).bind (fun i => match us[i]? with
                | some (.beam m P) => some (x, c, i, m, P)
                | _ => none)))
  | _, _ => none

/-- Whether tile t still has visits of block m to make that begin below index `x`, or at it in a channel below `ch`. -/
def State.visitsBelow (s : State) (t m x ch : Nat) : Bool :=
  match s.plc.cur, s.tileWork t with
  | some p, some w =>
    let (x0, c0, i0) := (s.tile t).at_
    let rs := p.tileChans w
    let hi := (rs.map (fun r => r.1 + r.2)).foldl max 0
    (s.visitIndices p w x0).any (fun y => decide (y ≤ x) && (List.range hi).any (fun c =>
      (decide (y < x) || decide (c < ch)) && !(decide (y = x0) && decide (c < c0)) && ((List.zip (List.range (p.unitsIn w c).length) (p.unitsIn w c)).any (fun q =>
        !(decide (y = x0) && decide (c = c0) && decide (q.1 < i0)) && (match q.2 with
          | .beam m' _ => m' == m && s.hasVisit t y c q.2
          | _ => false)))))
  | _, _ => false

/-- Every visit of a block that begins below an index, or at it in a channel below `ch`, has been made. -/
def State.visitsDone (s : State) (m x : Nat) (ch : Nat := 0) : Bool :=
  s.plc.cur.elim true (fun p => p.tiles.all (fun e => e.2.kiln.isSome || !s.visitsBelow e.1 m x ch))

/-- The tab of an epoch. -/
def BlockSt.tab (b : BlockSt) (e : Nat) : Option EpochTab := b.tabs.find? (fun q => q.epoch == e)

def windowIs (m c b : Nat) (w : Window) : Bool := w.m == m && w.chan == c && w.blk == b
/-- Windows of a block that are open, and whether those of a visit are open or can be opened (R126). -/
def State.openWindows (s : State) (m : Nat) : Nat := (s.beam.windows.filter (fun w => w.m == m)).length
def State.windowRoom (s : State) (m c b n : Nat) : Bool :=
  decide (s.openWindows m + ((List.range n).filter (fun i => !(s.beam.windows.any (windowIs m c (b + i))))).length ≤ 32)

/-- A visit may start: its slots are released, its delay table is ready, and its windows are open or can be opened. -/
def State.visitReady (s : State) (x c m : Nat) (p : BlockPlace) : Bool :=
  let n := visitLen p.desc.c3 / 128
  (List.range n).all (fun i => s.isReleased c (x / 128 + i)) && ((s.block m).tab (x / s.epochLen m)).isSome
    && s.windowRoom m c (x / 128) n

/-! ### Gains (R128) -/

def oGain (bank i : Nat) : Nat := 0xD10000 + 0x4000 * bank + 4 * i
/-- The first byte of a gain word in the glaze memories, whose check bits are per byte (R282). The delay buffers follow both banks. -/
def gainByte (bank i : Nat) : Nat := 4 * (4096 * bank + i)
def delayByte : Nat := 32768
/-- The bank a visit at an index uses: the one that the last switch brought in from its index on. -/
def State.gainBank (s : State) (x : Nat) : Nat := b2n (if s.beam.switched ≤ x then s.beam.active else !s.beam.active)
/-- Whether the pending switch must come before a visit at `x`. -/
def State.switchFirst (s : State) (x : Nat) : Bool := s.beam.switch_.elim false (fun q => decide (q.1 ≤ x))

/-- GLAZE_SWITCH (R128, R223): the first visit at or after the index is about to start. -/
def execGlazeSwitch (s : State) : Host.Outcome State Fault Refusal :=
  match s.beam.switch_ with
  | some (n, op) =>
    gate (s.up && (s.plc.cur.elim false (fun p => p.tiles.any (fun e => (s.nextVisit e.1).elim false (fun v =>
        decide (n ≤ v.1) && (s.placedBlock v.2.2.2.1).elim false (fun b => s.visitReady v.1 v.2.1 v.2.2.2.1 b)))))) s fun s =>
      let on := !s.beam.active
      (s.setBeam fun b => { b with active := on, switch_ := none, switched := n
                                   badGains := b.badGains.filter (fun g => g / 4096 ≠ b2n on) }).opDone? op qDone
  | none => .next s

/-- GLZ_GAIN_WRITE (R128): only the inactive bank, while no switch is pending. -/
def execGlzGainWrite (bank i : Nat) (v : W32) (s : State) : Host.Outcome State Fault Refusal :=
  writeGate (decide (bank < 2) && decide (i < 4096)) s fun s =>
    if bank = b2n (!s.beam.active) ∧ s.beam.switch_.isNone then
      (s.clean 9 0 (gainByte bank i) (gainByte bank i + 4)).setReg (oGain bank i) v
    else s

/-! ### Errors in the glaze unit (R131, R284) -/

/-- Entries of a block lost: removed from the weights of an epoch and counted. -/
def State.loseEntries (s : State) (m e : Nat) (ids : List Nat) : State :=
  let b := s.block m
  match b.tab e with
  | none => s
  | some q =>
    let new := ids.filter (fun i => !q.lost.contains i)
    s.setBlock m { b with ecc := min 65535 (b.ecc + new.length)
                          tabs := b.tabs.map (fun y => if y.epoch = e then { y with lost := y.lost ++ new } else y) }

/-- The delay codes of an epoch written to its table (R131). -/
def State.delayWrite (s : State) (m e : Nat) (taus : List Nat) : State :=
  let rs := s.plc.cur.elim [] (fun p => p.delayRanges m e 0 (8 * taus.length))
  (rs.foldl (fun (acc : List Byte × State) r => (acc.1.drop r.2, acc.2.hbmWrite r.1 (acc.1.take r.2))) (taus.flatMap (leBytes 8), s)).2

/-- The pair's entries have still to be read for the visit at `x` of an epoch: they are read once for it, whatever the channels and the
tiles that make its visits (R127). -/
def State.delayDue (s : State) (m e P x : Nat) : Bool :=
  ((s.block m).tab e).elim false (fun q => !q.reads.contains (P, x))

/-- The ranges of the 64 × 64 delay entries of pair (P, m) in the table of an epoch, by beam. -/
def Placement.pairRanges (p : Placement) (m e P n : Nat) : List (Nat × Nat × Nat) :=
  (List.range 64).flatMap (fun k => (p.delayRanges m e (8 * (k * n + 64 * P)) 512).map (fun r => (k, r)))

/-- A visit may read what it has to of its delay table: the controllers serve it (R22, R275). -/
def State.delayServes (s : State) (m e P n x : Nat) : Bool :=
  !s.delayDue m e P x || s.plc.cur.elim true (fun p => (p.pairRanges m e P n).all (fun r => s.hbmServes r.2.1 r.2.2))

/-- The delay entry that a byte of the delay buffers holds for a block of n inputs (log 42). -/
def delayEntry (n a : Nat) : Nat := (a - delayByte) / 8 % (64 * n)
/-- Delay buffers' upsets in the entries of pair (P, m). -/
def State.delayUpsets (s : State) (P n : Nat) : List Upset :=
  s.err.upsets.filter (fun u => u.cls == 9 && decide (delayByte ≤ u.addr) && decide (delayEntry n u.addr % n / 64 = P))

/-- The 64 × 64 delay entries of pair (P, m) read from the table of an epoch into the unit's buffers for the visit at `x` (R127):
codes, and entries that an uncorrectable error removes. -/
def State.delayRead (s : State) (m e P n x : Nat) : State :=
  match (s.block m).tab e, s.plc.cur with
  | some q, some p =>
    let (taus, lost, s) := (p.pairRanges m e P n).foldl (fun (acc : List Nat × List Nat × State) r =>
      let id := r.1 * n + 64 * P
      let (bad, b, s) := acc.2.2.hbmRead r.2.1 r.2.2 3 0
      (acc.1.take id ++ (List.range 64).map (fun i => field b (8 * i) 8) ++ acc.1.drop (id + 64),
        acc.2.1 ++ bad.flatMap (fun l => (List.range 8).map (fun i => id + (l - r.2.1) / 8 + i)), s)) (q.taus, [], s)
    let fresh := s.delayUpsets P n
    let s := s.setErr fun r => { r with upsets := r.upsets.filter (fun u => !fresh.contains u) }
    let b := s.block m
    (s.setBlock m { b with tabs := b.tabs.map (fun y =>
      if y.epoch = e then { y with taus, reads := (P, x) :: y.reads } else y) }).loseEntries m e lost
  | _, _ => s

/-- The gain words that a visit reads, but those whose inputs are out already: a word with an uncorrectable error takes its input out of
every beam for as long as the bank is active (R284). -/
def State.gainsRead (s : State) (bank : Nat) (inputs : List Nat) : State :=
  if s.err.upsets.all (fun u => u.cls != 9) then s
  else inputs.foldl (fun s i =>
    if s.beam.badGains.contains (4096 * bank + i) then s
    else
      let (bad, s) := s.scan 9 0 (gainByte bank i) (gainByte bank i + 4) 3 0 false
      if bad.isEmpty then s else s.setBeam fun b => { b with badGains := (4096 * bank + i) :: b.badGains }) s

/-- The delay entries of the pair used from the buffers: one with an uncorrectable error is lost, and its buffer word is filled again. -/
def State.delaysUsed (s : State) (m e P n : Nat) : State :=
  (s.delayUpsets P n).foldl (fun s u =>
    let (bad, s) := s.scan 9 0 u.addr (u.addr + 1) 3 0 false
    if bad.isEmpty then s else (s.clean 9 0 u.addr (u.addr + 1)).loseEntries m e [delayEntry n u.addr]) s

/-- What struck as a visit read its gains, delays and weights, and what it meets there. -/
def State.visitUpset (s : State) (t m e P bank n : Nat) (inputs : List Nat) (up : Option Upset) : State :=
  let s := match up with
    | some u =>
      if u.cls = 11 then ((s.upset (some { u with unit := t, ue := false })).scan 11 t 0 4096 12 0 false).2.excludeCheck
      else s.upset up
    | none => s
  (s.gainsRead bank inputs).delaysUsed m e P n

/-! ### One visit (R124, R126, R139) -/

/-- A row of the grid in one visit: position in the block's list, device input, and its samples of a slot where valid. -/
abbrev BeamRow := Nat × Nat × Option (List (Int × Int))

/-- The partial sums of one beam over the 64 rows, its loss by a removed weight, and whether a valid input contributed. -/
def beamColumn (wt : Nat → Option (Int × Int)) (rows : List BeamRow) : List (Int × Int) × Bool × Bool :=
  rows.foldl (fun (a : List (Int × Int) × Bool × Bool) r =>
    match wt r.1, r.2.2 with
    | some w, some xs =>
      (List.zipWith (fun (s x : Int × Int) => (s.1 + (w.1 * x.1 - w.2 * x.2), s.2 + (w.1 * x.2 + w.2 * x.1))) a.1 xs, a.2.1, true)
    | some _, none => a
    | none, _ => (a.1, true, a.2.2)) (List.replicate 128 (0, 0), false, false)

/-- A visit's contribution added to its window of one slot. -/
def Window.add (w : Window) (P : Nat) (cols : List (List (Int × Int) × Bool × Bool)) (blank : Bool) : Window :=
  let sums := cols.flatMap (·.1)
  { w with got := w.got ++ [P], sums := List.zipWith (fun (a b : Int × Int) => (a.1 + b.1, a.2 + b.2)) w.sums sums
           loss := List.zipWith (fun a (q : List (Int × Int) × Bool × Bool) => a || q.2.1 || blank) w.loss cols
           any_ := List.zipWith (fun a (q : List (Int × Int) × Bool × Bool) => a || q.2.2) w.any_ cols }

def Window.open_ (m c b : Nat) : Window :=
  ⟨m, c, b, [], List.replicate 8192 (0, 0), List.replicate 64 false, List.replicate 64 false⟩

/-- The weights of a visit: by beam column and list position, none where R131 or R284 removed it. -/
def State.visitWeight (s : State) (m x c : Nat) (p : BlockPlace) (k pos : Nat) : Option (Int × Int) :=
  let bank := s.gainBank x
  let i := p.inputs.getD pos 0
  match (s.block m).tab (x / s.epochLen m) with
  | none => none
  | some q =>
    let id := k * p.desc.n + pos
    if q.lost.contains id ∨ s.beam.badGains.contains (4096 * bank + i) then none
    else
      let g := s.reg (oGain bank i)
      some (glazeWeight (sfld g 16 16) (sfld g 0 16) (s.freq c) (q.taus.getD id 0))

/-- The contribution of pair (P, m) to the window of slot (c, b). -/
def State.contribute (s : State) (m P c b : Nat) (p : BlockPlace) (wts : List (List (Option (Int × Int)))) : State :=
  match s.slotAt c b with
  | none => s
  | some sl =>
    let pos := (List.range 64).map (64 * P + ·)
    let rows : List BeamRow := pos.map (fun j =>
      let i := p.inputs.getD j 0
      (j % 64, i, (sl.valid? i).map (fun b => samplesOf p.desc.c3 b i)))
    let cols := wts.map (fun w => beamColumn (fun r => (w[r]?).getD none) rows)
    let blank := rows.any (fun r => sl.isBlank r.2.1)
    let w := (s.beam.windows.find? (windowIs m c b)).getD (Window.open_ m c b)
    s.setBeam fun q => { q with windows := q.windows.filter (fun y => !windowIs m c b y) ++ [w.add P cols blank] }

/-- Whether a later unit of the tile's list visits the same channel at the same index. -/
def State.laterVisit (s : State) (t x c i : Nat) (p : Placement) (w : TileWork) : Bool :=
  ((p.unitsIn w c).drop (i + 1)).any (s.hasVisit t x c)

def State.visit (s : State) (t x c i m P : Nat) (p : BlockPlace) (pl : Placement) (w : TileWork) (up : Option Upset) : State :=
  let e := x / s.epochLen m
  let n := visitLen p.desc.c3 / 128
  let ins := (List.range 64).map (fun r => p.inputs.getD (64 * P + r) 0)
  let s := if s.delayDue m e P x then s.delayRead m e P p.desc.n x else s
  let s := s.visitUpset t m e P (s.gainBank x) p.desc.n ins up
  let wts := (List.range 64).map (fun k => (List.range 64).map (fun r => s.visitWeight m x c p k (64 * P + r)))
  let s := (List.range n).foldl (fun s d => s.contribute m P c (x / 128 + d) p wts) s
  let b := s.block m
  let s := if b.nextEval.isNone ∧ (b.tab (e + 1)).isNone then s.setBlock m { b with nextEval := some (e + 1) } else s
  let v := s.tile t
  let s := s.setTile t { v with at_ := (x, c, i + 1), since := s.time.ticks + 66 }
  if s.laterVisit t x c i pl w then s else s.consume t c (x / 128) (x / 128 + n)

/-- BEAM_VISIT_START (R124, R125): the visit's slots are released, its delay table is ready and its windows are open or can
be opened. What the tile has waited since the 132 cycles of its last visit is stall. -/
def execBeamVisitStart (t : Nat) (up : Option Upset) (s : State) : Host.Outcome State Fault Refusal :=
  match s.nextVisit t, s.plc.cur, s.tileWork t with
  | some (x, c, i, m, P), some pl, some w =>
    match s.placedBlock m with
    | some p =>
      gate (s.up && s.visitReady x c m p && !s.switchFirst x && s.delayServes m (x / s.epochLen m) P p.desc.n x) s fun s =>
        (s.cnt (oWhl t + 8) (2 * (s.time.ticks - (s.tile t).since))).visit t x c i m P p pl w up
    | none => .next s
  | _, _, _ => .next s

/-! ### Evaluation (R131, R133) -/

/-- The entries of a coefficient table for an epoch: delay codes, and entries whose coefficients were lost. -/
def State.evalTable (s : State) (a n : Nat) (d : Int) : List Nat × List Nat × State :=
  let (bad, b, s) := s.hbmRead a (2048 * n) 3 0
  let ent := fun (i : Nat) =>
    let c := fun (h : Nat) => signI 64 (field b (32 * i + 8 * h) 8)
    tauCode (c 0) (c 1) (c 2) (c 3) d
  ((List.range (64 * n)).map ent, bad.flatMap (fun l => [(l - a) / 32, (l - a) / 32 + 1]), s)

/-- A pending STEER comes into effect with the evaluation of the epoch at its index: settings, the registers that show them,
the group's restart, and the operation's completion (R133, R144, R223). -/
def State.steerEffect (s : State) (m : Nat) : State :=
  let b := s.block m
  match b.pend with
  | none => s
  | some q =>
    let cur := (List.range 64).map (fun k => s.reg (0xD01000 + 0x10 * (64 * m + k)))
    let sh := q.shifts.getD cur
    let s := s.setBlock m { b with steered := true, pend := none, eras := ⟨q.ns, q.table, q.n0, sh⟩ :: b.eras }
    let s := (List.range 64).foldl (fun s k => s.setReg (0xD01000 + 0x10 * (64 * m + k)) (sh.getD k 0)) s
    let g := s.grp m
    ((s.setReg64 (oBlk m + 8) q.table).setGrp m { g with restarts := sortUp (q.ns :: g.restarts).eraseDups }).opDone? q.op qDone

/-- The coefficient table that the evaluation of an epoch reads. -/
def BlockSt.evalFrom (b : BlockSt) (x : Nat) : Nat :=
  match b.pend with
  | some q => if q.ns ≤ x then q.table else (b.eraAt x).elim 0 (·.table)
  | none => (b.eraAt x).elim 0 (·.table)

/-- GLAZE_EPOCH_EVAL_START (R131): the next epoch is evaluated, into the table of the epoch two before it, where the controllers
serve both tables. DESIGN CHOICE (log 89): the first epoch evaluated under a STEER is that of its n_s, whichever slots a visit
can still read. -/
def execGlazeEpochEvalStart (m : Nat) (up : Option Upset) (s : State) : Host.Outcome State Fault Refusal :=
  match (s.block m).nextEval, s.placedBlock m with
  | some e, some p =>
    let E := s.epochLen m
    gate (s.up && (decide (e < 2) || s.visitsDone m ((e - 1) * E)) && s.hbmServes ((s.block m).evalFrom (e * E)) (2048 * p.desc.n)
        && (s.plc.cur.elim [] (fun q => q.delayRanges m e 0 (512 * p.desc.n))).all (fun r => s.hbmServes r.1 r.2)) s fun s =>
      let s := if (s.block m).pend.elim false (fun q => decide (q.ns ≤ e * E)) then s.steerEffect m else s
      let b := s.block m
      match b.eraAt (e * E) with
      | none => s.setBlock m { b with nextEval := none }
      | some r =>
        let (taus, lost, s) := (s.upset up).evalTable r.table p.desc.n (e * E + E / 2 - r.n0)
        let s := s.delayWrite m e taus
        let b := s.block m
        (s.setBlock m { b with
          nextEval := none, ecc := min 65535 (b.ecc + lost.length)
          tabs := (b.tabs.filter (fun q => decide (e < q.epoch + 2))) ++ [⟨e, taus, lost, []⟩] }).blockReach m (e * E)
  | _, _ => .next s

/-! ### TX entries (R134, R136) -/

def oTxg (j : Nat) : Nat := 0xD08000 + 4 * j
/-- An enabled entry: its base and how many beams it holds. -/
def State.txgBeams (s : State) (j : Nat) : Option (Nat × Nat) :=
  if s.rb (oTxg j) 31 then some (s.rf (oTxg j) 0 11, if s.rb (oTxg j) 29 then 8 else 16) else none

/-- Whether enabling an entry with a word passes the checks of R136. -/
def State.txgOk (s : State) (j : Nat) (v : W32) : Bool :=
  let n := if bit v 29 then 8 else 16
  let base := fld v 0 11
  let others := ((List.range 64).filter (· ≠ j)).filterMap s.txgBeams
  decide (fld v 24 5 < s.nTx) && decide (base % n = 0)
    && others.all (fun o => !overlap base n o.1 o.2) && decide ((others.map (·.2)).sum + n ≤ 512)

/-- A write of an entry taken: the fields, and EN if the checks pass. -/
def State.txgSet (s : State) (j : Nat) (v : W32) : State :=
  let f := v &&& 0x3F0007FF#32
  let err := s.rb (oTxg j) 30
  if !bit v 31 then s.setReg (oTxg j) (setBit f 30 err)
  else if s.txgOk j v then s.setReg (oTxg j) (setBit f 31 true)
  else s.setReg (oTxg j) (setBit f 30 true)

/-- The placed block that holds back a write of an entry: of its beams now if it is enabled, else of those named. -/
def State.txgBlock (s : State) (j : Nat) (v : W32) : Option Nat :=
  let placed := fun (m : Nat) => (s.placedBlock m).isSome
  let m := (s.txgBeams j).elim (fld v 0 11 / 64) (fun o => o.1 / 64)
  if placed m then some m else if placed (fld v 0 11 / 64) then some (fld v 0 11 / 64) else none

/-- GLZ_TXG_ENABLE (R134, R136): a write of an entry, at once or held until the block's next STEER. -/
def execGlzTxgEnable (j : Nat) (v : W32) (s : State) : Host.Outcome State Fault Refusal :=
  writeGate (!s.gradeC && decide (j < 64)) s fun s =>
    if (s.txgBlock j v).isSome then s.setBeam fun b => { b with txgPend := sput b.txgPend j v } else s.txgSet j v

/-- Writes of entries of a block that waited for a STEER taken, as the first window of the new settings closes. -/
def State.txgTake (s : State) (m : Nat) : State :=
  s.beam.txgPend.foldl (fun s e =>
    if s.txgBlock e.1 e.2 = some m then (s.setBeam fun b => { b with txgPend := sdel b.txgPend e.1 }).txgSet e.1 e.2 else s) s

/-! ### Windows close (R127, R135 to R138) -/

/-- Window order of one block: by slot, then channel (R126). -/
def Window.precedes (b c : Nat) (w : Window) : Bool := decide (b < w.blk) || (b == w.blk && decide (c < w.chan))

/-- The windows of a block can go on no further in order: the window next in order is not open, and a visit that would open it finds
no room among the 32. No window closes before it in order, so waiting gives no room; while the window next in order is open, or
every visit finds room, there is none of this. It is asked for a window `w` that comes later. -/
def State.roomStuck (s : State) (m : Nat) (w : Window) (c3 : Bool) : Bool :=
  let n := visitLen c3 / 128
  let mine := s.beam.windows.filter (fun y => y.m == m)
  s.plc.cur.elim false (fun p => p.tiles.any (fun e => (s.nextVisit e.1).elim false (fun v =>
    let b := v.1 / 128
    let c := v.2.1
    v.2.2.2.1 == m && w.precedes b c && !s.windowRoom m c b n && mine.all (fun y => y.precedes b c) && s.visitsDone m v.1 c
      && (List.range n).all (fun i => s.isReleased c (b + i)) && ((s.block m).tab (v.1 / s.epochLen m)).isSome)))

/-- The window of a block that closes next: complete, and the first in order of slot and then channel, no window before it being
open or still to be opened by a visit. DESIGN CHOICE (log 90): where the windows can go on no further in order, since the visit that
would open the next one finds no room among the 32, the first complete window closes all the same: in C3, where a visit completes two
slots of a channel, and where the placer has split the channels of a pair over tiles. -/
def State.closable (s : State) (m n : Nat) (c3 : Bool) : Option Window :=
  let done := fun (w : Window) => decide (w.got.length = n)
  let mine := s.beam.windows.filter (fun w => w.m == m)
  let before := fun (w : Window) (v : Window) => w.precedes v.blk v.chan
  (mine.find? (fun w => done w && !(mine.any (fun v => done v && before w v)))).bind (fun w =>
    if (!(mine.any (before w)) && s.visitsDone m (128 * w.blk) w.chan) || s.roomStuck m w c3 then some w
    else none)

/-- The 8 + 8 word and the 16 + 16 word of a beam sample, as bytes. -/
def beamBytes (n : Nat) (b : Int × Int) : List Byte := leBytes (n / 4) (wrapI n b.1 * 2 ^ n + wrapI n b.2)

/-- A BEAM frame (R137): header and payload. -/
def beamFrame (src chan base blk : Nat) (fmt16 : Bool) (valid loss : List Bool) (sam : Nat → Nat → Int × Int) : List Byte :=
  let n := if fmt16 then 8 else 16
  let mask := fun (l : List Bool) => (List.zip (List.range 16) l).foldl (fun a q => if q.2 then a + 2 ^ q.1 else a) 0
  let hdr := leBytes 32 (src + 4 * 2 ^ 12 + chan * 2 ^ 32 + base * 2 ^ 48 + 128 * blk * 2 ^ 64 + mask valid * 2 ^ 112
    + 4096 * 2 ^ 128 + mask loss * 2 ^ 144 + b2n fmt16 * 2 ^ 160)
  let pay := (List.range 128).flatMap (fun t => (List.range n).flatMap (fun i => beamBytes (if fmt16 then 16 else 8) (sam i t)))
  hdr ++ pay

/-- The oldest held frame of a TX lane. -/
def State.heldFrame (s : State) (lane : Nat) : Option HoldEntry :=
  s.pair.hold.find? (fun e => match e.stream with
    | .txg j => s.rf (oTxg j) 24 5 == lane
    | .ring _ => false)

/-- The entry that sends a frame, by the base its header carries. -/
def State.frameEntry (s : State) (f : List Byte) : Option Nat :=
  (List.range 64).find? (fun j => (s.txgBeams j).elim false (fun o => o.1 == field f 6 2 % 4096))

/-- A report covers entry j's frame of a sample index and channel (R352). -/
def State.txCovered (s : State) (j : Nat) (pos : Nat × Nat) : Bool :=
  (s.pair.reported.tx.find? (fun e => e.1 == j)).elim false (fun e =>
    decide (pos.1 < e.2.1) || (decide (pos.1 = e.2.1) && decide (pos.2 ≤ e.2.2)))

/-- Frames queued on the lanes, and whether the controllers serve what they take of the holding buffer (R275). -/
def State.queuedFrames (s : State) : List (List Byte) := s.beam.txq.flatMap (·.2)
def State.queuedServe (s : State) : Bool := s.holdServes (s.holdPlace (4160 * s.queuedFrames.length))

/-- BEAM frames queued on their lanes go to the holding buffer as a part stands down (R355), and wait in their queues where it does not
serve them; those of an entry disabled since go. -/
def State.holdQueued (s : State) : State :=
  if !s.queuedServe then s
  else
    (s.queuedFrames).foldl (fun s f => (s.frameEntry f).elim s (fun j =>
      let pos := (field f 8 6, field f 4 2)
      s.hold (.txg j) pos f (s.txCovered j pos))) (s.setBeam fun b => { b with txq := [] })

/-- A ready frame queued on its lane behind any the lane still holds from a takeover (R358), or dropped and counted (R138); a standby
holds it (R355). -/
def State.frameReady (s : State) (j lane blk chan : Nat) (f : List Byte) : State :=
  if s.emits ∧ (s.heldFrame lane).isSome then s.hold (.txg j) (128 * blk, chan) f false
  else if !s.emits ∧ s.role > 2 then
    let s := s.holdQueued
    s.hold (.txg j) (128 * blk, chan) f (s.txCovered j (128 * blk, chan))
  else
    let q := tget [] s.beam.txq lane
    if s.laneState (.tx lane) ≠ 4 ∨ q.length ≥ 16 then s.cnt (0xD08104 + 8 * lane) 1
    else s.setBeam fun b => { b with txq := tset [] b.txq lane (q ++ [f]) }

/-- The frames of a closed window. -/
def State.txFrames (s : State) (w : Window) (any_ : List Bool) (sam : Nat → Nat → Int × Int) : State :=
  (List.range 64).foldl (fun s j =>
    match s.txgBeams j with
    | none => s
    | some (base, n) =>
      if base / 64 ≠ w.m then s
      else
        let k := base % 64
        s.frameReady j (s.rf (oTxg j) 24 5) w.blk w.chan
          (beamFrame (s.rf 0xD0000C 0 12) w.chan base w.blk (decide (n = 8)) ((any_.drop k).take n) ((w.loss.drop k).take n)
            (fun i t => sam (k + i) t))) s

/-- Whether a Lantern engine that writes still takes beams of a block for a slot of a channel. -/
def State.capWants (s : State) (m c b : Nat) : Bool :=
  s.plc.cur.elim false (fun p => p.engines.any (fun e =>
    let v := s.ltn e.1
    inRange c e.2.desc.chFirst e.2.desc.chCount && e.2.desc.beams.any (fun x => x / 64 == m)
      && decide (1 ≤ v.state) && decide (v.state ≤ 3) && v.next.elim false (fun n => decide (n ≤ b))))

/-- A closed window requantised: TX samples and clamps, detection samples and clamps, by beam. -/
def State.requantAll (s : State) (w : Window) (e : Era) : List (List (Int × Int) × Nat × List (Int × Int) × Nat) :=
  (List.range 64).map (fun k =>
    let ys := (w.sums.drop (128 * k)).take 128
    let q := fun (n sh : Nat) =>
      let r := ys.map (requant n sh)
      (r.map (·.1), (r.filter (·.2)).length)
    let tx := (List.range 64).findSome? (fun j => (s.txgBeams j).bind (fun o =>
      if o.1 ≤ 64 * w.m + k ∧ 64 * w.m + k < o.1 + o.2 then some (if o.2 = 8 then 16 else 8) else none))
    match tx with
    | some 8 => let r := q 8 (e.tx k); (r.1, r.2, r.1, r.2)
    | some n => let r := q n (e.tx k); let d := q 8 (e.det k); (r.1, r.2, d.1, d.2)
    | none => let d := q 8 (e.det k); ([], 0, d.1, d.2))

/-- The detection samples of a closed window handed to its group and to the captures that take them. -/
def State.handDet (s : State) (w : Window) (d : DetWin) : State :=
  let g := s.grp w.m
  let c := tget DetChan.init g.chans w.chan
  let s := if g.active ∨ g.restarts ≠ [] then s.setGrp w.m { g with chans := tset DetChan.init g.chans w.chan { c with wins := c.wins ++ [d] } }
    else s
  if s.capWants w.m w.chan w.blk then s.setBeam fun b => { b with caps := b.caps ++ [(w.m, w.chan, d)] } else s

/-- A window closes. An uncorrectable error in it makes every sample 0 with a loss (R284). -/
def State.windowClose (s : State) (w : Window) (slice : Nat) (up : Option Upset) : State :=
  let b := s.block w.m
  match b.eraAt (128 * w.blk) with
  | none => s.setBeam fun q => { q with windows := q.windows.filter (fun y => !windowIs w.m w.chan w.blk y) }
  | some e =>
    let (bad, s) := match up with
      | some u =>
        if u.cls = 1 ∧ u.unit = slice then
          let (l, s) := (s.upset up).scan 1 slice u.addr (u.addr + 1) 12 0 false
          (!l.isEmpty, (s.clean 1 slice u.addr (u.addr + 1)).excludeCheck)
        else (false, s.upset up)
      | none => (false, s)
    let s := s.setBeam fun q => { q with windows := q.windows.filter (fun y => !windowIs w.m w.chan w.blk y) }
    let w := if bad then { w with sums := List.replicate 8192 (0, 0), loss := List.replicate 64 true, any_ := List.replicate 64 false } else w
    let s := if b.txEra = some e.from_ then s else (s.setBlock w.m { s.block w.m with txEra := some e.from_ }).txgTake w.m
    let rs := s.requantAll w e
    let s := (List.zip (List.range 64) rs).foldl (fun s q =>
      let o := 0xD01004 + 0x10 * (64 * w.m + q.1)
      (s.cnt o q.2.2.1).cnt (o + 4) q.2.2.2.2) s
    let s := s.txFrames w w.any_ (fun i t => ((rs.getD i ([], 0, [], 0)).1).getD t (0, 0))
    s.handDet w ⟨w.blk, rs.flatMap (·.2.2.1), w.loss⟩

/-- The controllers serve what the frames of a block's window take of the holding buffer, where the part holds them, with those that
still wait in their queues (R275, R355). -/
def State.framesServe (s : State) (m : Nat) : Bool :=
  let js := (List.range 64).filter (fun j => (s.txgBeams j).elim false (fun o => o.1 / 64 == m)
    && (!s.emits || (s.heldFrame (s.rf (oTxg j) 24 5)).isSome))
  s.holdServes (s.holdPlace (4160 * (js.length + if s.emits then 0 else s.queuedFrames.length)))

/-- BEAM_WINDOW_CLOSE (R126, R127): every input block of the list has contributed, and the window is the block's next. -/
def execBeamWindowClose (m : Nat) (up : Option Upset) (s : State) : Host.Outcome State Fault Refusal :=
  match s.placedBlock m with
  | some p =>
    match s.closable m (p.desc.n / 64) p.desc.c3 with
    | some w => gate (s.up && s.framesServe m) s fun s => s.windowClose w p.slice up
    | none => .next s
  | none => .next s

/-! ### The settings (R134), and frames sent (R138) -/

/-- GLZ_SETTING_WRITE (R134): which writes take effect while blocks are placed. -/
def execGlzSettingWrite (off : Nat) (v : W32) (s : State) : Host.Outcome State Fault Refusal :=
  let placed := fun (m : Nat) => (s.placedBlock m).isSome
  let anyPlaced := s.plc.cur.elim false (fun p => !p.blocks.isEmpty)
  let f0 := off = 0xD00000 || off = 0xD00004 || off = 0xD00008
  let blk := decide (0xD00100 ≤ off) && decide (off < 0xD00400) && decide (off % 0x20 = 0)
  let beam := decide (0xD01000 ≤ off) && decide (off < 0xD07000) && decide (off % 0x10 = 0)
  let grp := decide (0xD80000 ≤ off) && decide (off < 0xD80180)
  writeGate (f0 || blk || beam || grp || decide (off = 0xD0000C)) s fun s =>
    if f0 && anyPlaced || blk && placed ((off - 0xD00100) / 0x20) || beam && placed ((off - 0xD01000) / 0x10 / 64) then s
    else s.plainWrite off v

/-- A frame sent on lane n as its 518 blocks, and emitted for its entry. -/
def State.sendFrame (s : State) (n : Nat) (f : List Byte) : State :=
  let s := s.lineTo (.tx n) (frameBlocks f)
  let s := (s.setBeam fun b => { b with sent := (n, frameBlocks f) :: b.sent }).cnt (0xD08100 + 8 * n) 1
  match s.frameEntry f with
  | some j => s.setPair fun p => { p with emitted := { p.emitted with
      tx := p.emitted.tx.filter (fun e => e.1 ≠ j) ++ [(j, field f 8 6, field f 4 2)] } }
  | none => s

/-- TX_BEAM_FRAME_SENT (R137, R138): the oldest frame of lane n leaves, one held from a takeover first. A lane that sends a PRBS
pattern sends no frames (R59). DESIGN CHOICE (log 94): frames ready meanwhile wait in its queue, and are dropped where it is full. -/
def execTxBeamFrameSent (n : Nat) (s : State) : Host.Outcome State Fault Refusal :=
  gate (s.up && decide (n < s.nTx) && s.emits && decide (s.laneState (.tx n) = 4)
      && decide (s.lnMode (.tx n) = 0)) s fun s =>
    match s.heldFrame n, tget [] s.beam.txq n with
    | some e, _ =>
      if s.holdServes e.blocks then
        let (f, s) := s.heldRead e
        (s.dropHeld e).sendFrame n f
      else s
    | none, f :: t => (s.setBeam fun b => { b with txq := tset [] b.txq n t }).sendFrame n f
    | none, [] => s

end Sys2Proof.Machine
end

