-- ==== Sys2Proof/Machine/Detect.lean ====
section
/-! DEFINITION. Detection groups: restarts, outputs, reductions, DETECT records, and the samples that Lantern watches (R140 to
R147, R150 to R152). -/

namespace Sys2Proof.Machine

/-! ### Responses (R141 to R144) -/

/-- Stages, stage length and span of a response for L. -/
def respStages (code : Nat) : Nat := code / 2 + 1
def respM (code l : Nat) : Nat := if code % 2 = 1 then l / (2 * respStages code) else l / respStages code
def respSpan (code l : Nat) : Nat := if code % 2 = 1 then l / 2 else l

/-- Sums of the prefixes of a list, the whole last. -/
def prefixSums : Nat → List Nat → List Nat
  | _, [] => []
  | a, x :: t => (a + x) :: prefixSums (a + x) t

/-- A list convolved with m ones, and the taps of a response. -/
def boxConv (m : Nat) (l : List Nat) : List Nat :=
  let ps := prefixSums 0 (l ++ List.replicate (m - 1) 0)
  List.zipWith (· - ·) ps (List.replicate m 0 ++ ps)
def respTaps (k m : Nat) : List Nat :=
  match k with
  | 0 => [1]
  | n + 1 => boxConv m (respTaps n m)

/-- Response, L and D of a group's settings (R143): a preset, or RESP, LEN and DEC; none for D where it is no whole number. -/
def detSettings (ctl : W32) : Nat × Nat × Option Nat :=
  match fld ctl 24 3 with
  | 1 => (0, 8, some 2)
  | 2 => (2, 64, some 16)
  | 3 => (0, 1024, some 512)
  | 4 => (0, 16384, some 16384)
  | _ =>
    let l := fld ctl 0 17
    let d := match fld ctl 22 2 with
      | 1 => 2
      | 2 => 4
      | _ => 1
    (fld ctl 27 3, l, if l % d = 0 then some (l / d) else none)

def oDet (g : Nat) : Nat := 0xD80000 + 0x10 * g
def oDetStat (g : Nat) : Nat := 0xD80200 + 4 * g

/-- Why a group cannot start (R147): 0 none. DESIGN CHOICE (log 89): where several checks fail, the lowest code. -/
def State.detCause (s : State) (g : Nat) : Nat :=
  let ctl := s.reg (oDet g)
  let (r, l, d) := detSettings ctl
  let ring := s.rf (oDet g + 4) 0 15
  if !(decide (ring < s.nRings) && s.rDrop ring && decide (s.rFmt ring = 1)) then 1
  else if l = 0 ∨ l > 65536 then 2
  else if d.isNone then 3
  else if respM r l = 0 ∨ (r % 2 = 1 ∧ l % 2 = 1) then 4
  else if (s.placedBlock g).isNone then 5
  else 0

/-! ### Lantern's samples (R150 to R152) -/

def oEng (e : Nat) : Nat := 0xE00000 + 0x10000 * e
def oSlot (e i : Nat) : Nat := 0xE01000 + 0x10000 * e + 0x100 * i

def LtnSlot.unit (v : LtnSlot) (u : Nat) : LtnUnit := if u = 0 then v.u0 else v.u1
def LtnSlot.setUnit (v : LtnSlot) (u : Nat) (x : LtnUnit) : LtnSlot := if u = 0 then { v with u0 := x } else { v with u1 := x }
/-- A unit's stream word and condition kind. -/
def State.unitSrc (s : State) (e i u : Nat) : W32 := s.reg (oSlot e i + 0x10 + 4 * u)
def State.unitKind (s : State) (e i u : Nat) : Nat := s.rf (oSlot e i + 0x18 + 4 * u) 29 3

/-- A sample arrives at a unit: one without a loss restarts TIMEOUT's timer (R153). -/
def LtnUnit.arrive (v : LtnUnit) (kind now : Nat) (x : LtnSample) : LtnUnit :=
  let v := { v with queue := v.queue ++ [x] }
  if kind = 3 ∧ !x.restart ∧ !x.loss then { v with since := now, met := false } else v

/-- A sample put in the queues of the units of armed slots that watch it; `f` gives a unit's sample by its stream word. -/
def State.pushSamples (s : State) (g : Nat) (f : W32 → Option LtnSample) : State :=
  s.slots.foldl (fun s q =>
    let e := q.1 / 16
    let i := q.1 % 16
    if !q.2.armed then s
    else (List.range 2).foldl (fun s u =>
      let w := s.unitSrc e i u
      if s.unitKind e i u = 0 ∨ fld w 26 5 ≠ g then s
      else match f w with
        | some x =>
          let v := s.slot q.1
          s.setSlot q.1 (v.setUnit u ((v.unit u).arrive (s.unitKind e i u) s.time.ticks x))
        | none => s) s) s

/-! ### Restarts (R144, R147) -/

/-- The next output of a channel: whether it is coarse, its number, and its last sample. -/
def DetGrp.next (g : DetGrp) (c : DetChan) : Bool × Nat × Nat :=
  let a := divUp g.len 16
  let first := g.nr + respSpan g.resp g.len - 1
  let cl := g.nr + (c.coarse + 1) * a - 1
  if c.fine = 0 ∧ cl < first then (true, c.coarse, cl) else (false, c.fine, first + c.fine * g.dec)

/-- Channels of a group, by its block. -/
def State.grpChans (s : State) (g : Nat) : List Nat :=
  (s.placedBlock g).elim [] (fun p => (List.range p.desc.chCount).map (p.desc.chFirst + ·))

/-- No output of the settings before ends below `nr`. -/
def State.olderDone (s : State) (g nr : Nat) : Bool :=
  let v := s.grp g
  !v.active || (s.grpChans g).all (fun c => decide (nr ≤ (v.next (tget DetChan.init v.chans c)).2.2))

def State.detRestart (s : State) (g nr : Nat) (rest : List Nat) : State :=
  let v := s.grp g
  let ctl := s.reg (oDet g)
  let (r, l, d) := detSettings ctl
  let cause := s.detCause g
  let on := bit ctl 31 && decide (cause = 0)
  let err := bit ctl 31 && decide (cause ≠ 0)
  let chans := if on ∨ rest ≠ [] then v.chans.map (fun e => (e.1, { DetChan.init with wins := e.2.wins.filter (fun w => decide (nr ≤ 128 * w.blk)) }))
    else []
  let s := s.setGrp g
    { active := on, nr, stokes := bit ctl 30, resp := r, len := l, dec := d.getD 1, redq := fld ctl 20 2
      mask := s.reg64 (oDet g + 8), ring := s.rf (oDet g + 4) 0 15, restarts := rest, chans }
  let s := s.setReg (oDetStat g) (lo32 (2 ^ 31 * b2n on + 2 ^ 30 * b2n err + (if err then cause else 0)))
  s.pushSamples g (fun _ => some ⟨true, 0, 0, false, 0, none⟩)

/-- The group's samples have reached a restart's index: a window from it on has come. -/
def State.reached (s : State) (g nr : Nat) : Bool :=
  (s.grp g).chans.any (fun e => e.2.wins.any (fun w => decide (nr ≤ 128 * w.blk)))

/-- DET_GROUP_RESTART (R144): every output before the restart's index is out, and the samples have come to it. The group's ring is
looked up (R284). -/
def execDetGroupRestart (g : Nat) (s : State) : Host.Outcome State Fault Refusal :=
  match (s.grp g).restarts with
  | nr :: rest => gate (s.up && s.olderDone g nr && s.reached g nr) s fun s =>
      (s.rLook (s.rf (oDet g + 4) 0 15)).detRestart g nr rest
  | [] => .next s

/-! ### Outputs (R142, R145, R146) -/

/-- The samples of beam k from index `a` on, `n` of them, absent ones 0; and whether one carries a loss. -/
def beamSpan (wins : List DetWin) (k a n : Nat) : List (Int × Int) × Bool :=
  let blks := (List.range ((a + n - 1) / 128 + 1 - a / 128)).map (a / 128 + ·)
  let win := fun (b : Nat) => wins.find? (fun w => w.blk == b)
  let xs := blks.flatMap (fun b => (win b).elim (List.replicate 128 (0, 0)) (fun w => (w.samples.drop (128 * k)).take 128))
  ((xs.drop (a % 128)).take n, blks.any (fun b => (win b).elim true (fun w => w.loss.getD k false)))

/-- One weighted sum of a stream's quantity over its span, clamped, with whether it was clamped. -/
def detWord (taps : List Nat) (unsigned : Bool) (xs : List Int) : Int × Bool :=
  clampWord unsigned ((List.zipWith (fun (h : Nat) (x : Int) => h * x) taps xs.reverse).sum)

/-- An enabled stream of one output: its number, its words with their clamps, and its loss. -/
structure DetStream where
  k : Nat
  words : List (Int × Bool)
  loss : Bool
  deriving DecidableEq, Repr

def DetGrp.streams (g : DetGrp) (taps : List Nat) (wins : List DetWin) (a n : Nat) : List DetStream :=
  if g.stokes then
    ((List.range 32).filter (fun k => g.mask.testBit k)).map (fun k =>
      let (x, lx) := beamSpan wins (2 * k) a n
      let (y, ly) := beamSpan wins (2 * k + 1) a n
      ⟨k, (List.range 4).map (fun q => detWord taps (q == 0) (List.zipWith (Sys2Proof.Machine.stokes q) x y)), lx || ly⟩)
  else
    ((List.range 64).filter (fun k => g.mask.testBit k)).map (fun k =>
      let (x, l) := beamSpan wins k a n
      ⟨k, [detWord taps true (x.map power)], l⟩)

/-- The beam a stream stands for, in group g. -/
def DetGrp.beamOf (v : DetGrp) (g k : Nat) : Nat := if v.stokes then 64 * g + 2 * k else 64 * g + k

/-- The first of a list of (stream, word) that no other exceeds. -/
def best (gt : Int → Int → Bool) : List (Nat × Int) → Option (Nat × Int)
  | [] => none
  | x :: t => match best gt t with
    | none => some x
    | some y => if gt y.2 x.2 then some y else some x

/-- The reduction of an output: maximum and minimum with their winners, and the sum (R50, R145). -/
def DetGrp.reduce (v : DetGrp) (st : List DetStream) : Option (Nat × Int) × Option (Nat × Int) × Int :=
  let q := if v.stokes then v.redq else 0
  let l := st.map (fun x => (x.k, (x.words.getD q (0, false)).1))
  (best (fun a b => decide (b < a)) l, best (fun a b => decide (a < b)) l, (l.map (·.2)).sum)

/-- The 64-bit entry of a maximum or minimum. -/
def DetGrp.entry (v : DetGrp) (g : Nat) (x : Nat × Int) : Nat := v.beamOf g x.1 * 2 ^ 32 + wrapI 32 x.2

/-- The sample a unit sees of an output (R150 to R152). DESIGN CHOICE (log 105): K of a STOKES group counts modulo its 32 pairs (R165). -/
def DetGrp.sample (v : DetGrp) (g chan q last : Nat) (st : List DetStream) (loss : Bool) (mx mn : Option (Nat × Int))
    (sum : Int) (w : W32) : Option LtnSample :=
  if fld w 0 16 ≠ chan then none
  else if bit w 31 then
    match fld w 24 2 with
    | 0 => mx.map (fun x => ⟨false, q, last, loss, x.2, some (v.beamOf g x.1)⟩)
    | 1 => mn.map (fun x => ⟨false, q, last, loss, x.2, some (v.beamOf g x.1)⟩)
    | _ => some ⟨false, q, last, loss, sum, none⟩
  else
    let k := if v.stokes then fld w 18 6 % 32 else fld w 18 6
    (st.find? (fun x => x.k == k)).bind (fun x => (x.words[fld w 24 2]?).map (fun y =>
      ⟨false, q, last, x.loss, y.1, some (v.beamOf g k)⟩))

/-- Bytes 16 on of a DETECT record. -/
def DetGrp.body (v : DetGrp) (last chan flags resp span w mx mn : Nat) (sum : Int) (st : List DetStream) : List Byte :=
  let words := fun (k q : Nat) => leBytes 4 ((st.find? (fun x => x.k == k)).elim 0 (fun x => wrapI 32 (x.words.getD q (0, false)).1))
  leBytes 6 last ++ leBytes 2 chan ++ leBytes 1 flags ++ leBytes 1 resp ++ leBytes 2 0 ++ leBytes 4 span ++ leBytes 8 w
    ++ leBytes 8 mx ++ leBytes 8 mn ++ leBytes 8 (wrapI 64 sum)
    ++ (if v.stokes then (List.range 32).flatMap (fun k => (List.range 4).flatMap (words k)) else (List.range 64).flatMap (fun k => words k 0))

/-- The maximum and minimum entries; with no enabled stream the manual gives the winner, of 1,536, and its word no value, and
bits 63:43 are 0 (R50). -/
def State.redEntries (s : State) (v : DetGrp) (g : Nat) (mx mn : Option (Nat × Int)) : Nat × Nat × State :=
  match mx, mn with
  | some a, some b => (v.entry g a, v.entry g b, s)
  | _, _ =>
    let (a, s) := s.free
    let (b, s) := s.free
    (a.toNat % 2 ^ 32 + 2 ^ 32 * (a.toNat / 2 ^ 32 % 1536), b.toNat % 2 ^ 32 + 2 ^ 32 * (b.toNat / 2 ^ 32 % 1536), s)

/-- The output is out: the channel's next one follows, and windows no output needs any more are gone. -/
def DetGrp.step (v : DetGrp) (c : DetChan) (coarse : Bool) : DetChan :=
  let c := { c with any_ := true, coarse := if coarse then c.coarse + 1 else c.coarse, fine := if coarse then c.fine else c.fine + 1 }
  let need := v.nr + c.fine * v.dec
  { c with wins := c.wins.filter (fun w => decide (need < 128 * (w.blk + 1))) }

def State.detOutput (s : State) (g chan : Nat) (coarse : Bool) (n last : Nat) : State :=
  let v := s.grp g
  let c := tget DetChan.init v.chans chan
  let k := respStages v.resp
  let m := respM v.resp v.len
  let span := if coarse then divUp v.len 16 else respSpan v.resp v.len
  let taps := if coarse then List.replicate span 1 else respTaps k m
  let st := v.streams taps c.wins (last + 1 - span) span
  let loss := st.any (·.loss)
  let dsat := st.any (fun x => x.words.any (·.2))
  let (mx, mn, sum) := v.reduce st
  let (emx, emn, s0) := s.redEntries v g mx mn
  let flags := b2n coarse + 2 * b2n v.stokes + 4 * b2n loss + 8 * b2n dsat + 16 * b2n (!c.any_)
  let len := if v.stokes then 9 else 5
  let body := v.body last chan flags ((if coarse then 0 else v.resp) + 16 * v.redq) span (if coarse then span else m ^ k) emx emn sum st
  let mk := fun rs cl => leBytes 1 0x10 ++ leBytes 1 g ++ leBytes 2 len ++ leBytes 4 n ++ leBytes 4 rs ++ leBytes 2 cl ++ leBytes 2 0 ++ body
  let (o, s1) := s0.offer v.ring (.detect g) true len mk
  if o = .held then s1
  else
    let s := st.foldl (fun s x => s.cnt (0xD0100C + 0x10 * v.beamOf g x.k) (x.words.filter (·.2)).length) s1
    let s := s.setGrp g { v with chans := tset DetChan.init v.chans chan (v.step c coarse) }
    if coarse then s else s.pushSamples g (v.sample g chan n last st loss mx mn sum)

/-- DETECT_OUTPUT (R142 to R147): the channel's next output, which is the group's next in order of LAST and then of channel,
and whose last sample has been formed. -/
def execDetectOutput (g chan : Nat) (s : State) : Host.Outcome State Fault Refusal :=
  let v := s.grp g
  let c := tget DetChan.init v.chans chan
  let (coarse, n, last) := v.next c
  gate (s.up && v.active && (s.grpChans g).contains chan && v.restarts.head?.elim true (fun r => decide (last < r))
      && c.wins.any (fun w => decide (last / 128 ≤ w.blk))
      && (s.grpChans g).all (fun x => x == chan || (let l := (v.next (tget DetChan.init v.chans x)).2.2
          decide (last < l) || (decide (last = l) && decide (chan < x))))) s fun s =>
    s.detOutput g chan coarse n last

end Sys2Proof.Machine
end

