-- ==== Sys2Proof/Machine/Lantern.lean ====
section
/-! DEFINITION. Lantern: condition units, the slot table, trigger requests, capture buffers, freezing and capture records (R150 to
R164, R351). -/

namespace Sys2Proof.Machine

/-! ### Conditions (R153) -/

/-- A unit's parameters: H, Lo, w_min, w_max and k. -/
structure LtnPar where
  kind : Nat
  hi : Int
  lo : Int
  wmin : Nat
  wmax : Nat
  k : Nat
  deriving DecidableEq, Repr

def State.unitPar (s : State) (e i u : Nat) : LtnPar :=
  let o := oSlot e i
  { kind := s.unitKind e i u, hi := signI 64 (s.reg64 (o + 0x30 + 8 * u)), lo := signI 64 (s.reg64 (o + 0x40 + 8 * u))
    wmin := s.rf (o + 0x20 + 4 * u) 0 16, wmax := s.rf (o + 0x20 + 4 * u) 16 16, k := s.rf (o + 0x18 + 4 * u) 16 8 }

/-- TIMEOUT's t, in ns. -/
def State.unitTimeout (s : State) (e i u : Nat) : Nat := (s.reg (oSlot e i + 0x30 + 8 * u)).toNat

/-- A sample with a loss, or a restart: runs end unmet, and SLEW's history empties (R152). -/
def LtnUnit.lose (v : LtnUnit) : LtnUnit := { v with run := none, hist := [], slew := false }

/-- The run of PULSE or RUNT above `th` after a sample, and a run that ended there. -/
def runStep (th hi : Int) (run : Option (Nat × Bool)) (x : Int) : Option (Nat × Bool) × Option (Nat × Bool) :=
  match run with
  | none => (if x > th then some (1, decide (x > hi)) else none, none)
  | some (w, ex) => if x > th then (some (w + 1, ex || decide (x > hi)), none) else (none, some (w, ex))

/-- A sample without a loss evaluated: the unit after it, and whether its condition is met. TIMEOUT's timer has started again as
the sample arrived. -/
def LtnUnit.eval (v : LtnUnit) (p : LtnPar) (x : Int) : LtnUnit × Bool :=
  match p.kind with
  | 1 =>
    let (r, ended) := runStep p.hi p.hi v.run x
    ({ v with run := r }, ended.elim false (fun q => decide (p.wmin ≤ q.1) && decide (q.1 ≤ p.wmax)))
  | 2 =>
    let (r, ended) := runStep p.lo p.hi v.run x
    ({ v with run := r }, ended.elim false (fun q => !q.2 && decide (q.1 ≤ p.wmax)))
  | 4 =>
    let t := (v.hist[p.k - 1]?).elim false (fun y => decide (x - y > p.hi))
    ({ v with hist := (x :: v.hist).take 255, slew := t }, t && !v.slew)
  | _ => (v, false)

/-! ### Engines (R156 to R160) -/

def oLtnCnt (e k : Nat) : Nat := oEng e + 0x80 + 4 * k

/-- Slots of an engine that are armed. -/
def State.anyArmed (s : State) (e : Nat) : Bool := (List.range 16).any (fun i => (s.slot (16 * e + i)).armed)

/-- The next block index at which the engine can begin: in every channel of its set the next slot to be released. -/
def State.engStart (s : State) (d : EngDesc) : Nat :=
  ((List.range d.chCount).map (fun i =>
    let r := s.ring (d.chFirst + i)
    match r.slots.find? (fun x => !x.released) with
    | some x => x.blk
    | none => r.base.getD 0 + r.slots.length)).foldl max 0

/-- The first free buffer from `b` on, in increasing number modulo N_B. -/
def freeBuffer (d : EngDesc) (frozen : List Nat) (b : Nat) : Option Nat :=
  ((List.range d.nb).map (fun i => (b + i) % d.nb)).find? (fun x => !frozen.contains x)

/-- Dead time in ns of a number of ticks. -/
def ticksNs (t : Nat) : Nat := t * 8 / 5

/-- An engine begins to fill a free buffer from buffer `b` on, or waits for one; while it waits it reads no slot. DESIGN CHOICE (log 105):
an ARM from IDLE that finds every buffer frozen waits as after a freeze, counted and published alike (R159). -/
def State.engFill (s : State) (e b next : Nat) (d : EngDesc) : State :=
  let v := s.ltn e
  match freeBuffer d v.frozen b with
  | some x => s.setLtn e { v with state := 1, cur := x, next := some next, firstBlk := next, count := 0 }
  | none =>
    (((s.setLtn e { v with state := 4, next := none, count := 0 }).cnt (oLtnCnt e 4) 1).publish (66 + 4 * e)).unread (1000 + e)
      (fun _ _ => true)

/-- An engine that no armed slot holds and whose capture is complete goes to IDLE; a standby waits for the item. -/
def State.engIdle (s : State) (e : Nat) : State :=
  let v := s.ltn e
  (s.setLtn e { v with state := 0, next := none, count := 0 }).unread (1000 + e) (fun _ _ => true)
def State.engRest (s : State) (e : Nat) : State :=
  let v := s.ltn e
  if s.anyArmed e ∨ s.standby then s
  else if v.state = 1 ∨ v.state = 2 ∨ (v.state = 4 ∧ v.toWrite.isEmpty) then (s.engIdle e).decide_ (.idle e)
  else s

/-! ### Blocks (R157, R161) -/

/-- A summary of up to 128 quantities at their positions: maximum and minimum with their places, count, sum, sum of squares. -/
structure Summ where
  max_ : Nat
  min_ : Nat
  maxAt : Nat
  minAt : Nat
  count : Nat
  sum : Nat
  sumsq : Nat
  deriving DecidableEq, Repr

/-- The summary that a combination begins from; where its count stays 0 an entry of the table shows neither place. -/
def Summ.empty (low : Nat) : Summ := ⟨0, low, 0, 0, 0, 0, 0⟩
/-- The summary of a blanked input of a block: MAX 0, MIN 0xFFFF, COUNT 0, and places that the manual leaves open (log 103). -/
def Summ.blank (c blk i : Nat) : Summ :=
  { Summ.empty 0xFFFF with maxAt := (Config.blankPos c blk i 0).toNat, minAt := (Config.blankPos c blk i 1).toNat }
def Summ.add (a : Summ) (at_ q : Nat) : Summ :=
  { max_ := if a.count = 0 ∨ a.max_ < q then q else a.max_, maxAt := if a.count = 0 ∨ a.max_ < q then at_ else a.maxAt
    min_ := if a.count = 0 ∨ q < a.min_ then q else a.min_, minAt := if a.count = 0 ∨ q < a.min_ then at_ else a.minAt
    count := a.count + 1, sum := a.sum + q, sumsq := a.sumsq + q * q }
def summOf (low : Nat) (l : List Nat) : Summ := (List.zip (List.range l.length) l).foldl (fun a q => a.add q.1 q.2) (Summ.empty low)

/-- The 16 bytes of a block's summary. -/
def Summ.bytes (a : Summ) : List Byte :=
  leBytes 2 a.max_ ++ leBytes 2 a.min_ ++ leBytes 1 a.maxAt ++ leBytes 1 a.minAt ++ leBytes 1 a.count ++ leBytes 4 a.sum ++ leBytes 5 a.sumsq

/-- A summary as a block holds it. -/
def Summ.ofBytes (b : List Byte) : Summ :=
  ⟨field b 0 2, field b 2 2, field b 4 1, field b 5 1, field b 6 1, field b 7 4, field b 11 5⟩

/-- The beam samples captured for beam `b` in a slot, and whether they carry a loss; none where there are none. -/
def State.capBeam (s : State) (b c blk : Nat) : Option (List (Int × Int) × Bool) :=
  (s.beam.caps.find? (fun q => q.1 == b / 64 && q.2.1 == c && q.2.2.blk == blk)).map (fun q =>
    ((q.2.2.samples.drop (128 * (b % 64))).take 128, q.2.2.loss.getD (b % 64) false))

/-- The raw part of an input block: its payload as received, and for a blanked block bytes that the manual leaves open. -/
def rawBlock (c : Nat) (x : Slot) (c3 : Bool) (first : Nat) : List Byte :=
  let n := if c3 then 1536 else 3072
  match x.block first with
  | .stored _ _ p => padTo n p
  | _ => (List.range n).map (Config.blankRaw c x.blk (first / 16))

/-- A capture block (R157). -/
def State.capBlock (s : State) (d : EngDesc) (x : Slot) (c : Nat) : List Byte :=
  let ins := (List.range (d.inCount / 16)).map (fun i => d.inFirst + 16 * i)
  let beams := d.beams.map (fun b => s.capBeam b c x.blk)
  let lossBits := (List.zip (List.range 16) beams).foldl (fun a q => if q.2.elim true (·.2) then a + 2 ^ q.1 else a) 0
  let valid := (List.zip (List.range 256) ins).foldl (fun a q => if x.isBlank q.2 then a else a + 2 ^ q.1) 0
  let hdr := leBytes 6 (128 * x.blk) ++ leBytes 2 c ++ leBytes 2 (d.inCount / 16) ++ leBytes 2 lossBits ++ leBytes 4 0
    ++ leBytes 32 valid ++ List.replicate 16 0
  let raw := ins.flatMap (rawBlock c x d.c3)
  let bs := beams.flatMap (fun q => q.elim (List.replicate 256 0) (fun y => y.1.flatMap (beamBytes 8)))
  let sin := (List.range d.inCount).flatMap (fun i =>
    ((x.valid? (d.inFirst + i)).elim (Summ.blank c x.blk (d.inFirst + i)) (fun p =>
      summOf 0xFFFF ((samplesOf d.c3 p (d.inFirst + i)).map (fun v => (power v).toNat)))).bytes)
  let sb := beams.flatMap (fun q => (summOf 0xFFFF (q.elim (List.replicate 128 0) (fun y => y.1.map (fun v => (power v).toNat)))).bytes)
  padTo d.blockBytes (hdr ++ raw ++ bs ++ sin ++ sb)

/-- Device address of block index k, channel position i, of the buffer b of an engine. -/
def EngPlace.addr (p : EngPlace) (b k i : Nat) : Nat :=
  p.base + b * p.stride + ((k % p.desc.nk) * p.desc.chCount + i) * p.desc.blockBytes
def EngPlace.stats (p : EngPlace) (b : Nat) : Nat := p.base + b * p.stride + p.desc.nk * p.desc.chCount * p.desc.blockBytes

/-! ### Freezing (R160, R161) -/

/-- Two summaries of a stream combined, the second `b` from a later block of first index `x`; the first carries sample indices. -/
def Summ.join (a b : Summ) (x : Nat) : Summ :=
  if b.count = 0 then a
  else
    { max_ := if a.count = 0 ∨ a.max_ < b.max_ then b.max_ else a.max_
      maxAt := if a.count = 0 ∨ a.max_ < b.max_ then x + b.maxAt else a.maxAt
      min_ := if a.count = 0 ∨ b.min_ < a.min_ then b.min_ else a.min_
      minAt := if a.count = 0 ∨ b.min_ < a.min_ then x + b.minAt else a.minAt
      count := a.count + b.count, sum := a.sum + b.sum, sumsq := a.sumsq + b.sumsq }

/-- An entry of the window statistics table. -/
def Summ.entry (a : Summ) : List Byte :=
  let idx := fun (v : Nat) => leBytes 8 (if a.count = 0 then 2 ^ 64 - 1 else v)
  leBytes 4 a.max_ ++ leBytes 4 (if a.count = 0 then 2 ^ 32 - 1 else a.min_) ++ idx a.maxAt ++ idx a.minAt ++ leBytes 4 a.count
    ++ leBytes 4 0 ++ leBytes 8 a.sum ++ leBytes 8 a.sumsq

/-- Bytes of device memory as a unit reads them: those of a line with an uncorrectable error are open (R284). -/
def State.hbmOpen (s : State) (a n access ctx : Nat) : List Byte × State :=
  let (bad, b, s) := s.hbmRead a n access ctx
  if bad.isEmpty then (b, s)
  else
    let (fr, s) := s.freeBytes (divUp n 8)
    ((List.range n).map (fun i => if bad.contains (lineOf (a + i)) then fr.getD i 0 else b.getD i 0), s)

/-- What the combination reads of every block of a buffer, in the order of their addresses: its header, and its summaries (R161, R277,
R283, R284). DESIGN CHOICE (log 103). -/
def State.statsRead (s : State) (p : EngPlace) (b : Nat) : List (List Byte × List Byte) × State :=
  let d := p.desc
  (List.range (d.nk * d.chCount)).foldl (fun (acc : List (List Byte × List Byte) × State) n =>
    let a := p.base + b * p.stride + n * d.blockBytes
    let (h, s) := acc.2.hbmOpen a 48 12 0
    let (t, s) := s.hbmOpen (a + 64 + d.rawBytes + 256 * d.beams.length) (16 * d.streams) 12 0
    (acc.1 ++ [(h, t)], s)) ([], s)

/-- The window statistics table of what was read of a buffer whose window begins at block `k0`. -/
def EngDesc.statsTable (d : EngDesc) (rd : List (List Byte × List Byte)) (k0 : Nat) : List Byte :=
  let summ := fun (k i j : Nat) => Summ.ofBytes (((rd.getD (k % d.nk * d.chCount + i) ([], [])).2.drop (16 * j)).take 16)
  (List.range d.chCount).flatMap (fun i => (List.range d.streams).flatMap (fun j =>
    ((List.range d.nk).foldl (fun a n => Summ.join a (summ (k0 + n) i j) (128 * (k0 + n))) (Summ.empty 0)).entry))

/-- Blanked raw input blocks of a window, and whether a block of it carries a blank or a beam loss. -/
def EngDesc.windowLoss (d : EngDesc) (rd : List (List Byte × List Byte)) : Nat × Bool :=
  let blanks := (rd.map (fun h => ((List.range (d.inCount / 16)).filter (fun i => !(field h.1 16 32).testBit i)).length)).sum
  (blanks, decide (blanks ≠ 0) || rd.any (fun h => decide (field h.1 10 2 ≠ 0)))

/-- The controllers serve the engine's current buffer with its table (R22, R275). -/
def State.freezeServes (s : State) (e : Nat) (p : EngPlace) : Bool :=
  s.hbmServes (p.base + (s.ltn e).cur * p.stride) p.desc.bufBytes

/-- The first block of a capture's window. -/
def LtnCap.first' (c : LtnCap) (d : EngDesc) : Nat := c.t / 128 - d.pre

/-- Every block of a capture's window has been written. -/
def LtnCap.whole (c : LtnCap) (d : EngDesc) (next : Nat) : Bool := decide (c.first' d + d.nk ≤ next)

/-- The buffer freezes, its statistics are combined, and writing moves on. A freeze whose item has come has its times from it. -/
def State.engFreeze (s : State) (e : Nat) (p : EngPlace) (c : LtnCap) (next : Nat) : State :=
  let v := s.ltn e
  let k0 := c.first' p.desc
  let (rd, t) := s.statsRead p v.cur
  let (n, l) := p.desc.windowLoss rd
  let c := { c with freezeNs := if c.known then c.freezeNs else s.ns, known := true, loss := l, lossBlocks := n, missed := decide (k0 < v.firstBlk) }
  let s := (t.hbmWrite (p.stats v.cur) (p.desc.statsTable rd k0)).cnt (oLtnCnt e 0) 1
  let s := s.setLtn e { v with frozen := sortUp (v.frozen ++ [v.cur]), cap := none, toWrite := v.toWrite ++ [c], fromIdle := false }
  let s := s.decide_ (.freeze e s.ns (lo32 (min c.prevDead (2 ^ 32 - 1))) (lo32 c.prevIgn))
  ((s.engFill e (v.cur + 1) next p.desc)).engRest e

/-! ### Requests (R155, R159, R160) -/

/-- A request accepted: the window is fixed and the dead time starts (R160). -/
def State.engAccept (s : State) (e i u : Nat) (xe : Bool) (t : Nat) (beam : Option Nat) (value : Int) (ns : W32) : State :=
  let v := s.ltn e
  let c : LtnCap :=
    { t, slot := i, unit := u, xEvent := xe, beam, value, kind := s.unitKind e i u, first := v.firstCap, acceptNs := ns
      freezeNs := 0, prevDead := if v.firstCap then 0 else v.prevDead, prevIgn := v.prevIgn, buffer := v.cur, known := false
      loss := false, lossBlocks := 0, missed := false }
  (s.setLtn e { v with state := 3, cap := some c, deadFrom := some s.time.ticks, ignNow := 0, firstCap := false }).publish (64 + 4 * e)

/-- An engine whose window is whole freezes its buffer, where the controllers serve it; a standby's does once the item has come (R159,
R351). -/
def State.engWhole (s : State) (e : Nat) (p : EngPlace) : State :=
  let v := s.ltn e
  match v.cap, v.next with
  | some c, some k =>
    if v.state = 3 ∧ c.whole p.desc k ∧ (!s.standby ∨ c.known) ∧ s.freezeServes e p then s.engFreeze e p c k else s
  | _, _ => s

/-- A trigger request reaches its engine (R159, R160). A standby engine takes its outcomes from the items (R351). -/
def State.engRequest (s : State) (e i u : Nat) (xe : Bool) (t : Nat) (beam : Option Nat) (value : Int) : State :=
  let v := s.ltn e
  match s.placedEng e with
  | none => s
  | some p =>
    if s.standby then s
    else if v.state = 2 then
      let low := (v.next.getD 0) - min v.count p.desc.nk
      let k := t / 128
      if p.desc.pre ≤ k ∧ low ≤ k - p.desc.pre ∧ k - p.desc.pre < v.next.getD 0 then
        ((s.engAccept e i u xe t beam value s.ns).decide_ (.accept e i u xe t beam value v.cur s.ns)).engWhole e p
      else s.cnt (oLtnCnt e 3) 1
    else if v.state = 1 ∧ v.fromIdle then s.cnt (oLtnCnt e 1) 1
    else if v.state = 0 then s
    else (s.setLtn e { v with ignNow := v.ignNow + 1 }).cnt (oLtnCnt e 2) 1

/-! ### The slot table (R154, R155) -/

/-- An event of a slot taken: `ev` 0 for C0, 1 for C1, 2 for X; `out` says that it is a TIMEOUT's. -/
def State.slotEvent (s : State) (e i ev last : Nat) (out : Bool) (beam : Option Nat) (value : Int) : State :=
  let v := s.slot (16 * e + i)
  let w := s.reg (oSlot e i + 0x60 + 4 * v.st)
  let sh := 28 - 4 * ev
  let s := s.setSlot (16 * e + i) { v with st := fld w sh 3, nIn := last, evAt := some (s.time.ticks, out) }
  if bit w (sh + 3) then
    (s.cnt (oSlot e i + 0x80) 1).engRequest e i (if ev = 1 then 1 else 0) (decide (ev = 2)) last (if ev = 2 then none else beam) value
  else s

/-- The event of a step, if any: C0, else C1, else X once the window has passed. -/
def stepEvent (m0 m1 : Bool) (win nIn last : Nat) : Option Nat :=
  if m0 then some 0 else if m1 then some 1 else if win ≠ 0 ∧ nIn + 128 * win ≤ last then some 2 else none

/-- The value of a deciding sample; a unit without a sample at the step leaves it open. -/
def State.sampleVal (s : State) (x : Option LtnSample) : Int × State :=
  match x with
  | some y => (y.val, s)
  | none => let (w, s) := s.free; (w.toInt, s)

/-- Restart markers at the head of a unit's queue taken. -/
def LtnUnit.restarts (v : LtnUnit) : List LtnSample → LtnUnit
  | [] => { v with queue := [] }
  | x :: t => if x.restart then (LtnUnit.lose v).restarts t else { v with queue := x :: t }
def LtnUnit.ready (v : LtnUnit) : LtnUnit := v.restarts v.queue

/-- Whether unit u can have no sample of the step that ends at `last`: it is NONE, its next sample is later, or its channel is
past the step. -/
def State.unitPast (s : State) (e i u last : Nat) (v : LtnUnit) : Bool :=
  s.unitKind e i u = 0
    || (match v.queue with
      | x :: _ => decide (last < x.last)
      | [] =>
        let w := s.unitSrc e i u
        let g := s.grp (fld w 26 5)
        decide (last < (g.next (tget DetChan.init g.chans (fld w 0 16))).2.2))

/-- One unit at a step: it evaluates its sample of the step if it has one. -/
def LtnUnit.step (v : LtnUnit) (p : LtnPar) (last : Nat) : LtnUnit × Bool × Option LtnSample :=
  match v.queue with
  | x :: t =>
    if p.kind = 0 ∨ x.last ≠ last then (v, false, none)
    else
      let v := { v with queue := t }
      if x.loss then (v.lose, false, some x) else let (v, m) := v.eval p x.val; (v, m, some x)
  | [] => (v, false, none)

/-- TIMEOUT of unit u of a slot has run out at tick `now` and has not been met since. -/
def State.timedOut (s : State) (e i u now : Nat) : Bool :=
  let x := (s.slot (16 * e + i)).unit u
  decide (s.unitKind e i u = 3) && !x.met && decide (s.unitTimeout e i u * 5 < 8 * (now - x.since))

/-- A step of a slot: the last sample it ends at, the units after it, whether each is met, and the samples they took. -/
structure SlotStep where
  last : Nat
  u0 : LtnUnit
  u1 : LtnUnit
  met0 : Bool
  met1 : Bool
  x0 : Option LtnSample
  x1 : Option LtnSample
  deriving DecidableEq, Repr

/-- The next step of the slot's group for which both units have what they need. -/
def State.nextStep (s : State) (e i : Nat) : Option SlotStep :=
  let v := s.slot (16 * e + i)
  let a := v.u0.ready
  let b := v.u1.ready
  let last := leastOf (if s.unitKind e i 0 = 0 then none else a.queue.head?.map (·.last)) (if s.unitKind e i 1 = 0 then none else b.queue.head?.map (·.last))
  last.bind (fun l =>
    let has := fun (u : LtnUnit) => u.queue.head?.elim false (fun x => decide (x.last = l))
    if (has a || s.unitPast e i 0 l a) && (has b || s.unitPast e i 1 l b) then
      let (a, m0, x0) := a.step (s.unitPar e i 0) l
      let (b, m1, x1) := b.step (s.unitPar e i 1) l
      some ⟨l, a, b, m0, m1, x0, x1⟩
    else none)

/-- The event that a step gives the slot. -/
def State.eventOf (s : State) (e i : Nat) (q : SlotStep) : Option Nat :=
  let v := s.slot (16 * e + i)
  stepEvent q.met0 q.met1 (s.rf (oSlot e i + 0x60 + 4 * v.st) 0 20) v.nIn q.last

/-- A step of the slot that is ready at this instant, within `n`, gives it a C0. -/
def State.c0Within (s : State) (e i : Nat) : Nat → Bool
  | 0 => false
  | n + 1 =>
    match s.nextStep e i with
    | none => false
    | some q => q.met0 || State.c0Within (s.setSlot (16 * e + i) { s.slot (16 * e + i) with u0 := q.u0, u1 := q.u1, last := q.last }) e i n
def State.stepC0 (s : State) (e i : Nat) : Bool :=
  let v := s.slot (16 * e + i)
  s.c0Within e i (v.u0.queue.length + v.u1.queue.length)

/-- LTN_STREAM_SAMPLE (R154): the next step of the slot. A TIMEOUT of unit 0 that has run out goes first, and so does one of unit 1
where the step gives an X and no step ready at this instant gives a C0; one taken at this instant leaves the slot no other event. -/
def execLtnStreamSample (e i : Nat) (s : State) : Host.Outcome State Fault Refusal :=
  let v := s.slot (16 * e + i)
  match s.nextStep e i with
  | none => .next s
  | some q =>
    let ev := s.eventOf e i q
    gate (s.up && decide (e < s.nEng) && decide (i < 16) && v.armed && s.sagRoom && !s.timedOut e i 0 s.time.ticks
        && !(decide (ev = some 2) && s.timedOut e i 1 s.time.ticks && !s.stepC0 e i)) s fun s =>
      let s := s.setSlot (16 * e + i) { v with u0 := q.u0, u1 := q.u1, last := q.last }
      if v.evAt = some (s.time.ticks, true) then s
      else match ev with
        | some ev =>
          let x := if ev = 1 then q.x1 else q.x0
          let (val, s) := s.sampleVal x
          s.slotEvent e i ev q.last false (x.bind (·.beam)) val
        | none => s

/-- The trigger beam of a TIMEOUT: the unit's beam for a detected word, none for SUM; for MAX and MIN there is no winner, and
the manual names none. -/
def State.timeoutBeam (s : State) (e i u : Nat) : Option Nat × State :=
  let w := s.unitSrc e i u
  let g := fld w 26 5
  if !bit w 31 then (some ((s.grp g).beamOf g (if (s.grp g).stokes then fld w 18 6 % 32 else fld w 18 6)), s)
  else if fld w 24 2 = 2 then (none, s)
  else let (x, s) := s.free; (some (x.toNat % 65536), s)

/-- LTN_TIMEOUT (R153, R154): more than t ns have passed since the last sample without a loss. Unit 0 goes before unit 1, a step ready
at this instant that gives a C0 before unit 1 too, and where the slot has taken an event at this instant the condition is met and its event discarded. -/
def execLtnTimeout (e i u dt : Nat) (s : State) : Host.Outcome State Fault Refusal :=
  let v := s.slot (16 * e + i)
  let x := v.unit u
  gate (s.up && decide (e < s.nEng) && decide (i < 16) && decide (u < 2) && v.armed && s.sagRoom
      && s.timedOut e i u (s.time.ticks + dt) && !(decide (u = 1) && (s.timedOut e i 0 (s.time.ticks + dt) || s.stepC0 e i))) s fun s =>
    let s := s.advance dt
    let s := s.setSlot (16 * e + i) (v.setUnit u { x with met := true })
    if v.evAt.elim false (fun q => q.1 == s.time.ticks) then s
    else
      let (val, s) := s.sampleVal none
      let (beam, s) := s.timeoutBeam e i u
      s.slotEvent e i u v.last true beam val

/-! ### Release (R162), and the items of an active part (R351) -/

/-- Buffers released (R159, R162): those that are frozen; an engine that waits for one fills it. -/
def State.engRelease (s : State) (e : Nat) (mask : Nat) : State :=
  let v := s.ltn e
  let s := s.setLtn e { v with frozen := v.frozen.filter (fun b => !mask.testBit b) }
  match s.placedEng e with
  | some p => if v.state = 4 ∧ (s.ltn e).frozen.length < v.frozen.length then (s.engFill e (v.cur + 1) (s.engStart p.desc) p.desc).engRest e else s
  | none => s

/-- A freeze item has come, and the window it freezes is not whole here, or not frozen yet: the items behind it wait. -/
def LtnEng.freezing (v : LtnEng) : Bool := v.cap.elim false (·.known)

/-- One item of the active part applied to its engine. -/
def State.engItem (s : State) (d : Decision) : State :=
  match d with
  | .accept e i u xe t beam value buffer ns => (s.setLtn e { s.ltn e with cur := buffer }).engAccept e i u xe t beam value ns
  | .freeze e ns dead ign =>
    let v := s.ltn e
    let s := s.setLtn e { v with cap := v.cap.map (fun c =>
      { c with known := true, freezeNs := ns, prevDead := dead.toNat, prevIgn := ign.toNat }) }
    (s.placedEng e).elim s (s.engWhole e)
  | .idle e => s.engIdle e
  | .release e m => s.engRelease e m.toNat
  | _ => s

/-- An ARM's engine: an IDLE one begins to fill (R159). -/
def State.engBegin (s : State) (e : Nat) : State :=
  match s.placedEng e with
  | some p =>
    if (s.ltn e).state = 0 then
      (s.setLtn e { s.ltn e with fromIdle := true, firstCap := true }).engFill e (s.ltn e).cur (s.engStart p.desc) p.desc
    else s
  | none => s

/-- Items that wait for an engine applied in order, up to one whose turn has not come: those that are left. -/
def State.engItemsFrom (s : State) (e : Nat) : List EngItem → State
  | [] => s.setLtn e { s.ltn e with items := [] }
  | d :: t =>
    if (s.ltn e).freezing then s.setLtn e { s.ltn e with items := d :: t }
    else State.engItemsFrom (match d with
      | .item d => s.engItem d
      | .start => s.engBegin e) e t
def State.engItems (s : State) (e : Nat) : State :=
  if (s.ltn e).items.isEmpty then s else s.engItemsFrom e (s.ltn e).items

/-! ### Block writes (R158, R159) -/

/-- The slots of block index k in every channel of the set, where each is released and still held for the engine. -/
def State.engSlots (s : State) (d : EngDesc) (k : Nat) : Option (List (Nat × Slot)) :=
  ((List.range d.chCount).map (d.chFirst + ·)).mapM (fun c =>
    (s.slotAt c k).bind (fun x => if x.released then some (c, x) else none))

/-- Beam samples of the set may still come for a slot: its window is open, or a tile has yet to read the slot. -/
def State.beamsDue (s : State) (d : EngDesc) (c : Nat) (x : Slot) : Bool :=
  (d.beams.map (· / 64)).eraseDups.any (fun m =>
    (s.placedBlock m).elim false (fun b => inRange c b.desc.chFirst b.desc.chCount) && (s.capBeam (64 * m) c x.blk).isNone
      && s.blockTakes m (128 * x.blk)
      && (s.beam.windows.any (windowIs m c x.blk)
        || x.readers.any (fun t => decide (t < 1000) && (s.tileWork t).elim false (fun w => w.kiln.isNone))))

/-- Beam samples that no engine will take any more dropped. -/
def State.dropCaps (s : State) : State := s.setBeam fun b => { b with caps := b.caps.filter (fun q => s.capWants q.1 q.2.1 q.2.2.blk) }

/-- Block index k written into the current buffer: FILLING, ARMED or POST advances. A standby's FILLING ends with an item. -/
def State.engWrite (s : State) (e k : Nat) (p : EngPlace) (xs : List (Nat × Slot)) : State :=
  let v := s.ltn e
  let d := p.desc
  let s := xs.foldl (fun s q => s.hbmWrite (p.addr v.cur k (q.1 - d.chFirst)) (s.capBlock d q.2 q.1)) s
  let s := (s.setLtn e { v with next := some (k + 1), count := v.count + 1 }).dropCaps
  let s := (xs.foldl (fun s q => s.consume (1000 + e) q.1 k (k + 1)) s).engReach e
  let v := s.ltn e
  if v.state = 1 ∧ d.pre + 1 ≤ v.count ∧ !s.standby then
    match v.deadFrom with
    | some t =>
      let n := s.time.ticks - t
      s.setLtn e { v with state := 2, deadFrom := none, deadTicks := v.deadTicks + n, prevDead := ticksNs n, prevIgn := v.ignNow
                          fromIdle := false }
    | none => s.setLtn e { v with state := 2, fromIdle := false }
  else (s.engWhole e p).engItems e

/-- The engine's window is whole: nothing more is written before its buffer freezes. -/
def LtnEng.waits (v : LtnEng) (d : EngDesc) (k : Nat) : Bool := decide (v.state = 3) && v.cap.elim false (fun c => c.whole d k)

/-- The controllers serve the blocks of index k in the current buffer (R275). -/
def State.capServes (s : State) (e k : Nat) (p : EngPlace) : Bool :=
  (List.range p.desc.chCount).all (fun i => s.hbmServes (p.addr (s.ltn e).cur k i) p.desc.blockBytes)

/-- LTN_BLOCK_WRITE (R158 to R160): the engine's next block index is released in every channel of its set, the beams it captures
are there, and the controllers serve its buffer. An index that some channel can no longer give, as a ring begins later, is passed
over. A whole window waits in a standby for its item; one that a takeover finds whole, or whose buffer is served again, freezes. -/
def execLtnBlockWrite (e : Nat) (s : State) : Host.Outcome State Fault Refusal :=
  match s.placedEng e, (s.ltn e).next with
  | some p, some k =>
    let v := s.ltn e
    let d := p.desc
    match s.engSlots d k with
    | some xs =>
      gate (s.up && s.sagRoom && decide (1 ≤ v.state) && decide (v.state ≤ 3)
          && (if v.waits d k then (!s.standby || v.freezing) && s.freezeServes e p
            else !xs.any (fun q => s.beamsDue d q.1 q.2) && s.capServes e k p)) s fun s =>
        if v.waits d k then (s.engWhole e p).engItems e else s.engWrite e k p xs
    | none =>
      let chans := (List.range d.chCount).map (d.chFirst + ·)
      gate (s.up && decide (1 ≤ v.state) && decide (v.state ≤ 3)
          && chans.any (fun c => s.wasReleased c k && (s.slotAt c k).isNone)) s fun s =>
        let n := max (k + 1) ((chans.map (fun c => (s.ring c).base.getD 0)).foldl max 0)
        (s.setLtn e { v with next := some n, firstBlk := n, count := 0 }).unread (1000 + e)
          (fun c b => inRange c d.chFirst d.chCount && decide (b < n))
  | _, _ => .next s

/-! ### Capture records (R162) and release -/

/-- Bytes 12 on after the claim: 14 to 127 of a capture record. -/
def capTail (p : EngPlace) (c : LtnCap) : List Byte :=
  let d := p.desc
  let k0 := c.first' d
  leBytes 1 (c.slot + 16 * c.unit + 32 * b2n c.xEvent)
    ++ leBytes 1 (b2n c.loss + 2 * b2n (c.beam.elim false (fun b => !d.beams.contains b)) + 4 * b2n d.c3 + 8 * b2n c.first)
    ++ leBytes 6 c.t ++ leBytes 2 (c.beam.getD 0xFFFF) ++ leBytes 6 k0 ++ leBytes 1 c.buffer ++ [0#8] ++ leBytes 4 d.nk ++ leBytes 4 d.pre
    ++ leBytes 8 (p.addr c.buffer k0 0) ++ leBytes 8 (p.stats c.buffer) ++ leBytes 4 c.acceptNs.toNat ++ leBytes 4 c.freezeNs.toNat
    ++ leBytes 4 (min c.prevDead (2 ^ 32 - 1)) ++ leBytes 4 (if c.first then 0 else c.prevIgn) ++ leBytes 4 (min c.lossBlocks (2 ^ 32 - 1))
    ++ leBytes 2 d.chFirst ++ leBytes 2 d.chCount ++ leBytes 2 d.inFirst ++ leBytes 2 d.inCount ++ leBytes 1 d.beams.length
    ++ leBytes 1 c.kind ++ leBytes 2 0 ++ leBytes 8 (wrapI 64 c.value)
    ++ (List.range 16).flatMap (fun j => leBytes 2 (d.beams.getD j 0xFFFF))

/-- The record of an engine's oldest capture lets it go to IDLE, which an ACTIVE part sends (R159, R347). -/
def State.restsAfter (s : State) (e : Nat) (rest : List LtnCap) : Bool :=
  rest.isEmpty && decide ((s.ltn e).state = 4) && !s.anyArmed e && !s.standby

/-- LTN_CAPTURE_RECORD (R162, R346): the table is in memory, and the oldest capture's record is written or dropped. A window that begins
before an engine's first block, as in a part that has joined a pair, has no record here; after a takeover it counts as lost (R358). -/
def execLtnCaptureRecord (e : Nat) (s : State) : Host.Outcome State Fault Refusal :=
  match s.placedEng e, (s.ltn e).toWrite with
  | some p, c :: rest =>
    gate (s.up && c.known && (s.sagRoom || !s.restsAfter e rest)) s fun s =>
      let v := s.ltn e
      let r := s.rf (oEng e) 0 15
      let lost := (if s.role ≤ 2 then s.cnt (oPrCnt 9) 1 else s).rCount r
      let record := fun rs cl =>
        leBytes 1 0x20 ++ leBytes 1 e ++ leBytes 2 2 ++ leBytes 4 v.cseq ++ leBytes 4 rs ++ leBytes 2 cl ++ capTail p c
      let (o, s1) := if c.missed then (.dropped, lost) else s.offer r (.lantern e) true 2 record
      if o = .held then s1
      else ((s1.setLtn e { v with toWrite := rest, cseq := (v.cseq + 1) % 2 ^ 32 }).publish (65 + 4 * e)).engRest e
  | _, _ => .next s

/-- LTN_BUFFER_RELEASE (R162, R349): a write of LTN_ENG_REL, ignored by a standby. Its item waits for room in the replay buffer where
there is none (log 101). -/
def execLtnBufferRelease (e : Nat) (v : W32) (s : State) : Host.Outcome State Fault Refusal :=
  writeGate (decide (e < s.nEng)) s fun s =>
    if s.standby then s else (s.engRelease e (fld v 0 16)).decide_ (.release e (BitVec.ofNat 16 (fld v 0 16)))

end Sys2Proof.Machine
end

