-- ==== Sys2Proof/Machine/Placement.lean ====
section
/-! DEFINITION. A placement taking effect, and the moves of excluded units' work (R168 to R170, R183, R184, R391). -/

namespace Sys2Proof.Machine

/-! ### Rings (R391) -/

/-- The ring of a channel as a placement takes effect: kept where both placements place the channel alike, started anew where
the new one places it otherwise, and gone where it omits the channel. -/
def ringAcross (old : Option Placement) (new : Placement) (c : Nat) (r : ChanRing) : ChanRing :=
  match new.plan.mode c with
  | none => ChanRing.init
  | some (c3, f) =>
    if (old.bind (fun p => p.plan.mode c)) = some (c3, f) then { r with k := ringK new.skewUs f } else ChanRing.init

def State.ringsAcross (s : State) (old : Option Placement) (new : Placement) : State :=
  s.asm_.foldl (fun s e => s.setRing e.1 (ringAcross old new e.1 e.2)) s

/-! ### Units (R97, R169, R170) -/

/-- A kiln as a placement takes effect; KLN_NEXT, 0 at reset, shows from now on that no boundary is pending. -/
def State.kilnAcross (s : State) (old : Option Placement) (new : Placement) (k : Nat) : State :=
  let v := s.kiln k
  match new.kilns.find? (fun e => e.1 == k) with
  | some (_, p) =>
    if v.state ≤ 1 then
      ((s.setKiln k { v with state := 1, key := p.key, newLayout := none }).setReg (oKeyStat k) 0).setReg (oKln k + 0x1C) 0x80000000
    else s
  | none =>
    if v.state = 1 then s.setKiln k { v with state := 0 }
    else if v.state = 4 then
      match old.bind (fun p => (p.kilns.find? (fun e => e.1 == k)).map (·.2)) with
      | some p => (s.setKiln k { v with omitted := true }).setPlc fun q => { q with shutKeep := (k, p) :: q.shutKeep }
      | none => s
    else s

/-- Whether a beam block is the same in both placements. -/
def blockKept (old : Option Placement) (new : Placement) (m : Nat) : Bool :=
  match old.bind (fun p => (p.blocks.find? (fun e => e.1 == m)).map (·.2)), (new.blocks.find? (fun e => e.1 == m)).map (·.2) with
  | some a, some b => decide (a.desc.chFirst = b.desc.chFirst) && decide (a.desc.chCount = b.desc.chCount) && decide (a.inputs = b.inputs)
      && decide (a.desc.c3 = b.desc.c3) && decide (a.desc.srate = b.desc.srate)
  | _, _ => false

/-- A beam block, or from 24 on an engine, that a placement starts anew in a standby gives all that it gives from there on: it is ready
(R356). -/
def State.newReady (s : State) (i : Nat) (placed : Bool) : State :=
  if s.standby && placed && !s.pair.unfit then
    (s.setPair fun q => { q with blockFrom := q.blockFrom.filter (fun y => y.1 ≠ i)
                                 engFrom := q.engFrom.filter (fun y => 24 + y.1 ≠ i) }).setRb oPrReadyX i true
  else s

/-- A beam block as a placement takes effect at `x`: kept, its group restarts (R144); otherwise it forms no beams until its next
STEER. GLZ_BLK_NS goes on showing the last STEER accepted (R149). -/
def State.blockAcross (s : State) (old : Option Placement) (new : Placement) (x m : Nat) : State :=
  if blockKept old new m then
    let g := s.grp m
    if (s.block m).steered then s.setGrp m { g with restarts := sortUp (x :: g.restarts).eraseDups } else s
  else
    let op := (s.block m).pend.bind (·.op)
    let s := (s.setBlock m { BlockSt.init with lastNs := (s.block m).lastNs }).setGrp m DetGrp.init
    (((s.setRb (oDetStat m) 31 false).setReg64 (oBlk m + 8) 0).newReady m (new.blocks.any (fun e => e.1 == m))).opDone? op qDone

/-- An engine whose descriptor changes or goes starts again from IDLE. -/
def State.engAcross (s : State) (old : Option Placement) (new : Placement) (e : Nat) : State :=
  let d := fun (p : Placement) => (p.engines.find? (fun q => q.1 == e)).map (·.2.desc)
  if (old.bind d).isSome ∧ old.bind d = d new then s
  else
    let v := s.ltn e
    let s := (s.setLtn e { LtnEng.init with cseq := v.cseq, deadTicks := v.deadTicks, latchHi := v.latchHi }).newReady (24 + e) (d new).isSome
    (List.range 16).foldl (fun s i => s.setSlot (16 * e + i) { s.slot (16 * e + i) with armed := false }) s

/-- Writes of TX entries that no placed block holds back any more, and a gain switch with no beam block placed, take effect. -/
def State.looseEnds (s : State) (new : Placement) : State :=
  let s := s.beam.txgPend.foldl (fun s e =>
    if (s.txgBlock e.1 e.2).isNone then (s.setBeam fun b => { b with txgPend := sdel b.txgPend e.1 }).txgSet e.1 e.2 else s) s
  match s.beam.switch_ with
  | some (n, op) =>
    if new.blocks.isEmpty then
      (s.setBeam fun b => { b with active := !b.active, switch_ := none, switched := n }).opDone? op qDone
    else s
  | none => s

/-- The placement as it takes effect: a kiln that is OPEN or FIRING then, and was placed before, keeps its L, S, regions and key
(R170), one opened since the PLACE was accepted too (log 67). -/
def State.keepOpen (s : State) (old : Option Placement) (new : Placement) : Placement :=
  { new with kilns := new.kilns.map (fun e =>
      match old.bind (fun p => (p.kilns.find? (fun q => q.1 == e.1)).map (·.2)) with
      | some o => if (s.kiln e.1).live then (e.1, { e.2 with l := o.l, s := o.s, layout := o.layout, key := o.key }) else e
      | none => e) }

/-- Where a tile begins under a placement in force from `x`: a correlate tile at the first chunk that begins there or later. -/
def Placement.startAt (p : Placement) (w : TileWork) (x : Nat) : Nat :=
  match w.kiln.bind (fun k => (p.kilns.find? (fun e => e.1 == k)).map (·.2)) with
  | some d => alignUp x d.l
  | none => x

/-- The delay tables of evaluated epochs of some blocks written where the placement in effect has them (R131, R178). -/
def State.tabsWrite (s : State) (ms : List Nat) : State :=
  ms.foldl (fun s m => (s.block m).tabs.foldl (fun s y => s.delayWrite m y.epoch y.taus) s) s
/-- The controllers serve the tables that a placement would have written so (R275). -/
def State.tabsServe (s : State) (p : Placement) (ms : List Nat) : Bool :=
  ms.all (fun m => (s.block m).tabs.all (fun y =>
    (p.delayRanges m y.epoch 0 (8 * y.taus.length)).all (fun r => s.hbmServes r.1 r.2)))

/-- A placement takes effect at index `x`. The delay tables of blocks that stay go where it puts them. -/
def State.placeEffect (s : State) (new : Placement) (x : Nat) : State :=
  let old := s.plc.cur
  let s := (old.elim [] (fun p => p.tiles.map (·.1))).foldl State.stallNow s
  let new := s.keepOpen old new
  let s := s.ringsAcross old new
  let s := (List.range 16).foldl (fun s k => s.kilnAcross old new k) s
  let regions := s.leaveAsm
  let s := s.setPlc fun q => { q with cur := some { new with effect := x }, pend := none, moves := [], oldAsm := regions }
  let s := (List.range 24).foldl (fun s m => s.blockAcross old new x m) s
  let s := s.tabsWrite ((new.blocks.map (·.1)).filter (blockKept old new))
  let s := (List.range 4).foldl (fun s e => s.engAcross old new e) s
  let s := { s with tiles := [] }
  let s := new.tiles.foldl (fun s e => s.setTile e.1 { Tile.init with at_ := (new.startAt e.2 x, 0, 0), since := s.time.ticks }) s
  (s.looseEnds new).refreshReaders.planMoves

/-! ### PLACEMENT_EFFECT (R169, R170) -/

/-- A tile has done all its work below an index, and nothing after. -/
def State.tileAt (s : State) (t x : Nat) : Bool :=
  let v := s.tile t
  v.cur.isNone && v.full.isEmpty && (s.nextPair t).elim true (fun q => decide (x ≤ q.2.2.1)) && (s.nextVisit t).elim true (fun q => decide (x ≤ q.1))

/-- A group has no output left to form from what its block has given it. -/
def State.groupIdle (s : State) (g : Nat) : Bool :=
  let v := s.grp g
  !v.active || (s.grpChans g).all (fun c =>
    let d := tget DetChan.init v.chans c
    let l := (v.next d).2.2
    d.wins.all (fun w => decide (w.blk < l / 128)))

/-- PLACEMENT_EFFECT (R169, R170): the old tiles have done everything below EFFECT, and blocks that do not stay have given
what they form of it. -/
def execPlacementEffect (s : State) : Host.Outcome State Fault Refusal :=
  match s.plc.pend with
  | some p =>
    gate (s.up && (s.plc.cur.elim true (fun q => q.tiles.all (fun e => s.tileAt e.1 p.effect))) && s.beam.windows.isEmpty
        && (List.range 24).all (fun m => blockKept s.plc.cur p m || s.groupIdle m)
        && s.tabsServe p ((p.blocks.map (·.1)).filter (blockKept s.plc.cur p))) s fun s => s.placeEffect p p.effect
  | none => .next s

/-! ### EXCLUDED_WORK_MOVE (R183, R184) -/

/-- Whether an index is a boundary of a kiln (R100, R105), passed or to come. -/
def State.isBoundary (s : State) (k x : Nat) : Bool :=
  let v := s.kiln k
  decide (v.s0 < x) && ((s.auto k && (s.placedKiln k).elim false (fun p => decide ((x - v.s0) % p.desc.ilen = 0)))
    || v.pend.any (fun e => e.1 == x) || decide ((v.bankOf v.bank).first = x) || v.endAt.elim false (fun e => e.1 == x))

/-- A correlate tile stands at a boundary of its kiln, or its kiln does not integrate. -/
def State.tileAtBoundary (s : State) (t k : Nat) : Bool :=
  let v := s.tile t
  v.cur.isNone && v.full.isEmpty && (match s.nextPair t, s.plc.cur, s.tileWork t with
    | some (_, _, x, c, i, _), some p, some w =>
      s.isBoundary k x && decide ((p.unitFrom w 0 0).map (fun q => (q.1, q.2.1)) = some (c, i))
    | _, _, _ => !(s.kiln k).live)

/-- A beam tile stands at a multiple of 256 samples. -/
def State.tileAt256 (s : State) (t : Nat) : Bool :=
  match s.nextVisit t with
  | some (x, c, i, _, _) =>
    decide (x % 256 = 0) && decide ((s.tile t).at_.1 < x ∨ (s.tile t).at_ = (x, 0, 0) ∨ (s.tile t).at_ = (x, c, i) ∧ c = 0 ∧ i = 0)
  | none => true

/-- The work of tile t done by tile u from now on. -/
def State.moveTile (s : State) (t u : Nat) : State :=
  let s := s.stallNow t
  let s := s.setPlc fun q => { q with cur := q.cur.map (fun p => { p with tiles := p.tiles.map (fun e => if e.1 = t then (u, e.2) else e) }) }
  let s := (s.setTile u { Tile.init with at_ := (s.tile t).at_, since := s.time.ticks }).setTile t Tile.init
  s.asm_.foldl (fun s e =>
    let r := s.ring e.1
    s.setRing e.1 { r with slots := r.slots.map (fun x => { x with readers := x.readers.map (fun q => if q = t then u else q) }) }) s

/-- Blocks whose windows a re-placement puts in another slice. -/
def State.slicesLeft (s : State) (r : Placement) : List Nat :=
  (r.blocks.filter (fun e => (s.placedBlock e.1).elim false (fun b => decide (b.slice ≠ e.2.slice)))).map (·.1)

/-- Beams stand at a multiple of 256 samples (R184): no window of a block that moves is open, and no beam tile is within a
stretch of 256. -/
def State.beamsAt256 (s : State) (r : Placement) : Bool :=
  !(s.beam.windows.any (fun w => (s.slicesLeft r).contains w.m))
    && (s.plc.cur.elim [] (fun p => p.tiles)).all (fun e => e.2.kiln.isSome || s.tileAt256 e.1)

/-- The slices of windows and the regions of a re-placement in force; the delay tables go with theirs. DESIGN CHOICE (log 106): R184 gives
the index for kilns and beam windows only, and the assembly rings and delay tables take their new regions with the beam windows. -/
def State.moveSlice (s : State) (r : Placement) : State :=
  let regions := s.leaveAsm
  let re := fun (p : Placement) => { p with
    blocks := p.blocks.map (fun e => (e.1, { e.2 with slice := (r.blocks.find? (fun x => x.1 == e.1)).elim e.2.slice (·.2.slice) }))
    asmOff := r.asmOff, asmSize := r.asmSize, delayOff := r.delayOff, delaySize := r.delaySize, usable := r.usable }
  let s := s.setPlc fun q => { q with cur := q.cur.map re, oldAsm := regions }
  s.tabsWrite (r.blocks.map (·.1))

def sameUnit (u : ExclUnit) (m : Move) : Bool := decide (m.unit = u)

/-- EXCLUDED_WORK_MOVE (R183, R184): of a correlate tile, at a boundary of its kiln; of a beam tile or a slice's windows, at a
multiple of 256 samples at least 1 ms after the exclusion. A kiln's move to a new layout is part of its next boundary. -/
def execExcludedWorkMove (u : ExclUnit) (dt : Nat) (s : State) : Host.Outcome State Fault Refusal :=
  match s.plc.moves.find? (sameUnit u) with
  | none => .next s
  | some m =>
    let late := decide (m.since + tMs 1 ≤ s.time.ticks + dt)
    let drop := fun (s : State) => s.setPlc fun q => { q with moves := q.moves.filter (fun x => !sameUnit u x) }
    match u, m.re with
    | .tile t, _ =>
      match (s.tileWork t).map (·.kiln) with
      | some (some k) => gate (s.up && s.tileAtBoundary t k) s fun s => drop ((s.advance dt).moveTile t m.dest)
      | some none => gate (s.up && late && s.tileAt256 t) s fun s => drop ((s.advance dt).moveTile t m.dest)
      | none => gate s.up s fun s => drop (s.advance dt)
    | .slice _, some r => gate (s.up && late && s.beamsAt256 r && s.tabsServe r (r.blocks.map (·.1))) s fun s => drop ((s.advance dt).moveSlice r)
    | .slice _, none => gate s.up s fun s => drop (s.advance dt)

end Sys2Proof.Machine
end

