-- ==== Sys2Proof/Machine/Product.lean ====
section
/-! DEFINITION. The product operations PLACE, OPEN, FIRE, SHUT, STEER, GLAZE and ARM, and DISARM: what each checks, in the order
of R229, the index it resolves under R227, and its effect (R99, R100, R105, R128, R133, R163, R168, R169, R220, R223). -/

namespace Sys2Proof.Machine

/-! ### Causes and verdicts (R227, R229) -/

/-- The first cause, in the list's order, whose test holds. -/
def firstCause (l : List (Bool × Nat)) : Option Nat := (l.find? (·.1)).map (·.2)

/-- What a unit answers: a fault with its cause, a wait for a release, or acceptance with the index. -/
inductive Verdict where
  | fault (cause : Nat)
  | wait
  | go (index : Nat)
  deriving DecidableEq, Repr

/-- Acceptance with or without NEXT: `pre` are the checks that do not depend on the index, `post` those that do, `given` the
index of the block, `found` the one resolved once a slot of the channel set has been released. -/
def judge (next : Bool) (pre : List (Bool × Nat)) (given : Nat) (found : Option Nat) (post : Nat → List (Bool × Nat)) : Verdict :=
  match firstCause pre with
  | some c => .fault c
  | none =>
    match (if next then found else some given) with
    | none => .wait
    | some x => (firstCause (post x)).elim (.go x) .fault

/-- A FLAGS bit set that the operation does not define: `ok` is the mask of those it does (R220). -/
def QEntry.flagsBad (e : QEntry) (ok : Nat) : Bool := decide (e.word 1 &&& ok ≠ e.word 1)
def QEntry.next (e : QEntry) : Bool := e.flag 0

/-- X of R227 for a channel set: 128 × (b + 1 + MARGIN), once a slot has been released. -/
def State.safeFrom (s : State) (chans : List (Nat × Nat)) (margin : Nat) : Option Nat :=
  (s.lastReleased chans).map (fun b => 128 * (b + 1 + margin))

/-! ### Kilns: OPEN, FIRE and SHUT (R98 to R100, R105, R109) -/

def State.kilnG (s : State) (k : Nat) : Nat := (s.placedKiln k).elim 1 (·.g)
def State.kilnChans (s : State) (k : Nat) : List (Nat × Nat) :=
  (s.placedKiln k).elim [] (fun p => [(p.desc.chFirst, p.desc.chCount)])

/-- Whether a ring may serve in the set of kiln k (R109). -/
def State.ringServes (s : State) (k r : Nat) : Bool :=
  decide (r < s.nRings) && decide (s.rFmt r = 0) && decide (1024 ≤ s.rSize r)
    && (List.range 16).all (fun j => j == k || decide ((s.kiln j).state ≤ 1) || !(s.kiln j).rings.contains r)

def ringSet (first log2 : Nat) : List Nat := (List.range (2 ^ min 4 log2)).map (first + ·)

/-- OPEN before its index: RANGE, STATE, RING. -/
def State.openPre (s : State) (e : QEntry) : List (Bool × Nat) :=
  let k := e.word 2
  [(e.flagsBad 1 || decide (15 < k) || decide (4 < e.word 4) || decide (s.nRings < e.word 3 + 2 ^ e.word 4), 1),
   (decide ((s.kiln k).state ≠ 1), 2), (!(ringSet (e.word 3) (e.word 4)).all (s.ringServes k), 8)]
/-- ALIGN, LATE. -/
def State.openPost (s : State) (k x : Nat) : List (Bool × Nat) :=
  [(decide (x % s.kilnG k ≠ 0), 3), ((s.lastReleased (s.kilnChans k)).elim false (fun b => decide (x / 128 ≤ b)), 4)]
def State.openJudge (s : State) (e : QEntry) : Verdict :=
  let k := e.word 2
  judge e.next (s.openPre e) (e.words 5 3) ((s.safeFrom (s.kilnChans k) (e.word 8)).map (fun x => alignUp x (s.kilnG k))) (s.openPost k)

/-- Tiles that stand past index `x`, where a placement in force from later on has put them, begin at `x`. -/
def State.tilesFrom (s : State) (ts : List Nat) (x : Nat) : State :=
  ts.foldl (fun s t => let v := s.tile t; if x < v.at_.1 then s.setTile t { v with at_ := (x, 0, 0) } else s) s

/-- OPEN's effect: bank A accumulates from `x`, with sequence 0 to come, into the ring set, under the seed given. -/
def State.openApply (s : State) (k x : Nat) (rings : List Nat) (seed : W64) : State :=
  let v := s.kiln k
  let s := s.setKiln k { Kiln.init with state := 2, s0 := x, rings, seed, key := v.key, newLayout := v.newLayout, task := v.task }
  ((s.beginBank k 0 x).setReg (oKln k + 0x30) 0).tilesFrom (s.kilnTiles k) x

/-- The highest of F, the pending boundaries and the updates taken up. -/
def Kiln.busyTo (v : Kiln) : Nat :=
  (v.pend.map (·.1)).foldl max (max (v.bankOf v.bank).first (v.taken.getD 0))

/-- The kiln is OPEN or FIRING, and no SHUT has been accepted (R98). -/
def Kiln.steady (v : Kiln) : Bool := v.live && v.endAt.isNone

/-- FIRE on kiln k before its index: RANGE, STATE, AUTO, PENDING. -/
def State.firePre (s : State) (k : Nat) (flagsBad : Bool) : List (Bool × Nat) :=
  let v := s.kiln k
  [(flagsBad || decide (15 < k), 1), (!v.steady, 2), (s.auto k, 7), (decide (4 ≤ v.pend.length), 6)]
/-- ALIGN, ORDER, LATE of a boundary (R100). -/
def State.firePost (s : State) (k x : Nat) : List (Bool × Nat) :=
  let v := s.kiln k
  [(decide (x % s.kilnG k ≠ 0), 3),
   (decide (x ≤ (v.bankOf v.bank).first) || v.pend.any (fun e => decide (x ≤ e.1)), 5), (v.taken.elim false (fun t => decide (x ≤ t)), 4)]
def State.fireFound (s : State) (k margin : Nat) : Option Nat :=
  (s.safeFrom (s.kilnChans k) margin).map (fun x => alignUp (max x ((s.kiln k).busyTo + 1)) (s.kilnG k))
def State.fireJudge (s : State) (e : QEntry) : Verdict :=
  let k := e.word 2
  judge e.next (s.firePre k (e.flagsBad 1)) (e.words 3 3) (s.fireFound k (e.word 6)) (s.firePost k)

/-- FIRE's effect: a boundary becomes pending, for operation `op`; its FIRED and OVERRUN carry hop count `hop`. -/
def State.fireApply (s : State) (k x hop : Nat) (op : Option Nat) : State :=
  let v := s.kiln k
  s.setKiln k { v with pend := v.pend ++ [(x, op)], hops := tset 0 v.hops x hop }

/-- SHUT before its index: RANGE, STATE. On a PLACED kiln the index is ignored. -/
def State.shutPre (s : State) (e : QEntry) : List (Bool × Nat) :=
  let v := s.kiln (e.word 2)
  [(e.flagsBad 1 || decide (15 < e.word 2), 1), (!(v.steady || decide (v.state = 1)), 2)]
def State.shutFound (s : State) (k margin : Nat) : Option Nat :=
  let v := s.kiln k
  (s.safeFrom (s.kilnChans k) margin).map (fun x =>
    let x := max x (v.busyTo + 1)
    if s.auto k then v.s0 + max 1 (divUp (x - v.s0) ((s.placedKiln k).elim 1 (·.desc.ilen))) * (s.placedKiln k).elim 1 (·.desc.ilen)
    else alignUp x (s.kilnG k))
def State.shutJudge (s : State) (e : QEntry) : Verdict :=
  let k := e.word 2
  if (s.kiln k).state = 1 then judge false (s.shutPre e) 0 none (fun _ => [])
  else judge e.next (s.shutPre e) (e.words 3 3) (s.shutFound k (e.word 6)) (s.firePost k)

/-- SHUT's effect on a kiln that integrates: its end index. Readers of slots past the end give them up. -/
def State.shutApply (s : State) (k x : Nat) (op : Option Nat) : State :=
  (s.setKiln k { s.kiln k with endAt := some (x, op) }).refreshReaders
/-- SHUT's effect on a PLACED kiln. -/
def State.shutIdle (s : State) (k : Nat) : State := s.setKiln k { s.kiln k with state := 0 }

/-! ### STEER (R130, R133, R220) -/

def State.blockChans (s : State) (m : Nat) : List (Nat × Nat) :=
  (s.placedBlock m).elim [] (fun p => [(p.desc.chFirst, p.desc.chCount)])

/-- One past the last epoch whose evaluation has begun. -/
def BlockSt.begun (b : BlockSt) : Nat := (b.tabs.map (fun q => q.epoch + 1)).foldl max 0

/-- RANGE, ADDRESS, STATE, PENDING. -/
def State.steerPre (s : State) (e : QEntry) (ue : Bool) : List (Bool × Nat) :=
  let m := e.word 2
  let a := e.words 4 4
  let sh := e.words 14 2
  let n := (s.placedBlock m).elim 1 (fun p => 2048 * p.desc.n)
  [(e.flagsBad 3 || decide (23 < m), 1),
   (decide (a % 64 ≠ 0) || decide (s.memEnd < a + n)
      || (e.flag 1 && (decide (sh % 2 ≠ 0) || decide (csramBytes < sh + 128) || ue)), 11),
   ((s.placedBlock m).isNone, 2), ((s.block m).pend.isSome, 6)]
/-- ALIGN, LATE. -/
def State.steerPost (s : State) (m x : Nat) : List (Bool × Nat) :=
  [(decide (x % s.epochLen m ≠ 0), 3), (decide (x / s.epochLen m < (s.block m).begun), 4)]
def State.steerFound (s : State) (m margin : Nat) : Option Nat :=
  (s.safeFrom (s.blockChans m) margin).map (fun x => alignUp (max x ((s.block m).begun * s.epochLen m)) (s.epochLen m))
def State.steerJudge (s : State) (e : QEntry) (ue : Bool) : Verdict :=
  let m := e.word 2
  judge e.next (s.steerPre e ue) (e.words 11 3) (s.steerFound m (e.word 3)) (s.steerPost m)

/-- A shift word of SHIFT_ADDR as `GLZ_BEAM` lays it out (R220). -/
def shiftWord (w : Nat) : W32 := lo32 (w / 256 % 32 * 65536 + w % 32)

/-- Blocks that a beam tile serves. -/
def Placement.tileBlocks (p : Placement) (w : TileWork) : List Nat :=
  ((beamLists p.blocks).filter (fun b => decide (w.first < b.2.2 + divUp b.2.1.n 64 * b.2.1.chCount) && decide (b.2.2 < w.first + w.count))).map (·.1)

/-- Beam tiles that serve block m and no other block that is steered or has a STEER pending. -/
def State.ownTiles (s : State) (m : Nat) : List Nat :=
  s.plc.cur.elim [] (fun p => (p.tiles.filter (fun e => e.2.kiln.isNone && (p.tileBlocks e.2).contains m
    && (p.tileBlocks e.2).all (fun j => j == m || !((s.block j).steered || (s.block j).pend.isSome)))).map (·.1))

/-- STEER's effect: pending, with the shifts it read. -/
def State.steerApply (s : State) (m x : Nat) (e : QEntry) (shifts : Option (List W32)) (op : Option Nat) : State :=
  let b := s.block m
  let s := if b.steered then s else s.tilesFrom (s.ownTiles m) x
  s.setBlock m { b with
    pend := some ⟨x, e.words 4 4, e.words 8 3, shifts, op⟩, lastNs := x
    nextEval := if b.steered then b.nextEval else some (x / s.epochLen m) }

/-! ### GLAZE (R128, R148) -/

/-- The last index at which a tile has begun a beam visit; before EFFECT, those of the placement before. -/
def State.lastVisit (s : State) (t : Nat) : Option Nat :=
  let (x, _, i) := (s.tile t).at_
  if (s.tileWork t).elim false (fun w => w.kiln.isNone) then
    if 1 ≤ i then some x
    else if 0 < x ∧ (List.range 24).any (fun m => (s.placedBlock m).isSome && (s.block m).steered) then some (x - 1)
    else none
  else none

/-- One past the last index at which any beam visit has begun. -/
def State.visitedTo (s : State) : Nat :=
  s.plc.cur.elim 0 (fun p => (p.tiles.filterMap (fun e => s.lastVisit e.1)).foldl (fun a x => max a (x + 1)) 0)

def State.noBlocks (s : State) : Bool := s.plc.cur.elim true (fun p => p.blocks.isEmpty)
def State.allBlockChans (s : State) : List (Nat × Nat) := (List.range 24).flatMap s.blockChans

/-- RANGE, ADDRESS, PENDING. -/
def State.glazePre (s : State) (e : QEntry) (ue : Bool) : List (Bool × Nat) :=
  let keep := e.flag 3
  let src := e.words 4 2
  let n := e.word 7
  [(e.flagsBad 9 || decide (e.word 3 ≠ 0) || (!keep && (decide (n = 0) || decide (4096 < n) || decide (4096 < e.word 6 + n))), 1),
   (!keep && (decide (src % 4 ≠ 0) || decide (csramBytes < src + 4 * n) || ue), 11), (s.beam.switch_.isSome, 6)]
/-- ALIGN, LATE. -/
def State.glazePost (s : State) (x : Nat) : List (Bool × Nat) := [(decide (x % 256 ≠ 0), 3), (decide (x < s.visitedTo), 4)]
def State.glazeFound (s : State) (margin : Nat) : Option Nat :=
  if s.noBlocks then some 0
  else (s.safeFrom s.allBlockChans margin).map (fun x => alignUp (max x s.visitedTo) 256)
def State.glazeJudge (s : State) (e : QEntry) (ue : Bool) : Verdict :=
  judge e.next (s.glazePre e ue) (e.words 8 3) (s.glazeFound (e.word 2)) s.glazePost

/-- The words of a gain bank. -/
def State.bankWords (s : State) (b : Nat) : List W32 := (List.range 4096).map (fun i => s.reg (oGain b i))
/-- A gain bank filled. -/
def State.fillBank (s : State) (b : Nat) (ws : List W32) : State :=
  (List.zip (List.range 4096) ws).foldl (fun s q => s.setReg (oGain b q.1) q.2) (s.clean 9 0 (gainByte b 0) (gainByte b 4096))

/-- The words a GLAZE with KEEP = 0 leaves in the inactive bank: SRC's, and the active bank's elsewhere. -/
def State.glazeWords (s : State) (first : Nat) (src : List W32) : List W32 :=
  let act := s.bankWords (b2n s.beam.active)
  act.take first ++ src ++ act.drop (first + src.length)

/-- GLAZE's effect: the inactive bank prepared (`words`, or kept), and a switch pending, or made at once where no beam block
is placed. -/
def State.glazeApply (s : State) (x : Nat) (words : Option (List W32)) (op : Option Nat) : State :=
  let s := words.elim s (s.fillBank (b2n (!s.beam.active)))
  if s.noBlocks then
    (s.setBeam fun b => { b with active := !b.active, switch_ := none, switched := x }).opDone? op qDone
  else s.setBeam fun b => { b with switch_ := some (x, op) }

/-! ### ARM and DISARM (R153, R154, R159, R162, R163) -/

/-- A unit whose parameters lie outside R153, or that is of a reserved kind, or names what is not there. DESIGN CHOICE (log 105): a GROUP of
24 to 31, outside the range of R165, is such a name; and a unit of kind NONE is never bad, whatever its SRC and parameters. -/
def State.unitBad (s : State) (e i u : Nat) : Bool :=
  let p := s.unitPar e i u
  let src := s.unitSrc e i u
  let t := s.unitTimeout e i u
  decide (p.kind ≠ 0) && (decide (4 < p.kind) || decide (23 < fld src 26 5) || (bit src 31 && decide (fld src 24 2 = 3))
    || (match p.kind with
      | 1 => decide (p.wmin = 0) || decide (p.wmax < p.wmin)
      | 2 => decide (p.hi ≤ p.lo) || decide (p.wmax = 0)
      | 3 => decide (t = 0) || decide (2 ^ 31 < t)
      | _ => decide (p.k = 0)))

/-- Slot conditions that break R163. DESIGN CHOICE (log 105): a unit of kind NONE watches no group, and so none different. -/
def State.condBad (s : State) (e i : Nat) : Bool :=
  let k0 := s.unitKind e i 0
  let k1 := s.unitKind e i 1
  (decide (k0 = 0) && decide (k1 = 0)) || s.unitBad e i 0 || s.unitBad e i 1
    || (decide (k0 ≠ 0) && decide (k1 ≠ 0) && decide (fld (s.unitSrc e i 0) 26 5 ≠ fld (s.unitSrc e i 1) 26 5))

/-- The engine's ring breaks R162. -/
def State.engRingBad (s : State) (e : Nat) : Bool :=
  let r := s.rf (oEng e) 0 15
  !(decide (r < s.nRings) && s.rDrop r && decide (s.rFmt r = 2))

/-- The engine and slot of TARGET, and whether it names none of the part's (R3, R220). -/
def QEntry.eng (e : QEntry) : Nat := e.word 2 % 4
def QEntry.slot (e : QEntry) : Nat := e.word 2 / 256 % 16
def State.targetBad (s : State) (e : QEntry) : Bool :=
  e.flagsBad 0 || decide (e.word 2 &&& 0xF03 ≠ e.word 2) || decide (s.nEng ≤ e.eng)

/-- RANGE, STATE, RING, CONDITION. -/
def State.armJudge (s : State) (e : QEntry) : Verdict :=
  judge false [(s.targetBad e, 1), ((s.slot (16 * e.eng + e.slot)).armed || (s.placedEng e.eng).isNone, 2), (s.engRingBad e.eng, 8),
    (s.condBad e.eng e.slot, 10)] 0 none (fun _ => [])

/-- A slot armed: it starts in state 0. No step has been processed since ARM: the LAST of the last one, which a TIMEOUT met before
any step takes for T and n_in, is stated nowhere and left open (DESIGN CHOICE, log 102). -/
def State.armSlot (s : State) (e i : Nat) : State :=
  let u := { LtnUnit.init with since := s.time.ticks }
  let (f, s) := s.free
  s.setSlot (16 * e + i) { LtnSlot.init with armed := true, last := f.toNat % 2 ^ 48, u0 := u, u1 := u }

/-- ARM's effect: the slot is armed, and an IDLE engine begins to fill, behind the items of the active part that still wait for it in
a standby (R351). -/
def State.armApply (s : State) (e i : Nat) : State :=
  let s := s.armSlot e i
  let v := s.ltn e
  if v.items.isEmpty then s.engBegin e else s.setLtn e { v with items := v.items ++ [.start] }

def State.disarmJudge (s : State) (e : QEntry) : Verdict :=
  judge false [(s.targetBad e, 1), (!(s.slot (16 * e.eng + e.slot)).armed, 2)] 0 none (fun _ => [])
/-- DISARM's effect: the slot is disarmed, and the engine's last slot lets it rest. -/
def State.disarmApply (s : State) (e i : Nat) : State :=
  (s.setSlot (16 * e + i) { s.slot (16 * e + i) with armed := false }).engRest e

/-! ### PLACE (R166 to R171, R223, R229) -/

/-- Where the plan and the record lie, and whether they are misaligned or reach past control SRAM. -/
def State.placeAddrBad (s : State) (plan rec : Nat) : Bool :=
  decide (plan % 64 ≠ 0) || decide (rec % 64 ≠ 0) || decide (csramBytes < rec + 2048) || decide (csramBytes < plan + 1216)
    || decide (csramBytes < plan + planBytes (min 4096 (rdLe s.csram (plan + 4) 2)))

/-- The bytes of the plan at an offset. -/
def State.planLen (s : State) (plan : Nat) : Nat := planBytes (min 4096 (rdLe s.csram (plan + 4) 2))

/-- A kiln's descriptor altered (R169). -/
def KilnPlace.altered (a : KilnPlace) (p : Plan) (d : KilnDesc) : Bool :=
  decide (a.inputs ≠ p.inputs d.pos d.n) || decide ({ a.desc with pos := 0 } ≠ { d with pos := 0 })

/-- An engine that must be kept: a slot armed, a capture in progress, or a frozen buffer. -/
def State.engHeld (s : State) (e : Nat) : Bool :=
  let v := s.ltn e
  s.anyArmed e || decide (v.state = 3) || decide (v.state = 4) || !v.frozen.isEmpty

/-- The plan omits or alters what must be kept (KEPT). -/
def State.placeKept (s : State) (p : Plan) : Bool :=
  s.plc.cur.elim false (fun c =>
    c.kilns.any (fun e => (s.kiln e.1).live && (p.kilns.find? (fun x => x.1 == e.1)).elim true (fun x => e.2.altered p x.2))
    || c.engines.any (fun e => s.engHeld e.1 && (p.engines.find? (fun x => x.1 == e.1)).elim true (fun x => decide (x.2 ≠ e.2.desc))))

/-- A placement that would take effect at acceptance (R169). -/
def State.placeNow (s : State) : Bool :=
  s.plc.cur.isNone || ((List.range 16).all (fun k => !(s.kiln k).live) && (List.range 24).all (fun m => !(s.block m).steered))

/-- A boundary of a kiln to come: one of AUTO's, or a pending FIRE (R169). -/
def State.boundaryAt (s : State) (k x : Nat) : Bool :=
  let v := s.kiln k
  if s.auto k then (s.placedKiln k).elim false (fun p => decide (v.s0 < x) && decide ((x - v.s0) % p.desc.ilen = 0))
  else v.pend.any (fun e => e.1 == x)

/-- The checks of PLACE: RANGE, ADDRESS, STATE, PENDING, KEPT, ALIGN, LATE. -/
def State.placeJudge (s : State) (e : QEntry) (p : Plan) (ue : Bool) : Verdict :=
  let open_ := (List.range 16).filter (fun k => (s.kiln k).live)
  let later := !s.placeNow
  judge false
    [(e.flagsBad 0, 1), (s.placeAddrBad (e.words 2 2) (e.words 4 2) || ue, 11),
     (p.kilns.any (fun k => decide ((s.kiln k.1).state = 4) || (s.kiln k.1).endAt.isSome), 2), (s.plc.pend.isSome, 6), (s.placeKept p, 9),
     (later && (decide (p.effect % 256 ≠ 0) || !open_.all (fun k => s.boundaryAt k p.effect)), 3),
     (later && (s.lastReleased (p.ranges.map (fun r => (r.1, r.2.1)))).elim false (fun b => decide (p.effect / 128 ≤ b)), 4)]
    p.effect none (fun _ => [])

/-- An accepted placement: in effect at once, or pending for EFFECT. -/
def State.placeTake (s : State) (p : Placement) : State :=
  if s.placeNow then s.placeEffect p 0 else s.setPlc fun q => { q with pend := some p }

/-- The record of an accepted placement under the environment it was computed in. -/
def State.placeRecord (s : State) (p : Plan) (env : PlaceEnv) (x : Placement) : List Byte :=
  let spread := match p.layout env with
    | .ok l => l.spread
    | .error _ => 0
  x.record s.placeNow (16 * env.slices.length) spread (fun t => !s.availTiles.contains t)

end Sys2Proof.Machine
end

