-- ==== Sys2Proof/Machine/Beacon.lean ====
section
/-! DEFINITION. The beacon network: delivery, task inputs, groups, locks, and the FIRE of a kiln's task input (R317 to R331). -/

namespace Sys2Proof.Machine

def oTask (t : Nat) : Nat := 0x200400 + 4 * t
def oTaskStat (t : Nat) : Nat := 0x200600 + 4 * t

/-- Hop counts of the events pending at a task input, oldest first, and a state with them replaced. -/
def State.pend (s : State) (t : Nat) : List Nat := tget [] s.bcn.pend t
def State.setPend (s : State) (t : Nat) (l : List Nat) : State :=
  { s with bcn := { s.bcn with pend := tset [] s.bcn.pend t l } }

/-! ### Wake events (R330, R374, R388) -/

/-- The state that leaving Doze leads to in the end: Run if REQ says so, else Idle. -/
def State.afterDoze (s : State) : Nat := if s.rf 0x100000 30 2 = 0 ∨ s.rf 0x100000 30 2 = 3 then 0 else 1

/-- The change that leaves Doze begins. -/
def State.leaveDoze (s : State) : State :=
  ({ s with pwr := { s.pwr with change := some ⟨1, s.afterDoze, s.time.ticks, false⟩, wake := false } } : State).setRb 0x100000 27 true

/-- A wake event: Doze ends, or ends at once when its entry has completed. -/
def State.wakeEvent (s : State) : State :=
  match s.pwr.change with
  | some c => if c.final = 2 then { s with pwr := { s.pwr with wake := true } } else s
  | none => if s.dozing then s.leaveDoze else s

/-! ### Task inputs (R320 to R322) -/

/-- The events of task input `t` that its consumer takes at once: Keeper interrupts while the core's island runs, and the
group switches. A kiln takes its own (R323). -/
def State.taskTake (s : State) (t : Nat) : State :=
  if t < 64 then
    if s.up ∧ s.pend t ≠ [] then (s.setPend t []).setIp (t / 8) (BitVec.ofNat 8 (2 ^ (t % 8))) else s
  else if 80 ≤ t ∧ t < 96 ∧ s.pend t ≠ [] then (s.setPend t []).setRb 0x200030 (t - 80) true
  else if 96 ≤ t ∧ t < 112 ∧ s.pend t ≠ [] then (s.setPend t []).setRb 0x200030 (t - 96) false
  else s

/-- Whether an event that reaches task input `t` now meets another there: one is pending, or an input that is taken at once
has admitted one at this tick (R322, R331; DESIGN CHOICE, log 91: the same instant is the same tick). -/
def State.taskMeets (s : State) (t : Nat) : Bool :=
  decide (s.pend t ≠ []) || (!(decide (64 ≤ t) && decide (t < 80)) && decide (tget 0 s.bcn.admitAt t = s.time.ticks + 1))

/-- An event with hop count `h` admitted at task input `t`, or lost at PEND = 3. -/
def State.taskAdmit (s : State) (t h : Nat) : State :=
  let p := s.pend t
  let s :=
    if p.length < 3 then
      let meets := s.taskMeets t
      let s := s.setPend t (p ++ [h])
      let s := { s with bcn := { s.bcn with admitAt := tset 0 s.bcn.admitAt t (s.time.ticks + 1) } }
      if meets then s.setRb (oTaskStat t) 31 true else s
    else s.cntF (oTaskStat t) 0 16 1
  let s := if s.rb (oTask t) 30 then s.wakeEvent else s
  s.taskTake t

/-- Whether task input `t` is subscribed to channel `c` (R321). -/
def State.subscribed (s : State) (t c : Nat) : Bool := s.rb (oTask t) 31 && decide (s.rf (oTask t) 16 7 = c)

/-! ### Delivery (R317, R324, R326, R329) -/

/-- An event delivered on channel `c`: flag and counter, subscribed task inputs, and watchers. -/
def State.deliverEvent (s : State) (c h : Nat) : State :=
  let s := s.setRb (0x200000 + 4 * (c / 32)) (c % 32) true
  let s := s.setReg (0x200100 + 4 * c) (lo32 (((s.reg (0x200100 + 4 * c)).toNat + 1) % 2 ^ 16))
  let s := (List.range 112).foldl (fun s t => if s.subscribed t c then s.taskAdmit t h else s) s
  let s := (s.waitbEvent c).dmaEvent c
  s.capInstant (s.capNow c h)

/-- BEACON_DELIVERY: the event number `i` on its way. One whose hop count is 7 is dropped. -/
def execBeaconDelivery (i : Nat) (s : State) : Host.Outcome State Fault Refusal :=
  match s.bcn.flight[i]? with
  | some (c, h) =>
    gate s.auxUp s fun s =>
      let s := { s with bcn := { s.bcn with flight := s.bcn.flight.eraseIdx i } }
      if 7 ≤ h then s.setRb (0x200010 + 4 * (c / 32)) (c % 32) true else s.deliverEvent c h
  | none => .next s

/-- BCN_PUB (R319). -/
def execBcnPub (v : W32) (s : State) : Host.Outcome State Fault Refusal :=
  gate s.hostUp s fun s => (bitsOf 8 v.toNat).foldl (fun s i => s.publish (120 + i)) s

/-- Whether channel `c` is locked (R328). -/
def State.locked (s : State) (c : Nat) : Bool := s.rb (0x200020 + 4 * (c / 32)) (c % 32)

/-- A write of a task input: ignored while the channel it names, or the one it would name, is locked; EN = 0 discards its
pending events (R321, R328). -/
def State.taskWrite (s : State) (t : Nat) (v : W32) : State :=
  if s.locked (s.rf (oTask t) 16 7) || s.locked (fld v 16 7) then s
  else
    let s := s.plainWrite (oTask t) v
    if bit v 31 then s else s.setPend t []

/-- BCN_TASK_WRITE. -/
def execBcnTaskWrite (t : Nat) (v : W32) (s : State) : Host.Outcome State Fault Refusal :=
  gate (s.hostUp && decide (t < 112)) s fun s => s.taskWrite t v

/-! ### The FIRE task input (R323, R329) -/

/-- The event taken by a kiln's FIRE input judged as a FIRE with NEXT: a fault records its cause, a wait keeps it taken, and an
accepted one sets the boundary under the event's hop count plus 1. -/
def State.taskFire (s : State) (k hop margin : Nat) : State :=
  match judge true (s.firePre k false) 0 (s.fireFound k margin) (s.firePost k) with
  | .fault c => (s.setKiln k { s.kiln k with task := none }).setRf (oTaskStat (64 + k)) 16 8 c
  | .wait => s.setKiln k { s.kiln k with task := some (hop, margin) }
  | .go x =>
    ((s.setKiln k { s.kiln k with task := none }).fireApply k x (hop + 1) none).sendConduct
      ⟨0xFF, 0, 3, [0, 0, BitVec.ofNat 16 k], x, [], [], [], 0, []⟩

/-- KLN_FIRE_TASK: the next pending event is taken, or the one taken before and still waiting for a release is tried again. In
follow mode it has no effect. -/
def execKlnFireTask (k : Nat) (s : State) : Host.Outcome State Fault Refusal :=
  gate (s.up && decide (k < 16) && (s.standby || s.sagRoom)) s fun s =>
    match (s.kiln k).task, s.pend (64 + k) with
    | some (h, m), _ => if s.standby then s.setKiln k { s.kiln k with task := none } else s.taskFire k h m
    | none, h :: t =>
      let s := s.setPend (64 + k) t
      if s.standby then s else s.taskFire k h (s.rf (oTask (64 + k)) 0 16)
    | none, [] => s

end Sys2Proof.Machine
end

