-- ==== Sys2Proof/Machine/Mem.lean ====
section
/-! DEFINITION. The memory controllers: refresh, row activations, power-down, retraining, self-refresh, scrub passes, and
the maintenance token they share (R274 to R278, R288 to R290). -/

namespace Sys2Proof.Machine

/-! ### Islands that stop (R23, R278, R372, R376) -/

def oPwr : Nat := 0x100000
def State.pwrCur (s : State) : Nat := s.rf oPwr 28 2

/-- Whether an island runs in a power state: Idle stops the tile islands, Doze all but 492, 494 and 495; THERM_TRIP all but those
on VDD_AUX. Self-refresh stops a quarter's (R278). -/
def State.islandOn (s : State) (n : Nat) : Bool :=
  if s.pwr.tripped then n == 494 || n == 495
  else if s.pwrCur = 2 then n == 492 || n == 494 || n == 495
  else !(s.pwrCur == 1 && decide (n < 256)) && !(decide (416 ≤ n) && decide (n < 448) && (s.quarter (n - 416)).selfRef)

/-- VALID of an island that has stopped is clear, and the present gate has a stop in it (R23). -/
def State.stopIsland (s : State) (n : Nat) : State :=
  if s.hasIsland n && !s.islandOn n then
    let s := s.setPwr fun p => { p with stopped := n :: p.stopped.filter (· ≠ n) }
    if s.rb (0x104000 + 4 * n) 31 then s.setRb (0x104000 + 4 * n) 31 false else s
  else s
def State.stopIslands (s : State) : State := (List.range 497).foldl State.stopIsland s

/-! ### Changes of power state (R372 to R374, R389) -/

/-- A change of state begins. -/
def State.startChange (s : State) (dest final : Nat) (fromRun : Bool := false) : State :=
  (s.setPwr fun p => { p with change := some ⟨dest, final, s.time.ticks, fromRun⟩ }).setRb oPwr 27 true
/-- No change is in progress any more. -/
def State.endChange (s : State) : State := (s.setPwr fun p => { p with change := none }).setRb oPwr 27 false

/-! ### Registers of a stack -/

def oMem (s : Nat) : Nat := 0x700000 + 0x10000 * s

/-- The work of a token's holder ended (R290). -/
def State.freeToken (s : State) (q : Nat) : State := s.setQuarter q { s.quarter q with holder := none }

/-- Whether a request of a rank waits. -/
def Quarter.waits (v : Quarter) (rank : Nat) : Bool := v.queue.any (fun r => r.rank == rank)

/-! ### Scrub passes (R288) -/

/-- START and LENGTH of a pass obey R220. -/
def scrubOk (stack start len : Nat) : Bool :=
  decide (start % 64 = 0) && decide (len % 64 = 0) && decide (0 < len) && decide (stack * stackBytes ≤ start)
    && decide (start + len ≤ (stack + 1) * stackBytes)

def State.scrubs (s : State) (st : Nat) : List ScrubPass := tget [] s.mem.scrubs st
def State.setScrubs (s : State) (st : Nat) (l : List ScrubPass) : State :=
  s.setMem fun m => { m with scrubs := tset [] m.scrubs st l }

/-- The pass at the head of a stack asks for the token of the quarter its next step lies in. -/
def State.askStep (s : State) (st : Nat) : State :=
  match s.scrubs st with
  | p :: _ => if p.next < p.start + p.len then s.askToken (devQuarter p.next) ⟨3, 0, 0⟩ else s
  | [] => s

/-- A pass requested: it runs after those requested before it. -/
def State.askScrub (s : State) (by_ : ScrubBy) (st start len : Nat) : State :=
  let l := s.scrubs st
  let s := s.setScrubs st (l ++ [⟨by_, st, start, len, start, 0, 0, none, 0, none, 0⟩])
  if l.isEmpty then s.askStep st else s

/-- The end of the step that holds `next`: the next multiple of 1 MiB of stack offset, or the end of the range. -/
def ScrubPass.stepEnd (p : ScrubPass) : Nat :=
  min (p.start + p.len) (p.stack * stackBytes + ((p.next - p.stack * stackBytes) / 1048576 + 1) * 1048576)

/-- The bytes of a summary (R289). -/
def ScrubPass.summary (p : ScrubPass) : List Byte :=
  leBytes 8 (p.len / 64) ++ leBytes 4 p.corrected ++ leBytes 4 p.uncorr
    ++ leBytes 8 (p.first.getD (2 ^ 64 - 1)) ++ leBytes 4 (p.startNs.getD 0#32).toNat ++ leBytes 4 p.endNs.toNat
    ++ leBytes 4 p.poisoned ++ List.replicate 28 0

/-! ### Commands of MEM_CMD (R275, R278) -/

/-- Whether self-refresh of a quarter is wanted: by MEM_CMD.SREF or by Doze. -/
def State.wantsSref (s : State) (q : Nat) : Bool := s.rb (oMem (q / 4)) (4 + q % 4) || (s.quarter q).doze

/-- Self-refresh asked for, or no longer asked for. -/
def State.srefAsk (s : State) (q : Nat) : State :=
  let v := s.quarter q
  if s.wantsSref q then if v.selfRef || v.waits 4 then s else s.askToken q ⟨4, 0, 0⟩
  else s.setQuarter q { v with queue := v.queue.filter (fun r => r.rank ≠ 4) }

/-- A write of MEM_CMD: RETRAIN bits written 1 request retraining, and SREF bits request or end self-refresh. -/
def State.memCmd (s : State) (st : Nat) (v : W32) : State :=
  let old := s.reg (oMem st)
  let s := s.plainWrite (oMem st) v
  (List.range 4).foldl (fun s c =>
    let s := if bit v c && !bit old c then s.askToken (4 * st + c) ⟨2, 0, 0⟩ else s
    s.srefAsk (4 * st + c)) s

/-- A write of MEM_SCRUB_CTL: GO requests a host pass, unless that set's pass is pending or running or its range breaks
R220. -/
def State.scrubCtl (s : State) (st : Nat) (v : W32) : State :=
  let s := s.plainWrite (oMem st + 0x20) v
  let start := s.reg64 (oMem st + 0x28)
  let len := s.reg64 (oMem st + 0x30)
  if bit v 31 && !s.rb (oMem st + 0x20) 30 && scrubOk st start len then
    (s.setRb (oMem st + 0x20) 30 true).askScrub .host st start len
  else s

/-! ### The token (R290) -/

/-- The waiting request of the highest rank, the first of its rank, and the rest. -/
def takeRank (l : List MaintReq) : Option (MaintReq × List MaintReq) :=
  match (l.map (·.rank)).min? with
  | none => none
  | some r => (l.find? (fun x => x.rank == r)).map (fun x => (x, l.erase x))

/-- A request starts its work: self-refresh is entered at once; the first read of a pass sets START_NS. -/
def State.startWork (s : State) (q : Nat) (r : MaintReq) : State :=
  if r.rank = 4 then
    ((s.setQuarter q { s.quarter q with selfRef := true }).setRb (oMem (q / 4) + 4) (q % 4) true).stopIsland (416 + q)
  else if r.rank = 3 then
    match s.scrubs (q / 4) with
    | p :: t => s.setScrubs (q / 4) ({ p with startNs := some (p.startNs.getD s.ns) } :: t)
    | [] => s
  else s

/-- Whether the holder can hand the token over: none holds it, or a scrub step that a neighbour refresh or retraining
pauses at the next line. -/
def Quarter.canGrant (v : Quarter) : Bool :=
  match v.holder with
  | none => !v.queue.isEmpty
  | some h => h.rank == 3 && (v.waits 1 || v.waits 2)

/-- The token passes to the highest-ranked waiting request; a paused scrub step waits at the front again. -/
def State.grantToken (s : State) (q : Nat) : State :=
  let v := s.quarter q
  match takeRank v.queue with
  | none => s
  | some (r, rest) =>
    let rest := match v.holder with
      | some h => h :: rest
      | none => rest
    let s := s.setQuarter q { v with holder := some r, since := s.time.ticks, queue := rest
                                     paused := v.holder.isSome || (v.paused && r.rank != 3) }
    s.startWork q r

/-! ### The commands -/

/-- Whether a quarter exists on the part's grade. -/
def State.hasQuarter (s : State) (q : Nat) : Bool := decide (q / 4 < s.nStacks)

/-- The refresh window of a temperature band, in ms (R276). -/
def bandMs (band : Nat) : Nat := [32, 16].getD band 8

/-- The refresh window of a stack in ms, as the present interval has it. -/
def State.windowOf (s : State) (st : Nat) : Nat := let w := tget 0 s.mem.windowMs st; if w = 0 then 32 else w

/-- The refresh interval of a stack in 1/128 tick: its window divided by 8,192 (R276). -/
def State.refInterval (s : State) (st : Nat) : Nat := s.windowOf st * 625000 * 128 / 8192

/-- REFRESH_INTERVAL (R276): an interval of the stack's window is over; the bank owes one more, less those issued in the
interval; at eight one is forced. A new band's window applies from here. -/
def execRefreshInterval (p bank issued dt : Nat) (s : State) : Host.Outcome State Fault Refusal :=
  gate (s.up && decide (p / 64 < s.nStacks) && decide (bank < 64) && !(s.quarter (p / 16)).selfRef
      && decide (tget 0 s.mem.refAt (64 * p + bank) + s.refInterval (p / 64) ≤ 128 * (s.time.ticks + dt))) s fun s =>
    let s := s.advance dt
    let st := p / 64
    let i := 64 * p + bank
    let at_ := tget 0 s.mem.refAt i + s.refInterval st
    let at_ := if at_ + s.refInterval st ≤ 128 * s.time.ticks then 128 * s.time.ticks else at_
    let s := s.setMem fun m => { m with refAt := tset 0 m.refAt i at_ }
    let due := tget 0 s.mem.owed i + 1
    let owed := due - min due issued
    let s := s.setMem fun m => { m with windowMs := tset 0 m.windowMs st (bandMs (s.rf (oMem st + 4) 22 2)) }
    let s := s.setMem fun m => { m with pdown := if issued = 0 ∧ owed < 8 then m.pdown else m.pdown.filter (· ≠ p) }
    if owed ≥ 8 then (s.setMem fun m => { m with owed := tset 0 m.owed i 7 }).cnt (oMemCnt (p / 16) 2) 1
    else s.setMem fun m => { m with owed := tset 0 m.owed i owed }

/-- REFRESH_WINDOW_END (R276, R277): the stack's window is over, and its activation tables are cleared. -/
def execRefreshWindowEnd (st dt : Nat) (s : State) : Host.Outcome State Fault Refusal :=
  gate (s.up && decide (st < s.nStacks)
      && decide (tget 0 s.mem.windowAt st + tMs (s.windowOf st) ≤ s.time.ticks + dt)) s fun s =>
    let s := s.advance dt
    s.setMem fun m => { m with acts := m.acts.filter (fun e => e.1 / 4096 ≠ st), windowAt := tset 0 m.windowAt st s.time.ticks }

/-- HBM_POWER_DOWN (R278): `dt` ticks with no request, at least MEM_PD_IDLE. -/
def execHbmPowerDown (p dt : Nat) (s : State) : Host.Outcome State Fault Refusal :=
  let idle := s.rf (oMem (p / 64) + 12) 0 16
  gate (s.up && decide (p / 64 < s.nStacks) && decide (idle ≠ 0) && decide (5 * idle ≤ 8 * dt)
      && !s.mem.pdown.contains p) s fun s =>
    (s.advance dt).setMem fun m => { m with pdown := m.pdown ++ [p] }

/-- MEM_SREF_REQUEST (R278): a write of MEM_CMD. -/
def execMemSrefRequest (st : Nat) (v : W32) (s : State) : Host.Outcome State Fault Refusal :=
  writeGate (decide (st < s.nStacks)) s fun s => s.memCmd st v

/-- MEM_RETRAIN_REQUEST (R275): a write of MEM_CMD. -/
def execMemRetrainRequest (st : Nat) (v : W32) (s : State) : Host.Outcome State Fault Refusal :=
  writeGate (decide (st < s.nStacks)) s fun s => s.memCmd st v

/-- MAINT_TOKEN_GRANT (R290). -/
def execMaintTokenGrant (q : Nat) (s : State) : Host.Outcome State Fault Refusal :=
  gate (s.up && s.hasQuarter q && (s.quarter q).canGrant) s fun s => s.grantToken q

/-- Whether the token of a quarter is held for a rank of work. -/
def State.holds (s : State) (q rank : Nat) : Bool := (s.quarter q).holder.elim false (fun h => h.rank == rank)

/-- RETRAIN_DONE (R275): a failure keeps the earlier training, sets RTFAIL, and is logged. The manual gives that entry no
ACCESS code and no address: they are open. -/
def execRetrainDone (q dt : Nat) (ok : Bool) (s : State) : Host.Outcome State Fault Refusal :=
  gate (s.up && s.holds q 2) s fun s =>
    let s := ((s.advance dt).setRb (oMem (q / 4)) (q % 4) false).freeToken q
    if ok then s
    else
      let s := s.setRb (oMem (q / 4) + 4) (8 + q % 4) true
      let (x, s) := s.free
      let (y, s) := s.free
      s.logError ⟨0, s.ns, false, false, 0, x.toNat % 256, 0xFF, q, 0, y.toNat, 0⟩

/-- SELF_REFRESH_EXIT (R278): the quarter reuses its training and owes no refresh. -/
def execSelfRefreshExit (q dt : Nat) (s : State) : Host.Outcome State Fault Refusal :=
  gate (s.auxUp && s.hasQuarter q && (s.quarter q).selfRef && !s.wantsSref q) s fun s =>
    let s := s.advance dt
    let s := s.setMem fun m => { m with acts := m.acts.filter (fun e => e.1 / 1024 ≠ q)
                                        owed := m.owed.filter (fun e => e.1 / 1024 ≠ q) }
    (s.setQuarter q { s.quarter q with selfRef := false, holder := none }).setRb (oMem (q / 4) + 4) (q % 4) false

/-- NEIGHBOUR_REFRESH_DONE (R277, R290). -/
def execNeighbourRefreshDone (q : Nat) (s : State) : Host.Outcome State Fault Refusal :=
  gate (s.up && s.holds q 1) s fun s => (s.cnt (oMemCnt q 3) 1).freeToken q

/-- SCRUB_GO (R288): a write of MEM_SCRUB_CTL. -/
def execScrubGo (st : Nat) (v : W32) (s : State) : Host.Outcome State Fault Refusal :=
  writeGate (decide (st < s.nStacks)) s fun s => s.scrubCtl st v

/-- A step of the pass at the head of a stack: every line up to the step's end is read, corrected where it can be, and
counted (R288). -/
def State.scrubStep (s : State) (p : ScrubPass) (t : List ScrubPass) : State :=
  let e := p.stepEnd
  let ce := ((s.upsetsIn 0 0 p.next e).filter (fun u => !u.ue)).length
  let (bad, s) := s.scan 0 0 p.next e 7 0 false
  let s := s.touch p.next (e - p.next)
  let poi := (s.err.poison.filter (fun l => decide (p.next ≤ l) && decide (l < e))).length
  let p' := { p with next := e, corrected := p.corrected + ce, uncorr := p.uncorr + bad.length
                     first := p.first.or bad.head?, poisoned := p.poisoned + poi, endNs := s.ns }
  s.setScrubs p.stack (p' :: t)

/-- SCRUB_STEP_DONE (R288): the step's token is released and the next step asks for its own. -/
def execScrubStepDone (st dt : Nat) (up : Option Upset) (s : State) : Host.Outcome State Fault Refusal :=
  gate (s.up && decide (st < s.nStacks)
      && (s.scrubs st).head?.elim false (fun p => s.holds (devQuarter p.next) 3)) s fun s =>
    let s := (s.advance dt).upset up
    match s.scrubs st with
    | p :: t => ((s.scrubStep p t).freeToken (devQuarter p.next)).askStep st
    | [] => s

/-- ECC_LOG_POP (R287). -/
def execEccLogPop (v : W32) (s : State) : Host.Outcome State Fault Refusal :=
  writeGate (bit v 0) s fun s => s.logPop

end Sys2Proof.Machine
end

