-- ==== Sys2Proof/Machine/Conduct.lean ====
section
/-! DEFINITION. Conduct instructions from issue to completion: the queue's stages, acceptance of each operation, barriers, POST and
SCRUB (R218 to R233, R288, R289). -/

namespace Sys2Proof.Machine

/-! ### Issue (R218, R219, R221, R233) -/

def State.setFollow (s : State) (k : Nat) (l : List FollowEntry) : State :=
  s.setPair fun p => { p with follow := tset [] p.follow k l }

/-- The conduct instruction has no room: its queue is full, or in a standby its follow log. -/
def State.noRoom (s : State) (k : Nat) : Bool :=
  decide (64 ≤ (s.queue k).length) || (s.standby && decide (64 ≤ (s.followLog k).length))

/-- The core stalls on the conduct instruction, which has not issued. -/
def State.kStall (s : State) (k : Nat) : State :=
  let c := s.core k
  if c.run = 1 then s.setCore k { c with run := 3, since := s.time.ticks } else s

/-- A conduct instruction that issues: its entry at the tail with its block as it stands. -/
def State.kEnqueue (s : State) (k cop : Nat) (block : List W16) : State :=
  let s := s.kWake k
  let c := s.core k
  let n := tget 0 s.cq.issued k
  let e : QEntry := ⟨cop, n, c.pc, block, 0, c.store, 0, [], [], [], []⟩
  let s := (s.setQueue k (s.queue k ++ [e])).setCq fun q => { q with issued := tset 0 q.issued k (n + 1) }
  (s.cqCnt k 0).kApply k c (.ok c.beforeIssue false)

/-- The block's words: those read with an uncorrectable error trap the instruction. -/
def State.kBlock (s : State) (k a n : Nat) : Bool × List W16 × State :=
  let (bad, s) := s.scan 5 k (2 * a) (2 * (a + n)) 9 0 false
  (!bad.isEmpty, (List.range n).map (fun i => (s.core k).rdWord (a + i)), s)

/-- A conduct instruction at the PC, given the words of its block. -/
def State.kConduct (s : State) (k : Nat) (cop : BitVec 6) (p : BitVec 3) (imm : W16) : State :=
  let (ue, s1) := s.kFetch k
  let c := s1.core k
  if c.word ≠ encC cop p imm then s
  else if ue then s1.kTrap k 2 0
  else if !(conductOk cop p imm && placeOk c c.word) then s1.kTrap k 1 0
  else
    match copWords cop.toNat with
    | some 0 => if s1.noRoom k then s1.kStall k else s1.kEnqueue k cop.toNat [imm]
    | some n =>
      let a := (blockAddr c p imm).toNat
      if 0x8000 < a + n then s1.kTrap k 4 2
      else if s1.noRoom k then s1.kStall k
      else
        let (bad, ws, s2) := s1.kBlock k a n
        if bad then s2.kTrap k 4 1 else s2.kEnqueue k cop.toNat ws
    | none => s

/-- CONDUCT_ISSUE (R219, R221): any conduct instruction but HALT, which enters no queue. -/
def execConductIssue (k : Nat) (cop : BitVec 6) (p : BitVec 3) (imm : W16) (up : Option Upset) (s : State) :
    Host.Outcome State Fault Refusal :=
  gate (s.kUp && s.kIssues k && decide (cop ≠ 0x1F)) s fun s => (s.upset up).kConduct k cop p imm

/-- HALT (R221, R223, R232): the core halts as it issues, with WHY = 2. -/
def execHalt (k : Nat) (s : State) : Host.Outcome State Fault Refusal :=
  gate (s.kUp && s.kIssues k) s fun s =>
    let (ue, s1) := s.kFetch k
    let c := s1.core k
    if c.word ≠ encC 0x1F 0 0 then s
    else if ue then s1.kTrap k 2 0
    else if !(placeOk c c.word) then s1.kTrap k 1 0
    else
      let s := s1.kWake k
      (s.kApply k (s.core k) (.ok (s.core k).beforeIssue false)).kHalt k 2

/-! ### Dispatch (R221, R372) -/

/-- The entry at the head that may be dispatched: every store issued before it has completed. -/
def State.ready? (s : State) (k : Nat) : Option QEntry :=
  match s.qHead k with
  | some e => if e.stage = 0 ∧ e.store = false then some e else none
  | none => none

/-- In Idle an OPEN, STEER or ARM waits at dispatch while the part returns to Run. -/
def State.wakesRun (s : State) (cop : Nat) : Bool := s.rf 0x100000 28 2 == 1 && [2, 5, 7].contains cop

/-- CONDUCT_DISPATCH (R221): the head entry goes to its unit. A barrier's dispatch is its own row. -/
def execConductDispatch (k : Nat) (s : State) : Host.Outcome State Fault Refusal :=
  match s.ready? k with
  | some e =>
    gate (s.up && decide (k < 8) && !isBarrier e.cop) s fun s =>
      if s.wakesRun e.cop then
        if s.pwr.change.isSome then s else s.startChange 0 0
      else s.qSetHead k { e with stage := 1 }
  | none => .next s

/-! ### Acceptance (R221, R223, R227, R229, R233) -/

/-- The entry at the head that its unit has before it, if its COP is this one. -/
def State.atUnit (s : State) (k cop stage : Nat) : Option QEntry :=
  match s.qHead k with
  | some e => if e.cop = cop ∧ e.stage = stage then some e else none
  | none => none

/-- Follow mode: the operation has no effect here, completes with FOLLOWED, and is logged unless its item or the snapshot came
before it. A full log holds it. -/
def State.followed (s : State) (k : Nat) (e : QEntry) : State :=
  let known := s.pair.early.contains (k, e.issue) || (s.pair.snapIssue.find? (fun x => x.1 == k)).elim false (fun x => decide (e.issue < x.2))
  if known then
    (s.setPair fun p => { p with early := p.early.filter (· ≠ (k, e.issue)) }).qFinish k e qFollowed 0
  else if 64 ≤ (s.followLog k).length then s
  else (s.setFollow k (s.followLog k ++ [⟨e.issue, e.cop, e.block⟩])).qFinish k e qFollowed 0

/-- A verdict carried out on the head entry. -/
def State.settle (s : State) (k : Nat) (e : QEntry) (v : Verdict) (f : Nat → State) : State :=
  match v with
  | .fault c => s.qFault k e c
  | .wait => s.qSetHead k { e with stage := 3 }
  | .go x => f x

/-- The item of an accepted operation (R347). -/
def QEntry.item (e : QEntry) (k index : Nat) : ConductItem := ⟨k, e.issue, e.cop, e.block, index, [], [], [], 0, []⟩

/-- Ring contexts that an acceptance reads, of rings that are there (R284). -/
def State.lookAt (s : State) (rs : List Nat) : State := (rs.filter (fun r => decide (r < s.nRings))).foldl State.rLook s

def State.acceptOpen (s : State) (k : Nat) (e : QEntry) : State :=
  let s := s.lookAt (ringSet (e.word 3) (e.word 4))
  s.settle k e (s.openJudge e) fun x =>
    let j := e.word 2
    let seed := BitVec.ofNat 64 (s.reg64 (oKln j + 8))
    ((s.qFinish k e qDone 0).openApply j x (ringSet (e.word 3) (e.word 4)) seed).sendConduct { e.item k x with seed }

def State.acceptFire (s : State) (k : Nat) (e : QEntry) : State :=
  s.settle k e (s.fireJudge e) fun x =>
    ((s.qAccept k e [e.word 2]).fireApply (e.word 2) x 0 (some s.cq.nextOp)).sendConduct (e.item k x)

def State.acceptShut (s : State) (k : Nat) (e : QEntry) : State :=
  let j := e.word 2
  s.settle k e (s.shutJudge e) fun x =>
    if (s.kiln j).state = 1 then ((s.qFinish k e qDone 0).shutIdle j).sendConduct (e.item k x)
    else ((s.qAccept k e [j]).shutApply j x (some s.cq.nextOp)).sendConduct (e.item k x)

/-- Control SRAM that an operation reads at acceptance: whether it has an uncorrectable error. -/
def State.srcBad (s : State) (a n : Nat) : Bool := (s.csRead a n 10 0).1
/-- The read made where the verdict has come to it: the bytes, and the state that has met their errors. -/
def State.srcRead (s : State) (a n : Nat) (v : Verdict) : List Byte × State :=
  match v with
  | .go _ | .fault 11 => (s.csRead a n 10 0).2
  | _ => ([], s)

/-- The 64 shift words at SHIFT_ADDR. -/
def shiftWords (b : List Byte) : List W32 := (List.range 64).map (fun i => shiftWord (field b (2 * i) 2))

def State.acceptSteer (s : State) (k : Nat) (e : QEntry) : State :=
  let a := e.words 14 2
  let ue := e.flag 1 && s.srcBad a 128
  let v := s.steerJudge e ue
  let rd := if e.flag 1 then s.srcRead a 128 v else ([], s)
  rd.2.settle k e v fun x =>
    let s := rd.2
    ((s.qAccept k e []).steerApply (e.word 2) x e (if e.flag 1 then some (shiftWords rd.1) else none)
      (some s.cq.nextOp)).sendConduct (e.item k x)

/-- Words of a gain bank in control SRAM. -/
def gainWords (b : List Byte) (n : Nat) : List W32 := (List.range n).map (fun i => lo32 (field b (4 * i) 4))

def State.acceptGlaze (s : State) (k : Nat) (e : QEntry) : State :=
  let keep := e.flag 3
  let a := e.words 4 2
  let n := 4 * min 4096 (e.word 7)
  let ue := !keep && s.srcBad a n
  let v := s.glazeJudge e ue
  let rd := if keep then ([], s) else s.srcRead a n v
  rd.2.settle k e v fun x =>
    let s := rd.2
    let words := if keep then none else some (s.glazeWords (e.word 6) (gainWords rd.1 (e.word 7)))
    let gains := if keep then s.bankWords (b2n (!s.beam.active)) else []
    ((s.qAccept k e []).glazeApply x words (some s.cq.nextOp)).sendConduct { e.item k x with gains }

def State.acceptArm (s : State) (k : Nat) (e : QEntry) : State :=
  let s := s.lookAt [s.rf (oEng e.eng) 0 15]
  s.settle k e (s.armJudge e) fun _ => ((s.qFinish k e qDone 0).armApply e.eng e.slot).sendConduct (e.item k 0)

/-- PLACE: the plan is read, the placement computed, and its record written before the operation completes (R168, R223). -/
def State.acceptPlace (s : State) (k : Nat) (e : QEntry) : State :=
  let a := e.words 2 2
  let bad := s.placeAddrBad a (e.words 4 2)
  let rd := if bad then (false, [], s) else s.csRead a (s.planLen a) 10 0
  let p := Plan.parse rd.2.1
  rd.2.2.settle k e (rd.2.2.placeJudge e p rd.1) fun x =>
    let s := rd.2.2
    let env := s.placeEnv p
    match p.place env with
    | .error r =>
      ((s.csWrite (e.words 4 2) (r.record p.planId)).setRf 0xB00010 27 3 r.reason).qFinish k e qRejected r.reason
    | .ok q =>
      let s := ((s.csWrite (e.words 4 2) (s.placeRecord p env q)).setRf 0xB00010 27 3 0).qFinish k e qDone 0
      (s.placeTake q).sendConduct { e.item k x with
        plan := rd.2.1, spans := q.kilns.map (fun y => (y.1, y.2.l, y.2.s)), keys := q.kilns.map (fun y => (y.1, y.2.key)) }

/-- A product operation at its unit: followed by a standby, else taken while the Waoth link has room for its item. -/
def prodRow (k cop : Nat) (s : State) (f : State → QEntry → State) : Host.Outcome State Fault Refusal :=
  match s.atUnit k cop 1 with
  | some e => gate (s.up && decide (k < 8) && (s.standby || s.sagRoom)) s fun s => if s.standby then s.followed k e else f s e
  | none => .next s

def execPlace (k : Nat) (up : Option Upset) (s : State) : Host.Outcome State Fault Refusal :=
  prodRow k 0x01 s fun s e => (s.upset up).acceptPlace k e
def execOpenKiln (k : Nat) (s : State) : Host.Outcome State Fault Refusal := prodRow k 0x02 s fun s e => s.acceptOpen k e
def execFire (k : Nat) (s : State) : Host.Outcome State Fault Refusal := prodRow k 0x03 s fun s e => s.acceptFire k e
def execShut (k : Nat) (s : State) : Host.Outcome State Fault Refusal := prodRow k 0x04 s fun s e => s.acceptShut k e
def execSteer (k : Nat) (up : Option Upset) (s : State) : Host.Outcome State Fault Refusal :=
  prodRow k 0x05 s fun s e => (s.upset up).acceptSteer k e
def execGlaze (k : Nat) (up : Option Upset) (s : State) : Host.Outcome State Fault Refusal :=
  prodRow k 0x06 s fun s e => (s.upset up).acceptGlaze k e
def execArm (k : Nat) (s : State) : Host.Outcome State Fault Refusal := prodRow k 0x07 s fun s e => s.acceptArm k e

/-- A slot of the operation's channel set has been released: its wait for one has ended (R227). -/
def State.waitOver (s : State) (e : QEntry) : Bool :=
  match e.cop with
  | 0x02 => (s.safeFrom (s.kilnChans (e.word 2)) 0).isSome
  | 0x03 => (s.safeFrom (s.kilnChans (e.word 2)) 0).isSome
  | 0x04 => (s.safeFrom (s.kilnChans (e.word 2)) 0).isSome
  | 0x05 => (s.safeFrom (s.blockChans (e.word 2)) 0).isSome
  | _ => s.noBlocks || (s.safeFrom s.allBlockChans 0).isSome

/-- DISARM (R159, R163). -/
def execDisarm (k : Nat) (s : State) : Host.Outcome State Fault Refusal :=
  match s.atUnit k 0x08 1 with
  | some e =>
    gate (s.up && decide (k < 8) && s.sagRoom) s fun s =>
      s.settle k e (s.disarmJudge e) fun _ => (s.qFinish k e qDone 0).disarmApply e.eng e.slot
  | none => .next s

/-- SIGNAL (R223): one event with hop count 0. -/
def execSignal (k : Nat) (s : State) : Host.Outcome State Fault Refusal :=
  match s.atUnit k 0x0B 1 with
  | some e =>
    gate (s.up && decide (k < 8)) s fun s =>
      if 120 ≤ e.word 0 ∧ e.word 0 ≤ 127 then (s.qFinish k e qDone 0).publish (e.word 0) else s.qFault k e 1
  | none => .next s

/-! ### POST (R223, R231, R349, R353) -/

/-- Whether a ring takes POST records. -/
def State.postRing (s : State) (r : Nat) : Bool := s.rEn r && decide (s.rFmt r = 3) && s.rb (oCtx (s.rOwner r)) 31

/-- RANGE, ADDRESS, RING. -/
def State.postJudge (s : State) (e : QEntry) (ue : Bool) : Verdict :=
  let a := e.words 4 2
  judge false
    [(e.flagsBad 4 || decide (s.nRings ≤ e.word 2) || decide (e.word 3 = 0) || decide (64 < e.word 3), 1),
     (decide (a % 64 ≠ 0) || decide (csramBytes < a + 64 * e.word 3) || ue, 11), (!s.postRing (e.word 2), 8)] 0 none (fun _ => [])

/-- The position that the next POST to a ring takes: records of it still waiting come first. -/
def State.postPos (s : State) (r : Nat) : Nat :=
  ((s.rng r).rseq + (s.cq.posts.filter (fun x => x.ring == r && x.sent.isNone)).length) % 2 ^ 32

def State.acceptPost (s : State) (k : Nat) (e : QEntry) : State :=
  let a := e.words 4 2
  let n := 64 * min 64 (e.word 3)
  let s := s.lookAt [e.word 2]
  let ue := s.srcBad (a + 16) (n - 16)
  let v := s.postJudge e ue
  let rd := s.srcRead (a + 16) (n - 16) v
  rd.2.settle k e v fun _ =>
    let s := rd.2
    let r := e.word 2
    let pos := s.postPos r
    let rec_ : PostRec := ⟨s.cq.nextOp, k, r, e.word 3, e.words 6 2, e.flag 2, rd.1, none, none⟩
    let s := (s.qAccept k e []).setCq fun q => { q with posts := q.posts ++ [rec_] }
    if e.flag 2 ∧ s.role = 2 then s.sendSeq (.mirror k r pos rd.1) else s

/-- POST (R231): a record accepted for its ring. -/
def execPost (k : Nat) (up : Option Upset) (s : State) : Host.Outcome State Fault Refusal :=
  match s.atUnit k 0x0C 1 with
  | some e => gate (s.up && decide (k < 8) && s.sagRoom) s fun s => (s.upset up).acceptPost k e
  | none => .next s

/-- The bytes of a POST record. -/
def PostRec.bytes (r : PostRec) (rseq claim : Nat) : List Byte :=
  [0x30#8, BitVec.ofNat 8 (r.keeper % 8)] ++ leBytes 2 r.len64 ++ leBytes 4 r.tag ++ leBytes 4 rseq ++ leBytes 2 claim
    ++ [BitVec.ofNat 8 (b2n r.mirror), 0#8] ++ r.body

/-- The mirror item for a record, if it has come (R353). -/
def State.mirrorOf (s : State) (r : PostRec) (pos : Nat) : Option (List Byte) :=
  if r.mirror then (s.pair.mirrors.find? (fun m => m.1 == r.keeper && m.2.1 == r.ring && m.2.2.1 == pos)).map (·.2.2.2) else none

/-- The record replaced by `f`, or removed. -/
def State.setPost (s : State) (op : Nat) (f : PostRec → Option PostRec) : State :=
  s.setCq fun q => { q with posts := q.posts.filterMap (fun x => if x.op = op then f x else some x) }

/-- The next record of a ring offered. A standby's POST completes once the active part reports its position. -/
def State.writePost (s : State) (x : PostRec) : State :=
  let pos := (s.rng x.ring).rseq
  let stb := s.standby
  let x' := (s.mirrorOf x pos).elim x (fun b => { x with body := b })
  let (o, s) := s.offer x.ring (.post x.keeper) true x.len64 x'.bytes
  match o with
  | .held => s
  | .dropped => (s.setPost x.op (fun _ => none)).opDone x.op qDropped 0
  | .written =>
    let s := s.setPair fun p => { p with mirrors := p.mirrors.filter (fun m => !(m.1 == x.keeper && m.2.1 == x.ring && m.2.2.1 == pos)) }
    if stb ∧ !s.ringCovered x.ring pos then s.setPost x.op (fun y => some { y with sent := some pos })
    else ((s.setPost x.op (fun _ => none)).rOwe x.ring (.post x.op x.keeper)).opDone x.op qDone 0

/-- A POST whose record was held at a takeover, and has been emitted or dropped since, completes (R231, R358). -/
def State.endHeldPost (s : State) (x : PostRec) : State :=
  match x.out with
  | none => s
  | some emitted =>
    (s.setPost x.op (fun _ => none)).opDone x.op (if emitted then qDone else qDropped) 0
def State.endHeldPosts (s : State) : State := s.cq.posts.foldl (fun s x => s.endHeldPost x) s

/-- POST_RECORD_WRITE (R231, R358): the oldest accepted record of ring r, behind those held since a takeover. -/
def execPostRecordWrite (r : Nat) (s : State) : Host.Outcome State Fault Refusal :=
  match s.cq.posts.find? (fun x => x.ring == r && (x.sent.isNone || s.emits)) with
  | some x =>
    gate s.up s fun s => if x.sent.isNone then s.writePost x else ((if s.emits then s.flushHeld r else s).endHeldPosts)
  | none => .next s

/-! ### SCRUB (R220, R223, R288, R289) -/

/-- RANGE, ADDRESS. -/
def State.scrubJudge (s : State) (e : QEntry) : Verdict :=
  let a := e.words 12 2
  judge false
    [(e.flagsBad 0 || decide (7 < e.word 2) || decide (s.nStacks ≤ e.word 2) || decide (e.word 3 ≠ 0)
        || !scrubOk (e.word 2) (e.words 4 4) (e.words 8 4), 1),
     (decide (a % 64 ≠ 0) || decide (csramBytes < a + 64), 11)] 0 none (fun _ => [])

/-- SCRUB (R288): the pass is requested. -/
def execScrub (k : Nat) (s : State) : Host.Outcome State Fault Refusal :=
  match s.atUnit k 0x0D 1 with
  | some e =>
    gate (s.up && decide (k < 8)) s fun s =>
      s.settle k e (s.scrubJudge e) fun _ =>
        (s.qAccept k e []).askScrub (.keeper s.cq.nextOp (e.words 12 2)) (e.word 2) (e.words 4 4) (e.words 8 4)
  | none => .next s

/-- The summary of a pass delivered: to control SRAM, completing the SCRUB, or to MEM_SCRUB_SUM. -/
def State.scrubSummary (s : State) (p : ScrubPass) : State :=
  match p.by_ with
  | .keeper op a => (s.csWrite a p.summary).opDone op qDone 0
  | .host =>
    let s := (List.range 9).foldl (fun s j => s.setReg (oMem p.stack + 0x40 + 4 * j) (lo32 (field p.summary (4 * j) 4))) s
    s.setRb (oMem p.stack + 0x20) 30 false

/-- SCRUB_DONE (R289): every line of the pass has been read. -/
def execScrubDone (st : Nat) (s : State) : Host.Outcome State Fault Refusal :=
  match s.scrubs st with
  | p :: t =>
    gate (s.up && decide (st < s.nStacks) && decide (p.start + p.len ≤ p.next)) s fun s =>
      (((s.setScrubs st t).scrubSummary p).publish 99).askStep st
  | [] => .next s

/-! ### Barriers (R221, R223 to R228) -/

/-- A barrier's dispatch, acceptance and the start of its wait are one: the queue itself is its unit. -/
def barRow (k cop : Nat) (s : State) (f : State → QEntry → State) : Host.Outcome State Fault Refusal :=
  match s.ready? k with
  | some e => gate (s.up && decide (k < 8) && decide (e.cop = cop)) s fun s => f s e
  | none => .next s

/-- A barrier with a block whose fields break a rule faults as RANGE. -/
def State.rangeOr (s : State) (k : Nat) (e : QEntry) (bad : Bool) (f : State → State) : State := if bad then s.qFault k e 1 else f s

def execWaitt (k : Nat) (s : State) : Host.Outcome State Fault Refusal :=
  barRow k 0x09 s fun s e => s.rangeOr k e (e.flagsBad 0) fun s => s.waittJudge k e
def execWaitb (k : Nat) (s : State) : Host.Outcome State Fault Refusal :=
  barRow k 0x0A s fun s e => s.rangeOr k e (e.flagsBad 0 || decide (127 < e.word 2)) fun s => s.qWait k e

/-- WAITT_DONE (R228): after `dt` ticks device time has reached the target. -/
def execWaittDone (k dt : Nat) (s : State) : Host.Outcome State Fault Refusal :=
  let t := s.advance dt
  match s.waiting k 0x09 with
  | some e => gate (s.up && decide (k < 8) && t.running && decide ((t.ns - e.target).toNat < 2 ^ 31)) s fun s => (s.advance dt).qFinish k e qDone 0
  | none => .next s

/-- Ticks of a WAITB's TIMEOUT in ns. -/
def QEntry.timeoutTicks (e : QEntry) : Nat := divUp (e.words 3 2 * 5) 8

/-- WAITB_TIMEOUT (R223). -/
def execWaitbTimeout (k dt : Nat) (s : State) : Host.Outcome State Fault Refusal :=
  match s.waiting k 0x0A with
  | some e =>
    gate (s.up && decide (k < 8) && decide (e.words 3 2 ≠ 0) && decide (e.since + e.timeoutTicks ≤ s.time.ticks + dt)) s fun s =>
      (s.advance dt).qFinish k e qTimeout 0
  | none => .next s

/-- What rings have placed and not yet covered by a writeback: POSTs of Keeper k by operation, and firings. -/
def Owed.postOf (k : Nat) : Owed → Option Nat
  | .post i kp => if kp = k then some i else none
  | .firing .. => none
def Owed.firing? : Owed → Option (Nat × Nat)
  | .firing j q => some (j, q)
  | .post .. => none
def State.owed (s : State) : List Owed := s.link.rings.flatMap (·.2.owed)

/-- FIREs and SHUTs of Keeper k that a standby follows, by issue number (R349). -/
def State.followedFires (s : State) (k : Nat) : List Nat :=
  ((s.followLog k).filter (fun f => [0x03, 0x04].contains f.cop)).map (·.issue)
    ++ (s.kilns.flatMap (·.2.byItem)).filterMap (fun x => if x.2.1 = k then some x.2.2 else none)

/-- What FENCE.HOST waits for, as it stands at dispatch: POSTs, FIREs and SHUTs of its Keeper, and every kiln's firing that drains
(R226), with those already placed that no writeback covers yet (R268). -/
def State.fenceEntry (s : State) (k : Nat) (e : QEntry) : QEntry :=
  let mine := fun (cops : List Nat) => (s.cq.ops.filter (fun o => o.keeper == k && cops.contains o.cop)).map (·.id)
  { e with
    posts := mine [0x0C] ++ s.owed.filterMap (Owed.postOf k), fires := mine [0x03, 0x04], follows := s.followedFires k
    firings := (List.range 16).filterMap (fun j => (s.kiln j).drain.map (fun d => (j, d.seq))) ++ s.owed.filterMap Owed.firing? }

def execFenceAll (k : Nat) (s : State) : Host.Outcome State Fault Refusal := barRow k 0x10 s fun s e => s.qWait k e
def execFenceKiln (k : Nat) (s : State) : Host.Outcome State Fault Refusal :=
  barRow k 0x11 s fun s e => s.rangeOr k e (decide (15 < e.word 0)) fun s => s.qWait k e
def execFenceHost (k : Nat) (s : State) : Host.Outcome State Fault Refusal :=
  barRow k 0x12 s fun s e => s.qWait k (s.fenceEntry k e)

/-- FENCE_COMPLETE (R225, R226). -/
def execFenceComplete (k : Nat) (s : State) : Host.Outcome State Fault Refusal :=
  match s.qHead k with
  | some e =>
    gate (s.up && decide (k < 8) && decide (e.stage = 2) && [0x10, 0x11, 0x12].contains e.cop && s.fenceMet k e) s fun s =>
      s.qFinish k e qDone 0
  | none => .next s

end Sys2Proof.Machine
end

