-- ==== Sys2Proof/Machine/Release.lean ====
section
/-! DEFINITION. The release of assembly slots, in a pair with the partner's loss map, and the points from which the units of a part
that joined a pair compute (R79, R352, R356). -/

namespace Sys2Proof.Machine

/-! ### Units of a part that has joined (R356) -/

/-- The index that stands for "not known yet" until every channel of a unit's set has released a slot. -/
def joinWait : Nat := 2 ^ 48

/-- The first index past every slot released in a channel range, once each of its channels has released one. -/
def State.allReleased (s : State) (first count : Nat) : Option Nat :=
  let l := (List.range count).map (fun i => (s.ring (first + i)).rel)
  if l.all (·.isSome) then some (128 * ((l.map (fun x => x.getD 0)).foldl max 0 + 1)) else none

/-- A kiln accumulates from its first span past those slots, and is ready at its first boundary from there on. -/
def State.joinKiln (s : State) (k : Nat) (p : KilnPlace) : State :=
  let v := s.kiln k
  if v.from_ ≠ joinWait then s
  else match s.allReleased p.desc.chFirst p.desc.chCount with
    | none => s
    | some x =>
      let f := alignUp x p.g
      (s.setKiln k { v with from_ := f }).setPair fun q => { q with kilnFrom := q.kilnFrom.map (fun e => if e.1 = k then (k, f) else e) }

/-- A detection group goes on at index `x` in the numbering of its restart at `nr`: outputs that need earlier samples are not
formed here. -/
def State.joinGroup (s : State) (g nr x : Nat) : State :=
  let s := s.detRestart g nr []
  let v := s.grp g
  if x ≤ nr ∨ !v.active then s
  else
    let c : DetChan := { DetChan.init with fine := divUp (x - nr) v.dec, coarse := divUp (x - nr) (divUp v.len 16), any_ := true }
    s.setGrp g { v with chans := (s.grpChans g).map (fun ch => (ch, c)) }

/-- A beam block takes up its settings at the first epoch past those slots. -/
def State.joinBlock (s : State) (m : Nat) (p : BlockPlace) : State :=
  let b := s.block m
  if !b.eras.any (fun e => e.from_ == joinWait) then s
  else match s.allReleased p.desc.chFirst p.desc.chCount with
    | none => s
    | some x =>
      let e := divUp x (s.epochLen m)
      let f := e * s.epochLen m
      let s := s.setBlock m { b with eras := b.eras.map (fun q => if q.from_ = joinWait then { q with from_ := f } else q)
                                     nextEval := some e }
      let s := s.setPair fun q => { q with blockFrom := q.blockFrom.map (fun y => if y.1 = m then (m, f) else y) }
      s.joinGroup m (((s.pair.eraNs.find? (fun y => y.1 == m)).map (·.2)).getD b.lastNs) f

def State.joinUnits (s : State) : State :=
  match s.plc.cur with
  | none => s
  | some p =>
    if s.pair.kilnFrom.isEmpty && s.pair.blockFrom.isEmpty then s
    else
      let s := p.kilns.foldl (fun s e => s.joinKiln e.1 e.2) s
      p.blocks.foldl (fun s e => s.joinBlock e.1 e.2) s

/-- BEAM frames of a slot that a block not yet ready computes nothing of: a standby keeps which, and after a takeover each is lost
(R356, R358). -/
def State.missFrames (s : State) (c blk : Nat) : State :=
  s.pair.blockFrom.foldl (fun s q =>
    if (s.placedBlock q.1).elim false (fun p => inRange c p.desc.chFirst p.desc.chCount) && decide (128 * blk < q.2) then
      let js := (List.range 64).filter (fun j => (s.txgBeams j).elim false (fun o => o.1 / 64 == q.1))
      if s.standby then s.setPair fun p => { p with missed := p.missed ++ js.map (fun j => (j, 128 * blk, c)) }
      else s.cnt (oPrCnt 9) js.length
    else s) s

/-- A slot released, with what that means for units that have yet to begin. -/
def State.releaseJoin (s : State) (c blk : Nat) : State := ((s.releaseSlot c blk).missFrames c blk).joinUnits

/-! ### Release (R79, R352) -/

/-- A slot that meets its local condition: in a pair its LOSS item goes first, and the release waits for the partner's
(R352). -/
def State.slotRelease (s : State) (c : Nat) (x : Slot) : State :=
  let s := s.sendLoss c x
  if s.role = 2 ∨ s.role = 4 then
    match s.partnerLoss c x.blk with
    | none => s
    | some m => (s.pairBlank c x m).releaseJoin c x.blk
  else s.releaseJoin c x.blk

/-- A slot with nothing awaited is read, once, and released. -/
def State.slotTake (s : State) (c : Nat) (x : Slot) : State :=
  let s := s.readSlot c x
  (s.nextSlot c).elim s (s.slotRelease c)

/-- SLOT_RELEASE (R79): the first slot of the channel not yet released, once nothing of it is awaited and the controllers serve
it. -/
def execSlotRelease (chan : Nat) (up : Option Upset) (s : State) : Host.Outcome State Fault Refusal :=
  match s.nextSlot chan with
  | some x =>
    gate (s.up && s.sagRoom && !s.heldByPlacement chan x.blk && s.slotServes x
        && ((!x.blocks.any (·.isAwaited)) || up.elim false (fun u => decide (u.cls = 2)))) s fun s =>
      let s := s.slotUpset chan x up
      match s.nextSlot chan with
      | some x => if x.blocks.any (·.isAwaited) then s else s.slotTake chan x
      | none => s
  | none => .next s

end Sys2Proof.Machine
end

