-- ==== Sys2Proof/Machine/Pair.lean ====
section
/-! DEFINITION. Redundant pairs: roles and heartbeats, the items a standby applies, reports, joining, loss of the partner and takeover
(R339 to R360). -/

namespace Sys2Proof.Machine

def oPrCtl : Nat := 0x600000
def oPrStat : Nat := 0x600004
def oPrClaim : Nat := 0x600008

/-! ### Roles and claims (R341, R342) -/

/-- Claim `a` beats claim `b`. -/
def beats (a b : Nat) : Bool := let d := (a + 65536 - b) % 65536; decide (1 ≤ d) && decide (d ≤ 32767)

/-- A change of role, which publishes PR_CLAIM. -/
def State.setRole (s : State) (r : Nat) : State := if s.role = r then s else (s.setRf oPrStat 29 3 r).publish 115

/-- The link's sequenced frames and the partner's items start afresh (log 43). -/
def PairSt.fresh (p : PairSt) : PairSt :=
  { p with present := false, txSeq := 1, missed := [], replay := [], late := [], rxSeq := 0, nak := false, heard := 0, losses := [], marks := []
           lossSent := [], mirrors := [], early := [], snapIssue := [] }

/-- The partner is gone. The SEQs of the link go on where the partner did not lose this part too, so they stand; a part that has received
nothing of it starts afresh (log 43). -/
def PairSt.parted (p : PairSt) : PairSt :=
  if p.rxSeq = 0 then p.fresh else { p with present := false, late := [], heard := 0, mirrors := [], early := [], snapIssue := [] }

/-- What an item of the partner asked for, and this part has not done yet, is dropped. -/
def PairSt.dropItems (p : PairSt) : PairSt :=
  { p with reported := Positions.none, closes := [], skips := [], rekeys := [], follow := [], lost := [], undrained := [] }

/-- A heartbeat's role and ACK: a partner SOLO or JOINING after another role that has received nothing from this part has started its
SEQs anew, and so does this part (log 43). -/
def PairSt.startsAnew (p : PairSt) (role ack : Nat) : Bool :=
  (decide (role = 1) || decide (role = 3)) && decide (ack = 0) && decide (p.heard ≠ 1) && decide (p.heard ≠ 3)
def State.hearRole (s : State) (role ack : Nat) : State :=
  s.setPair fun p => { (if p.startsAnew role ack then p.fresh else p) with heard := role }

/-- Units whose records a standby forms for its own use only wait for no room any more. -/
def State.dropWaits (s : State) : State :=
  s.link.rings.foldl (fun s e => s.setRng e.1 { s.rng e.1 with waiting := (s.rng e.1).waiting.filter (fun w => !w.1.pairStream) }) s

/-- Frames still queued at a takeover leave but for those that reports cover (R355, R358). -/
def State.dropCovered (s : State) : State :=
  let covered := fun (f : List Byte) => (s.frameEntry f).elim false (fun j => s.txCovered j (field f 8 6, field f 4 2))
  let n := (s.queuedFrames.filter covered).length
  if n = 0 then s
  else (s.cnt 0x600114 n).setBeam fun b => { b with
    txq := (b.txq.map (fun e => (e.1, e.2.filter (fun f => !covered f)))).filter (fun e => !e.2.isEmpty) }

/-- Every placed unit of the placement in effect that satisfies the tests is marked ready, the others not. -/
def State.setReady (s : State) (kiln block eng : Nat → Bool) : State :=
  let p := s.plc.cur
  let mask := fun (l : List Nat) => l.foldl (fun a k => a + 2 ^ k) 0
  let ks := mask (((p.elim [] (·.kilns)).map (·.1)).filter kiln)
  let bs := mask (((p.elim [] (·.blocks)).map (·.1)).filter block)
  let es := mask (((p.elim [] (·.engines)).map (·.1)).filter eng)
  (s.setReg oPrReady (lo32 ks)).setReg oPrReadyX (lo32 (bs + 2 ^ 24 * es))

/-- An ACTIVE part whose claim is beaten becomes STANDBY: every unit is ready, and nothing is reported yet. -/
def State.standDown (s : State) : State :=
  let s := s.setReady (fun _ => true) (fun _ => true) (fun _ => true)
  ((s.setPair PairSt.dropItems).setRole 4).dropWaits.holdQueued

/-- The JOIN message of this part: present units and the placer's settings. -/
def State.joinMsg (s : State) : WMsg := .join (s.reg 8) [s.reg 0xB00000, s.reg 0xB00004, s.reg 0xB00008, s.reg 0xB0000C]

/-- The role taken when a heartbeat with the partner's claim has arrived. -/
def State.chooseRole (s : State) (claim : Nat) : State :=
  let own := s.claim
  if s.role = 1 then
    if beats own claim then s.setRole 2
    else if beats claim own then
      ((s.setPair PairSt.dropItems).setRole 3).sendSeq s.joinMsg
    else if own = claim ∧ !s.rb oPrStat 22 then (s.setRb oPrStat 22 true).publish 115
    else s
  else if s.role = 2 ∧ beats claim own then s.standDown
  else s

/-! ### Takeover (R358) -/

/-- A follow-log entry as the conduct instruction it stands for. -/
def FollowEntry.entry (e : FollowEntry) : QEntry := ⟨e.cop, e.issue, 0, e.block, 1, false, 0, [], [], [], []⟩

/-- A verdict on an entry carried out: counted, and counted as faulted where it faults; none while it waits for a release. -/
def State.takeVerdict (s : State) (v : Verdict) (f : Nat → State) : Option State :=
  match v with
  | .go x => some ((f x).cnt (oPrCnt 7) 1)
  | .fault _ => some ((s.cnt (oPrCnt 7) 1).cnt (oPrCnt 8) 1)
  | .wait => none

/-- The placement a PLACE entry names computed, recorded and taken. -/
def State.takePlace (s : State) (e : QEntry) : Option State :=
  let a := e.words 2 2
  let rd := if s.placeAddrBad a (e.words 4 2) then (false, [], s) else s.csRead a (s.planLen a) 10 0
  let p := Plan.parse rd.2.1
  rd.2.2.takeVerdict (rd.2.2.placeJudge e p rd.1) fun _ =>
    let s := rd.2.2
    let env := s.placeEnv p
    match p.place env with
    | .error r => (s.csWrite (e.words 4 2) (r.record p.planId)).setRf 0xB00010 27 3 r.reason
    | .ok q => ((s.csWrite (e.words 4 2) (s.placeRecord p env q)).setRf 0xB00010 27 3 0).placeTake q

def State.takeSteer (s : State) (e : QEntry) : Option State :=
  let a := e.words 14 2
  let v := s.steerJudge e (e.flag 1 && s.srcBad a 128)
  let rd := if e.flag 1 then s.srcRead a 128 v else ([], s)
  rd.2.takeVerdict v fun x => rd.2.steerApply (e.word 2) x e (if e.flag 1 then some (shiftWords rd.1) else none) none

def State.takeGlaze (s : State) (e : QEntry) : Option State :=
  let a := e.words 4 2
  let n := 4 * min 4096 (e.word 7)
  let keep := e.flag 3
  let v := s.glazeJudge e (!keep && s.srcBad a n)
  let rd := if keep then ([], s) else s.srcRead a n v
  rd.2.takeVerdict v fun x =>
    rd.2.glazeApply x (if keep then none else some (rd.2.glazeWords (e.word 6) (gainWords rd.1 (e.word 7)))) none

/-- The boundary that a FIRE or SHUT of Keeper `kp` that completed with FOLLOWED sets: a FENCE.HOST of that Keeper waits for its firing
(R226, R349). -/
def State.followBoundary (s : State) (k b kp issue : Nat) : State :=
  if 8 ≤ kp then s else s.setKiln k { s.kiln k with byItem := (s.kiln k).byItem ++ [(b, kp, issue)] }

/-- A follow-log entry that no item matched applied: checked against the present state and resolved as it states. -/
def State.takeEntry (s : State) (kp : Nat) (e : QEntry) : Option State :=
  let j := e.word 2
  match e.cop with
  | 0x01 => s.takePlace e
  | 0x02 => s.takeVerdict (s.openJudge e) fun x => s.openApply j x (ringSet (e.word 3) (e.word 4)) (BitVec.ofNat 64 (s.reg64 (oKln j + 8)))
  | 0x03 => s.takeVerdict (s.fireJudge e) fun x => (s.fireApply j x 0 none).followBoundary j x kp e.issue
  | 0x04 => s.takeVerdict (s.shutJudge e) fun x => if (s.kiln j).state = 1 then s.shutIdle j else (s.shutApply j x none).followBoundary j x kp e.issue
  | 0x05 => s.takeSteer e
  | 0x06 => s.takeGlaze e
  | _ => s.takeVerdict (s.armJudge e) fun _ => s.armApply e.eng e.slot

/-- Keeper k's follow log applied in issue order, `n` entries at most. One that waits for a release holds those behind it, and
NEXT_RESOLVE goes on with it (R227, R358). -/
def State.takeLog (s : State) (k : Nat) : Nat → State
  | 0 => s
  | n + 1 =>
    match s.followLog k with
    | [] => s
    | e :: t =>
      match s.takeEntry k e.entry with
      | some s' => State.takeLog (s'.setFollow k t) k n
      | none => s

/-- Every follow log applied, Keeper by Keeper. -/
def State.takeLogs (s : State) : State := (List.range 8).foldl (fun s k => s.takeLog k (s.followLog k).length) s

/-- NEXT_RESOLVE (R227, R358): a release has ended the wait of an operation, and every check is made again. It is that of a follow log
that a takeover has left waiting, or the one at the head of the queue. -/
def execNextResolve (k : Nat) (up : Option Upset) (s : State) : Host.Outcome State Fault Refusal :=
  if !s.standby && !(s.followLog k).isEmpty then
    gate (s.up && decide (k < 8) && s.sagRoom) s fun s => s.takeLog k (s.followLog k).length
  else match s.qHead k with
  | some e =>
    gate (s.up && decide (k < 8) && decide (e.stage = 3) && (s.standby || s.sagRoom && s.waitOver e)) s fun s =>
      if s.standby then s.followed k e
      else
        match e.cop with
        | 0x02 => s.acceptOpen k e
        | 0x03 => s.acceptFire k e
        | 0x04 => s.acceptShut k e
        | 0x05 => (s.upset up).acceptSteer k e
        | _ => (s.upset up).acceptGlaze k e
  | none => .next s

/-- Slots of a channel that wait only for the partner's LOSS item released, `n` of them at most. -/
def State.takeSlots (s : State) (c : Nat) : Nat → State
  | 0 => s
  | n + 1 =>
    match s.nextSlot c with
    | some x =>
      if s.pair.lossSent.contains (c, x.blk) && !x.blocks.any (·.isAwaited) && !s.heldByPlacement c x.blk then
        State.takeSlots (s.releaseJoin c x.blk) c n
      else s
    | none => s

/-- A header that still waits is formed first. The rings of a drain whose header is formed stand where the partner's next record would,
at the furthest behind the firing's completion; once every completion record is reported the bank is free, and completions not formed here count as discarded. -/
def State.reportDrain (s : State) (k : Nat) : State :=
  let s := (s.retryHeaders k).reportGroups k
  let v := s.kiln k
  match v.drain with
  | none => s
  | some d =>
    let n := v.rings.length
    let s := (List.range n).foldl (fun s i =>
      let r := v.rings.getD i 0
      let comp := d.compRseq n i
      match s.pair.reported.rings.find? (fun e => e.1 == r) with
      | some (_, q) =>
        if d.hdrTodo.contains i then s
        else if s.ringCovered r comp then s.setRng r { s.rng r with rseq := (comp + 1) % 2 ^ 32 }
        else if s.ringCovered r (s.rng r).rseq then s.setRng r { s.rng r with rseq := (q + 1) % 2 ^ 32 } else s
      | none => s) s
    if d.hdrTodo.isEmpty ∧ (List.range n).all (fun i => s.ringCovered (v.rings.getD i 0) (d.compRseq n i)) then
      (s.cnt (oPrCnt 5) (d.compTodo.elim n (·.length))).drainDone k
    else s

/-- The drain of kiln k goes on here: its header again with its original RSEQ, in every ring, in place of a held one; and completion
records that were held are formed again behind the lines. -/
def State.takeDrain (s : State) (k : Nat) : State :=
  let v := s.kiln k
  match v.drain with
  | none => if v.state = 4 then s.setKiln k { v with state := 1, endAt := none } else s
  | some d =>
    let n := v.rings.length
    let mine := fun (e : HoldEntry) => (List.range n).any (fun i => e.ofRing (v.rings.getD i 0) && d.hdrRseq.any (fun q => q.1 == i)
      && (decide (e.pos.1 = (sget (fun _ => 0) d.hdrRseq i).toNat) || decide (e.pos.1 = d.compRseq n i)))
    let formed := fun (i : Nat) => d.compTodo.elim false (fun l => !l.contains i)
    let s := (List.range n).foldl (fun s i =>
      if formed i then s.setRng (v.rings.getD i 0) { s.rng (v.rings.getD i 0) with rseq := d.compRseq n i } else s) s
    let s := s.setPair fun p => { p with hold := p.hold.filter (fun e => !mine e) }
    (s.setKiln k { v with drain := some { d with
      hdrTodo := List.range n, hdrDropped := [], compTodo := d.compTodo.map (fun _ => List.range n) } }).retryHeaders k

/-- Captures whose freeze item never came take this part's own times. -/
def State.takeCaps (s : State) (e : Nat) : State :=
  let v := s.ltn e
  s.setLtn e { v with toWrite := v.toWrite.map (fun c => if c.known then c else { c with known := true, freezeNs := s.ns }) }

/-- What this part can't produce at its takeover: the BEAM frames that blocks not ready have missed and no report covers are counted.
The manual leaves open how many records of detection groups of such blocks, and of firings that were draining as the part joined, the
partner had still to emit: that number is free (log 44). -/
def State.takeLost (s : State) : State :=
  let open_ := s.pair.blockFrom.any (fun q => (s.grp q.1).active) || s.kilns.any (fun e => decide (e.2.state = 4) && e.2.drain.isNone)
    || !s.pair.undrained.isEmpty
  let s := (s.cnt (oPrCnt 9) s.pair.missed.length).setPair fun p => { p with missed := [], undrained := [] }
  if open_ then let (x, s) := s.free; s.cnt (oPrCnt 9) (x.toNat % 2 ^ 32) else s

/-- POSTs whose records were dropped from the holding buffer complete as dropped. -/
def State.takePosts (s : State) : State :=
  s.cq.posts.foldl (fun s x => match x.sent with
    | some pos => if s.pair.hold.any (fun e => e.ofRing x.ring && decide (e.pos.1 = pos)) then s else s.heldOut x.ring pos false
    | none => s) s

/-- Takeover: the last report is taken up for banks that have closed since; then claim, events and role; slots; follow logs; output
stages, with held entries first. -/
def State.takeover (s : State) : State :=
  let s := ((List.range 16).foldl (fun s k => s.reportDrain k) s).dropCovered
  let claim := (s.rf oPrClaim 0 16 + 1) % 65536
  let s := ((s.setRf oPrClaim 16 16 claim).publish 114).setRole 1
  let s := s.cnt (oPrCnt 0) 1
  let s := s.asm_.foldl (fun s e => s.takeSlots e.1 e.2.slots.length) s
  let s := s.takeLogs
  let s := (List.range 4).foldl (fun s e => s.takeCaps e) s.takeLost
  let s := (List.range 16).foldl (fun s k => s.takeDrain k) s.takePosts
  let rs := (s.pair.hold.filterMap (fun e => match e.stream with
    | .ring r => some r
    | .txg _ => none)).eraseDups
  (if s.emits then rs.foldl (fun s r => s.flushHeld r) s else s).endHeldPosts

/-! ### Loss of the partner (R357) -/

/-- The partner is lost: an ACTIVE part goes on alone, a STANDBY or JOINING part takes over. -/
def State.losePartner (s : State) : State :=
  let r := s.role
  if !s.pair.present ∧ r ≤ 1 then s
  else
    let s := s.publish 113
    let s := if r = 3 ∨ r = 4 then s.takeover else s.setRole (min r 1)
    s.setPair PairSt.parted

/-- FOGIN_N is low and counts. -/
def State.fogged (s : State) : Bool := s.pwr.foginLow && s.rb oPrCtl 30

/-! ### PR_CTL (R342, R358) -/

/-- Output that a standby held for a partner it leaves is discarded (log 45): its POSTs complete as dropped. -/
def State.leavePair (s : State) : State :=
  let gone := s.cq.posts.filter (fun x => x.sent.isSome)
  let s := gone.foldl (fun s x => (s.setPost x.op (fun _ => none)).opDone x.op qDropped 0) s
  ((s.setRole 0).setRf oPrStat 25 4 0).setPair fun p => { p.fresh with
    hbTick := [], hold := [], holdDrops := [], follow := [], closes := [], skips := [], rekeys := [], undrained := [], unfit := false }

/-- A write of PR_CTL: EN joins or leaves the pair, and FORCE makes a standby take over at once. -/
def State.prCtl (s : State) (v : W32) : State :=
  let on := !s.paired && bit v 31
  let off := s.paired && !bit v 31
  let s := (s.setRb oPrCtl 31 (bit v 31)).setRb oPrCtl 30 (bit v 30)
  let s := if on then (s.setPair PairSt.fresh).setRole 1 else if off then s.leavePair else s
  let s := if bit v 29 ∧ s.role = 4 then (s.takeover).setPair PairSt.parted else s
  if s.fogged && decide (2 ≤ s.role) then s.losePartner else s

/-- PR_ENABLE_WRITE. -/
def execPrEnableWrite (v : W32) (s : State) : Host.Outcome State Fault Refusal := gate s.hostUp s fun s => s.prCtl v
/-- PR_FORCE: a write with FORCE = 1; outside STANDBY it is ignored. -/
def execPrForce (v : W32) (s : State) : Host.Outcome State Fault Refusal :=
  gate (s.hostUp && bit v 29) s fun s => s.prCtl v

/-- A write of PR_CLAIM: OWN only in roles OFF and SOLO. -/
def State.claimWrite (s : State) (v : W32) : State := if s.role ≤ 1 then s.plainWrite oPrClaim v else s

/-! ### Heartbeats (R342, R345, R346, R357) -/

/-- HEARTBEAT_SEND: every 625 ticks on each UP lane. -/
def execHeartbeatSend (n dt : Nat) (s : State) : Host.Outcome State Fault Refusal :=
  gate (s.auxUp && s.wUp.contains n && decide (tget 0 s.pair.hbSent n + 625 ≤ s.time.ticks + dt)) s fun s =>
    let s := s.advance dt
    let lanes := (s.wUp.map (2 ^ ·)).sum
    let f := (WMsg.heartbeat s.role lanes s.claim s.pair.rxSeq s.pair.nak).frame n none 0 s.freeCtr
    (s.wPutOn f n).setPair fun p => { p with hbSent := tset 0 p.hbSent n s.time.ticks }

/-- A frame reaches its lane's receiver, which has block lock (R60, R344). -/
def State.hears (s : State) (f : WFrame) : Bool := decide (f.lane < 4) && decide (2 ≤ s.laneState (.w f.lane))

/-- A frame received: its lane moves (R60); a good one reaches the pair unit of a part that is in a pair (R341). -/
def State.hear (s : State) (f : WFrame) (g : State → State) : State :=
  let s := s.waothFrame f.lane f.good
  if f.good && s.paired then g s else s

/-- Frames that an ACK covers leave the replay buffer; a NAK sends the rest again, each counted; messages that waited for room follow. -/
def State.acked (s : State) (ack : Nat) (nak : Bool) : State :=
  let keep := fun (x : WSent) => x.seq.elim false (fun q => decide (2 ^ 31 ≤ (ack + 2 ^ 32 - q) % 2 ^ 32))
  let s := s.setPair fun p => { p with replay := p.replay.filter keep }
  let s := if nak then s.pair.replay.foldl (fun s x => (s.wPut x).cnt (oPrCnt 1) 1) s else s
  if s.joined then s.sendLate else s

/-- A good heartbeat. -/
def State.heartbeat (s : State) (lane role claim ack : Nat) (nak : Bool) : State :=
  let s := s.setPair fun p => { p with hbTick := sput p.hbTick lane s.time.ticks, lastHb := s.time.ticks }
  let s := ((s.setRf oPrClaim 0 16 claim).hearRole role ack).acked ack nak
  if role = 0 then s.losePartner
  else if s.fogged then s
  else (s.setPair fun p => { p with present := true }).chooseRole claim

/-- HEARTBEAT: `dt` ticks after the state before. -/
def execHeartbeat (f : WFrame) (dt role lanes claim ack : Nat) (nak : Bool) (s : State) : Host.Outcome State Fault Refusal :=
  gate (s.auxUp && s.hears f && decide (lanes < 16)) s fun s =>
    let s := s.advance dt
    s.hear f fun s => s.heartbeat f.lane role (claim % 65536) ack nak

/-- Lanes with a heartbeat within the last 5 µs. -/
def State.heardLanes (s : State) : Nat :=
  ((List.range 4).filter (fun n => s.pair.hbTick.any (fun e => e.1 == n && decide (s.time.ticks < e.2 + 3125)))).map (2 ^ ·) |>.sum

/-- PR_LINK (R357): LINK follows the lanes on which heartbeats arrive. -/
def execPrLink (lanes : BitVec 4) (s : State) : Host.Outcome State Fault Refusal :=
  gate (s.auxUp && s.paired && decide (s.heardLanes = lanes.toNat) && decide (s.rf oPrStat 25 4 ≠ lanes.toNat)) s fun s =>
    (s.setRf oPrStat 25 4 lanes.toNat).publish 112

/-- PR_PARTNER_TIMEOUT (R357): no heartbeat on any lane for 5 µs. -/
def execPrPartnerTimeout (dt : Nat) (s : State) : Host.Outcome State Fault Refusal :=
  gate (s.auxUp && s.paired && s.pair.present && decide (s.pair.lastHb + 3125 ≤ s.time.ticks + dt)) s fun s =>
    ((s.advance dt).setRf oPrStat 25 4 0).losePartner

/-- FOGIN_N (R357, R379): the pin's level. -/
def execFoginN (low : Bool) (s : State) : Host.Outcome State Fault Refusal :=
  gate s.aux s fun s =>
    let s := { s with pwr := { s.pwr with foginLow := low } }
    let s := if low then s.setRb 0x100048 5 true else s
    if s.fogged && s.paired then s.losePartner else s

/-! ### Sequenced frames (R346) -/

/-- A sequenced message `m` whose first frame has the SEQ of `f`, with the frames that carry the rest of it (log 40): taken in SEQ order,
exactly once. One out of order raises NAK, which stands until every frame before the last one so refused has come. -/
def State.seqIn (s : State) (f : WFrame) (m : WMsg) (g : State → State) : State :=
  let want := (s.pair.rxSeq + 1) % 2 ^ 32
  let dist := fun (a b : Nat) => (a + 2 ^ 32 - b) % 2 ^ 32
  if f.seq = want then
    let got := (s.pair.rxSeq + m.frames) % 2 ^ 32
    let left := dist s.pair.gapTo ((got + 1) % 2 ^ 32)
    g (s.setPair fun p => { p with rxSeq := got, nak := p.nak && decide (left ≠ 0) && decide (left < 2 ^ 31) })
  else if dist s.pair.rxSeq f.seq < 2 ^ 31 then s
  else s.setPair fun p => { p with nak := true, gapTo := if p.nak ∧ dist p.gapTo f.seq < 2 ^ 31 then p.gapTo else f.seq % 2 ^ 32 }

/-- The gate of a sequenced message. -/
def seqRow (s : State) (f : WFrame) (m : WMsg) (g : State → State) : Host.Outcome State Fault Refusal :=
  gate (s.up && s.hears f) s fun s => s.hear f fun s => if 2 ≤ s.role then s.seqIn f m g else s

/-- An item applied by a standby, and counted. -/
def State.asStandby (s : State) (g : State → State) : State := if s.role = 4 then (g s).cnt (oPrCnt 4) 1 else s

/-! ### CONDUCT items (R348) -/

/-- The entry an item matches removed from its Keeper's follow log, or remembered until the entry comes. -/
def State.matchItem (s : State) (i : ConductItem) : State :=
  if 8 ≤ i.keeper then s
  else
    let l := s.followLog i.keeper
    if l.any (fun e => e.issue == i.issue) then s.setFollow i.keeper (l.filter (fun e => e.issue ≠ i.issue))
    else s.setPair fun p => { p with early := p.early ++ [(i.keeper, i.issue)] }

/-- The part can't take the placement of its partner: UNFIT, and no unit is ready. -/
def State.setUnfit (s : State) : State :=
  (s.setReady (fun _ => false) (fun _ => false) (fun _ => false)).setPair fun p =>
    { p with unfit := true, kilnFrom := [], blockFrom := [], engFrom := [] }

/-- The environment of a placement with the partner's spans and keys. -/
def State.itemEnv (s : State) (p : Plan) (spans : List (Nat × Nat × Nat)) (keys : List (Nat × W64)) : PlaceEnv :=
  { s.placeEnv p with fixed := spans.map (fun q => (q.1, q.2.1, q.2.2, (keys.find? (fun x => x.1 == q.1)).elim 0 (·.2))) }

def State.itemPlace (s : State) (i : ConductItem) : State :=
  let p := Plan.parse i.plan
  match p.place (s.itemEnv p i.spans i.keys) with
  | .error _ => s.setUnfit
  | .ok q =>
    let s := s.placeTake q
    (q.kilns.filter (fun e => !(s.kiln e.1).live)).foldl (fun s e => s.setRb oPrReady e.1 true) s

/-- The effect of an item with its resolved index; preconditions are not checked. -/
def State.itemApply (s : State) (i : ConductItem) : State :=
  let e : QEntry := ⟨i.cop, i.issue, 0, i.block, 1, false, 0, [], [], [], []⟩
  let j := e.word 2
  let x := i.index
  match i.cop with
  | 0x01 => s.itemPlace i
  | 0x02 => ((s.setReg64 (oKln j + 8) i.seed.toNat).openApply j x (ringSet (e.word 3) (e.word 4)) i.seed).setRb oPrReady j true
  | 0x03 => (s.fireApply j x 0 none).followBoundary j x i.keeper i.issue
  | 0x04 => if (s.kiln j).state = 1 then s.shutIdle j else (s.shutApply j x none).followBoundary j x i.keeper i.issue
  | 0x05 =>
    let (_, b, s) := if e.flag 1 then s.csRead (e.words 14 2) 128 10 0 else (false, [], s)
    s.steerApply j x e (if e.flag 1 then some (shiftWords b) else none) none
  | 0x06 =>
    if e.flag 3 then s.glazeApply x (some i.gains) none
    else
      let (_, b, s) := s.csRead (e.words 4 2) (4 * min 4096 (e.word 7)) 10 0
      s.glazeApply x (some (s.glazeWords (e.word 6) (gainWords b (e.word 7)))) none
  | 0x07 => s.armApply e.eng e.slot
  | _ => s

/-- CONDUCT_ITEM. -/
def execConductItem (f : WFrame) (item : ConductItem) (s : State) : Host.Outcome State Fault Refusal :=
  seqRow s f (.conduct item) fun s => s.asStandby fun s =>
    let s := s.matchItem item
    if s.pair.unfit then s else s.itemApply item

/-! ### DECISION items (R347, R349, R351) -/

/-- An item of an engine: it goes behind those that wait, and all whose turn has come are applied (R351). -/
def State.itemEng (s : State) (e : Nat) (d : Decision) : State :=
  (s.setLtn e { s.ltn e with items := (s.ltn e).items ++ [.item d] }).engItems e

def State.itemDecide (s : State) (d : Decision) : State :=
  match d with
  | .close k b seq ns steps ps =>
    if (s.kiln k).live then s.setPair fun p => { p with closes := p.closes ++ [⟨k, b, seq, ns, steps, ps⟩] } else s
  | .skip k b => if (s.kiln k).live then (s.setPair fun p => { p with skips := p.skips ++ [(k, b)] }).takeSkips k else s
  | .overrun k => s.overrunShown k
  | .rekey k b => s.setPair fun p => { p with rekeys := p.rekeys ++ [(k, b)] }
  | .accept e _ _ _ _ _ _ _ _ => s.itemEng e d
  | .freeze e _ _ _ => s.itemEng e d
  | .idle e => s.itemEng e d
  | .release e _ => s.itemEng e d

/-- DECISION. -/
def execDecision (f : WFrame) (d : Decision) (s : State) : Host.Outcome State Fault Refusal :=
  seqRow s f (.decision d) fun s => s.asStandby fun s => s.itemDecide d

/-! ### LOSS and MIRROR items (R352, R353) -/

/-- LOSS: the partner's loss map of a slot, or a watermark up to which the slots without a map of their own are free of losses. -/
def execLoss (f : WFrame) (chan b : Nat) (mask : List Nat) (watermark : Bool) (s : State) : Host.Outcome State Fault Refusal :=
  seqRow s f (.loss chan b mask watermark) fun s =>
    let s := if s.role = 4 then s.cnt (oPrCnt 4) 1 else s
    s.setPair fun p =>
      if watermark then { p with marks := sput p.marks chan (max b ((p.marks.find? (fun e => e.1 == chan)).elim 0 (·.2))) }
      else { p with losses := p.losses ++ [(chan, b, mask)] }

/-- The held record that a mirror item is for: a POST of the same Keeper, ring and position with MIRROR = 1. -/
def State.mirrored (s : State) (keeper ring pos : Nat) (e : HoldEntry) : Bool :=
  let b := s.heldBytes e
  e.ofRing ring && decide (e.pos.1 = pos) && decide (field b 0 2 = 0x30 + 256 * keeper) && decide (field b 14 1 = 1)

/-- MIRROR: the item's bytes take the place of those from 16 on of the record in the holding buffer, or wait until the record is
formed. -/
def execMirror (f : WFrame) (keeper ring pos : Nat) (bytes : List Byte) (s : State) : Host.Outcome State Fault Refusal :=
  seqRow s f (.mirror keeper ring pos bytes) fun s => s.asStandby fun s =>
    match s.pair.hold.find? (s.mirrored keeper ring pos) with
    | some e => s.holdWrite e.blocks (((s.heldBytes e).take 16 ++ bytes).take e.len)
    | none => s.setPair fun p => { p with mirrors := p.mirrors ++ [(keeper, ring, pos, bytes)] }

/-! ### Reports (R349, R354, R355) -/

/-- The frames of a message that is not sequenced, on lanes in turn. -/
def State.sendParts (s : State) (m : WMsg) : State :=
  (List.range m.frames).foldl (fun s i => let (f, s) := s.wFrame m none i; s.wPut f) s

/-- REPORT_SEND: an ACTIVE part's positions every 625 ticks; groups are those since the report before. -/
def execReportSend (dt : Nat) (s : State) : Host.Outcome State Fault Refusal :=
  gate (s.up && decide (s.role = 2) && decide (s.pair.repSent + 625 ≤ s.time.ticks + dt)) s fun s =>
    let s := s.advance dt
    let p := s.pair.emitted
    ((State.sendParts s (.report p)).cnt (oPrCnt 3) 1).setPair fun q => { q with repSent := s.time.ticks, emitted := { p with groups := [] } }

/-- Whether a stream position is covered by the reports. -/
def State.covered (s : State) (st : Stream) (pos : Nat × Nat) : Bool :=
  match st with
  | .ring r => s.ringCovered r pos.1
  | .txg j => (s.pair.reported.tx.find? (fun e => e.1 == j)).elim false (fun e =>
      decide (pos.1 < e.2.1) || (decide (pos.1 = e.2.1) && decide (pos.2 ≤ e.2.2)))

/-- Positions reported after others: streams stand as the report gives them, and its groups join those before (R354). -/
def mergePositions (a b : Positions) : Positions := { b with groups := a.groups ++ b.groups }

/-- A good report. -/
def State.reportIn (s : State) (pos : Positions) : State :=
  let s := s.setPair fun p => { p with reported := mergePositions p.reported pos }
  let freed := s.pair.hold.filter (fun e => s.covered e.stream e.pos)
  let s := (s.setPair fun p => { p with hold := p.hold.filter (fun e => !s.covered e.stream e.pos)
                                        holdDrops := p.holdDrops.filter (fun e => !s.covered e.1 e.2)
                                        missed := p.missed.filter (fun e => !s.covered (.txg e.1) e.2) }).cnt (oPrCnt 5) freed.length
  let posts := s.cq.posts.filter (fun x => x.sent.elim false (s.ringCovered x.ring))
  let s := posts.foldl (fun s x => (s.setPost x.op (fun _ => none)).opDone x.op qDone 0) s
  (List.range 16).foldl (fun s k => s.reportDrain k) s

/-- REPORT. -/
def execReport (f : WFrame) (pos : Positions) (s : State) : Host.Outcome State Fault Refusal :=
  gate (s.up && s.hears f) s fun s => s.hear f fun s => s.asStandby fun s => s.reportIn pos

/-! ### Joining (R356) -/

def shiftPair (w : W32) : Nat × Nat := (fld w 0 5, fld w 16 5)
def shiftOf (p : Nat × Nat) : W32 := lo32 (p.1 % 32 + 65536 * (p.2 % 32))

def State.kilnSnap (s : State) (k : Nat) : KilnSnap :=
  let v := s.kiln k
  { k, state := v.state, s0 := v.s0, first := (v.bankOf v.bank).first, pending := v.pend.map (·.1), endAt := v.endAt.map (·.1)
    auto := s.auto k, skipPolicy := s.skipPolicy k, seq := v.seq, seed := v.seed, ringFirst := v.rings.headD 0, log2R := log2R v.rings.length }

def State.blockSnap (s : State) (m : Nat) : BlockSnap :=
  let b := s.block m
  let e := b.eras.headD ⟨0, 0, 0, []⟩
  { m, steered := b.steered, table := e.table, n0 := e.n0, ns := e.from_, shifts := e.shifts.map shiftPair
    pendTable := b.pend.elim 0 (·.table), pendN0 := b.pend.elim 0 (·.n0), pendNs := b.pend.map (·.ns)
    pendShifts := b.pend.bind (fun q => q.shifts.map (fun l => l.map shiftPair)) }

def State.engSnap (s : State) (e : Nat) : EngSnap :=
  let v := s.ltn e
  { e, state := v.state, cur := v.cur, frozen := v.frozen, cseq := v.cseq, firstCap := v.firstCap
    cap := v.cap.map (fun c => ⟨c.t, c.slot, c.unit, c.xEvent, c.beam, c.value, c.first, c.acceptNs⟩) }

/-- The snapshot that answers a JOIN. -/
def State.snap (s : State) : Snapshot :=
  let p := s.plc.cur
  let ks := p.elim [] (·.kilns)
  let es := p.elim [] (·.engines)
  { plan := p.elim [] (fun p => p.plan.bytes), spans := ks.map (fun e => (e.1, e.2.l, e.2.s)), keys := ks.map (fun e => (e.1, (s.kiln e.1).key))
    kilns := ks.map (fun e => s.kilnSnap e.1), gains0 := s.bankWords 0, gains1 := s.bankWords 1, activeBank := s.beam.active
    pendingSwitch := s.beam.switch_.map (·.1), blocks := (p.elim [] (·.blocks)).map (fun e => s.blockSnap e.1)
    armed := es.flatMap (fun e => ((List.range 16).filter (fun i => (s.slot (16 * e.1 + i)).armed)).map (fun i => (e.1, i)))
    engines := es.map (fun e => s.engSnap e.1), issues := (List.range 8).map (fun k => (k, tget 0 s.cq.issued k)) }

/-- JOIN: the ACTIVE part answers with a SNAPSHOT. -/
def execJoin (f : WFrame) (units : W32) (s : State) : Host.Outcome State Fault Refusal :=
  seqRow s f (.join units []) fun s => if s.role = 2 then s.sendSeq (.snapshot s.snap) else s

/-- A kiln loaded: it accumulates from a span that every channel can still give. One in SHUT has here no bank to drain: it stays in SHUT,
not ready, until an item of the active part opens it again or a takeover finds it so. -/
def State.loadKiln (s : State) (q : KilnSnap) : State :=
  let live := decide (q.state = 2) || decide (q.state = 3)
  let k := q.k
  let s := ((s.setRb (oKln k) 1 q.auto).setRb (oKln k) 0 q.skipPolicy).setReg64 (oKln k + 8) q.seed.toNat
  if q.state = 4 then
    s.setKiln k { s.kiln k with state := 4, seq := q.seq, seed := q.seed, rings := ringSet q.ringFirst q.log2R }
  else if !live then s.setRb oPrReady k true
  else
    let v := { s.kiln k with
      state := 2, s0 := q.s0, pend := q.pending.map (fun b => (b, none)), endAt := q.endAt.map (fun b => (b, none)), seq := q.seq, seed := q.seed
      rings := ringSet q.ringFirst q.log2R, from_ := joinWait }
    let s := ((s.setKiln k v).beginBank k 0 q.first).setReg (oKln k + 0x30) (lo32 (q.seq - 1))
    (s.setRb oPrReady k false).setPair fun p => { p with
      kilnFrom := sput p.kilnFrom k joinWait, lost := p.lost ++ [k], undrained := if q.state = 3 then p.undrained ++ [k] else p.undrained }

/-- A beam block loaded: its settings take effect at an epoch that every channel can still give. -/
def State.loadBlock (s : State) (q : BlockSnap) : State :=
  let pend := q.pendNs.map (fun x => (⟨x, q.pendTable, q.pendN0, q.pendShifts.map (fun l => l.map shiftOf), none⟩ : SteerPend))
  let b := { BlockSt.init with pend, lastNs := q.pendNs.getD q.ns }
  if !q.steered then (s.setBlock q.m { b with nextEval := pend.map (fun x => x.ns / s.epochLen q.m) }).setRb oPrReadyX q.m true
  else
    let sh := q.shifts.map shiftOf
    let s := s.setBlock q.m { b with steered := true, eras := [⟨joinWait, q.table, q.n0, sh⟩] }
    let s := (List.range 64).foldl (fun s k => s.setReg (0xD01000 + 0x10 * (64 * q.m + k)) (sh.getD k 0)) s
    let s := (s.setReg64 (oBlk q.m + 8) q.table).setRb oPrReadyX q.m false
    s.setPair fun p => { p with blockFrom := sput p.blockFrom q.m joinWait, eraNs := sput p.eraNs q.m q.ns }

/-- An engine loaded: its state, buffers and capture are those of the partner's, and it writes on from here in the same buffer. -/
def State.loadEng (s : State) (q : EngSnap) : State :=
  match s.placedEng q.e with
  | none => s
  | some p =>
    let e := q.e
    let s := s.setLtn e { s.ltn e with state := q.state, cur := q.cur, frozen := q.frozen, cseq := q.cseq, firstCap := q.firstCap }
    if q.state = 0 then s.setRb oPrReadyX (24 + e) true
    else
      let n := s.engStart p.desc
      let cap := q.cap.map (fun c => ({ t := c.t, slot := c.slot, unit := c.unit, xEvent := c.xEvent, beam := c.beam, value := c.value
                                        kind := s.unitKind e c.slot c.unit, first := c.first, acceptNs := c.acceptNs, freezeNs := 0
                                        prevDead := 0, prevIgn := 0, buffer := q.cur, known := false, loss := false, lossBlocks := 0
                                        missed := false } : LtnCap))
      let s := s.setLtn e { s.ltn e with next := if q.state = 4 then none else some n, firstBlk := n, count := 0, cap }
      (s.setRb oPrReadyX (24 + e) false).setPair fun r => { r with engFrom := sput r.engFrom e p.desc.nk }

/-- The snapshot loaded: the partner's placement in place of any of this part's own, its units, and the role STANDBY. -/
def State.loadSnap (s : State) (x : Snapshot) : State :=
  let s := { s with kilns := [], eng := [], slots := [], asm_ := [], tiles := []
                    plc := { s.plc with cur := none, pend := none, moves := [], oldAsm := [], shutKeep := [] }
                    beam := { s.beam with blocks := [], windows := [], groups := [], caps := [], switch_ := none } }
  let s := s.setPair fun p => { p with unfit := false, follow := [], early := [], snapIssue := x.issues, closes := [], skips := [], rekeys := []
                                       kilnFrom := [], blockFrom := [], engFrom := [], eraNs := [], lost := [], undrained := [], missed := []
                                       reported := Positions.none }
  let s := (s.fillBank 0 x.gains0).fillBank 1 x.gains1
  let s := s.setBeam fun b => { b with active := x.activeBank, switch_ := x.pendingSwitch.map (fun n => (n, none)) }
  let s := s.setRole 4
  if x.plan.isEmpty then s
  else
    let p := Plan.parse x.plan
    match p.place (s.itemEnv p x.spans x.keys) with
    | .error _ => s.setUnfit
    | .ok q =>
      let s := (s.placeEffect q 0).setReady (fun _ => false) (fun _ => false) (fun _ => false)
      let s := x.kilns.foldl (fun s q => s.loadKiln q) s
      let s := x.blocks.foldl (fun s q => s.loadBlock q) s
      let s := x.armed.foldl (fun s q => s.armSlot q.1 q.2) s
      x.engines.foldl (fun s q => s.loadEng q) s

/-- SNAPSHOT: a part in JOINING loads it. -/
def execSnapshot (f : WFrame) (snap : Snapshot) (s : State) : Host.Outcome State Fault Refusal :=
  seqRow s f (.snapshot snap) fun s => if s.role = 3 then s.loadSnap snap else s

end Sys2Proof.Machine
end

