-- ==== Sys2Proof/Machine/HostCmd.lean ====
section
/-! DEFINITION. The command unit: LOAD to QUERY, their checks in order, and responses; requests of the host link that get no
completion (R237, R245, R252 to R256). -/

namespace Sys2Proof.Machine

/-! ### Fetching a command (R252, R253) -/

/-- GLB_BOOT_STAT.STATE. -/
def State.bootState (s : State) : Nat := s.rf 0x14 29 3

/-- The command unit serves host rings: memories are released, and it is not loading an image (R369; log 47). -/
def State.cmdsServed (s : State) : Bool := s.up && s.pwr.released && decide (s.bootState ≠ 2)

def State.setLink (s : State) (f : HostSt → HostSt) : State := { s with link := f s.link }

/-- A COMMAND ring with a command to take: enabled, not empty, and its last one finished. -/
def State.cmdReady (s : State) (r : Nat) : Bool :=
  s.rEn r && decide (s.rFmt r = 5) && decide (lo32 (s.rng r).head ≠ s.reg (oRng r 4)) && !s.link.cmds.any (fun e => e.1 == r)

/-- The device memory that a LOAD or READ in `b` moves serves it (R22, R275). -/
def State.cmdServes (s : State) (b : List Byte) : Bool :=
  decide (field b 0 1 ≠ 1 ∧ field b 0 1 ≠ 2) || decide (field b 8 1 ≠ 0) || decide (s.memEnd < field b 24 8 + field b 12 4)
    || decide (16777216 < field b 12 4) || s.hbmServes (field b 24 8) (field b 12 4)

/-- The ring served next: the first after the last one served, in turn. -/
def State.nextCmdRing (s : State) : Option Nat :=
  let rs := s.enabledRings.filter s.cmdReady
  (rs.find? (fun r => decide (s.link.lastRing < r))).or rs.head?

/-- The 64 bytes at CONS of a ring. -/
def State.cmdBytes (s : State) (r : Nat) : List Byte := rdBytes s.host (s.rBase r + (s.rng r).head % s.rSize r * 64) 64

/-- The operand bytes an opcode lists. -/
def cmdUsed (op : Nat) : List (Nat × Nat) :=
  match op with
  | 1 | 2 => [(8, 1), (9, 1), (12, 4), (16, 8), (24, 8)]
  | 3 => [(8, 1), (9, 1), (10, 2)]
  | 4 => [(8, 1)]
  | 5 => [(8, 2), (16, 8)]
  | 6 => [(8, 2)]
  | 7 => [(8, 2), (16, 20)]
  | _ => [(8, 2)]

/-- A bit or byte that the command does not use is not 0: reserved FLAGS bits, RESP_RING and TAG of a command that asks for no
response, and operand bytes that the opcode does not list. -/
def cmdStray (b : List Byte) : Bool :=
  let op := field b 0 1
  decide (2 ≤ field b 1 1) || decide (0x8000 ≤ field b 2 2)
    || (decide (field b 1 1 = 0) && (decide (field b 2 2 ≠ 0) || decide (field b 4 4 ≠ 0)))
    || (List.range 56).any (fun i => !(cmdUsed op).any (fun u => decide (u.1 ≤ i + 8) && decide (i + 8 < u.1 + u.2))
        && decide (b.getD (i + 8) 0 ≠ 0))

/-- STATUS codes (R256). -/
def cmdOk : Nat := 0
def cmdBadOp : Nat := 1
def cmdRange : Nat := 2
def cmdState : Nat := 3
def cmdDenied : Nat := 4
def cmdError : Nat := 5

/-- A context other than 0 asks for what it may not (R245). -/
def State.denied (s : State) (ctx : Nat) (b : List Byte) : Bool :=
  let n := field b 8 2
  decide (ctx ≠ 0) && (match field b 0 1 with
    | 6 => decide (n ≠ ctx)
    | 7 => (s.rEn n && decide (s.rOwner n ≠ ctx)) || decide (field b 28 4 / 65536 % 1024 ≠ ctx)
    | 8 => false
    | _ => true)

/-- A command's outcome: its status, its RESULT, and the context a DETACH detaches after the response. -/
abbrev CmdOut := Nat × List Byte × Option Nat × State

/-- A command that fails has no effect. -/
def State.cmdFail (s : State) (status : Nat) : CmdOut := (status, [], none, s)

/-- The command of ring r executed and left for its response. -/
def State.cmdFinish (s₀ : State) (r : Nat) (b : List Byte) (o : CmdOut) : State :=
  let (status, result, detach, s) := o
  let d : CmdDone := ⟨field b 0 1, status, field b 1 1 % 2 = 1, field b 2 2 % 32768, field b 4 4, padTo 48 result, detach, s₀.rOwner r⟩
  s.setLink fun l => { l with cmds := l.cmds ++ [(r, d)], lastRing := r }

/-- Ring r is served: its next command has this opcode, and the checks of R255 come before it. -/
def cmdRow (r op : Nat) (s : State) (f : State → List Byte → CmdOut) : Host.Outcome State Fault Refusal :=
  gate (s.cmdsServed && decide (s.nextCmdRing = some r) && decide (field (s.cmdBytes r) 0 1 = op)
      && s.cmdServes (s.cmdBytes r)) s fun s =>
    let b := s.cmdBytes r
    let s := s.rLook r
    if !s.rEn r then s
    else s.cmdFinish r b (if s.denied (s.rOwner r) b then s.cmdFail cmdDenied else if cmdStray b then s.cmdFail cmdRange else f s b)

/-! ### LOAD and READ (R254) -/

/-- SPACE, CORE, LENGTH, HOST and DEV. -/
structure MoveCmd where
  space : Nat
  core : Nat
  len : Nat
  host : Nat
  dev : Nat
  deriving DecidableEq, Repr

def MoveCmd.parse (b : List Byte) : MoveCmd := ⟨field b 8 1, field b 9 1, field b 12 4, field b 16 8, field b 24 8⟩

def State.moveBad (s : State) (m : MoveCmd) : Bool :=
  let size := match m.space with
    | 0 => s.memEnd
    | 1 => csramBytes
    | _ => 0x10000
  decide (3 < m.space) || decide ((if 2 ≤ m.space then 7 else 0) < m.core) || decide (m.len = 0) || decide (16777216 < m.len)
    || decide (m.len % 4 ≠ 0) || decide (m.host % 4 ≠ 0) || decide (m.dev % 4 ≠ 0) || decide (size < m.dev + m.len)

def MoveCmd.sram (m : MoveCmd) : SramAt :=
  match m.space with
  | 1 => .cs m.dev
  | 2 => .im m.core m.dev
  | _ => .dm m.core m.dev

/-- Bytes into the space: lines that cannot be merged. -/
def State.moveIn (s : State) (m : MoveCmd) (b : List Byte) : List Nat × State :=
  if m.space = 0 then s.hbmMerge m.dev b (List.replicate b.length true) 6
  else ([], s.sramWr m.sram true b (List.replicate b.length true))

/-- SPACE 2 of a core that is not HALTED, or under VERIFY (R254, R371). -/
def State.loadState (s : State) (m : MoveCmd) : Bool := decide (m.space = 2) && (decide ((s.core m.core).run ≠ 0) || s.fuse.verify)

/-- Bytes of a line of device memory that a LOAD covers. -/
def MoveCmd.covers (m : MoveCmd) (l : Nat) : Nat := min (m.dev + m.len) (l + 64) - max m.dev l

def State.doLoad (s : State) (m : MoveCmd) : CmdOut :=
  if s.moveBad m then s.cmdFail cmdRange
  else if s.loadState m then s.cmdFail cmdState
  else
    let (bad, s) := s.moveIn m (rdBytes s.host m.host m.len)
    (if bad.isEmpty then cmdOk else cmdError, leBytes 4 (m.len - (bad.map m.covers).sum), none, s)

/-- The rows of LOAD and READ, where no transaction of theirs has to wait. -/
def rowLoad (r : Nat) (s : State) : Host.Outcome State Fault Refusal := cmdRow r 1 s fun s b => s.doLoad (MoveCmd.parse b)

/-- The command of ring r moves bytes over the control fabric: it is served next, is a LOAD (`op` 1) or READ (2) that passes its checks,
and its SPACE is not device memory. -/
def State.cmdMoves (s : State) (r op : Nat) : Bool :=
  let b := s.cmdBytes r
  let m := MoveCmd.parse b
  s.cmdsServed && decide (s.nextCmdRing = some r) && decide (field b 0 1 = op) && decide (m.space ≠ 0) && !s.denied (s.rOwner r) b
    && !cmdStray b && !s.moveBad m && !(decide (op = 1) && s.loadState m)

/-- The transaction that a LOAD or READ asks for: its bursts as one, for the command of the ring that the request carries (DESIGN CHOICE
of form, log 29). -/
def State.moveReq (s : State) (r : Nat) (write : Bool) : FabReq :=
  let m := MoveCmd.parse (s.cmdBytes r)
  ⟨fabCmd, m.sram.fabAddr, write, m.len / 4, [lo32 r], 0xF⟩

/-- LOAD. -/
def execCmdLoad (r : Nat) (up : Option Upset) (s : State) : Host.Outcome State Fault Refusal :=
  if s.cmdMoves r 1 then .next ((s.upset up).fabUnit (s.moveReq r true) fun s => s.by_ (rowLoad r s)) else rowLoad r (s.upset up)

/-- The bytes of a READ's source, with the place of the first that cannot be read. -/
def State.moveOut (s : State) (m : MoveCmd) : Option Nat × List Byte × State :=
  if m.space = 0 then
    let (bad, b, s) := s.hbmRead m.dev m.len 6 0
    (bad.head?.map (· - m.dev), b, s)
  else
    let (bad, b, s) := s.sramRd m.sram m.len 6
    (if bad then some 0 else none, b, s)

def State.doRead (s : State) (m : MoveCmd) : CmdOut :=
  if s.moveBad m then s.cmdFail cmdRange
  else
    let (bad, b, s) := s.moveOut m
    let (n, st, s) := match bad with
      | none => (m.len, cmdOk, s)
      | some i => (s.free.1.toNat % (i + 1), cmdError, s.free.2)
    (st, leBytes 4 n, none, { s with host := wrBytes s.host m.host (b.take n) })

def rowRead (r : Nat) (s : State) : Host.Outcome State Fault Refusal := cmdRow r 2 s fun s b => s.doRead (MoveCmd.parse b)

/-- READ. -/
def execCmdRead (r : Nat) (up : Option Upset) (s : State) : Host.Outcome State Fault Refusal :=
  if s.cmdMoves r 2 then .next ((s.upset up).fabUnit (s.moveReq r false) fun s => s.by_ (rowRead r s)) else rowRead r (s.upset up)

/-! ### START_KEEPER and STOP_KEEPER (R196, R215, R254, R371) -/

def State.doStart (s : State) (b : List Byte) : CmdOut :=
  let k := field b 8 1
  let set_ := field b 9 1
  let entry := field b 10 2
  if 7 < k ∨ 1 < set_ ∨ 0x3FFF < entry ∨ (set_ = 0 ∧ entry ≠ 0) then s.cmdFail cmdRange
  else if (s.core k).run ≠ 0 ∨ (s.fuse.verify ∧ s.bootState ≠ 4) then s.cmdFail cmdState
  else
    let s := if set_ = 1 then s.setReg (oKpr k + 4) (lo32 entry) else s
    (cmdOk, [], none, s.kStart k (BitVec.ofNat 14 (s.rf (oKpr k + 4) 0 14)))

def execCmdStartKeeper (r : Nat) (s : State) : Host.Outcome State Fault Refusal := cmdRow r 3 s fun s b => s.doStart b

def State.doStop (s : State) (b : List Byte) : CmdOut :=
  let k := field b 8 1
  if 7 < k then s.cmdFail cmdRange
  else if (s.core k).run = 0 then s.cmdFail cmdState
  else (cmdOk, [], none, s.kStop k)

def execCmdStopKeeper (r : Nat) (s : State) : Host.Outcome State Fault Refusal := cmdRow r 4 s fun s b => s.doStop b

/-! ### ATTACH and DETACH (R244, R254, R255) -/

/-- The contexts that are detached. -/
def State.detached (s : State) : List Nat := (List.range 1024).filter (fun c => !s.rb (oCtx c) 31)

def State.doAttach (s : State) (b : List Byte) : CmdOut :=
  let c := field b 8 2
  let idx := field b 16 8
  if (1023 < c ∧ c ≠ 0xFFFF) ∨ idx % 4096 ≠ 0 then s.cmdFail cmdRange
  else
    match (if c = 0xFFFF then s.detached.head? else if s.rb (oCtx c) 31 then none else some c) with
    | none => s.cmdFail cmdState
    | some c => (cmdOk, leBytes 2 c, none, (s.setReg64 (oCtx c + 4) idx).attach c)

def execCmdAttach (r : Nat) (s : State) : Host.Outcome State Fault Refusal := cmdRow r 5 s fun s b => s.doAttach b

/-- DETACH: at once, unless the response goes to a ring of the context itself. -/
def State.doDetach (s : State) (b : List Byte) : CmdOut :=
  let c := field b 8 2
  let rr := field b 2 2
  if 1023 < c then s.cmdFail cmdRange
  else if !s.rb (oCtx c) 31 then s.cmdFail cmdState
  else if field b 1 1 % 2 = 1 ∧ s.rEn rr ∧ s.rOwner rr = c then (cmdOk, [], some c, s)
  else (cmdOk, [], none, s.detach c)

def execCmdDetach (r : Nat) (s : State) : Host.Outcome State Fault Refusal := cmdRow r 6 s fun s b => s.doDetach b

/-! ### RING_SETUP (R246, R254, R255) -/

/-- Context words 0, 1, 2, 3 and 6 of a command. -/
def setupWord (b : List Byte) (i : Nat) : W32 := lo32 (field b (16 + 4 * i) 4)

/-- RING_SETUP. A size or format outside its range gives RANGE with EN = 0 too; under EN = 1 it is an enable that fails, which sets
ERR (R246, R254, R255). -/
def State.doSetup (s : State) (b : List Byte) : CmdOut :=
  let r := field b 8 2
  let cfg := setupWord b 2
  let own := setupWord b 3
  let fault := if bit cfg 31 then s.enableFault cfg (fld own 16 10) else none
  let size := fld cfg 19 5
  if !bit cfg 31 ∧ (size < 12 ∨ 30 < size ∨ 6 < fld cfg 24 4) then s.cmdFail cmdRange
  else if s.nRings ≤ r ∨ cfg &&& 0x1007FFFF#32 ≠ 0 ∨ own &&& 0xFC00F800#32 ≠ 0 ∨ fld (setupWord b 0) 0 12 ≠ 0 then s.cmdFail cmdRange
  else if fault = some cmdRange then (cmdRange, [], none, s.setRb (oRng r 2) 18 true)
  else if s.rEn r ∧ bit cfg 31 then s.cmdFail cmdState
  else
    match fault with
    | some c => (c, [], none, s.setRb (oRng r 2) 18 true)
    | none =>
      let s := s.clean 7 r 0 32
      let s := if s.rEn r then s.ringOff r else s
      let s := ((s.setReg (oRng r 0) (setupWord b 0)).setReg (oRng r 1) (setupWord b 1)).setReg (oRng r 3) own
      let s := s.setReg (oRng r 6) (setupWord b 4)
      let s := if bit cfg 31 then (s.setReg (oRng r 4) 0).setReg (oRng r 5) 0 else s
      (cmdOk, [], none, s.ringCfg r cfg)

def execCmdRingSetup (r : Nat) (s : State) : Host.Outcome State Fault Refusal := cmdRow r 7 s fun s b => s.doSetup b

/-! ### QUERY (R256) -/

/-- A word of a ring's context as it reads. -/
def State.ringWord (s : State) (r w : Nat) : W32 :=
  if w = 2 then setBit (s.reg (oRng r 2)) 28 (s.rStalled r) else s.reg (oRng r w)

def State.doQuery (s : State) (b : List Byte) : CmdOut :=
  let r := field b 8 2
  if s.nRings ≤ r then s.cmdFail cmdRange
  else
    let s := s.rLook r
    (cmdOk, leBytes 4 (s.reg 8).toNat ++ leBytes 4 s.detached.length
    ++ (List.range 8).flatMap (fun w => leBytes 4 (s.ringWord r w).toNat), none, s)

def execCmdQuery (r : Nat) (s : State) : Host.Outcome State Fault Refusal := cmdRow r 8 s fun s b => s.doQuery b

/-! ### Responses (R252, R256) -/

/-- The bytes of a response. -/
def CmdDone.bytes (d : CmdDone) (r rseq claim : Nat) : List Byte :=
  [0x40#8, BitVec.ofNat 8 d.op, BitVec.ofNat 8 d.status, 0#8] ++ leBytes 4 d.tag ++ leBytes 4 rseq ++ leBytes 2 claim
    ++ leBytes 2 r ++ d.result

/-- The command is finished: a DETACH held for its response takes effect, and CONS of the ring advances. -/
def State.cmdClose (s : State) (r : Nat) (d : CmdDone) : State :=
  let s := s.setLink fun l => { l with cmds := l.cmds.filter (fun e => e.1 ≠ r) }
  let s := s.setRng r { s.rng r with head := ((s.rng r).head + 1) % 2 ^ 32 }
  d.detach.elim s s.detach

/-- Whether a response ring will do for a command of a ring that context `owner` owned. -/
def State.respRing (s : State) (owner rr : Nat) : Bool :=
  decide (rr < s.nRings) && s.rEn rr && decide (s.rFmt rr = 4) && decide (s.rOwner rr = owner)

def State.respond (s : State) (r : Nat) (d : CmdDone) : State :=
  if !d.resp then s.cmdClose r d
  else if (s.rng d.respRing).lost.contains (.response r) then (s.rServed d.respRing (.response r)).cmdClose r d
  else if !s.respRing d.owner d.respRing then (s.cnt (oRng r 7) 1).cmdClose r d
  else
    match s.offer d.respRing (.response r) false 1 (d.bytes r) with
    | (.held, s) => s
    | (_, s) => s.cmdClose r d

/-- RESPONSE_RECORD_WRITE (R252, R256): the command of ring r that has executed is answered; one of an unknown opcode is
answered as soon as it is served. -/
def execResponseRecordWrite (r : Nat) (s : State) : Host.Outcome State Fault Refusal :=
  gate s.cmdsServed s fun s =>
    match s.link.cmds.find? (fun e => e.1 == r) with
    | some (_, d) => s.respond r d
    | none =>
      let b := s.cmdBytes r
      let s := s.rLook r
      if s.nextCmdRing = some r ∧ (field b 0 1 = 0 ∨ 8 < field b 0 1) then
        let s := s.cmdFinish r b (s.cmdFail cmdBadOp)
        (s.link.cmds.find? (fun e => e.1 == r)).elim s (fun e => s.respond r e.2)
      else s

/-! ### HOST_COMPLETION_TIMEOUT (R237, R256, R263) -/

/-- A LOAD whose host reads fail: an open number of its bytes have been moved, none of them where its target is not open to it. What it had
asked of the fabric is gone. -/
def State.loadFails (s : State) (r : Nat) (b : List Byte) : State :=
  let m := MoveCmd.parse b
  if s.denied (s.rOwner r) b ∨ cmdStray b ∨ s.moveBad m ∨ s.loadState m then s
  else
    let n := if m.space = 0 || s.fabOpen fabCmd (s.fabAt m.sram.fabAddr).target then s.free.1.toNat % (m.len + 1) else 0
    let s := s.free.2.setXbr fun x => { x with waiting := x.waiting.filter (fun q => q.master != fabCmd) }
    let s := (s.moveIn m (rdBytes s.host m.host n)).2
    s.cmdFinish r b (cmdError, leBytes 4 n, none, s)

def execHostCompletionTimeout (q : Requester) (s : State) : Host.Outcome State Fault Refusal :=
  match q with
  | .dma c => gate (s.up && decide (c < 64)) s fun s => s.dmaHostError c
  | .command r =>
    gate (s.cmdsServed && decide (s.nextCmdRing = some r) && decide (field (s.cmdBytes r) 0 1 = 1) && s.cmdServes (s.cmdBytes r)) s fun s =>
      s.loadFails r (s.cmdBytes r)

end Sys2Proof.Machine
end

