-- ==== Sys2Proof/Machine/Power.lean ====
section
/-! DEFINITION. Resets, start-up and boot, power states, adaptive core voltage, thermal limits and fault outputs (R23, R281,
R363 to R379). -/

namespace Sys2Proof.Machine

/-! ### Resets (R366, R367, R390's table of domains) -/

/-- Registers of the domains that a reset leaves. -/
def keepDoms (f : Dom → Bool) (regs : List (Nat × W32)) : List (Nat × W32) :=
  regs.filter (fun e => (regRow e.1).elim true (fun r => f r.dom))

/-- A reset recorded in PWR_RST_CAUSE: bit 0 POR, 1 WARM, 2 PERST. -/
def State.cause (s : State) (i : Nat) : State := s.setRb 0x100004 i true

/-- The host side after a reset of the HOST domain: what the part has sent stands. -/
def HostSt.reset (l : HostSt) : HostSt := { HostSt.init with msis := l.msis }

/-- Masters of the fabric reset: what they wait for is gone, and their next transaction is their first. -/
def XbrSt.resetMasters (x : XbrSt) (ms : List Nat) : XbrSt :=
  { x with waiting := x.waiting.filter (fun r => !ms.contains r.master)
           granted := x.granted.filter (fun r => !ms.contains r.master), fresh := (x.fresh ++ ms).eraseDups }

/-- The part as PORST_N leaves it: State.reset, but for its fuses and flash, the level of its pins, the TAP, which PORST_N does
not reset, the host's memory, and what it has sent. -/
def State.porReset (s : State) : State :=
  { State.reset with
    pending := s.pending, fuse := s.fuse, freeCtr := s.freeCtr, regs := fuseRegs s.fuse, host := s.host
    link := s.link.reset, pair := { PairSt.init with sent := s.pair.sent }
    beam := { BeamSt.init with sent := s.beam.sent }, time := { TimeSt.init with sent := s.time.sent }
    pwr := { PwrSt.init with warmLow := s.pwr.warmLow, bootsel := s.pwr.bootsel, foginLow := s.pwr.foginLow
                             pmbLow := s.pwr.pmbLow, flash := s.pwr.flash, tap := s.pwr.tap } }

/-- FAILED of MEM_STAT and the slices it names: stored training, which outlasts a WARM reset (R274, R366). -/
def State.trainFailed (s : State) : List Nat :=
  (List.range 32).filter (fun q => s.rb (oMem (q / 4) + 4) (4 + q % 4))
def State.showFailed (s : State) (qs : List Nat) : State :=
  qs.foldl (fun s q => s.setRb (oMem (q / 4) + 4) (4 + q % 4) true) s

/-- A LOAD or READ that PERST_N or WARMRST_N cuts short: the beats done stand with their side effects, the host writes done stand, and how
many they are is open (R270, R336). One that still waits for its grant has done none. -/
def State.cmdCut (s : State) : State :=
  match s.nextCmdRing with
  | none => s
  | some r =>
    let b := s.cmdBytes r
    let m := MoveCmd.parse b
    if !s.cmdsServed || !s.cmdServes b || s.denied (s.rOwner r) b || cmdStray b || s.moveBad m
        || s.xbr.waiting.any (fun x => x.master == fabCmd) then s
    else
      let n := s.free.1.toNat % (m.len / 4 + 1) * 4
      match field b 0 1 with
      | 1 => if s.loadState m then s else (s.free.2.moveIn m (rdBytes s.host m.host n)).2
      | 2 =>
        let (_, d, s) := s.free.2.moveOut { m with len := n }
        { s with host := wrBytes s.host m.host d }
      | _ => s

/-- The part as WARMRST_N leaves it: the WARM and HOST domains reset; memory contents with their errors, the sherd log,
training, the AON domain, and failed units stand. RX lanes go to DOWN, and RXCLK with its lane (R304). A LOAD or READ under way is
cut short (R336). -/
def State.warmReset (s : State) : State :=
  let s := s.cmdCut
  let s := if s.canBeActive 4 then s.inputLost 4 else s
  let cores := s.cores.foldl (fun t e => tset Core.init t e.1 { Core.init with imem := e.2.imem, dmem := e.2.dmem }) []
  let t : State :=
    { s with
      regs := keepDoms (fun d => decide (d = .por) || decide (d = .aon)) s.regs
      link := s.link.reset, mem := { MemSt.init with trained := s.mem.trained, filled := s.mem.filled }
      bcn := BcnSt.init, xbr := s.xbr.resetMasters (List.range 9)
      lanes := [], srcs := [], asm_ := [], plc := { PlcSt.init with failed := s.plc.failed }
      tiles := [], kilns := [], beam := { BeamSt.init with sent := s.beam.sent }, eng := [], slots := []
      cores := cores, cq := CqSt.init, pair := { PairSt.init with sent := s.pair.sent }
      pwr := { s.pwr with released := false, loading := none, change := none, wake := false } }
  (t.showFailed s.trainFailed).cause 1

/-- Whether PERST_N finds the command unit, the host's BAR0 accesses and a DMA fetch amid a burst is open: how many of them are counts in
XBR_ABORT (R336; DESIGN CHOICE, log 29). One whose transaction waits for its grant is amid none. -/
def State.abortBursts (s : State) : State :=
  let on := fun (m : Nat) (b : Bool) => b2n (b && !s.xbr.waiting.any (fun r => r.master == m))
  let busy := on fabHost true + on fabCmd s.nextCmdRing.isSome + on fabFetch ((List.range 64).any s.dReady)
  let (x, s) := s.free
  s.cnt 0x30000C (x.toNat % (busy + 1))

/-- Channels whose writes to the host are in flight as PERST_N falls end as after KILL (R264, R270). -/
def State.killWrites (s : State) : State := ((List.range 64).filter s.dWrites).foldl State.dKill s

/-- The part as PERST_N leaves it: the HOST domain reset, the rings disabled and so the records that wait for them dropped (R244,
R270). DMA channels and commands are gone, and with them what they had still to learn of their records. -/
def State.hostReset (s : State) : State :=
  let s := s.cmdCut.abortBursts.killWrites
  let s := s.enabledRings.foldl State.ringOff s
  let lost := s.link.rings.map (fun e => (e.1, { RingDyn.init with lost := e.2.lost.filter Offerer.pairStream }))
  ({ s with
    regs := keepDoms (fun d => !decide (d = .host)) s.regs
    link := { s.link.reset with rings := lost.filter (fun e => decide (e.2 ≠ RingDyn.init)) }
    xbr := s.xbr.resetMasters [8, 9, 10] } : State).cause 2

/-! ### Start-up (R281, R368) -/

/-- PWR_BIST as a completed self-test leaves it. -/
def State.showBist (s : State) (tiles slices : Nat) : State :=
  s.setReg 0x100050 (lo32 (2 ^ 31 + 256 * (tiles % 256) + slices % 256))

def exclIsTile : ExclUnit → Bool
  | .tile _ => true
  | .slice _ => false

/-- Units that fail their self-test: remembered, and never placed. -/
def State.fails (s : State) (us : List ExclUnit) : State :=
  s.setPlc fun q => { q with failed := (q.failed ++ us).eraseDups }

/-- Step 4 of R368: failed units shown as excluded, the memories released, the regulator asked for its mode, and the boot
begun or awaited. What the regulator answers is open. -/
def State.release (s : State) : State :=
  let us := s.plc.failed
  let s := us.foldl (fun s u => match u with
    | .tile t => s.setRb (0xB00020 + 4 * (t / 32)) (t % 32) true
    | .slice n => s.setRb 0xB00040 n true) s
  let s := s.showBist (us.filter exclIsTile).length (us.filter (fun u => !exclIsTile u)).length
  let (x, s) := s.free
  let bad := x.getLsbD 0
  let s := (s.setPwr fun p => { p with released := true, noPmb := bad })
  let s := if bad then s.setRb 0x100014 31 true else s
  if s.pwr.bootsel then (s.setRf 0x14 29 3 2).setPwr fun p => { p with loading := some s.time.ticks }
  else s.setRf 0x14 29 3 3

/-- PORST_N (R366, R367, R368): a pulse, and the rise that starts the part. -/
def execPorstN (s : State) : Host.Outcome State Fault Refusal := .next s.porReset

/-- WARMRST_N (R366, R386): its level. Its fall resets; its rise brings step 4 once the fill is complete, with the failures of
a self-test run meanwhile. After THERM_TRIP nothing starts again. -/
def execWarmrstN (low : Bool) (s : State) : Host.Outcome State Fault Refusal :=
  gate (s.aux && low != s.pwr.warmLow) s fun s =>
    let s := s.setPwr fun p => { p with warmLow := low }
    if low then s.warmReset
    else
      let t := s.pwr.tap
      let s := if t.done then s.fails (t.tiles.map .tile ++ t.slices.map .slice) else s
      if s.pwr.tripped then s
      else if s.mem.filled then s.release
      else if s.mem.trained then s.setRf 0x14 29 3 1
      else s

/-- PERST_N (R270, R366). -/
def execPerstN (s : State) : Host.Outcome State Fault Refusal := gate s.aux s State.hostReset

/-- TRST_N (R366, R386): the TAP in Test-Logic-Reset; a self-test running runs on. -/
def execTrstN (s : State) : Host.Outcome State Fault Refusal :=
  gate s.aux s fun s =>
    { s.setPwr fun p => { p with tap := { p.tap with ir := 1 } } with xbr := s.xbr.resetMasters [11] }

/-- RAILS_REMOVED (R364, R372): Off. -/
def execRailsRemoved (s : State) : Host.Outcome State Fault Refusal :=
  gate s.aux s fun s =>
    let t := s.porReset
    t.setPwr fun p => { p with off := true, tap := TapSt.init }

/-- Failing lanes that a list gives one unit. -/
def lanesOf (l : List (Nat × Nat)) (i : Nat) : Nat := ((l.filter (fun e => e.1 == i)).map (·.2)).sum

/-- What training finds in a quarter, from the failing data lanes of pseudo-channels and the failing command/address lanes of
channels: the repairs, onto two spares of each pseudo-channel and one of each channel, and whether the spares suffice (R274). -/
def trainQuarter (data ca : List (Nat × Nat)) (q : Nat) : Nat × Bool :=
  let d := (List.range 16).map (fun i => lanesOf data (16 * q + i))
  let c := (List.range 8).map (fun i => lanesOf ca (8 * q + i))
  ((d.map (min 2)).sum + (c.map (min 1)).sum, d.all (fun n => decide (n ≤ 2)) && c.all (fun n => decide (n ≤ 1)))

/-- HBM_TRAINING_DONE (R274, R368): failing lanes are remapped onto spares and counted; quarters with more of them than
spares are slices that fail; then the fill starts. -/
def execHbmTrainingDone (dt : Nat) (data ca : List (Nat × Nat)) (s : State) : Host.Outcome State Fault Refusal :=
  gate (s.auxUp && !s.mem.trained) s fun s =>
    let s := s.advance dt
    let s := (s.setMem fun m => { m with trained := true }).setPwr fun p => { p with since := s.time.ticks }
    let qs := List.range (4 * s.nStacks)
    let s := qs.foldl (fun s q => s.cnt (oMemCnt q 4) (trainQuarter data ca q).1) s
    let failed := qs.filter (fun q => !(trainQuarter data ca q).2)
    ((s.showFailed failed).fails (failed.map .slice)).setRf 0x14 29 3 1

/-- Registers that stand in memories of R282: format entries 1 to 7, ring contexts and glaze gains. -/
def inMemory (off : Nat) : Bool :=
  (decide (0xA01040 ≤ off) && decide (off < 0xA01200)) || (decide (0x1100000 ≤ off) && decide (off < 0x1200000))
    || (decide (0xD10000 ≤ off) && decide (off < 0xD18000))

/-- FILL_DONE (R281, R368): every memory holds zeros with valid check bits. -/
def execFillDone (dt : Nat) (tiles slices : List Nat) (s : State) : Host.Outcome State Fault Refusal :=
  gate (s.auxUp && s.mem.trained && !s.mem.filled && tiles.all (fun t => decide (t < s.nTiles))
      && slices.all (fun n => decide (n < s.nSlices))) s fun s =>
    let s := s.advance dt
    let us := (s.time.ticks - s.pwr.since) / 625
    let s : State :=
      { s with hbm := [], csram := [], cores := s.cores.map (fun e => (e.1, { e.2 with imem := [], dmem := [] }))
               regs := s.regs.filter (fun e => !inMemory e.1), srcs := [], link := { s.link with rings := [] } }
    let s := s.setErr fun r => { r with upsets := [], poison := [] }
    let s := (s.setMem fun m => { m with filled := true }).setReg 0x80008C (lo32 (2 ^ 31 + min us 0xFFFF))
    (s.fails (tiles.map .tile ++ slices.map .slice)).release

/-! ### Boot (R369 to R371) -/

/-- BOOT_GO (R369, R371, R388): in HOST mode, while the loader waits or has failed. -/
def State.bootGo (s : State) (v : W32) : State :=
  if bit v 31 && s.pwr.released && !s.pwr.bootsel && (s.bootState == 3 || s.bootState == 5) then
    ((s.setRf 0x14 29 3 2).setRf 0x14 24 5 0).setPwr fun p => { p with loading := some s.time.ticks }
  else s

def execBootGo (v : W32) (s : State) : Host.Outcome State Fault Refusal := gate s.hostUp s fun s => s.bootGo v

/-- Bytes of the image and whether they can be read: from flash, whose addresses have 3 bytes unless QUAD has switched to 4
bytes after the first 4 KiB; or from device memory, read as under BAR4. None while the memory does not serve (R275). -/
def State.image (s : State) (quad : Bool) (o n : Nat) : Option (Bool × List Byte × State) :=
  if s.pwr.bootsel then
    some (true, (List.range n).map (fun i => rd8 s.pwr.flash (if quad ∧ 4096 ≤ o + i then o + i else (o + i) % 2 ^ 24)), s)
  else
    let a := s.reg64 0x18 + o
    let k := min n (s.memEnd - a)
    if !s.hbmServes a k then none
    else
      let (bad, b, s) := s.hbmRead a k 6 0
      some (bad.isEmpty, b ++ List.replicate (n - k) 0, s)

/-- A section as LOAD has it, with its image offset in place of a host address. -/
def bootSection (b : List Byte) : MoveCmd := ⟨field b 0 1, field b 1 1, field b 4 4, field b 8 8, field b 16 8⟩

def State.sectionBad (s : State) (total : Nat) (b : List Byte) : Bool :=
  decide (field b 2 2 ≠ 0) || s.moveBad (bootSection b) || decide (total < (bootSection b).host + (bootSection b).len)

/-- The memory of a section serves it: device memory (R275), or a fabric target that is open to master 8 (R334, R369). -/
def State.sectionServes (s : State) (m : MoveCmd) : Bool :=
  if m.space = 0 then s.hbmServes m.dev m.len else s.fabOpen fabCmd (s.fabAt m.sram.fabAddr).target

/-- Sections loaded in order until one fails: those written, and whether all were. None while a memory does not serve. -/
def State.bootLoad (s : State) (quad : Bool) (total : Nat) : List (List Byte) → Option (List MoveCmd × Bool × State)
  | [] => some ([], true, s)
  | b :: t =>
    let m := bootSection b
    if s.sectionBad total b then some ([], false, s)
    else if !s.sectionServes m then none
    else (s.image quad m.host m.len).bind fun (ok, d, s) =>
      let (bad, s) := (if m.space = 0 then s else s.fabTake fabCmd (s.fabAt m.sram.fabAddr).target).moveIn m d
      if !ok || !bad.isEmpty then some ([m], false, s)
      else (State.bootLoad s quad total t).map fun (ms, ok, s) => (m :: ms, ok, s)

/-- A failed boot: Keeper memories and control SRAM that sections were written to are filled with zeros again. -/
def State.bootFail (s : State) (ms : List MoveCmd) (err : Nat) : State :=
  let s := ms.foldl (fun s m => if m.space = 0 then s else (s.moveIn m (List.replicate m.len 0)).2) s
  (((s.setRf 0x14 29 3 5).setRf 0x14 24 5 err).setRb 0x100048 3 true)

/-- The verdict on the signature of an image under VERIFY: 0, or the ERR code. -/
def State.bootVerdict (s : State) (quad : Bool) (total : Nat) : Option (Nat × State) :=
  (s.image quad 0 total).bind fun (ok1, img, s) =>
  (s.image quad total 200).map fun (ok2, sig, s) =>
    let key := sig.take 97
    if !ok1 || !ok2 then (2, s)
    else if sha384 key ≠ s.fuse.keyHash ∨ (sig.drop 97).take 7 ≠ List.replicate 7 0#8 then (3, s)
    else if ecdsaOk (keyPoint key) (sha384 img) (ofBe ((sig.drop 104).take 48)) (ofBe ((sig.drop 152).take 48)) then (0, s)
    else (4, s)

/-- The Keepers that START names started at their entries. -/
def State.bootStart (s : State) (hdr : List Byte) : State :=
  (bitsOf 8 (field hdr 9 1)).foldl (fun s k =>
    let e := field hdr (16 + 2 * k) 2 % 2 ^ 14
    (s.setReg (oKpr k + 4) (lo32 e)).kStart k (BitVec.ofNat 14 e)) s

/-- The sections of an image with a sound header loaded, and under VERIFY its signature checked. -/
def State.bootBody (s : State) (hdr : List Byte) : Option State :=
  let total := field hdr 4 4
  let quad := hdr.getD 8 0 &&& 1 ≠ 0
  let n := field hdr 10 2
  (s.image quad 64 (24 * n)).bind fun (ok, tab, s) =>
  let secs := (List.range n).map (fun i => (tab.drop (24 * i)).take 24)
  (if ok then s.bootLoad quad total secs else some ([], false, s)).bind fun (ms, ok, s) =>
  if !ok then some (s.bootFail ms 2)
  else (if s.fuse.verify then s.bootVerdict quad total else some (0, s)).map fun (v, s) =>
    if v ≠ 0 then s.bootFail ms v else (s.bootStart hdr).setRf 0x14 29 3 4

/-- The image read, checked and loaded. None while the memory that it needs next does not serve: the loader waits (R22, R275). -/
def State.boot (s : State) : Option State :=
  ((s.setPwr fun p => { p with loading := none }).image false 0 64).bind fun (ok, hdr, s) =>
  let total := field hdr 4 4
  let n := field hdr 10 2
  if !ok || field hdr 0 4 ≠ 0x32375848 then some (s.bootFail [] 1)
  else if s.fuse.verify && hdr.getD 8 0 &&& 2 = 0 then some (s.bootFail [] 5)
  else if total > 16777216 ∨ n = 0 ∨ 64 < n ∨ total < 64 + 24 * n then some (s.bootFail [] 2)
  else s.bootBody hdr

/-- BOOT_LOAD_DONE: it is no occurrence while device memory that the boot needs does not serve. -/
def execBootLoadDone (dt : Nat) (s : State) : Host.Outcome State Fault Refusal :=
  gate (s.hostUp && s.pwr.loading.isSome) s fun t => ((t.advance dt).boot).getD t

/-! ### Power states (R372 to R374) -/

/-- REQ: 3 acts as 0. -/
def State.pwrReq (s : State) : Nat := s.rf oPwr 30 2 % 3

/-- Idle's condition. -/
def State.idleOk (s : State) : Bool :=
  s.kilns.all (fun e => decide (e.2.state < 2)) && s.beam.blocks.all (fun e => !e.2.steered) && s.slots.all (fun e => !e.2.armed)
/-- Doze's condition. -/
def State.dozeOk (s : State) : Bool :=
  (List.range 64).all (fun c => !(s.dState c == 1 || s.dState c == 2 || s.dState c == 3))

/-- A request ignored: REFUSED, and no wake event is awaited any more. -/
def State.refused (s : State) : State := (s.setPwr fun p => { p with wake := false }).setRb oPwr 26 true

/-- Every RX and TX lane to DOWN. -/
def State.lanesDown (s : State) : State :=
  let s := (List.range s.nRx).foldl (fun s n => s.toDown (.rx n) false) s
  (List.range s.nTx).foldl (fun s n => s.toDown (.tx n) false) s

/-- Every present quarter asks for self-refresh, or Doze asks for it no longer. -/
def State.dozeQuarters (s : State) (on : Bool) : State :=
  (List.range (4 * s.nStacks)).foldl (fun s q => (s.setQuarter q { s.quarter q with doze := on }).srefAsk q) s

/-- Entry to Doze begins: lanes to DOWN, and each quarter asks for its maintenance token (R373). -/
def State.startDoze (s : State) (fromRun : Bool) : State := (s.lanesDown.dozeQuarters true).startChange 2 2 fromRun

/-- The change from the state reached toward the one wanted; `back` says that a refused Doze was asked for in Run. -/
def State.towards (s : State) (final : Nat) (back : Bool) : State :=
  let cur := s.pwrCur
  if final = cur then s
  else if cur = 2 then s.leaveDoze
  else if cur = 1 then
    if final = 0 then s.startChange 0 0
    else if s.dozeOk then s.startDoze back
    else if back then s.refused.startChange 0 0
    else s.refused
  else if s.idleOk && (final == 1 || s.dozeOk) then s.startChange 1 final
  else s.refused

/-- A write of PWR_STATE: while a change is in progress it sets where the change leads in the end; a wake event counts only
while that is Doze. -/
def State.powerWrite (s : State) (v : W32) : State :=
  let s := s.plainWrite oPwr v
  match s.pwr.change with
  | some c => s.setPwr fun p => { p with change := some { c with final := s.pwrReq }
                                         wake := p.wake && decide (s.pwrReq = 2) }
  | none => s.towards s.pwrReq false

def execPowerStateRequest (v : W32) (s : State) : Host.Outcome State Fault Refusal := gate s.hostUp s fun s => s.powerWrite v

/-- The time of a change. -/
def changeTicks (cur dest : Nat) : Nat :=
  if dest = 2 then tMs 2 else if dest = 0 then tUs 50 else if cur = 2 then tUs 200 else tUs 10

/-- The entry to Doze can end: no Keeper has a fabric transaction outstanding, nor master 8 to 10 one that waits, and every quarter is in
self-refresh. -/
def State.dozeReady (s : State) : Bool :=
  s.cores.all (fun e => e.2.load.isNone && !e.2.store) && s.xbr.waiting.all (fun r => r.master == 11) && (List.range (4 * s.nStacks)).all (fun q => (s.quarter q).selfRef)

/-- A stopped clock counts nothing: as Doze stops the Keepers, the spell each is in is counted so far, and goes on from the tick at
which they run again; so does what a beam tile waits, from the tick at which Idle ends (R125, R217, R372, R373). -/
def State.sinceNow (s : State) (dest : Nat) : State :=
  if dest = 2 then (List.range 8).foldl State.kLook s
  else if s.pwrCur = 2 then (List.range 8).foldl (fun s k => s.setCore k { s.core k with since := s.time.ticks }) s
  else if dest = 1 then s
  else s.tiles.foldl (fun s e => s.setTile e.1 { s.tile e.1 with since := s.time.ticks }) s

/-- A state reached. -/
def State.reach (s : State) (dest : Nat) : State := ((s.sinceNow dest).setRf oPwr 28 2 dest).stopIslands

/-- A quarter leaves self-refresh as Doze ends, unless MEM_CMD asks for it (R278). -/
def State.leaveSref (s : State) (q : Nat) : State :=
  let s := s.setQuarter q { s.quarter q with doze := false }
  if (s.quarter q).selfRef && !s.wantsSref q then
    let s := s.setMem fun m => { m with acts := m.acts.filter (fun e => e.1 / 1024 ≠ q)
                                        owed := m.owed.filter (fun e => e.1 / 1024 ≠ q) }
    (s.setQuarter q { s.quarter q with selfRef := false, holder := none }).setRb (oMem (q / 4) + 4) (q % 4) false
  else s

/-- Doze left: self-refresh ends, islands restart, enabled lanes come up from DOWN, and interrupts held for the Keepers are
taken (R320, R330, R374). -/
def State.exitDoze (s : State) : State :=
  let s := ((List.range (4 * s.nStacks)).foldl State.leaveSref s).reach 1
  let s := s.lanesDown
  (List.range 64).foldl State.taskTake s

/-- A change that has run its time. -/
def State.changeDone (s : State) (c : PwrChange) : State :=
  let cur := s.pwrCur
  let s := s.endChange
  if c.dest = 2 then
    if !s.dozeOk then
      let s := (s.dozeQuarters false).refused
      if c.fromRun then s.startChange 0 0 else s
    else
      let s := s.lanesDown.reach 2
      if s.pwr.wake || c.final ≠ 2 then s.leaveDoze else s
  else if c.dest = 1 then
    if cur = 2 then s.exitDoze.towards c.final false
    else if !s.idleOk || (c.final == 2 && !s.dozeOk) then s.refused
    else (s.reach 1).towards c.final true
  else (s.reach 0).towards c.final false

/-- POWER_STATE_CHANGE_DONE (R372 to R374, R388). -/
def execPowerStateChangeDone (dt : Nat) (s : State) : Host.Outcome State Fault Refusal :=
  match s.pwr.change with
  | some c =>
    gate (s.hostUp && decide (c.since + changeTicks s.pwrCur c.dest ≤ s.time.ticks + dt) && (c.dest != 2 || s.dozeReady)) s fun s =>
      (s.advance dt).changeDone c
  | none => .next s

/-! ### Thermal limits and fault outputs (R375 to R379) -/

def oAlert : Nat := 0x100048
def State.alert (s : State) (i : Nat) : State := s.setRb oAlert i true

/-- A cause that drives FOGHORN_N low: 0 THERM, 1 SUPPLY, 2 SOFTWARE. -/
def State.fog (s : State) (i : Nat) : State :=
  (if s.foghorn then s else s.setRf 0x100040 4 2 i).setRb 0x100040 i true

/-- THERM_TRIP: every island but those on VDD_AUX stops, and a change of power state is abandoned (R376, R388). -/
def State.trip (s : State) : State :=
  ((s.fog 0).endChange.setPwr fun p => { p with tripped := true, loading := none, wake := false }).stopIslands

/-- Trip and warning temperatures in °C: the values written. DESIGN CHOICE (log 23): the manual gives their ranges and does
not say how a value outside them acts. -/
def State.tripC (s : State) : Int := s.rf 0x100020 8 8
def State.warnC (s : State) : Int := s.rf 0x100020 0 8

/-- THERM_SENSOR_READ (R375, R376): the five dies, in 1/16 °C. -/
def execThermSensorRead (dt : Nat) (temps : List Int) (s : State) : Host.Outcome State Fault Refusal :=
  gate (s.aux && decide (temps.length = 5) && decide (s.pwr.thermTick + tMs 1 ≤ s.time.ticks + dt)) s fun s =>
    let s := s.advance dt
    let s := s.setPwr fun p => { p with thermTick := s.time.ticks }
    let s := (temps.zipIdx).foldl (fun s x => s.setReg (0x100024 + 4 * x.2) (lo32 (wrapI 16 x.1))) s
    let warn := if temps.any (fun t => decide (16 * s.warnC ≤ t)) then true
      else if temps.all (fun t => decide (t ≤ 16 * (s.warnC - 3))) then false
      else s.pwr.warn
    let s := s.setPwr fun p => { p with warn := warn }
    let s := if warn then (s.publish 102).alert 0 else s
    if temps.any (fun t => decide (16 * s.tripC ≤ t)) then s.trip else s

/-- The band of a stack temperature (R276). -/
def tempBand (t : Nat) : Nat := if t < 85 then 0 else if t ≤ 95 then 1 else 2

/-- STACK_TEMP_READ (R276, R376). -/
def execStackTempRead (st temp dt : Nat) (s : State) : Host.Outcome State Fault Refusal :=
  gate (s.up && decide (st < s.nStacks) && decide (temp < 256)) s fun s =>
    let s := s.advance dt
    let s := (s.setRf (oMem st + 4) 24 8 temp).setRf (oMem st + 4) 22 2 (tempBand temp)
    let s := if 95 < temp then ((s.setRb (oMem st + 4) 21 true).publish 98).alert 6 else s
    if 105 < temp then s.trip else s

/-- SUPPLY_FAULT (R377): VDD_CORE or VDD_SRAM outside its limits for 10 µs. -/
def execSupplyFault (dt : Nat) (s : State) : Host.Outcome State Fault Refusal :=
  gate (s.aux && decide (tUs 10 ≤ dt)) s fun s => (s.advance dt).fog 1

/-- A write of PWR_FOG. -/
def State.fogWrite (s : State) (v : W32) : State := if bit v 31 then s.fog 2 else s

/-- FOG_SET (R377). -/
def execFogSet (v : W32) (s : State) : Host.Outcome State Fault Refusal := gate s.hostUp s fun s => s.fogWrite v

/-- PMB_ALERT_N (R379): the pin's level. -/
def execPmbAlertN (low : Bool) (s : State) : Host.Outcome State Fault Refusal :=
  gate s.aux s fun s =>
    let s := s.setPwr fun p => { p with pmbLow := low }
    if low then s.alert 2 else s

/-- A write of PWR_THERM_CTL: TRIP is taken once (R7). -/
def State.thermWrite (s : State) (v : W32) : State :=
  let s := s.setRf 0x100020 0 8 (fld v 0 8)
  if s.pwr.tripLock then s else (s.setRf 0x100020 8 8 (fld v 8 8)).setPwr fun p => { p with tripLock := true }

/-! ### Island frequencies and the core voltage (R23, R365) -/

def oFreq (n : Nat) : Nat := 0x104000 + 4 * n
def oFmin (n : Nat) : Nat := 0x105000 + 4 * n

/-- An island's gate: its count, or none where its clock stopped. -/
def State.gateIsland (s : State) (n : Nat) : Option Nat → State
  | none => s.setReg (oFreq n) 0x40000000#32
  | some f =>
    let s := s.setReg (oFreq n) (lo32 (2 ^ 31 + f % 2 ^ 24))
    s.setReg (oFmin n) (lo32 (min (s.rf (oFmin n) 0 24) (f % 2 ^ 24)))

/-- m of R365, in 0.01 %: the least of the islands 0 to 493 and 496 that count. -/
def State.avsMin (s : State) : Option Nat :=
  (((List.range 494 ++ [496]).filter (fun n => s.hasIsland n && s.rb (oFreq n) 31 && !s.rb (oFreq n) 30)).map
    (fun n => s.rf (oFreq n) 0 24 * 10000 / islandKhz n)).min?

/-- A VOUT_COMMAND for a setpoint, at the address of PWR_AVS_CTL: VDD_CORE follows it. Without a usable answer at release
none is sent, and Doze leaves VDD_CORE at its last setpoint (R365, R373). -/
def State.voutCommand (s : State) (v : Nat) : State :=
  if !s.pwr.released || s.pwr.noPmb || s.dozing || s.pwr.tripped then s
  else s.setPwr fun p => { p with vdd := min 40 v, pmb := p.pmb ++ [(s.rf 0x100010 24 7, min 40 v)] }

/-- A new setpoint of the control. -/
def State.setVset (s : State) (v : Nat) : State :=
  ((s.setRf 0x100014 0 6 v).setPwr fun p => { p with above := 0 }).voutCommand v

/-- One step of the voltage control. -/
def State.avsStep (s : State) : State :=
  let v := s.rf 0x100014 0 6
  let margin := s.rf 0x100010 16 8
  let vmin := min 40 (s.rf 0x100010 10 6)
  let vmax := min 40 (s.rf 0x100010 4 6)
  match s.avsMin with
  | none => s
  | some m =>
    if m < 10000 + margin then
      if v < vmax then s.setVset (v + 1)
      else (s.setRb 0x100014 30 true).alert 1
    else if m > 10000 + 3 * margin then
      let s := s.setPwr fun p => { p with above := p.above + 1 }
      if s.pwr.above = 16 ∧ v > vmin then s.setVset (v - 1) else s
    else s.setPwr fun p => { p with above := 0 }

/-- The voltage control acts: AUTO, a regulator that answered, and not in Doze or after THERM_TRIP. -/
def State.avsOn (s : State) : Bool := s.rb 0x100010 31 && s.pwr.released && !s.pwr.noPmb && !s.dozing && !s.pwr.tripped

/-- A write of PWR_AVS_STAT: VSET is software's while AUTO = 0, and goes to the regulator whenever it changes. -/
def State.avsWrite (s : State) (v : W32) : State :=
  let old := s.rf 0x100014 0 6
  let s := s.plainWrite 0x100014 (if s.rb 0x100010 31 then setFld v 0 6 old else v)
  if s.rf 0x100014 0 6 = old then s else s.voutCommand (s.rf 0x100014 0 6)

/-- ISL_FREQ_GATE_END (R23): the counts of the islands whose clocks ran through the whole gate. -/
def execIslFreqGateEnd (dt : Nat) (counts : List (Nat × Nat)) (s : State) : Host.Outcome State Fault Refusal :=
  gate (s.auxUp && decide (s.pwr.gate + tMs 1 ≤ s.time.ticks + dt)) s fun s =>
    let s := s.advance dt
    let s := s.setPwr fun p => { p with gate := s.time.ticks }
    let s := (List.range 497).foldl (fun s n =>
      if s.hasIsland n then
        s.gateIsland n (if s.islandOn n && !s.pwr.stopped.contains n then (counts.find? (fun c => c.1 == n)).map (·.2) else none)
      else s) s
    let s := s.setPwr fun p => { p with stopped := (List.range 497).filter (fun n => !s.islandOn n) }
    if s.avsOn then s.avsStep else s

end Sys2Proof.Machine
end

