-- ==== Sys2Proof/WellFormed.lean ====
section
/-! DEFINITION. Well-formed commands: unit numbers, offsets and lengths within the ranges that the manual numbers them by
(R1 to R4, R9, the table of islands, R239, R246, R318, R320). A command outside them names nothing: its meaning changes
nothing. -/

namespace Sys2Proof

/-- A BAR0 register offset: aligned, in the 64 MiB of BAR0 (R5, R239). -/
def offOk (off : Nat) : Bool := decide (off < 0x4000000) && decide (off % 4 = 0)
/-- A read within one dword of BAR0, or of up to 8 bytes of BAR2, whose offset o is spelt 0x400_0000 + o (R240, R241; log 84). -/
def readOk (off len : Nat) : Bool :=
  decide (1 ≤ len) && (if off < 0x4000000 then decide (off % 4 + len ≤ 4) else decide (len ≤ 8) && decide (off + len ≤ 0x4800000))

/-- A lane that some grade has (R52, R84). -/
def LaneId.ok : LaneId → Bool
  | .rx n => decide (n < 96)
  | .tx n => decide (n < 32)
  | .w n => decide (n < 4)
  | .port => true

/-- A unit that can be excluded (R183). -/
def exclOk : ExclUnit → Bool
  | .tile n => decide (n < 256)
  | .slice n => decide (n < 32)

/-- A requester of R237. -/
def requesterOk : Requester → Bool
  | .dma c => decide (c < 64)
  | .command r => decide (r < 32768)

/-- Whether a command is well formed. -/
def Instr.wf : Instr → Bool
  | .registerWrite off _ _ => offOk off
  | .rcRegisterRead r => readOk r.off r.len
  | .islFreqGateEnd _ counts => counts.all (fun c => decide (c.1 < 497) && decide (c.2 < 2 ^ 24))
  | .lnCtlWrite l _ | .lnCtleWrite l _ | .laneSignalDetect l _ | .laneLossOfSignal l _
  | .laneBlockLock l _ | .laneBlockLockLost l _ => l.ok
  | .txLaneUp n _ => decide (n < 32)
  | .lnSlip l _ | .eyeStart l _ | .eyeMeasureDone l _ _ | .prbsLock l _ | .rxFrameReceived l _ => l.ok
  | .dataFrame n | .hailFrame n | .buoyFrame n => decide (n < 96)
  | .srcTimeout src _ | .srcForget src _ => decide (src < 4096)
  | .srcTimeoutWrite _ => true
  | .fmtValidate e _ => decide (e < 8)
  | .slotDeadline chan _ _ | .slotRelease chan _ => decide (chan < 65536)
  | .placementEffect => true
  | .tileChunkStart t | .chunkEnd t | .chunkDrained t _ => decide (t < 256)
  | .kilnUpdate k _ _ => decide (k < 16)
  | .excludedWorkMove u _ => exclOk u
  | .kilnBankClose k _ _ | .fireOverrun k | .firingLineRecordWrite k _ _ | .firingCompletionWrite k
  | .klnCtlWrite k _ | .klnSeedWrite k _ _ => decide (k < 16)
  | .beamVisitStart t _ => decide (t < 256)
  | .beamWindowClose m _ | .glazeEpochEvalStart m _ => decide (m < 24)
  | .glazeSwitch => true
  | .glzGainWrite bank i _ => decide (bank < 2) && decide (i < 4096)
  | .glzSettingWrite off _ => offOk off
  | .glzTxgEnable j _ => decide (j < 64)
  | .txBeamFrameSent n => decide (n < 32)
  | .detGroupRestart g => decide (g < 24)
  | .detectOutput g chan => decide (g < 24) && decide (chan < 65536)
  | .ltnStreamSample e s => decide (e < 4) && decide (s < 16)
  | .ltnTimeout e s u _ => decide (e < 4) && decide (s < 16) && decide (u < 2)
  | .ltnBlockWrite e | .ltnCaptureRecord e | .ltnBufferRelease e _ => decide (e < 4)
  | .kNop k | .kAdd k _ _ _ | .kSub k _ _ _ | .kAddi k _ _ _ | .kAnd k _ _ _ | .kOr k _ _ _
  | .kXor k _ _ _ | .kAndi k _ _ _ | .kOri k _ _ _ | .kXori k _ _ _ | .kShl k _ _ _ | .kAsr k _ _ _
  | .kLsr k _ _ _ | .kCmp k _ _ | .kCmpi k _ _ | .kMovi k _ _ | .kNeg k _ _ | .kAbs k _ _
  | .kExp k _ _ | .kBexp k _ | .kMul k _ _ _ _ | .kMac k _ _ _ _ | .kMsu k _ _ _ _
  | .kDmac k _ _ _ _ _ _ _ | .kRnd k _ _ _ | .kLac k _ _ _ | .kSha k _ _ | .kAdda k _ _ _
  | .kClra k _ | .kExpa k _ _ | .kLd k _ _ _ _ _ | .kSt k _ _ _ _ | .kStx k _ _ _ _
  | .kLdl k _ _ _ _ _ | .kStl k _ _ _ _ | .kLip k _ _ | .kAddp k _ _ | .kB k _ _ | .kCall k _
  | .kJr k _ | .kBdnz k _ _ | .kReti k | .kRpt k _ | .kWaiti k | .kMvs k _ _ | .kMvd k _ _
  | .illegalInstruction k | .trapConduct k | .interruptEntry k | .fabricLoadReturn k _
  | .fabricStoreComplete k | .keeperStart k | .keeperStop k | .kprIrqSet k _ => decide (k < 8)
  | .memoryWindowWrite off _ _ => decide (0x2000000 ≤ off) && decide (off < 0x4000000) && decide (off % 4 = 0)
  | .conductIssue k _ _ _ _ | .conductDispatch k | .nextResolve k _ | .place k _ | .openKiln k
  | .fire k | .shut k | .steer k _ | .glaze k _ | .arm k | .disarm k | .waitt k | .waittDone k _
  | .waitb k | .waitbTimeout k _ | .signal k | .post k _ => decide (k < 8)
  | .postRecordWrite r => decide (r < 32768)
  | .scrub k | .fenceAll k | .fenceKiln k | .fenceHost k | .fenceComplete k | .halt k => decide (k < 8)
  | .bar4Read off len _ => decide (off + len ≤ 2 ^ 39)
  | .bar4Write off bytes en _ _ => decide (off + bytes.length ≤ 2 ^ 39) && decide (en.length = bytes.length)
  | .bar4Resize log2 => decide (30 ≤ log2) && decide (log2 ≤ 39)
  | .doorbell off _ _ => decide (off < 0x800000)
  | .cmdLoad r _ | .cmdRead r _ | .cmdStartKeeper r | .cmdStopKeeper r | .cmdAttach r
  | .cmdDetach r | .cmdRingSetup r | .cmdQuery r | .responseRecordWrite r => decide (r < 32768)
  | .ctxCtlWrite c _ => decide (c < 1024)
  | .ringEnableWrite r _ | .indexWriteback r | .msixTimer r _ => decide (r < 32768)
  | .hostCompletionTimeout q => requesterOk q
  | .dmaShadowGo c _ | .dmaAbort c | .dmaKill c | .dmaProgStart c | .dmaBurstComplete c _
  | .dmaEnd c | .dmaMove c | .dmaLoop c | .dmaWait c | .dmaSignal c => decide (c < 64)
  | .refreshInterval p bank _ _ => decide (p < 512) && decide (bank < 64)
  | .refreshWindowEnd s _ | .stackTempRead s _ _ => decide (s < 8)
  | .hbmPowerDown p _ => decide (p < 512)
  | .memSrefRequest s _ | .memRetrainRequest s _ => decide (s < 8)
  | .maintTokenGrant q | .retrainDone q _ _ | .selfRefreshExit q _ => decide (q < 32)
  | .scrubGo s _ | .scrubStepDone s _ _ | .scrubDone s => decide (s < 8)
  | .eccLogPop _ | .timWrap _ | .timIncFracWrite _ | .timIncCommit _ | .timRunWrite _ => true
  | .timCmpArm i word _ => decide (i < 8) && decide (word < 3)
  | .timCmpFire i _ => decide (i < 8)
  | .timCapture src => decide (src < 256)
  | .tportFrameRx frame _ _ => decide (frame.length < 2 ^ 16)
  | .tportTxGo _ | .tportTxDone _ _ | .timTsPop _ => true
  | .refActivityLost n | .refGateEnd n _ _ | .refWtrExpiry n _ => decide (n < 5)
  | .refSelect _ | .refSwitchDone _ _ | .refLocked _ | .refHoldoverUpdate _ _ | .refAgeTick _
  | .ppsoutPulse _ | .refRealign _ | .refRealignAlign _ | .refRealignTimeout _ | .beaconDelivery _
  | .bcnPub _ => true
  | .bcnTaskWrite t _ => decide (t < 112)
  | .klnFireTask k => decide (k < 16)
  | .fabricGrant target _ => decide (target < 12)
  | .remapWrite _ | .prEnableWrite _ | .prForce _ => true
  | .heartbeatSend n _ => decide (n < 4)
  | .heartbeat f _ role _ _ _ _ => decide (f.lane < 4) && decide (role < 5)
  | .reportSend _ => true
  | .report f _ | .conductItem f _ | .decision f _ => decide (f.lane < 4)
  | .loss f chan _ _ _ => decide (f.lane < 4) && decide (chan < 65536)
  | .mirror f _ _ _ _ | .join f _ | .snapshot f _ => decide (f.lane < 4)
  | .prPartnerTimeout _ | .foginN _ | .porstN | .warmrstN _ | .perstN | .trstN => true
  | .fillDone _ tiles slices => tiles.all (fun t => decide (t < 256)) && slices.all (fun n => decide (n < 32))
  | .bootGo _ | .bootLoadDone _ | .powerStateRequest _ | .powerStateChangeDone _ => true
  | .thermSensorRead _ temps => decide (temps.length ≤ 5)
  | .supplyFault _ | .fogSet _ => true
  | .bistDone tiles slices => tiles.all (fun t => decide (t < 256)) && slices.all (fun n => decide (n < 32))
  | .extest _ | .idcode | .samplePreload _ | .clamp | .highz | .bistRun _ | .fuseRead
  | .tapFabric _ | .bypass => true
  | .neighbourRefreshDone q => decide (q < 32)
  | .pmbAlertN _ | .prLink _ => true
  | .ltnEngDeadRead e => decide (e < 4)
  | .hbmTrainingDone _ data ca => data.all (fun e => decide (e.1 < 512)) && ca.all (fun e => decide (e.1 < 256))
  | .hostLinkTraining rate width _ => decide (rate < 8) && decide (width < 17)
  | .railsRemoved => true

end Sys2Proof
end

