-- ==== Sys2Proof/Machine/BusRead.lean ====
section
/-! DEFINITION. Reads of the BAR0 register map: registers that show what a structure of the state holds, the clearing of RC
fields, and Doze (R7 to R9, R108, R149, R165, R188, R217, R235, R240, R271, R292, R316, R338, R362, R373). -/

namespace Sys2Proof.Machine

/-- A word with `v` at bit `lo`. -/
def at_ (lo v : Nat) : Nat := v * 2 ^ lo

/-- Half `h` of a 64-bit value: 0 low, else high. -/
def half (h v : Nat) : W32 := if h = 0 then lo32 v else hi32 v

/-! ### Views by block -/

/-- BCN_TASK_STAT: PEND beside what the register holds. -/
def State.viewBcn (s : State) (off : Nat) : W32 :=
  if 0x200600 ≤ off then setFld (s.reg off) 29 2 (s.pend ((off - 0x200600) / 4)).length else s.reg off

/-- TIM_NS, the head of the timestamp FIFO, and its count (R303). -/
def State.viewTim (s : State) (off : Nat) : W32 :=
  let e := s.time.fifo.head?
  if off = 0x400008 then s.ns
  else if off = 0x400820 then
    e.elim 0 (fun x => lo32 (2 ^ 31 + at_ 30 (b2n x.tx) + at_ 24 (x.msgType % 16) + at_ 16 (x.domain % 256) + x.seqId % 65536))
  else if off = 0x400824 then e.elim 0 (·.ns)
  else if off = 0x400828 then e.elim 0 (fun x => lo32 (at_ 24 (x.sub % 256) + x.ref % 65536))
  else if off = 0x400830 then setFld (s.reg off) 0 6 s.time.fifo.length
  else s.reg off

/-- Seconds left of the wait-to-restore timer of input n (R316). The manual does not say how a part of a second shows: it is
rounded up (DESIGN CHOICE, log 98). -/
def State.wtrLeft (s : State) (n : Nat) : Nat :=
  if s.qstate n = 2 then divUp (tget 0 s.ref.wtrFrom n + s.wtrTicks - s.time.ticks) secTicks else 0

/-- REF_HOLD and REF_IN.WTR_LEFT. -/
def State.viewRef (s : State) (off : Nat) : W32 :=
  if off = 0x500024 then lo32 (wrapI 32 s.ref.y)
  else if 0x500100 ≤ off ∧ off < 0x500150 ∧ off % 16 = 0 then setFld (s.reg off) 0 12 (s.wtrLeft ((off - 0x500100) / 16))
  else s.reg off

/-- UNFIT: an unfit PLACE item has stopped the product items, or a part in a pair runs a plan with SWRES below 64 (R340, R348). -/
def State.unfit (s : State) : Bool := s.pair.unfit || (s.paired && s.plc.cur.elim false (fun p => decide (p.plan.swres < 64)))

/-- LOSSLESS of a standby: every placed unit is ready, UNFIT = 0, and reports cover every dropped entry (R355, R356). -/
def State.lossless (s : State) : Bool :=
  s.standby && !s.unfit && s.pair.holdDrops.isEmpty && s.plc.cur.elim true (fun p =>
    p.kilns.all (fun e => s.rb oPrReady e.1) && p.blocks.all (fun e => s.rb oPrReadyX e.1)
      && p.engines.all (fun e => s.rb oPrReadyX (24 + e.1)))

def State.viewPr (s : State) (off : Nat) : W32 :=
  if off = 0x600004 then
    setBit (setBit (setBit (s.reg off) 24 s.lossless) 23 s.unfit) 21 s.pwr.foginLow
  else if off = 0x600014 then lo32 (divUp s.held 65536)
  else s.reg off

/-- MEM_MAINT: the holder's rank and the ranks that wait. -/
def State.viewMem (s : State) (off : Nat) : W32 :=
  let o := off % 0x10000
  if 0x10 ≤ o ∧ o < 0x20 then
    let v := s.quarter (4 * ((off - 0x700000) / 0x10000) + (o - 0x10) / 4)
    lo32 (at_ 4 (v.holder.elim 0 (·.rank)) + ([1, 2, 3, 4].map (fun r => if v.waits r then 2 ^ (r - 1) else 0)).sum)
  else s.reg off

/-- The sherd log (R286, R287). -/
def State.viewEcc (s : State) (off : Nat) : W32 :=
  if off = 0x800080 then setFld (s.reg off) 0 9 s.err.log.length
  else if off = 0x800084 then lo32 ((oldest (fun _ => true) s.err.log).elim 0 (·.1))
  else if 0x801000 ≤ off then
    match s.err.log.find? (fun e => e.1 == (off - 0x801000) / 32) with
    | some e => lo32 (field e.2.bytes (off % 32) 4)
    | none => 0
  else s.reg off

/-- The source table, and the field descriptors of format entry 0 (R66, R85). -/
def State.viewWdg (s : State) (off : Nat) : W32 :=
  if 0xA10000 ≤ off then
    let e := s.src ((off - 0xA10000) / 16)
    match off % 16 with
    | 0 => lo32 (at_ 30 e.state + at_ 29 (b2n e.conflict) + at_ 28 (b2n e.epochBad) + at_ 24 (e.rate % 16) + e.inFirst % 4096)
    | 4 => lo32 (at_ 16 (e.chFirst % 65536) + e.inCount % 8192)
    | 8 => lo32 (e.chCount % 131072)
    | _ => e.lastSeen
  else if 0xA01000 ≤ off ∧ off < 0xA01020 then nativeFd.getD ((off - 0xA01000) / 4) 0
  else s.reg off

/-- Key of the accumulating bank of kiln k; of its first bank before it opens (R180, R188). -/
def State.keyNow (s : State) (k : Nat) : W64 :=
  let v := s.kiln k
  if v.live then (v.bankOf v.bank).key else (s.placedKiln k).elim 0 (·.key)

def State.viewPlc (s : State) (off : Nat) : W32 :=
  if off = 0xB00010 then setBit (s.reg off) 31 s.plc.pend.isSome
  else if 0xB00100 ≤ off ∧ off % 16 < 8 then half (off % 8) (s.keyNow ((off - 0xB00100) / 16)).toNat
  else s.reg off

/-- WHL_STAT of a tile. An excluded one shows its stall while it is still at work (R183). -/
def State.whlStat (s : State) (t : Nat) : Nat :=
  let stall := at_ 25 (b2n (s.tileStalls t))
  if s.tileExcl t then at_ 30 3 + stall
  else match s.tileWork t with
    | none => 0
    | some w => match w.kiln with
      | some k => at_ 30 1 + at_ 26 k + stall
      | none => at_ 30 2 + stall

/-- Words of a slice that staged kilns of the placement in effect hold (R177). -/
def State.stagedIn (s : State) (n : Nat) : Nat :=
  if s.sliceExcl n then 0
  else s.plc.cur.elim 0 (fun p => (p.kilns.map (fun e =>
    let l := e.2.layout
    if 2 ≤ e.2.s ∧ l.usable.any (fun c => decide (c / 16 = n)) then stagedWords e.2.desc l.usable.length else 0)).sum)

/-- KLN_STAT: state, bank, format, mode and STALLED beside the flags. The manual gives no FORMAT and MODE to a kiln in SHUT that a
placement has omitted: they read 0 (DESIGN CHOICE, log 88). -/
def State.klnStat (s : State) (k : Nat) : W32 :=
  let v := s.kiln k
  let d := (s.placedKiln k).map (·.desc)
  lo32 (at_ 29 v.state + at_ 28 v.bank + at_ 27 (b2n (d.elim false (·.k16))) + at_ 26 (b2n (d.elim false (·.c3)))
    + at_ 25 (b2n v.stalled) + s.rf (oKln k + 4) 0 2)

/-- KLN_NEXT: bit 63 where no boundary is pending, but 0 from reset until the kiln is placed. -/
def State.klnNext (s : State) (k : Nat) : Nat :=
  if (s.kiln k).live then (s.boundary k).getD (2 ^ 63) else 2 ^ 32 * (s.reg (oKln k + 0x1C)).toNat

/-- The correlation block's registers. The manual gives START and BANK no meaning while no integration accumulates: they show the bank
that would accumulate next and the first index it holds (DESIGN CHOICE, log 88). Nor does it say what ILEN, GEOM, FORMAT and MODE
show of a kiln that SHUT has made IDLE while the placement in effect still names it, and ILEN and GEOM of a kiln that a placement
omitted while it is in SHUT: the first shows the placement's values, the second 0 (DESIGN CHOICE, log 88). -/
def State.viewKln (s : State) (off : Nat) : W32 :=
  if off < 0xC10000 then if off % 16 = 0 then lo32 (s.whlStat ((off - 0xC00000) / 16)) else s.reg off
  else if off < 0xC20000 then if off % 32 = 0 then lo32 (s.stagedIn ((off - 0xC10000) / 32)) else s.reg off
  else
    let k := (off - 0xC20000) / 256
    let p := s.placedKiln k
    match off % 256 with
    | 0x04 => s.klnStat k
    | 0x10 => half 0 ((s.kiln k).bankOf (s.kiln k).bank).first
    | 0x14 => half 4 ((s.kiln k).bankOf (s.kiln k).bank).first
    | 0x18 => half 0 (s.klnNext k)
    | 0x1C => half 4 (s.klnNext k)
    | 0x20 => half 0 (p.elim 0 (·.desc.ilen))
    | 0x24 => half 4 (p.elim 0 (·.desc.ilen))
    | 0x28 => lo32 (p.elim 0 (fun x => at_ 16 x.s + x.l / 128))
    | _ => s.reg off

def State.viewGlz (s : State) (off : Nat) : W32 :=
  if off = 0xD00010 then lo32 (at_ 31 (b2n s.beam.active) + at_ 30 (b2n s.beam.switch_.isSome))
  else if 0xD00100 ≤ off ∧ off < 0xD00400 then
    let b := s.block ((off - 0xD00100) / 32)
    match off % 32 with
    | 0x04 => lo32 (at_ 31 (b2n b.steered) + at_ 30 (b2n b.pend.isSome) + b.ecc % 65536)
    | 0x10 => lo32 b.lastNs
    | 0x14 => lo32 (at_ 31 (b2n b.pend.isSome) + b.lastNs / 2 ^ 32 % 65536)
    | _ => s.reg off
  else s.reg off

/-- LTN_ENG_STAT, the placement's values, and LTN_ENG_DEAD; HI of the latter is what the last read of LO latched. -/
def State.viewEng (s : State) (e o : Nat) : W32 :=
  let v := s.ltn e
  let p := s.placedEng e
  let d := p.map (·.desc)
  if o = 0x04 then
    lo32 (at_ 29 v.state + at_ 24 (d.elim 0 (·.nb)) + at_ 20 (v.cur % 16) + (v.frozen.map (fun b => 2 ^ (b % 16))).sum % 65536)
  else if o = 0x10 then lo32 (d.elim 0 (·.nk))
  else if o = 0x14 then lo32 (d.elim 0 (·.pre))
  else if o = 0x18 ∨ o = 0x1C then half (o - 0x18) (p.elim 0 (·.base))
  else if o = 0x20 ∨ o = 0x24 then half (o - 0x20) (p.elim 0 (·.stride))
  else if o = 0x28 then lo32 (d.elim 0 (fun x => at_ 16 x.chCount + x.chFirst % 65536))
  else if o = 0x2C then lo32 (d.elim 0 (fun x => at_ 16 (x.inCount % 8192) + at_ 15 (b2n x.c3) + x.inFirst % 4096))
  else if 0x40 ≤ o ∧ o < 0x80 then
    lo32 (d.elim 0 (fun x => let j := (o - 0x40) / 4; if j < x.nbeam then 2 ^ 31 + x.beams.getD j 0 % 2048 else 0))
  else if o = 0xA0 then lo32 (ticksNs v.deadTicks)
  else v.latchHi

def State.viewLtn (s : State) (off : Nat) : W32 :=
  let e := (off - 0xE00000) / 0x10000
  let o := off % 0x10000
  if o < 0x1000 then if o < 4 ∨ o = 8 ∨ (0x80 ≤ o ∧ o < 0xA0) then s.reg off else s.viewEng e o
  else if o % 0x100 = 0 then
    let x := s.slot (16 * e + (o - 0x1000) / 0x100)
    lo32 (at_ 31 (b2n x.armed) + at_ 28 (x.st % 8))
  else s.reg off

/-- KPR_CQ_STAT (R235). -/
def State.cqStat (s : State) (k : Nat) : Nat :=
  match s.qHead k with
  | none => 0
  | some e => at_ 29 (e.stage + 1) + at_ 18 (e.cop % 64) + (s.queue k).length % 128

def State.viewKpr (s : State) (off : Nat) : W32 :=
  let k := (off - 0xF00000) / 0x10000
  let c := s.core k
  match off % 0x10000 with
  | 0x08 => lo32 (at_ 29 c.run + at_ 26 c.why + c.pc.toNat)
  | 0x14 => lo32 (at_ 16 (b2n (c.ie.getLsbD 0)) + at_ 8 c.im.toNat + c.ip.toNat)
  | 0x18 => lo32 (s.cqStat k)
  | _ => s.reg off

/-- A word of a ring context as it reads. -/
def State.viewRng (s : State) (off : Nat) : W32 := s.ringWord ((off - 0x1100000) / 32) (off % 32 / 4)

/-- What the register at an offset shows, before RC. -/
def State.view (s : State) (off : Nat) : W32 :=
  match off >>> 20 with
  | 2 => s.viewBcn off
  | 4 => s.viewTim off
  | 5 => s.viewRef off
  | 6 => s.viewPr off
  | 7 => s.viewMem off
  | 8 => s.viewEcc off
  | 10 => s.viewWdg off
  | 11 => s.viewPlc off
  | 12 => s.viewKln off
  | 13 => s.viewGlz off
  | 14 => s.viewLtn off
  | 15 => s.viewKpr off
  | 17 => s.viewRng off
  | _ => s.reg off

/-! ### Reads -/

/-- Whether the registers at an offset stay accessible in Doze: those on VDD_AUX (R363), of the beacon network, of the time and
reference units and of the host link, whose islands run (R372), and of the pair unit and its lanes, whose heartbeats do. -/
def runsInDoze (off : Nat) : Bool :=
  [0, 1, 2, 4, 5, 6, 16, 17].contains (off >>> 20) || (decide (0x980000 ≤ off) && decide (off < 0x985000))

/-- An offset that no register is at on this part's grade (R3, R9). -/
def State.unmapped (s : State) (off : Nat) : Bool := (regRow off).isNone || (s.gradeC && fusedOff off)

/-- The RC fields of a register cleared by a read; FMIN_KHZ becomes all ones (R8, R23). -/
def State.rcClear (s : State) (off : Nat) : State :=
  match regRow off with
  | none => s
  | some r =>
    if r.rc = 0 then s
    else s.setReg off ((s.reg off &&& ~~~BitVec.ofNat 32 r.rc) ||| (BitVec.ofNat 32 r.reset &&& BitVec.ofNat 32 r.rc))

/-- LTN_ENG_DEAD LO latches HI as it is read (R165). -/
def State.deadLatch (s : State) (off : Nat) : State :=
  if 0xE00000 ≤ off ∧ off < 0xE40000 ∧ off % 0x10000 = 0xA0 then
    let e := (off - 0xE00000) / 0x10000
    s.setLtn e { s.ltn e with latchHi := hi32 (ticksNs (s.ltn e).deadTicks) }
  else s

/-- A ring context or a source entry that a register read meets with an uncorrectable error (R284); and a Keeper's counters and a
tile's stall brought up to now (R108, R217). -/
def State.regLook (s : State) (off : Nat) : State :=
  if 0x1100000 ≤ off then s.rLook ((off - 0x1100000) / 32)
  else if 0xA10000 ≤ off ∧ off < 0xB00000 then s.srcLook ((off - 0xA10000) / 16)
  else if 0xF00000 ≤ off ∧ off < 0x1000000 ∧ 0x40 ≤ off % 0x10000 ∧ off % 0x10000 < 0x58 then s.kLook ((off - 0xF00000) / 0x10000)
  else if 0xC00000 ≤ off ∧ off < 0xC01000 ∧ off % 16 = 8 then s.stallNow ((off - 0xC00000) / 16)
  else s

/-- A read of the register space: its value, and the state after. -/
def State.regRd (s : State) (off : Nat) : W32 × State :=
  if s.unmapped off then (0, s)
  else if s.dozing && !runsInDoze off then (0, s.dozeAcc)
  else
    let s := s.regLook off
    (s.view off, (s.rcClear off).deadLatch off)

/-- A register read by the host, whole and with its side effects, of which it gets `len` bytes from offset `off` on. -/
def State.hostReg (s : State) (off len : Nat) : State :=
  let (v, s) := s.regRd (off / 4 * 4)
  s.answer (((leBytes 4 v.toNat).drop (off % 4)).take len) false
/-- Bytes of a memory behind the window read by the host. -/
def State.hostMem (s : State) (a : SramAt) (len : Nat) : State :=
  let (bad, b, s) := s.sramRd a len 11
  s.answer b bad

/-- A read of `len` bytes within a dword of BAR0: a register, or bytes of the memory window. -/
def State.bar0Rd (s : State) (off len : Nat) : State :=
  if off < 0x2000000 then s.fabGo (hostRead (fabRegs + off) len) fun s => s.hostReg off len
  else if !s.pwr.released then s.early.answer (List.replicate len 0) false
  else if s.dozing then s.dozeAcc.answer (List.replicate len 0) false
  else match windowAt off with
    | some a => s.fabGo (hostRead a.fabAddr len) fun s => s.hostMem a len
    | none => s.answer (List.replicate len 0) false

/-- RC_REGISTER_READ (R7, R8, R240, R241): a read within one dword; offsets from 0x400_0000 on are those of BAR2, where every
read returns 0 (log 84). A longer read is one command for each dword, in ascending order. -/
def execRcRegisterRead (r : RegSpan) (s : State) : Host.Outcome State Fault Refusal :=
  gate (s.hostUp && readOk r.off r.len) s fun s =>
    if r.off < 0x4000000 then s.bar0Rd r.off r.len else s.answer (List.replicate r.len 0) false

/-- LTN_ENG_DEAD_READ (R165): LO of an engine's total dead time. -/
def execLtnEngDeadRead (e : Nat) (s : State) : Host.Outcome State Fault Refusal :=
  gate (s.hostUp && decide (e < 4)) s fun s => s.bar0Rd (oEng e + 0xA0) 4

end Sys2Proof.Machine
end

