-- ==== Sys2Proof/Machine/BusWrite.lean ====
section
/-! DEFINITION. Writes of the BAR0 register map: every offset led to the operation that a write of it performs (R5 to R9, R240,
R328, R337, R373, R389, R390). -/

namespace Sys2Proof.Machine

/-! ### Writes by block -/

def State.wrGlb (s : State) (off : Nat) (v : W32) : State :=
  if off = 0x10 then s.by_ (execBootGo v s) else s.plainWrite off v

def State.wrPwr (s : State) (off : Nat) (v : W32) : State :=
  if off = 0x100000 then s.by_ (execPowerStateRequest v s)
  else if off = 0x100014 then s.avsWrite v
  else if off = 0x100020 then s.thermWrite v
  else if off = 0x100040 then s.by_ (execFogSet v s)
  else s.plainWrite off v

def State.wrBcn (s : State) (off : Nat) (v : W32) : State :=
  if off = 0x200034 then s.by_ (execBcnPub v s)
  else if 0x200400 ≤ off ∧ off < 0x200600 then s.by_ (execBcnTaskWrite ((off - 0x200400) / 4) v s)
  else s.plainWrite off v

/-- XBR_CTL.REMAP serves transactions granted after it; a LO word of XBR_HBM_BASE with a bit below 31 set is ignored. -/
def State.wrXbr (s : State) (off : Nat) (v : W32) : State :=
  if off = 0x300004 ∧ fld v 0 31 ≠ 0 then s else s.plainWrite off v

def State.wrTim (s : State) (off : Nat) (v : W32) : State :=
  if off = oTimCtl then s.by_ (execTimRunWrite v s)
  else if off = 0x400008 then s.nsWrite v
  else if off = oTimFrac then s.by_ (execTimIncFracWrite v s)
  else if off = oTimInt then s.by_ (execTimIncCommit v s)
  else if 0x400100 ≤ off ∧ off < 0x400180 then s.by_ (execTimCmpArm ((off - 0x400100) / 16) (off % 16 / 4) v s)
  else if 0x400200 ≤ off ∧ off < 0x400600 ∧ off % 64 = 0 then s.capCtlWrite ((off - 0x400200) / 64) v
  else if off = 0x400810 then s.by_ (execTportTxGo v s)
  else if off = 0x40082C then s.by_ (execTimTsPop v s)
  else s.plainWrite off v

/-- A write of REF_IN: EN = 0 switches the input off, and EN = 1 makes an input that was off DISQUALIFIED (R305). -/
def State.refInWrite (s : State) (n : Nat) (v : W32) : State :=
  let s := s.plainWrite (oRefIn n) v
  if !bit v 31 then (s.setRef fun r => { r with act := r.act.filter (· ≠ n) }).setQ n 0
  else if s.qstate n = 0 then (s.setRef fun r => { r with gateFrom := tset 0 r.gateFrom n s.time.ticks }).setQ n 1
  else s

/-- REF_RXLANE: RXCLK is inactive where the lane it names now is in DOWN, or is none of the part's (R304). -/
def State.rxclkMove (s : State) (v : W32) : State :=
  let s := s.plainWrite 0x50001C v
  if s.canBeActive 4 then s else s.inputLost 4

def State.wrRef (s : State) (off : Nat) (v : W32) : State :=
  if off = 0x500008 then s.by_ (execRefRealign v s)
  else if 0x500100 ≤ off ∧ off < 0x500150 ∧ off % 16 = 0 then s.refInWrite ((off - 0x500100) / 16) v
  else if off = 0x50001C then s.rxclkMove v
  else s.plainWrite off v

def State.wrPr (s : State) (off : Nat) (v : W32) : State :=
  if off = 0x600000 then s.by_ (execPrEnableWrite v s)
  else if off = 0x600008 then s.claimWrite v
  else s.plainWrite off v

def State.wrMem (s : State) (off : Nat) (v : W32) : State :=
  let st := (off - 0x700000) / 0x10000
  if off % 0x10000 = 0 then s.by_ (execMemSrefRequest st v s)
  else if off % 0x10000 = 0x20 then s.by_ (execScrubGo st v s)
  else s.plainWrite off v

def State.wrEcc (s : State) (off : Nat) (v : W32) : State :=
  if off = 0x800088 then s.by_ (execEccLogPop v s) else s.plainWrite off v

/-- The lane whose registers lie at an offset. -/
def laneAt (off : Nat) : LaneId :=
  if off < 0x960000 then .rx ((off - 0x900000) / 0x1000)
  else if off < 0x980000 then .tx ((off - 0x960000) / 0x1000)
  else if off < 0x984000 then .w ((off - 0x980000) / 0x1000)
  else .port

def State.wrLn (s : State) (off : Nat) (v : W32) : State :=
  let l := laneAt off
  match off % 0x1000 with
  | 0x00 => s.by_ (execLnCtlWrite l v s)
  | 0x08 => s.by_ (execLnCtleWrite l v s)
  | 0x0C => s.by_ (execLnSlip l v s)
  | 0x20 => s.by_ (execEyeStart l v s)
  | _ => s.plainWrite off v

/-- Another word of a format entry, which the write gives fresh check bits (R282). -/
def State.fmtWord (s : State) (e o : Nat) (v : W32) : State :=
  if (regRow (oFmt e + o)).isSome then (s.clean 10 e o (o + 4)).plainWrite (oFmt e + o) v else s

/-- Format entries: a valid entry takes nothing but the clearing of VALID (R72). -/
def State.wrWdg (s : State) (off : Nat) (v : W32) : State :=
  if off = 0xA00008 then s.by_ (execSrcTimeoutWrite v s)
  else if 0xA01000 ≤ off ∧ off < 0xA01200 then
    let e := (off - 0xA01000) / 64
    if off % 64 = 0x20 then s.by_ (execFmtValidate e v s)
    else if s.rb (oFmt e + 0x20) 31 then s
    else s.fmtWord e (off % 64) v
  else if 0xA10000 ≤ off ∧ off % 16 = 0 then s.by_ (execSrcForget ((off - 0xA10000) / 16) v s)
  else s.plainWrite off v

def State.wrKln (s : State) (off : Nat) (v : W32) : State :=
  if off < 0xC20000 then s
  else
    let k := (off - 0xC20000) / 256
    match off % 256 with
    | 0x00 => s.by_ (execKlnCtlWrite k v s)
    | 0x08 => s.by_ (execKlnSeedWrite k false v s)
    | 0x0C => s.by_ (execKlnSeedWrite k true v s)
    | _ => s.plainWrite off v

def State.wrGlz (s : State) (off : Nat) (v : W32) : State :=
  if 0xD10000 ≤ off ∧ off < 0xD18000 then s.by_ (execGlzGainWrite ((off - 0xD10000) / 0x4000) (off % 0x4000 / 4) v s)
  else if 0xD08000 ≤ off ∧ off < 0xD08100 then s.by_ (execGlzTxgEnable ((off - 0xD08000) / 4) v s)
  else s.by_ (execGlzSettingWrite off v s)

/-- The Lantern: a slot's settings stand while it is armed, and an engine's ring while any slot of it is (R163, R165). -/
def State.wrLtn (s : State) (off : Nat) (v : W32) : State :=
  let e := (off - 0xE00000) / 0x10000
  let o := off % 0x10000
  if o = 8 then s.by_ (execLtnBufferRelease e v s)
  else if o < 0x1000 then
    if (List.range 16).any (fun i => (s.slot (16 * e + i)).armed) then s else s.plainWrite off v
  else if (s.slot (16 * e + (o - 0x1000) / 0x100)).armed then s
  else s.plainWrite off v

/-- KPR_CTL: START acts on a halted core, STOP on one that is not. -/
def State.wrKpr (s : State) (off : Nat) (v : W32) : State :=
  let k := (off - 0xF00000) / 0x10000
  match off % 0x10000 with
  | 0x00 =>
    let s := s.plainWrite off v
    if (s.core k).run = 0 then if bit v 31 then s.by_ (execKeeperStart k s) else s
    else if bit v 30 then s.by_ (execKeeperStop k s) else s
  | 0x14 => s.by_ (execKprIrqSet k v s)
  | _ => s.plainWrite off v

/-- DMA_CTL: VECTOR; MODE in IDLE; then KILL, ABORT and START. -/
def State.dmaCtl (s : State) (c : Nat) (v : W32) : State :=
  let s := s.setRf (oDma c) 0 11 (fld v 0 11)
  let s := if s.dState c = 0 then s.setRb (oDma c) 29 (bit v 29) else s
  if bit v 30 then s.by_ (execDmaKill c s)
  else if bit v 31 then s.by_ (execDmaAbort c s)
  else if bit v 28 then s.by_ (execDmaProgStart c s)
  else s

/-- A write of a shadow register: not used in program mode; while ARMED or ABORTING it sets SHBUSY (R259, R266). -/
def State.shadowWrite (s : State) (c off : Nat) (v : W32) : State :=
  if s.rb (oDma c) 29 then s
  else if s.dState c = 2 ∨ s.dState c = 4 then s.setRb (oDma c + 4) 1 true
  else s.plainWrite off v

def State.wrDma (s : State) (off : Nat) (v : W32) : State :=
  if off < 0x1040000 then
    let c := (off - 0x1000000) / 0x1000
    let o := off % 0x1000
    if o = 0 then s.dmaCtl c v
    else if o = 8 then s.by_ (execDmaShadowGo c v s)
    else if 0x10 ≤ o ∧ o < 0x30 then s.shadowWrite c off v
    else s.plainWrite off v
  else if off = oDmaWin ∨ off = oDmaWin + 4 then s.winWrite off v
  else if 0x1060000 ≤ off ∧ off < 0x1064000 then
    let c := (off - 0x1060000) / 16
    if off % 16 = 0 then s.by_ (execCtxCtlWrite c v s)
    else if s.rb (oCtx c) 31 then s
    else s.plainWrite off v
  else if 0x1080000 ≤ off ∧ off < 0x1090000 ∧ off % 16 = 12 then s.msixMask ((off - 0x1080000) / 16) v
  else s.plainWrite off v

/-- Words of a ring's context. -/
def State.wrRng (s : State) (off : Nat) (v : W32) : State :=
  let r := (off - 0x1100000) / 32
  match off % 32 / 4 with
  | 2 => s.by_ (execRingEnableWrite r v s)
  | w => s.ringWrite r w v

/-- A write of the register space. -/
def State.regWr (s : State) (off : Nat) (v : W32) : State :=
  if s.unmapped off then s
  else if s.dozing && !runsInDoze off then s.dozeAcc
  else match off >>> 20 with
    | 0 => s.wrGlb off v
    | 1 => s.wrPwr off v
    | 2 => s.wrBcn off v
    | 3 => s.wrXbr off v
    | 4 => s.wrTim off v
    | 5 => s.wrRef off v
    | 6 => s.wrPr off v
    | 7 => s.wrMem off v
    | 8 => s.wrEcc off v
    | 9 => s.wrLn off v
    | 10 => s.wrWdg off v
    | 12 => s.wrKln off v
    | 13 => s.wrGlz off v
    | 14 => s.wrLtn off v
    | 15 => s.wrKpr off v
    | 16 => s.wrDma off v
    | 17 => s.wrRng off v
    | _ => s.plainWrite off v

/-- A write of a dword of BAR0: in the register blocks one with a byte disabled is not performed and sets PARTWR (R240). -/
def State.bar0Wr (s : State) (off : Nat) (v : W32) (be : BitVec 4) : State :=
  if 0x2000000 ≤ off then s.by_ (execMemoryWindowWrite off v be s)
  else if be ≠ 0xF then s.setRb oHlStat 0 true
  else s.regWr off v

/-- REGISTER_WRITE. -/
def execRegisterWrite (off : Nat) (val : W32) (be : BitVec 4) (s : State) : Host.Outcome State Fault Refusal :=
  gate (s.hostUp && decide (off < 0x4000000) && decide (off % 4 = 0)) s fun s =>
    if off < 0x2000000 then s.fabGo (hostReq (fabRegs + off) true val be) fun s => s.bar0Wr off val be else s.bar0Wr off val be

/-- REMAP_WRITE (R333, R337). -/
def execRemapWrite (v : W32) (s : State) : Host.Outcome State Fault Refusal :=
  gate s.hostUp s fun s => s.fabGo (hostReq (fabRegs + 0x300000) true v 0xF) fun s => s.regWr 0x300000 v

end Sys2Proof.Machine
end

