-- ==== Sys2Proof/Machine/Fabric.lean ====
section
/-! DEFINITION. The control fabric: its arbitration, and the transactions of its masters as they are granted (R190, R192, R332 to
R336). A transaction of the host, of the command unit or of a DMA program that finds its target open is performed in the step that
makes it (log 29). -/

namespace Sys2Proof.Machine

/-! ### One transaction (R190, R191, R243, R334) -/

/-- The device memory that an access of the aperture reaches serves it, as for BAR4; before the memories are released it reaches none
(R243, R275, R333). -/
def State.fabServes (s : State) (at' : FabAt) : Bool :=
  match at' with
  | .hbm o => let a := s.reg64 0x300004 + o; !s.pwr.released || s.hbmServes a (min 4 (s.memEnd - a))
  | _ => true

/-- A word read: whether it has an uncorrectable error, its bytes, and the state after. -/
def State.fabRd (s : State) (at' : FabAt) : Bool × List Byte × State :=
  match at' with
  | .none => (false, List.replicate 4 0, s)
  | .rom o => (false, (List.range 4).map (fun i => Config.bootRom (o + i)), s)
  | .sram o => s.csRead o 4 9 0
  | .regs off => let (v, s) := s.regRd off; (false, leBytes 4 v.toNat, s)
  | .mem o => s.sramRd (keeperMem o) 4 9
  | .hbm o =>
    if !s.pwr.released then (false, List.replicate 4 0, s.early)
    else
    let a := s.reg64 0x300004 + o
    let k := min 4 (s.memEnd - a)
    let (bad, b, s) := s.hbmRead a k 5 0
    (!bad.isEmpty, b ++ List.replicate (4 - k) 0, s)

/-- A word written under its byte enables. -/
def State.fabWr (s : State) (at' : FabAt) (v : W32) (be : BitVec 4) : State :=
  match at' with
  | .none | .rom _ => s
  | .sram o => s.sramWr (.cs o) false (leBytes 4 v.toNat) (enables be)
  | .regs off => s.bar0Wr off v be
  | .mem o => s.sramWr (keeperMem o) false (leBytes 4 v.toNat) (enables be)
  | .hbm o => if s.pwr.released then s.bar4Wr (s.reg64 0x300004 + o) (leBytes 4 v.toNat) (enables be) else s.early

/-! ### Arbitration (R335) -/

/-- The transaction that each waiting master asks for: its oldest, for it has one outstanding at most (R334). -/
def fabFronts : List FabReq → List FabReq
  | [] => []
  | r :: t => r :: (fabFronts t).filter (fun x => x.master != r.master)

/-- Waiting masters of a target, each once. -/
def State.fabWaiters (s : State) (target : Nat) : List Nat :=
  ((fabFronts s.xbr.waiting).filter (fun r => (s.fabAt r.addr).target == target)).map (·.master)

/-- Round robin: the first master after the one granted last, wrapping. -/
def roundRobin (last : Nat) (ms : List Nat) : Option Nat :=
  let l := sortUp ms
  (l.find? (fun m => decide (last < m))).or l.head?

/-- The master granted next at a target: of the lowest class, those with a first transaction after reset before the others. -/
def State.fabNext (s : State) (target : Nat) : Option Nat :=
  let ms := s.fabWaiters target
  match (ms.map fabClass).min? with
  | none => none
  | some c =>
    let ms := ms.filter (fun m => fabClass m == c)
    let new := ms.filter (fun m => s.xbr.fresh.contains m)
    roundRobin (tget 12 s.xbr.last (16 * target + c)) (if new.isEmpty then ms else new)

/-- The JTAG master's word performed. -/
def State.jtagWord (s : State) (r : FabReq) : State :=
  if r.write then s.fabWr (s.fabAt r.addr) (r.data.headD 0) r.be
  else
    let (_, b, s) := s.fabRd (s.fabAt r.addr)
    s.setPwr fun p => { p with tap := { p.tap with rdata := lo32 (ofLe b) } }

/-- A host access performed. -/
def State.hostWord (s : State) (r : FabReq) : State :=
  let v := r.data.headD 0
  if r.write then s.fabWr (s.fabAt r.addr) v r.be
  else match s.fabAt r.addr with
    | .regs off => s.hostReg off v.toNat
    | .sram o => s.hostMem (.cs o) v.toNat
    | .mem o => s.hostMem (keeperMem o) v.toNat
    | _ => s

/-- A transaction of master 8 to 11 performed as it is granted: that of the command unit or of a DMA channel, where what asked for it still
stands. -/
def State.fabPerform (s : State) (r : FabReq) : State :=
  let n := (r.data.headD 0).toNat
  if r.master = 8 then
    if s.cmdMoves n (if r.write then 1 else 2) then s.by_ (if r.write then rowLoad n s else rowRead n s) else s
  else if r.master = 9 then s.hostWord r
  else if r.master = 10 then if s.hostUp && s.dReady n then s.dFetched n else s
  else s.jtagWord r

/-- The request that a grant to a master performs, and whether its memory serves it. -/
def State.fabFirst (s : State) (target m : Nat) : Option FabReq :=
  s.xbr.waiting.find? (fun r => r.master == m && (s.fabAt r.addr).target == target)
def State.grantServes (s : State) (target m : Nat) : Bool :=
  (s.fabFirst target m).elim true (fun r => decide (m ≠ 11) || s.fabServes (s.fabAt r.addr))

/-- A master's first waiting request for a target granted; that of a master other than a Keeper is performed at once. -/
def State.fabGrant (s : State) (target m waited : Nat) : State :=
  match s.fabFirst target m with
  | none => s
  | some r =>
    let s := (s.setXbr fun x => { x with waiting := x.waiting.erase r }).fabTake m target
    let s := s.cnt (0x300100 + 4 * m) waited
    if 8 ≤ m then s.fabPerform r else s.setXbr fun x => { x with granted := x.granted ++ [r] }

/-- FABRIC_GRANT: the target is free and a master waits, which has waited this many cycles. -/
def execFabricGrant (target waited : Nat) (s : State) : Host.Outcome State Fault Refusal :=
  match s.fabNext target with
  | some m => gate (s.up && s.fabFree target && s.grantServes target m) s fun s => s.fabGrant target m waited
  | none => .next s

/-! ### Keepers' transactions (R192, R214) -/

/-- The transaction of core k granted and not over. -/
def State.fabOf (s : State) (k : Nat) (write : Bool) : Option FabReq :=
  s.xbr.granted.find? (fun r => r.master == k && r.write == write)

/-- The words of a load in their registers, with the pointer's update. -/
def Core.loaded (c : Core) (l : LoadPend) (v : Nat) : Core :=
  let c := c.setP l.ptr l.ptrVal
  if l.long then (c.setW l.dest (BitVec.ofNat 16 v)).setW (l.dest + 1) (BitVec.ofNat 16 (v / 65536))
  else c.setW l.dest (BitVec.ofNat 16 (v / 65536 ^ l.half))

/-- The load over: the core runs on, or takes a DATA trap at the load. -/
def State.loadBack (s : State) (k : Nat) (l : LoadPend) (bad : Bool) (v : Nat) : State :=
  if bad then
    let s := s.kResume k (some 2)
    let c := s.core k
    (s.setCore k { c with load := none, pc := l.pc, after := l.after, rpt := l.rpt, rc := l.rc, ie := l.ie }).kTrap k 4 1
  else
    let s := (s.kResume k (some 2)).kCount k
    let c := s.core k
    (s.setCore k { (c.flushLag.loaded l v) with load := none }).kSettle k

/-- FABRIC_LOAD_RETURN. -/
def execFabricLoadReturn (k : Nat) (up : Option Upset) (s : State) : Host.Outcome State Fault Refusal :=
  match s.fabOf k false, (s.core k).load with
  | some r, some l =>
    gate (s.up && decide (k < 8)) s fun s =>
      let s := (s.upset up).setXbr fun x => { x with granted := x.granted.erase r }
      let (bad, b, s) := s.fabRd (s.fabAt r.addr)
      s.loadBack k l bad (ofLe b)
  | _, _ => .next s

/-- FABRIC_STORE_COMPLETE: the target has accepted the store; queue entries issued behind it may be dispatched. A store to a
KPR_ register is ignored (R190). -/
def execFabricStoreComplete (k : Nat) (s : State) : Host.Outcome State Fault Refusal :=
  match s.fabOf k true with
  | some r =>
    gate (s.up && decide (k < 8)) s fun s =>
      let s := s.setXbr fun x => { x with granted := x.granted.erase r }
      let s := s.setCore k { s.core k with store := false }
      let s := s.setQueue k ((s.queue k).map (fun e => { e with store := false }))
      match s.fabAt r.addr with
      | .regs off => if off >>> 20 = 15 then s else s.fabWr (.regs off) (r.data.headD 0) r.be
      | a => s.fabWr a (r.data.headD 0) r.be
  | none => .next s

end Sys2Proof.Machine
end

