-- ==== Sys2Proof/Machine/Tap.lean ====
section
/-! DEFINITION. The test access port: each command loads an instruction and runs one pass of its data register, capture first,
then update (R384 to R387). -/

namespace Sys2Proof.Machine

def State.setTap (s : State) (f : TapSt → TapSt) : State := s.setPwr fun p => { p with tap := f p.tap }

/-- An instruction loaded, with the data register it captures. -/
def State.tapLoad (s : State) (ir : Nat) (len : Nat) (v : Nat) : State :=
  s.setTap fun t => { t with ir := BitVec.ofNat 8 ir, drLen := len, dr := BitVec.ofNat 512 v }

/-- The bypass register, which captures 0. -/
def State.tapBypass (s : State) (ir : Nat) : State := s.tapLoad ir 1 0

/-! ### Boundary scan (R385) -/

/-- EXTEST or CLAMP drives the pins from the update latch. -/
def State.scanDrives (s : State) : Bool := s.pwr.tap.ir == 0x00 || s.pwr.tap.ir == 0x04

/-- What an observe cell of an open-drain output sees: the latch's drive cell, or the part's own level. -/
def State.openDrain (s : State) (drive : Nat) (high : Bool) : Bool := if s.scanDrives then s.pwr.tap.scan.getLsbD drive else high

/-- The 39 cells captured, the one nearest TDO first. A PMBus line is low where the part drives it low. Levels of clocks and of pins that others drive, and what drive and enable
cells capture, are open: bits of `x`. -/
def State.scanCells (s : State) (x : W64) : List Bool :=
  let o := fun (i : Nat) => x.getLsbD i
  let pulled := fun (drive : Nat) (level : Bool) => level && !(s.scanDrives && !s.pwr.tap.scan.getLsbD drive)
  let io := fun (i : Nat) =>
    [if s.scanDrives && s.pwr.tap.scan.getLsbD (i + 2) then s.pwr.tap.scan.getLsbD (i + 1) else o i, o (i + 1), o (i + 2)]
  [o 0, o 1, o 2, o 3, o 4, o 5, o 6, true, !s.pwr.warmLow, true, s.pwr.bootsel]
    ++ [s.openDrain 12 (!s.foghorn), o 12, !s.pwr.foginLow]
    ++ [s.openDrain 15 (decide (s.reg oAlert &&& s.reg 0x100044 = 0)), o 15, s.openDrain 17 (!s.pwr.tripped), o 17]
    ++ [pulled 19 (o 18), o 19, pulled 21 (o 20), o 21, !s.pwr.pmbLow, o 23, o 24, o 25, o 26] ++ io 27 ++ io 30 ++ io 33 ++ io 36

/-- Bits, the first lowest. -/
def ofBits (l : List Bool) : Nat := l.foldr (fun b a => b2n b + 2 * a) 0

/-- A pass of the boundary-scan register: the instruction is in force as the pins are captured. -/
def State.scanPass (s : State) (ir : Nat) (upd : BitVec 39) : State :=
  let (x, s) := (s.setTap fun t => { t with ir := BitVec.ofNat 8 ir }).free
  let v := ofBits (s.scanCells x)
  (s.tapLoad ir 39 v).setTap fun t => { t with scan := upd }

/-! ### The instructions (R384) -/

/-- What a BIST_RUN captures. -/
def TapSt.bist (t : TapSt) : Nat :=
  2 ^ 31 * b2n t.busy + 2 ^ 30 * b2n t.done + 256 * (t.tiles.length % 256) + t.slices.length % 256

/-- BIST_RUN's pass: an update with bit 31 starts the self-test (R386). -/
def State.bistPass (s : State) (upd : W32) : State :=
  let s := s.tapLoad 0x20 32 s.pwr.tap.bist
  if bit upd 31 && !s.pwr.tap.busy then s.setTap fun t => { t with busy := true, done := false, tiles := [], slices := [] }
  else s

/-- The 512 bits of FUSE_READ (R387). -/
def State.fuseBits (s : State) : Nat :=
  let f := s.fuse
  (s.reg 8).toNat % 2048 + 2 ^ 32 * b2n f.verify + 2 ^ 33 * b2n f.dbgOff + 2 ^ 48 * (f.stepping % 65536)
    + 2 ^ 64 * f.serial.toNat + 2 ^ 128 * ofLe f.keyHash

/-- FABRIC's pass: it captures the last read data; an update with bit 95 asks the control fabric for one word access. -/
def State.fabricPass (s : State) (upd : BitVec 96) : State :=
  if s.fuse.dbgOff then s.tapBypass 0x30
  else
    let s := s.tapLoad 0x30 96 s.pwr.tap.rdata.toNat
    if upd.getLsbD 95 then s.fabPost ⟨11, upd.toNat / 2 ^ 32 % 2 ^ 32, upd.getLsbD 94, 1, [lo32 upd.toNat], 0xF⟩ else s

/-- A code scanned into the 8-bit instruction register, and one pass of the data register it selects; a code that R384 does not list acts
as BYPASS. -/
def State.tapScan (s : State) (ir : Byte) (upd : BitVec 96) : State :=
  match ir.toNat with
  | 0x00 => s.scanPass 0x00 (upd.setWidth 39)
  | 0x01 => s.tapLoad 0x01 32 (if s.gradeC then 0x17241993 else 0x17240993)
  | 0x02 => s.scanPass 0x02 (upd.setWidth 39)
  | 0x20 => if s.pwr.warmLow then s.bistPass (upd.setWidth 32) else s
  | 0x21 => s.tapLoad 0x21 512 s.fuseBits
  | 0x30 => s.fabricPass upd
  | n => s.tapBypass n

/-- EXTEST. -/
def execExtest (upd : BitVec 39) (s : State) : Host.Outcome State Fault Refusal := gate s.aux s fun s => s.tapScan 0x00 (upd.setWidth 96)
/-- IDCODE. -/
def execIdcode (s : State) : Host.Outcome State Fault Refusal := gate s.aux s fun s => s.tapScan 0x01 0
/-- SAMPLE/PRELOAD. -/
def execSamplePreload (upd : BitVec 39) (s : State) : Host.Outcome State Fault Refusal :=
  gate s.aux s fun s => s.tapScan 0x02 (upd.setWidth 96)
/-- CLAMP. -/
def execClamp (s : State) : Host.Outcome State Fault Refusal := gate s.aux s fun s => s.tapScan 0x04 0
/-- HIGHZ. -/
def execHighz (s : State) : Host.Outcome State Fault Refusal := gate s.aux s fun s => s.tapScan 0x05 0
/-- BIST_RUN (R386): ignored unless WARMRST_N is low. -/
def execBistRun (upd : W32) (s : State) : Host.Outcome State Fault Refusal := gate s.aux s fun s => s.tapScan 0x20 (upd.setWidth 96)

/-- BIST_DONE (R386): a self-test run through the TAP ends. -/
def execBistDone (tiles slices : List Nat) (s : State) : Host.Outcome State Fault Refusal :=
  gate (s.aux && s.pwr.tap.busy && tiles.all (fun t => decide (t < s.nTiles)) && slices.all (fun n => decide (n < s.nSlices))) s
    fun s =>
      let s := s.setTap fun t => { t with busy := false, done := true, tiles := tiles.eraseDups, slices := slices.eraseDups }
      s.showBist tiles.eraseDups.length slices.eraseDups.length

/-- FUSE_READ. -/
def execFuseRead (s : State) : Host.Outcome State Fault Refusal := gate s.aux s fun s => s.tapScan 0x21 0

/-- FABRIC. A master has one transaction outstanding at most (R334): no update comes while the one before it waits (DESIGN CHOICE,
log 29). -/
def execTapFabric (upd : BitVec 96) (s : State) : Host.Outcome State Fault Refusal :=
  gate (s.aux && (!upd.getLsbD 95 || s.fuse.dbgOff || s.xbr.waiting.all (fun r => r.master != 11))) s fun s => s.tapScan 0x30 upd

/-- BYPASS, and a code that stands for it. -/
def execBypass (s : State) : Host.Outcome State Fault Refusal := gate s.aux s fun s => s.tapScan 0xFF 0

end Sys2Proof.Machine
end

