-- ==== Sys2Proof/Machine/Dispatch.lean ====
section
/-! DEFINITION. The command table: one arm for each row of spec/opcode_table.json, in the table's order. -/

namespace Sys2Proof.Machine

def exec (i : Instr) (s : State) : Host.Outcome State Fault Refusal :=
  match i with
  | .registerWrite off val be => Sys2Proof.Machine.execRegisterWrite off val be s
  | .rcRegisterRead r => Sys2Proof.Machine.execRcRegisterRead r s
  | .islFreqGateEnd dt counts => Sys2Proof.Machine.execIslFreqGateEnd dt counts s
  | .lnCtlWrite l v => Sys2Proof.Machine.execLnCtlWrite l v s
  | .lnCtleWrite l v => Sys2Proof.Machine.execLnCtleWrite l v s
  | .laneSignalDetect l dt => Sys2Proof.Machine.execLaneSignalDetect l dt s
  | .laneLossOfSignal l dt => Sys2Proof.Machine.execLaneLossOfSignal l dt s
  | .laneBlockLock l hdrs => Sys2Proof.Machine.execLaneBlockLock l hdrs s
  | .laneBlockLockLost l hdrs => Sys2Proof.Machine.execLaneBlockLockLost l hdrs s
  | .txLaneUp n dt => Sys2Proof.Machine.execTxLaneUp n dt s
  | .lnSlip l v => Sys2Proof.Machine.execLnSlip l v s
  | .eyeStart l v => Sys2Proof.Machine.execEyeStart l v s
  | .eyeMeasureDone l dt mism => Sys2Proof.Machine.execEyeMeasureDone l dt mism s
  | .prbsLock l errs => Sys2Proof.Machine.execPrbsLock l errs s
  | .rxFrameReceived l blocks => Sys2Proof.Machine.execRxFrameReceived l blocks s
  | .dataFrame n => Sys2Proof.Machine.execDataFrame n s
  | .hailFrame n => Sys2Proof.Machine.execHailFrame n s
  | .buoyFrame n => Sys2Proof.Machine.execBuoyFrame n s
  | .srcTimeout src dt => Sys2Proof.Machine.execSrcTimeout src dt s
  | .srcForget src v => Sys2Proof.Machine.execSrcForget src v s
  | .srcTimeoutWrite v => Sys2Proof.Machine.execSrcTimeoutWrite v s
  | .fmtValidate e v => Sys2Proof.Machine.execFmtValidate e v s
  | .slotDeadline chan b dt => Sys2Proof.Machine.execSlotDeadline chan b dt s
  | .slotRelease chan up => Sys2Proof.Machine.execSlotRelease chan up s
  | .placementEffect => Sys2Proof.Machine.execPlacementEffect s
  | .tileChunkStart t => Sys2Proof.Machine.execTileChunkStart t s
  | .chunkEnd t => Sys2Proof.Machine.execChunkEnd t s
  | .chunkDrained t up => Sys2Proof.Machine.execChunkDrained t up s
  | .kilnUpdate k line up => Sys2Proof.Machine.execKilnUpdate k line up s
  | .excludedWorkMove u dt => Sys2Proof.Machine.execExcludedWorkMove u dt s
  | .kilnBankClose k maxAct totAct => Sys2Proof.Machine.execKilnBankClose k maxAct totAct s
  | .fireOverrun k => Sys2Proof.Machine.execFireOverrun k s
  | .firingLineRecordWrite k g up => Sys2Proof.Machine.execFiringLineRecordWrite k g up s
  | .firingCompletionWrite k => Sys2Proof.Machine.execFiringCompletionWrite k s
  | .klnCtlWrite k v => Sys2Proof.Machine.execKlnCtlWrite k v s
  | .klnSeedWrite k hi v => Sys2Proof.Machine.execKlnSeedWrite k hi v s
  | .beamVisitStart t up => Sys2Proof.Machine.execBeamVisitStart t up s
  | .beamWindowClose m up => Sys2Proof.Machine.execBeamWindowClose m up s
  | .glazeEpochEvalStart m up => Sys2Proof.Machine.execGlazeEpochEvalStart m up s
  | .glazeSwitch => Sys2Proof.Machine.execGlazeSwitch s
  | .glzGainWrite bank ix v => Sys2Proof.Machine.execGlzGainWrite bank ix v s
  | .glzSettingWrite off v => Sys2Proof.Machine.execGlzSettingWrite off v s
  | .glzTxgEnable j v => Sys2Proof.Machine.execGlzTxgEnable j v s
  | .txBeamFrameSent n => Sys2Proof.Machine.execTxBeamFrameSent n s
  | .detGroupRestart g => Sys2Proof.Machine.execDetGroupRestart g s
  | .detectOutput g chan => Sys2Proof.Machine.execDetectOutput g chan s
  | .ltnStreamSample e s1 => Sys2Proof.Machine.execLtnStreamSample e s1 s
  | .ltnTimeout e s1 u dt => Sys2Proof.Machine.execLtnTimeout e s1 u dt s
  | .ltnBlockWrite e => Sys2Proof.Machine.execLtnBlockWrite e s
  | .ltnCaptureRecord e => Sys2Proof.Machine.execLtnCaptureRecord e s
  | .ltnBufferRelease e v => Sys2Proof.Machine.execLtnBufferRelease e v s
  | .kNop k => Sys2Proof.Machine.execKNop k s
  | .kAdd k d s1 t => Sys2Proof.Machine.execKAdd k d s1 t s
  | .kSub k d s1 t => Sys2Proof.Machine.execKSub k d s1 t s
  | .kAddi k d s1 imm => Sys2Proof.Machine.execKAddi k d s1 imm s
  | .kAnd k d s1 t => Sys2Proof.Machine.execKAnd k d s1 t s
  | .kOr k d s1 t => Sys2Proof.Machine.execKOr k d s1 t s
  | .kXor k d s1 t => Sys2Proof.Machine.execKXor k d s1 t s
  | .kAndi k d s1 imm => Sys2Proof.Machine.execKAndi k d s1 imm s
  | .kOri k d s1 imm => Sys2Proof.Machine.execKOri k d s1 imm s
  | .kXori k d s1 imm => Sys2Proof.Machine.execKXori k d s1 imm s
  | .kShl k d s1 n => Sys2Proof.Machine.execKShl k d s1 n s
  | .kAsr k d s1 n => Sys2Proof.Machine.execKAsr k d s1 n s
  | .kLsr k d s1 n => Sys2Proof.Machine.execKLsr k d s1 n s
  | .kCmp k s1 t => Sys2Proof.Machine.execKCmp k s1 t s
  | .kCmpi k s1 imm => Sys2Proof.Machine.execKCmpi k s1 imm s
  | .kMovi k d imm => Sys2Proof.Machine.execKMovi k d imm s
  | .kNeg k d s1 => Sys2Proof.Machine.execKNeg k d s1 s
  | .kAbs k d s1 => Sys2Proof.Machine.execKAbs k d s1 s
  | .kExp k d s1 => Sys2Proof.Machine.execKExp k d s1 s
  | .kBexp k s1 => Sys2Proof.Machine.execKBexp k s1 s
  | .kMul k a ty s1 t => Sys2Proof.Machine.execKMul k a ty s1 t s
  | .kMac k a ty s1 t => Sys2Proof.Machine.execKMac k a ty s1 t s
  | .kMsu k a ty s1 t => Sys2Proof.Machine.execKMsu k a ty s1 t s
  | .kDmac k a ty n pi ci pj cj => Sys2Proof.Machine.execKDmac k a ty n pi ci pj cj s
  | .kRnd k d a n => Sys2Proof.Machine.execKRnd k d a n s
  | .kLac k a s1 sh => Sys2Proof.Machine.execKLac k a s1 sh s
  | .kSha k a sh => Sys2Proof.Machine.execKSha k a sh s
  | .kAdda k a a2 ty => Sys2Proof.Machine.execKAdda k a a2 ty s
  | .kClra k a => Sys2Proof.Machine.execKClra k a s
  | .kExpa k d a => Sys2Proof.Machine.execKExpa k d a s
  | .kLd k d p mode imm up => Sys2Proof.Machine.execKLd k d p mode imm up s
  | .kSt k s1 p mode imm => Sys2Proof.Machine.execKSt k s1 p mode imm s
  | .kStx k s1 p mode imm => Sys2Proof.Machine.execKStx k s1 p mode imm s
  | .kLdl k d p mode imm up => Sys2Proof.Machine.execKLdl k d p mode imm up s
  | .kStl k s1 p mode imm => Sys2Proof.Machine.execKStl k s1 p mode imm s
  | .kLip k p imm => Sys2Proof.Machine.execKLip k p imm s
  | .kAddp k p imm => Sys2Proof.Machine.execKAddp k p imm s
  | .kB k cc target => Sys2Proof.Machine.execKB k cc target s
  | .kCall k target => Sys2Proof.Machine.execKCall k target s
  | .kJr k s1 => Sys2Proof.Machine.execKJr k s1 s
  | .kBdnz k s1 target => Sys2Proof.Machine.execKBdnz k s1 target s
  | .kReti k => Sys2Proof.Machine.execKReti k s
  | .kRpt k n => Sys2Proof.Machine.execKRpt k n s
  | .kWaiti k => Sys2Proof.Machine.execKWaiti k s
  | .kMvs k d code => Sys2Proof.Machine.execKMvs k d code s
  | .kMvd k s1 code => Sys2Proof.Machine.execKMvd k s1 code s
  | .illegalInstruction k => Sys2Proof.Machine.execIllegalInstruction k s
  | .trapConduct k => Sys2Proof.Machine.execTrapConduct k s
  | .interruptEntry k => Sys2Proof.Machine.execInterruptEntry k s
  | .fabricLoadReturn k up => Sys2Proof.Machine.execFabricLoadReturn k up s
  | .fabricStoreComplete k => Sys2Proof.Machine.execFabricStoreComplete k s
  | .keeperStart k => Sys2Proof.Machine.execKeeperStart k s
  | .keeperStop k => Sys2Proof.Machine.execKeeperStop k s
  | .kprIrqSet k v => Sys2Proof.Machine.execKprIrqSet k v s
  | .memoryWindowWrite off val be => Sys2Proof.Machine.execMemoryWindowWrite off val be s
  | .conductIssue k cop p imm up => Sys2Proof.Machine.execConductIssue k cop p imm up s
  | .conductDispatch k => Sys2Proof.Machine.execConductDispatch k s
  | .nextResolve k up => Sys2Proof.Machine.execNextResolve k up s
  | .place k up => Sys2Proof.Machine.execPlace k up s
  | .openKiln k => Sys2Proof.Machine.execOpenKiln k s
  | .fire k => Sys2Proof.Machine.execFire k s
  | .shut k => Sys2Proof.Machine.execShut k s
  | .steer k up => Sys2Proof.Machine.execSteer k up s
  | .glaze k up => Sys2Proof.Machine.execGlaze k up s
  | .arm k => Sys2Proof.Machine.execArm k s
  | .disarm k => Sys2Proof.Machine.execDisarm k s
  | .waitt k => Sys2Proof.Machine.execWaitt k s
  | .waittDone k dt => Sys2Proof.Machine.execWaittDone k dt s
  | .waitb k => Sys2Proof.Machine.execWaitb k s
  | .waitbTimeout k dt => Sys2Proof.Machine.execWaitbTimeout k dt s
  | .signal k => Sys2Proof.Machine.execSignal k s
  | .post k up => Sys2Proof.Machine.execPost k up s
  | .postRecordWrite r => Sys2Proof.Machine.execPostRecordWrite r s
  | .scrub k => Sys2Proof.Machine.execScrub k s
  | .fenceAll k => Sys2Proof.Machine.execFenceAll k s
  | .fenceKiln k => Sys2Proof.Machine.execFenceKiln k s
  | .fenceHost k => Sys2Proof.Machine.execFenceHost k s
  | .fenceComplete k => Sys2Proof.Machine.execFenceComplete k s
  | .halt k => Sys2Proof.Machine.execHalt k s
  | .bar4Read off len up => Sys2Proof.Machine.execBar4Read off len up s
  | .bar4Write off bytes en poisoned up => Sys2Proof.Machine.execBar4Write off bytes en poisoned up s
  | .bar4Resize log2 => Sys2Proof.Machine.execBar4Resize log2 s
  | .doorbell off len val => Sys2Proof.Machine.execDoorbell off len val s
  | .cmdLoad r up => Sys2Proof.Machine.execCmdLoad r up s
  | .cmdRead r up => Sys2Proof.Machine.execCmdRead r up s
  | .cmdStartKeeper r => Sys2Proof.Machine.execCmdStartKeeper r s
  | .cmdStopKeeper r => Sys2Proof.Machine.execCmdStopKeeper r s
  | .cmdAttach r => Sys2Proof.Machine.execCmdAttach r s
  | .cmdDetach r => Sys2Proof.Machine.execCmdDetach r s
  | .cmdRingSetup r => Sys2Proof.Machine.execCmdRingSetup r s
  | .cmdQuery r => Sys2Proof.Machine.execCmdQuery r s
  | .responseRecordWrite r => Sys2Proof.Machine.execResponseRecordWrite r s
  | .ctxCtlWrite c v => Sys2Proof.Machine.execCtxCtlWrite c v s
  | .ringEnableWrite r v => Sys2Proof.Machine.execRingEnableWrite r v s
  | .indexWriteback r => Sys2Proof.Machine.execIndexWriteback r s
  | .msixTimer r dt => Sys2Proof.Machine.execMsixTimer r dt s
  | .hostCompletionTimeout q => Sys2Proof.Machine.execHostCompletionTimeout q s
  | .dmaShadowGo c v => Sys2Proof.Machine.execDmaShadowGo c v s
  | .dmaAbort c => Sys2Proof.Machine.execDmaAbort c s
  | .dmaKill c => Sys2Proof.Machine.execDmaKill c s
  | .dmaProgStart c => Sys2Proof.Machine.execDmaProgStart c s
  | .dmaBurstComplete c up => Sys2Proof.Machine.execDmaBurstComplete c up s
  | .dmaEnd c => Sys2Proof.Machine.execDmaEnd c s
  | .dmaMove c => Sys2Proof.Machine.execDmaMove c s
  | .dmaLoop c => Sys2Proof.Machine.execDmaLoop c s
  | .dmaWait c => Sys2Proof.Machine.execDmaWait c s
  | .dmaSignal c => Sys2Proof.Machine.execDmaSignal c s
  | .refreshInterval p bank issued dt => Sys2Proof.Machine.execRefreshInterval p bank issued dt s
  | .refreshWindowEnd s1 dt => Sys2Proof.Machine.execRefreshWindowEnd s1 dt s
  | .stackTempRead s1 temp dt => Sys2Proof.Machine.execStackTempRead s1 temp dt s
  | .hbmPowerDown p dt => Sys2Proof.Machine.execHbmPowerDown p dt s
  | .memSrefRequest s1 v => Sys2Proof.Machine.execMemSrefRequest s1 v s
  | .memRetrainRequest s1 v => Sys2Proof.Machine.execMemRetrainRequest s1 v s
  | .maintTokenGrant q => Sys2Proof.Machine.execMaintTokenGrant q s
  | .retrainDone q dt ok => Sys2Proof.Machine.execRetrainDone q dt ok s
  | .selfRefreshExit q dt => Sys2Proof.Machine.execSelfRefreshExit q dt s
  | .scrubGo s1 v => Sys2Proof.Machine.execScrubGo s1 v s
  | .scrubStepDone s1 dt up => Sys2Proof.Machine.execScrubStepDone s1 dt up s
  | .scrubDone s1 => Sys2Proof.Machine.execScrubDone s1 s
  | .eccLogPop v => Sys2Proof.Machine.execEccLogPop v s
  | .timWrap dt => Sys2Proof.Machine.execTimWrap dt s
  | .timIncFracWrite v => Sys2Proof.Machine.execTimIncFracWrite v s
  | .timIncCommit v => Sys2Proof.Machine.execTimIncCommit v s
  | .timRunWrite v => Sys2Proof.Machine.execTimRunWrite v s
  | .timCmpArm ix word v => Sys2Proof.Machine.execTimCmpArm ix word v s
  | .timCmpFire ix dt => Sys2Proof.Machine.execTimCmpFire ix dt s
  | .timCapture src => Sys2Proof.Machine.execTimCapture src s
  | .tportFrameRx frame fcsOk lane4 => Sys2Proof.Machine.execTportFrameRx frame fcsOk lane4 s
  | .tportTxGo v => Sys2Proof.Machine.execTportTxGo v s
  | .tportTxDone at_ lane4 => Sys2Proof.Machine.execTportTxDone at_ lane4 s
  | .timTsPop v => Sys2Proof.Machine.execTimTsPop v s
  | .refActivityLost n => Sys2Proof.Machine.execRefActivityLost n s
  | .refGateEnd n dt meas => Sys2Proof.Machine.execRefGateEnd n dt meas s
  | .refWtrExpiry n dt => Sys2Proof.Machine.execRefWtrExpiry n dt s
  | .refSelect dt => Sys2Proof.Machine.execRefSelect dt s
  | .refSwitchDone dt step => Sys2Proof.Machine.execRefSwitchDone dt step s
  | .refLocked dt => Sys2Proof.Machine.execRefLocked dt s
  | .refHoldoverUpdate dt temp => Sys2Proof.Machine.execRefHoldoverUpdate dt temp s
  | .refAgeTick x => Sys2Proof.Machine.execRefAgeTick x s
  | .ppsoutPulse dt => Sys2Proof.Machine.execPpsoutPulse dt s
  | .refRealign v => Sys2Proof.Machine.execRefRealign v s
  | .refRealignAlign dt => Sys2Proof.Machine.execRefRealignAlign dt s
  | .refRealignTimeout dt => Sys2Proof.Machine.execRefRealignTimeout dt s
  | .beaconDelivery ix => Sys2Proof.Machine.execBeaconDelivery ix s
  | .bcnPub v => Sys2Proof.Machine.execBcnPub v s
  | .bcnTaskWrite t v => Sys2Proof.Machine.execBcnTaskWrite t v s
  | .klnFireTask k => Sys2Proof.Machine.execKlnFireTask k s
  | .fabricGrant target waited => Sys2Proof.Machine.execFabricGrant target waited s
  | .remapWrite v => Sys2Proof.Machine.execRemapWrite v s
  | .prEnableWrite v => Sys2Proof.Machine.execPrEnableWrite v s
  | .prForce v => Sys2Proof.Machine.execPrForce v s
  | .heartbeatSend n dt => Sys2Proof.Machine.execHeartbeatSend n dt s
  | .heartbeat f dt role lanes claim ack nak => Sys2Proof.Machine.execHeartbeat f dt role lanes claim ack nak s
  | .reportSend dt => Sys2Proof.Machine.execReportSend dt s
  | .report f pos => Sys2Proof.Machine.execReport f pos s
  | .conductItem f item => Sys2Proof.Machine.execConductItem f item s
  | .decision f d => Sys2Proof.Machine.execDecision f d s
  | .loss f chan b mask watermark => Sys2Proof.Machine.execLoss f chan b mask watermark s
  | .mirror f keeper ring pos bytes => Sys2Proof.Machine.execMirror f keeper ring pos bytes s
  | .join f units => Sys2Proof.Machine.execJoin f units s
  | .snapshot f snap => Sys2Proof.Machine.execSnapshot f snap s
  | .prPartnerTimeout dt => Sys2Proof.Machine.execPrPartnerTimeout dt s
  | .foginN low => Sys2Proof.Machine.execFoginN low s
  | .porstN => Sys2Proof.Machine.execPorstN s
  | .warmrstN low => Sys2Proof.Machine.execWarmrstN low s
  | .perstN => Sys2Proof.Machine.execPerstN s
  | .trstN => Sys2Proof.Machine.execTrstN s
  | .fillDone dt tiles slices => Sys2Proof.Machine.execFillDone dt tiles slices s
  | .bootGo v => Sys2Proof.Machine.execBootGo v s
  | .bootLoadDone dt => Sys2Proof.Machine.execBootLoadDone dt s
  | .powerStateRequest v => Sys2Proof.Machine.execPowerStateRequest v s
  | .powerStateChangeDone dt => Sys2Proof.Machine.execPowerStateChangeDone dt s
  | .thermSensorRead dt temps => Sys2Proof.Machine.execThermSensorRead dt temps s
  | .supplyFault dt => Sys2Proof.Machine.execSupplyFault dt s
  | .fogSet v => Sys2Proof.Machine.execFogSet v s
  | .bistDone tiles slices => Sys2Proof.Machine.execBistDone tiles slices s
  | .extest upd => Sys2Proof.Machine.execExtest upd s
  | .idcode => Sys2Proof.Machine.execIdcode s
  | .samplePreload upd => Sys2Proof.Machine.execSamplePreload upd s
  | .clamp => Sys2Proof.Machine.execClamp s
  | .highz => Sys2Proof.Machine.execHighz s
  | .bistRun upd => Sys2Proof.Machine.execBistRun upd s
  | .fuseRead => Sys2Proof.Machine.execFuseRead s
  | .tapFabric upd => Sys2Proof.Machine.execTapFabric upd s
  | .bypass => Sys2Proof.Machine.execBypass s
  | .neighbourRefreshDone q => Sys2Proof.Machine.execNeighbourRefreshDone q s
  | .pmbAlertN low => Sys2Proof.Machine.execPmbAlertN low s
  | .prLink lanes => Sys2Proof.Machine.execPrLink lanes s
  | .ltnEngDeadRead e => Sys2Proof.Machine.execLtnEngDeadRead e s
  | .hbmTrainingDone dt data ca => Sys2Proof.Machine.execHbmTrainingDone dt data ca s
  | .hostLinkTraining rate width mode => Sys2Proof.Machine.execHostLinkTraining rate width mode s
  | .railsRemoved => Sys2Proof.Machine.execRailsRemoved s

end Sys2Proof.Machine
end

