-- ==== Sys2Proof/Machine/Step.lean ====
section
/-! DEFINITION. One step: the command at the front of the queue, or, with nothing waiting, one tick of the 625 MHz
output. -/

namespace Sys2Proof.Machine

/-- One tick with no command waiting (log 3): device time advances while rails are on (R293, R294). -/
def State.idle (s : State) : State := if s.aux then s.advance 1 else s

/-- Take the command at the front of the queue and run it with the rest; on an empty queue, one tick passes. -/
def step (s : State) : Host.Outcome State Fault Refusal :=
  match s.pending with
  | [] => .next s.idle
  | c :: rest => exec c { s with pending := rest }

/-- The state with the command that a word spells in front: none is spelled, so the state itself. -/
def State.withFetchWord (s : State) (nbits w : Nat) : State :=
  match decodeTableWord nbits w with
  | some c => { s with pending := c :: s.pending }
  | none => s

end Sys2Proof.Machine
end

