-- ==== Sys2Proof/Safety.lean ====
section
/-! DEFINITION. What a safe state is: the register file and every memory in canonical form, so that equal machines are
equal data, and the part's fuses what they were. -/

namespace Sys2Proof.Machine

/-- The register file and the memories of the part and its host are in canonical form. -/
def State.wf (s : State) : Bool :=
  swf regReset s.regs && Memory.wf s.hbm && Memory.wf s.csram && Memory.wf s.host

/-- A step from `s` to `t` keeps what R1 and R2 fix for the life of a part. -/
def SameFuses (s t : State) : Prop := t.fuse = s.fuse

end Sys2Proof.Machine
end

