-- ==== Sys2Proof/Certificates/Slice0/Obligations.lean ====
section
/-! DEFINITION. The statements for the provers. Each docstring says what is stated and names the rules of spec/ it rests on.
`Completes c s P` says that the command answers a next state, of which P holds. -/

open Sys2Proof Sys2Proof.Machine

/-- The command completes: it answers a next state, and `P` holds of that state. -/
def Sys2Proof.Machine.Completes (c : Instr) (s : State) (P : State → Prop) : Prop := ∃ t, exec c s = .next t ∧ P t

/-- Every register but those listed reads as before. -/
def Sys2Proof.Machine.RegsBut (offs : List Nat) (s t : State) : Prop := ∀ o, o ∉ offs → t.reg o = s.reg o

/-- Every byte of device memory, control SRAM and host memory reads as before. -/
def Sys2Proof.Machine.MemSame (s t : State) : Prop :=
  ∀ a, rd8 t.hbm a = rd8 s.hbm a ∧ rd8 t.csram a = rd8 s.csram a ∧ rd8 t.host a = rd8 s.host a

/-- Master m, of 8 to 10, is granted at once at a target of the control fabric: the target is free, no master of class 0 or 1 waits
there, and m waits nowhere. -/
def Sys2Proof.Machine.FabQuiet (s : State) (m target : Nat) : Prop := s.fabOpen m target = true

/-- Nothing changes but what the fabric keeps of its grants. -/
def Sys2Proof.Machine.GrantOnly (s t : State) : Prop :=
  { t with xbr := s.xbr } = s ∧ t.xbr.waiting = s.xbr.waiting ∧ t.xbr.granted = s.xbr.granted

/-- A request joins those that wait for their grant, and nothing else changes. -/
def Sys2Proof.Machine.Asked (s t : State) (r : FabReq) : Prop := t = { s with xbr := { s.xbr with waiting := s.xbr.waiting ++ [r] } }

/-- An event published on channel c: on its way, where the channel's group is enabled. -/
def Sys2Proof.Machine.Published (s t : State) (c : Nat) : Prop := s.rb 0x200030 (c / 8) = true → ∃ h, (c, h) ∈ t.bcn.flight

/-- A 32-bit counter adds n, and saturates. -/
def Sys2Proof.Machine.Counted (s t : State) (off n : Nat) : Prop := (t.reg off).toNat = min ((s.reg off).toNat + n) 0xFFFFFFFF

/-- What a compare shows that has been judged, with `tgt` its target, and FIRED and MISSED as they stood. -/
def Sys2Proof.Machine.CmpShows (s t : State) (i : Nat) (tgt : W32) (fired missed : Bool) : Prop :=
  let o := oCmp i
  let p := if (s.reg (o + 4)).toNat < 2 ^ 31 then (s.reg (o + 4)).toNat else 0
  let d := (tgt - s.ns).toNat
  (d = 0 → t.rb (o + 8) 0 = true ∧ t.rb (o + 8) 1 = missed ∧ Published s t i ∧
    t.rb (o + 8) 31 = decide (p ≠ 0) ∧ t.reg o = tgt + lo32 p) ∧
  (1 ≤ d → d < 2 ^ 31 → t.rb (o + 8) 0 = fired ∧ t.rb (o + 8) 1 = missed ∧ t.rb (o + 8) 31 = true ∧ t.reg o = tgt) ∧
  (2 ^ 31 ≤ d → t.rb (o + 8) 0 = fired ∧ t.rb (o + 8) 1 = true ∧ t.rb (o + 8) 31 = decide (p ≠ 0) ∧
    (p = 0 → t.reg o = tgt) ∧
    (p ≠ 0 → ∃ m, t.reg o = tgt + lo32 (m * p) ∧ 1 ≤ t.cmpDist i ∧ t.cmpDist i < 2 ^ 31 ∧ ∀ j < m,
      ¬ (1 ≤ (tgt + lo32 (j * p) - s.ns).toNat ∧ (tgt + lo32 (j * p) - s.ns).toNat < 2 ^ 31)))

/-- A compare judged at an arming: nothing but it changes, and an event is published only where it fires. -/
def Sys2Proof.Machine.CmpJudged (s t : State) (i : Nat) (tgt : W32) (fired missed : Bool) : Prop :=
  RegsBut [oCmp i, oCmp i + 8, 0x200040] s t ∧ CmpShows s t i tgt fired missed ∧ (tgt ≠ s.ns → t.bcn = s.bcn)

/-- The commands waiting, and the fuses, are as before. -/
def Sys2Proof.Machine.Apart (s t : State) : Prop := t.pending = s.pending ∧ t.fuse = s.fuse

/-! ### Keeper cores -/

/-- The Keepers are released, core k runs and its next instruction is the legal word `w`, at a place where it may stand; no trap, interrupt or STOP
comes first, and no memory error is about. -/
def Sys2Proof.Machine.KReady (s : State) (k : Nat) (w : W32) : Prop :=
  s.kUp = true ∧ k < 8 ∧ (s.core k).run = 1 ∧ (s.core k).load = none ∧ (s.core k).cfault = none ∧ (s.core k).stop = false ∧
  ((s.core k).interruptible && (s.core k).irqReady) = false ∧ (s.core k).word = w ∧ wordOk w = true ∧
  placeOk (s.core k) w = true ∧ s.err.upsets = []

/-- One instruction of core k issued: its cycle (one that waited behind the core's own store has counted those of the wait too) and itself
counted, nothing outside the core changed, nor its program, tc,
and the other cores; what the next instruction sees of accumulators is what they held before. -/
def Sys2Proof.Machine.KRan (s t : State) (k : Nat) : Prop :=
  Apart s t ∧ MemSame s t ∧ RegsBut [0xF00040 + 0x10000 * k, 0xF00044 + 0x10000 * k] s t ∧
  ((s.core k).behind = false →
    (t.reg (0xF00040 + 0x10000 * k)).toNat = min ((s.reg (0xF00040 + 0x10000 * k)).toNat + 1) 0xFFFFFFFF) ∧
  (t.reg (0xF00044 + 0x10000 * k)).toNat = min ((s.reg (0xF00044 + 0x10000 * k)).toNat + 1) 0xFFFFFFFF ∧
  (∀ j, j ≠ k → t.core j = s.core j) ∧ t.cq = s.cq ∧ t.time = s.time ∧
  (t.core k).imem = (s.core k).imem ∧ (t.core k).tc = (s.core k).tc ∧
  ((s.core k).after ≠ some .reti → (t.core k).aOld = (s.core k).a)

/-- Where control goes after an instruction that is no branch: on, to what follows a delay slot, or round a repeat. -/
def Sys2Proof.Machine.KNext (c c' : Core) : Prop :=
  c'.run = 1 ∧ c'.after = none ∧
  (c.after = none → c.rpt = false → c'.pc = c.pc + 1 ∧ c'.rpt = false) ∧
  (∀ a, c.after = some (.goto a) → c'.pc = a) ∧
  (c.after = some .reti → c'.pc = c'.ir ∧ c'.ie.getLsbD 0 = c.ie.getLsbD 1 ∧ c'.ie.getLsbD 2 = false ∧ c'.ie.getLsbD 3 = false ∧
    c'.aOld = c'.a) ∧
  (c.after = none → c.rpt = true → c'.rc = c.rc - 1 ∧
    (c.rc = 1 → c'.pc = c.pc + 1 ∧ c'.rpt = false) ∧ (c.rc ≠ 1 → c'.pc = c.pc ∧ c'.rpt = true))

/-- The registers of a core but those named, be, st and data memory. -/
def Sys2Proof.Machine.KFrame (ws : List (BitVec 4)) (as : List (BitVec 1)) (ps : List (BitVec 3)) (c c' : Core) : Prop :=
  (∀ i, i ∉ ws → c'.getW i = c.getW i) ∧ (∀ i, i ∉ as → c'.getA i = c.getA i) ∧ (∀ i, i ∉ ps → c'.getP i = c.getP i) ∧
  c'.m = c.m ∧ c'.l = c.l ∧ c'.im = c.im ∧ c'.ip = c.ip ∧ c'.ir = c.ir ∧ (c.after ≠ some .reti → c'.ie = c.ie) ∧
  (c.rpt = false → c'.rc = c.rc)

/-- An instruction that writes registers `ws` alone, be, st and data memory apart. -/
def Sys2Proof.Machine.KAlu (s t : State) (k : Nat) (ws : List (BitVec 4)) : Prop :=
  KRan s t k ∧ KNext (s.core k) (t.core k) ∧ KFrame ws [] [] (s.core k) (t.core k) ∧ (t.core k).dmem = (s.core k).dmem

/-- Z and N of a result; C and V where the instruction writes them; VS set with V; every other bit of st unchanged. -/
def Sys2Proof.Machine.KFlags (c c' : Core) (r : W16) (cy v : Option Bool) : Prop :=
  c'.be = c.be ∧ c'.st.getLsbD 0 = decide (r = 0) ∧ c'.st.getLsbD 1 = r.msb ∧ c'.st.getLsbD 2 = cy.getD (c.st.getLsbD 2) ∧
  c'.st.getLsbD 3 = v.getD (c.st.getLsbD 3) ∧ c'.st.getLsbD 4 = (c.st.getLsbD 4 || v.getD false) ∧
  (∀ i, 5 ≤ i → c'.st.getLsbD i = c.st.getLsbD i)

/-- A 16-bit result of an exact one: the nearer limit with SATW = 1, else modulo 2¹⁶. -/
def Sys2Proof.Machine.KNarrow (c : Core) (v : Int) : W16 :=
  if c.st.getLsbD 7 = true ∧ 32767 < v then 0x7FFF else if c.st.getLsbD 7 = true ∧ v < -32768 then 0x8000 else BitVec.ofInt 16 v

/-- The exact result does not fit in n bits, signed. -/
def Sys2Proof.Machine.Exceeds (n : Nat) (v : Int) : Bool := decide (v < -2 ^ (n - 1)) || decide (2 ^ (n - 1) - 1 < v)

/-- h is the number of redundant sign bits of an n-bit value. -/
def Sys2Proof.Machine.IsExp (n : Nat) (x : Int) (h : Nat) : Prop :=
  h < n ∧ ∀ j, j < n → (j ≤ h ↔ -2 ^ (n - 1 - j) ≤ x ∧ x < 2 ^ (n - 1 - j))

/-- Accumulator a takes an exact value: modulo 2⁴⁰, or the nearer limit with SATA = 1; AV and AVS as it overflows or not;
nothing else of st, and be as before. -/
def Sys2Proof.Machine.KAccWrite (c c' : Core) (a : BitVec 1) (v : Int) : Prop :=
  c'.getA a = (if Exceeds 40 v = true ∧ c.st.getLsbD 8 = true then (if 0 < v then 0x7FFFFFFFFF else 0x8000000000) else BitVec.ofInt 40 v) ∧
  c'.st.getLsbD 5 = Exceeds 40 v ∧ c'.st.getLsbD 6 = (c.st.getLsbD 6 || Exceeds 40 v) ∧ c'.be = c.be ∧
  (∀ i, i ≠ 5 → i ≠ 6 → c'.st.getLsbD i = c.st.getLsbD i)

/-- The product that T selects. -/
def Sys2Proof.Machine.KProd (ty : BitVec 2) (x y : W16) : Int :=
  if ty = 0 then x.toInt * y.toInt else if ty = 1 then (x.toNat : Int) * y.toNat
  else if ty = 2 then x.toInt * (y.toNat : Int) else 2 * (x.toInt * y.toInt)

/-- Trap entry at the next instruction of core k, or the halt in its place. -/
def Sys2Proof.Machine.KTrapped (s t : State) (k cause sub : Nat) : Prop :=
  let c := s.core k
  let c' := t.core k
  let tc := cause + 16 * (if c.after.isSome then 1 else 0) + 32 * (if c.rpt then 1 else 0) + 256 * sub
  Apart s t ∧ MemSame s t ∧ (∀ j, j ≠ k → t.core j = s.core j) ∧
  (t.reg (0xF0000C + 0x10000 * k)).toNat = 65536 * tc + c.pc.toNat ∧
  KFrame [] [] [] { c with ir := c'.ir, ie := c'.ie, rc := c'.rc } c' ∧ c'.rc = c.rc ∧ c'.st = c.st ∧ c'.be = c.be ∧
  c'.imem = c.imem ∧ c'.dmem = c.dmem ∧
  (s.rb (0xF00000 + 0x10000 * k) 1 = true → c'.run = 0 ∧ c'.why = 4 ∧ (s.rb 0x200030 12 = true → (101, 0) ∈ t.bcn.flight)) ∧
  (s.rb (0xF00000 + 0x10000 * k) 1 = false → c.ie.getLsbD 3 = true → c'.run = 0 ∧ c'.why = 3 ∧
    (s.rb 0x200030 12 = true → (101, 0) ∈ t.bcn.flight)) ∧
  (s.rb (0xF00000 + 0x10000 * k) 1 = false → c.ie.getLsbD 3 = false → c'.run = 1 ∧ c'.ir = c.pc ∧ c'.tc.toNat = tc ∧
    c'.pc = 0x10 ∧ c'.after = none ∧ c'.rpt = false ∧ c'.ie.getLsbD 0 = false ∧ c'.ie.getLsbD 1 = c.ie.getLsbD 0 ∧
    c'.ie.getLsbD 2 = c.ie.getLsbD 2 ∧ c'.ie.getLsbD 3 = true ∧ c'.aOld = c.a ∧
    (t.reg (0xF00050 + 0x10000 * k)).toNat = min ((s.reg (0xF00050 + 0x10000 * k)).toNat + 1) 0xFFFFFFFF ∧
    (c.behind = false → (t.reg (0xF00040 + 0x10000 * k)).toNat = min ((s.reg (0xF00040 + 0x10000 * k)).toNat + 3) 0xFFFFFFFF))

/-- What a group's settings ask (R141 to R143): the response code, L, and what D divides L by. A preset sets all three. -/
def Sys2Proof.Machine.DetAsked (ctl : W32) : Nat × Nat × Nat :=
  match fld ctl 24 3 with
  | 1 => (0, 8, 4)
  | 2 => (2, 64, 4)
  | 3 => (0, 1024, 2)
  | 4 => (0, 16384, 1)
  | _ => (fld ctl 27 3, fld ctl 0 17, match fld ctl 22 2 with
      | 1 => 2
      | 2 => 4
      | _ => 1)

/-- What one visit adds to sample t of beam k: over the 64 inputs of pair P, the weighted samples of those that are valid in a slot
and whose weight stands. -/
def Sys2Proof.Machine.BeamTerm (s : State) (m x c P : Nat) (p : BlockPlace) (sl : Slot) (k t : Nat) : Int × Int :=
  let part := (List.range 64).map (fun r =>
    let i := p.inputs.getD (64 * P + r) 0
    match s.visitWeight m x c p k (64 * P + r), sl.valid? i with
    | some w, some b =>
      let z := (samplesOf p.desc.c3 b i).getD t (0, 0)
      (w.1 * z.1 - w.2 * z.2, w.1 * z.2 + w.2 * z.1)
    | _, _ => ((0 : Int), (0 : Int)))
  ((part.map (·.1)).sum, (part.map (·.2)).sum)

/-! ### Conduct queues -/

/-- A Keeper's word stands ready as in `KReady`, whatever its class. -/
def Sys2Proof.Machine.KAt (s : State) (k : Nat) (w : W32) : Prop :=
  s.kUp = true ∧ k < 8 ∧ (s.core k).run = 1 ∧ (s.core k).load = none ∧ (s.core k).cfault = none ∧ (s.core k).stop = false ∧
  ((s.core k).interruptible && (s.core k).irqReady) = false ∧ (s.core k).word = w ∧ placeOk (s.core k) w = true ∧ s.err.upsets = []

/-- The head of core k's queue: its entry, operation and stage. -/
def Sys2Proof.Machine.QHead (s : State) (k : Nat) (e : QEntry) (cop stage : Nat) : Prop :=
  s.up = true ∧ k < 8 ∧ s.qHead k = some e ∧ e.cop = cop ∧ e.stage = stage ∧ e.store = false ∧ s.err.upsets = []

/-- Outside the conduct machine nothing of the commands waiting, the fuses, device and host memory and control SRAM
changes, and the queues of other cores stand. -/
def Sys2Proof.Machine.QFrame (s t : State) (k : Nat) : Prop :=
  Apart s t ∧ MemSame s t ∧ (∀ j, j ≠ k → t.queue j = s.queue j) ∧ (∀ j, j ≠ k → t.core j = s.core j)

/-- The status word of an entry: written where SW = 1; no other word of the core's data memory, and nothing else of the core,
changes. -/
def Sys2Proof.Machine.QStatus (s t : State) (k : Nat) (e : QEntry) (outcome detail : Nat) : Prop :=
  let a := e.status.toNat % 32768
  { t.core k with dmem := (s.core k).dmem, cfault := (s.core k).cfault } = s.core k ∧
  (e.status.getLsbD 15 = true → rdLe (t.core k).dmem (2 * a) 2 = 256 * outcome + detail) ∧
  (∀ x, x < 2 * a ∨ 2 * a + 2 ≤ x ∨ e.status.getLsbD 15 = false → rd8 (t.core k).dmem x = rd8 (s.core k).dmem x)

/-- The head entry completes: it has left the queue, COMPLETED counts it, and its status word is written. -/
def Sys2Proof.Machine.QDone (s t : State) (k : Nat) (e : QEntry) (outcome : Nat) : Prop :=
  QFrame s t k ∧ t.queue k = (s.queue k).drop 1 ∧ QStatus s t k e outcome 0 ∧ (t.core k).cfault = (s.core k).cfault ∧
  (t.reg (0xF00064 + 0x10000 * k)).toNat = min ((s.reg (0xF00064 + 0x10000 * k)).toNat + 1) 0xFFFFFFFF

/-- The head entry, the last of its queue, faults: FAULTED counts it, its status word is written, and the core has its trap
to come. -/
def Sys2Proof.Machine.QFaulted (s t : State) (k : Nat) (e : QEntry) (cause : Nat) : Prop :=
  QFrame s t k ∧ t.queue k = [] ∧ QStatus s t k e 9 cause ∧ (t.core k).cfault = some (cause, e.addr) ∧
  RegsBut [0xF00068 + 0x10000 * k] s t ∧
  (t.reg (0xF00068 + 0x10000 * k)).toNat = min ((s.reg (0xF00068 + 0x10000 * k)).toNat + 1) 0xFFFFFFFF

/-- The head entry is accepted and does not complete: it has left the queue and is an operation, under the number given. -/
def Sys2Proof.Machine.QTaken (s t : State) (k : Nat) (e : QEntry) (kilns : List Nat) : Prop :=
  QFrame s t k ∧ t.queue k = (s.queue k).drop 1 ∧ t.core k = s.core k ∧
  t.cq.ops = s.cq.ops ++ [⟨s.cq.nextOp, k, e.issue, e.cop, e.status, kilns⟩] ∧ t.cq.nextOp = s.cq.nextOp + 1

/-- The index an operation takes: its own, or with NEXT the least multiple of its step at or above 128 × (b + 1 + MARGIN) and `low`,
where b is the last block index released in its channels. -/
def Sys2Proof.Machine.Resolved (s : State) (e : QEntry) (chans : List (Nat × Nat)) (given margin step low x : Nat) : Prop :=
  (e.flag 0 = false ∧ x = given ∧ x % step = 0 ∧ low ≤ x) ∨
  (e.flag 0 = true ∧ ∃ b, s.lastReleased chans = some b ∧ x % step = 0 ∧
    max (128 * (b + 1 + margin)) low ≤ x ∧ x < max (128 * (b + 1 + margin)) low + step)

/-! ### The command unit -/

/-- The command unit serves ring r next, and its command is `b`, of this opcode, from context 0, with nothing unused set; device
memory that it moves serves it. -/
def Sys2Proof.Machine.CmdNext (s : State) (r op : Nat) (b : List Byte) : Prop :=
  s.cmdsServed = true ∧ s.nextCmdRing = some r ∧ b = s.cmdBytes r ∧ field b 0 1 = op ∧ s.rOwner r = 0 ∧ cmdStray b = false ∧
  s.cmdServes b = true ∧ s.err.upsets = []

/-- The command of ring r has executed and waits for its response, with this status and result; its index stands. -/
def Sys2Proof.Machine.CmdRan (s t : State) (r : Nat) (b : List Byte) (status : Nat) (result : List Byte) : Prop :=
  Apart s t ∧ t.link.lastRing = r ∧ (t.rng r).head = (s.rng r).head ∧
  ∃ d, t.link.cmds = s.link.cmds ++ [(r, d)] ∧ d.op = field b 0 1 ∧ d.status = status ∧ d.tag = field b 4 4 ∧
    d.respRing = field b 2 2 % 32768 ∧ (d.resp = true ↔ field b 1 1 % 2 = 1) ∧ d.result = padTo 48 result ∧ d.owner = s.rOwner r

/-- For every command and state, a step with that command at the front of the queue is exec of it on the state with the
rest of the queue; on an empty queue a step is one tick of device time while the rails are on (the model's choice, log
3). [95_what_each_step_holds.md] -/
def Obligations.StepRunsFrontCommand : Prop :=
  ∀ (c : Instr) (rest : List Instr) (s : State),
    (s.pending = c :: rest → step s = exec c { s with pending := rest }) ∧
    (s.pending = [] → step s = .next (if s.aux then s.advance 1 else s))

/-- From every state whose register file, HBM, control SRAM and host memory are in canonical form, every step that answers
a next state, whatever the command, leaves them in canonical form and leaves the fuses of the part as they were. [R1,
R2, R281] -/
def Obligations.EveryStepKeepsCanonicalStores : Prop :=
  ∀ s t : State, s.wf = true → step s = .next t → t.wf = true ∧ SameFuses s t

/-- The register file and the memories after reset are in canonical form, the queue is empty, and no memory holds an
entry. [R281, R366] -/
def Obligations.ResetIsCanonical : Prop :=
  State.reset.wf = true ∧ State.reset.pending = [] ∧ State.reset.hbm = [] ∧ State.reset.csram = []

/-- After reset every register that no fuse loads holds the reset value of its table, GLB_UNITS holds what the grade
fixes, and GLB_ID the identification code. The grade of State.reset itself is the choice of log 2. [R4, R384, R389] -/
def Obligations.ResetRegisterValues : Prop :=
  (∀ off, off ≠ 0 → off ≠ 8 → off ≠ 0x20 → off ≠ 0x24 → State.reset.reg off = regReset off) ∧
  State.reset.reg 8 = (if State.reset.gradeC then 0x00FF0203#32 else 0x00FF07FF#32) ∧
  State.reset.reg 0 = (if State.reset.gradeC then 0x17241993#32 else 0x17240993#32) ∧
  regReset 0x40000C = 0x9999999A#32 ∧ regReset 0x400010 = 1#32 ∧ regReset 0x500010 = 300#32 ∧
  regReset 0xB00000 = 40#32 ∧ regReset 0xA00004 = 10000#32 ∧ regReset 0x100004 = 1#32

/-- PORST_N puts every register that no fuse loads at its reset value; WARMRST_N falling does so for the WARM and HOST
domains, but for the cause bit it sets and the stored training results, and leaves the POR and AON domains, but for
the state of RXCLK, whose lane goes to DOWN, and, where no command is next, HBM and control SRAM; PERST_N does so for
the HOST domain, empties every ring and channel, counts in XBR_ABORT at most one burst of each of masters 8 to 10,
and, where no command is next, no record waits or is held and no channel has writes in flight, leaves every other
register but its cause bit and every memory; no response or DMA record is owed to a ring after it; WARMRST_N rising on
a part whose memories are trained and not filled starts the fill, and changes no memory; TRST_N puts the TAP in Test-
Logic-Reset and changes no register and no memory; removed rails put the part in Off. (That at most one burst of each
master is cut follows from R332 and R334, and that their number is open is the form of log 29; that device memory
lists nothing after PORST_N and without rails is the model's, logs 7 and 17.) [R366, R367, R270, R304, R332, R334,
R336, R364, R372] -/
def Obligations.ResetsRestoreTheirDomains : Prop :=
  ∀ s : State,
    Completes .porstN s (fun t => Apart s t ∧ t.aux = true ∧ t.hbm = [] ∧
      ∀ off, off ≠ 0 → off ≠ 8 → off ≠ 0x20 → off ≠ 0x24 → t.reg off = regReset off) ∧
    (s.aux = true → s.pwr.warmLow = false →
      Completes (.warmrstN true) s (fun t => Apart s t ∧ t.pwr.warmLow = true ∧ t.pwr.released = false ∧
        t.rb 0x100004 1 = true ∧ t.kilns = [] ∧ t.tiles = [] ∧ t.cq.queues = [] ∧
        (∀ off r, regRow off = some r → off ≠ 0x100004 → (∀ st < 8, off ≠ 0x700004 + 0x10000 * st) →
          r.dom = .warm ∨ r.dom = .host → t.reg off = regReset off) ∧
        (s.nextCmdRing = none → MemSame s t ∧
          ∀ off r, regRow off = some r → off ≠ 0x100004 → (∀ st < 8, off ≠ 0x700004 + 0x10000 * st) →
            (off = 0x500140 → s.canBeActive 4 = false) → r.dom ≠ .warm → r.dom ≠ .host → t.reg off = s.reg off))) ∧
    (s.aux = true → s.pwr.warmLow = true → s.pwr.tripped = false → s.pwr.tap.done = false → s.mem.filled = false → s.mem.trained = true →
      Completes (.warmrstN false) s (fun t => Apart s t ∧ MemSame s t ∧ RegsBut [0x14] s t ∧ t.pwr.warmLow = false ∧
        t.bootState = 1 ∧ t.pwr.released = s.pwr.released)) ∧
    (s.aux = true →
      Completes .perstN s (fun t => Apart s t ∧ t.link.chans = [] ∧ t.rb 0x100004 2 = true ∧
        (∀ r, (t.rng r).waiting = [] ∧ (t.rng r).owed = [] ∧ (∀ w ∈ (t.rng r).lost, w.pairStream = true) ∧ (t.rng r).head = 0 ∧ (t.rng r).rseq = 0) ∧
        (s.reg 0x30000C).toNat ≤ (t.reg 0x30000C).toNat ∧ (t.reg 0x30000C).toNat ≤ (s.reg 0x30000C).toNat + 3 ∧
        (∀ off r, regRow off = some r → r.dom = .host → t.reg off = regReset off) ∧
        (s.nextCmdRing = none → (∀ c < 64, s.dWrites c = false) →
          MemSame s t ∧ t.cores = s.cores ∧
          (∀ off r, regRow off = some r → r.dom ≠ .host → off ≠ 0x100004 → off ≠ 0x30000C → t.reg off = s.reg off) ∧
          (s.pair.hold = [] → (∀ e ∈ s.link.rings, e.2.waiting = [] ∧ e.2.lost = []) → t.link.rings = [] ∧ t.kilns = s.kilns))) ∧
      Completes .trstN s (fun t => Apart s t ∧ MemSame s t ∧ RegsBut [] s t ∧ t.pwr.tap.ir = 1#8) ∧
      Completes .railsRemoved s (fun t => t.aux = false ∧ t.pending = s.pending ∧ t.hbm = []))

/-- HBM training ends with each quarter that has more failing lanes than spares shown as FAILED in MEM_STAT and no other,
and with the fill begun; the fill leaves HBM, control SRAM and the memories of every core zero, sets ECC_FILL.DONE,
releases the memories, shows the tiles and slices that fail as excluded, and leaves GLB_BOOT_STAT at LOADING in FLASH
mode and WAIT_HOST in HOST mode; GO in HOST mode, while the loader waits or has failed, starts a load; a load whose
memories serve ends in DONE or FAILED, and one from device memory that does not serve it waits, a flash image without
the MAGIC fails with ERR 1 and raises the boot alert, and one with sound sections, unsigned on a part that does not
verify, ends in DONE with every byte of every section that no later section overwrites where the section says, no
other byte of memory changed, and the halted Keepers that START names running at their entries. [R254, R281, R368,
R369, R370, R371] -/
def Obligations.StartupReleasesTheMemories : Prop :=
  ∀ s : State,
    (∀ dt data ca, s.auxUp = true → s.mem.trained = false →
      Completes (.hbmTrainingDone dt data ca) s (fun t => Apart s t ∧ MemSame s t ∧ t.mem.trained = true ∧ t.rf 0x14 29 3 = 1 ∧
        t.time.ticks = s.time.ticks + dt ∧
        ∀ q, s.hasQuarter q = true →
          t.rb (0x700004 + 0x10000 * (q / 4)) (4 + q % 4) = (s.rb (0x700004 + 0x10000 * (q / 4)) (4 + q % 4) ||
            ((List.range 16).any (fun i => decide (2 < lanesOf data (16 * q + i))) || (List.range 8).any (fun i => decide (1 < lanesOf ca (8 * q + i))))))) ∧
    (∀ dt tiles slices, s.auxUp = true → s.mem.trained = true → s.mem.filled = false →
      (∀ n ∈ tiles, n < s.nTiles) → (∀ n ∈ slices, n < s.nSlices) →
      Completes (.fillDone dt tiles slices) s (fun t => Apart s t ∧ t.pwr.released = true ∧ t.hbm = [] ∧ t.csram = [] ∧
        (∀ k, (t.core k).imem = [] ∧ (t.core k).dmem = []) ∧
        t.rb 0x80008C 31 = true ∧ t.rf 0x14 29 3 = (if s.pwr.bootsel then 2 else 3) ∧
        (∀ n ∈ tiles, t.rb (0xB00020 + 4 * (n / 32)) (n % 32) = true) ∧ (∀ n ∈ slices, t.rb 0xB00040 n = true))) ∧
    (∀ v, s.hostUp = true → bit v 31 = true → s.pwr.released = true → s.pwr.bootsel = false →
      s.rf 0x14 29 3 = 3 ∨ s.rf 0x14 29 3 = 5 →
      Completes (.bootGo v) s (fun t => Apart s t ∧ MemSame s t ∧ RegsBut [0x14] s t ∧
        t.rf 0x14 29 3 = 2 ∧ t.rf 0x14 24 5 = 0)) ∧
    (∀ dt, s.hostUp = true → s.pwr.loading.isSome = true →
      ((∀ a n, s.hbmServes a n = true) → s.xbr.waiting = [] → s.xbr.granted = [] →
        Completes (.bootLoadDone dt) s (fun t => Apart s t ∧ (t.rf 0x14 29 3 = 4 ∨ t.rf 0x14 29 3 = 5))) ∧
      (s.pwr.bootsel = false → s.hbmServes (s.reg64 0x18) (min 64 (s.memEnd - s.reg64 0x18)) = false →
        Completes (.bootLoadDone dt) s (fun t => t = s)) ∧
      (s.pwr.bootsel = true → rdLe s.pwr.flash 0 4 ≠ 0x32375848 → Completes (.bootLoadDone dt) s (fun t => Apart s t ∧
        t.rf 0x14 29 3 = 5 ∧ t.rf 0x14 24 5 = 1 ∧ t.rb 0x100048 3 = true ∧ MemSame s t))) ∧
    (∀ dt, s.hostUp = true → s.pwr.loading.isSome = true → s.pwr.bootsel = true → s.fuse.verify = false → s.err.upsets = [] →
      s.xbr.waiting = [] → s.xbr.granted = [] →
      let f := s.pwr.flash
      let total := rdLe f 4 4
      let n := rdLe f 10 2
      let o := fun (i : Nat) => 64 + 24 * i
      let space := fun (i : Nat) => rdLe f (o i) 1
      let core := fun (i : Nat) => rdLe f (o i + 1) 1
      let len := fun (i : Nat) => rdLe f (o i + 4) 4
      let src := fun (i : Nat) => rdLe f (o i + 8) 8
      let dev := fun (i : Nat) => rdLe f (o i + 16) 8
      let mem := fun (t : State) (sp k a : Nat) => if sp = 0 then rd8 t.hbm a else if sp = 1 then rd8 t.csram a
        else if sp = 2 then rd8 (t.core k).imem a else rd8 (t.core k).dmem a
      let covers := fun (i sp k a : Nat) => space i = sp ∧ core i = k ∧ dev i ≤ a ∧ a < dev i + len i
      rdLe f 0 4 = 0x32375848 → rdLe f 8 1 = 0 → total ≤ 16777216 → 1 ≤ n → n ≤ 64 → 64 + 24 * n ≤ total →
      (∀ i < n, rdLe f (o i + 2) 2 = 0 ∧ space i ≤ 3 ∧ (if 2 ≤ space i then core i ≤ 7 else core i = 0) ∧ 0 < len i ∧
        len i ≤ 16777216 ∧ len i % 4 = 0 ∧ src i % 4 = 0 ∧ dev i % 4 = 0 ∧ src i + len i ≤ total ∧
        dev i + len i ≤ (if space i = 0 then s.memEnd else if space i = 1 then 0x400000 else 0x10000) ∧
        (space i = 0 → s.hbmServes (dev i) (len i) = true) ∧ (space i = 2 → (s.core (core i)).run = 0)) →
      Completes (.bootLoadDone dt) s (fun t => Apart s t ∧ t.rf 0x14 29 3 = 4 ∧ t.host = s.host ∧
        (∀ i < n, ∀ j < len i, (∀ x, i < x → x < n → ¬ covers x (space i) (core i) (dev i + j)) →
          mem t (space i) (core i) (dev i + j) = rd8 f (src i + j)) ∧
        (∀ sp k a, sp ≤ 3 → k < 8 → (∀ i < n, ¬ covers i sp (if 2 ≤ sp then k else 0) a) → mem t sp k a = mem s sp k a) ∧
        (∀ k < 8, (rdLe f 9 1).testBit k = true → (s.core k).run = 0 →
          (t.core k).run = 1 ∧ (t.core k).pc.toNat = rdLe f (16 + 2 * k) 2 % 2 ^ 14)))

/-- In Run with no change under way, a request for Idle where no kiln is open, no block steered and no slot armed sets
BUSY and starts the change, and otherwise sets REFUSED and leaves CUR; when the time of a change to Idle has passed
and its conditions still hold, CUR reads Idle and BUSY 0; when that of a change to Run has passed, CUR reads Run. In
Idle a request for Doze while no DMA channel is RUNNING, ARMED or WAITING takes every lane to DOWN and asks the token
of every quarter for self-refresh, and otherwise sets REFUSED; once every quarter is in self-refresh, no fabric
transaction is outstanding and 2 ms have passed, CUR reads Doze; there an access of a register whose island has
stopped is ignored, reads 0, and sets DOZEACC; a request for Run or Idle starts the exit, which ends 200 µs later in
Idle with every quarter that MEM_CMD does not keep there out of self-refresh. At the end of a frequency gate every
present island that runs, has not stopped since the gate opened and has a count reads VALID with that count in
FREQ_KHZ and the lesser of it and its FMIN_KHZ in FMIN_KHZ; a present island that does not run, or has stopped since,
reads STOPPED with FREQ_KHZ 0 and keeps FMIN_KHZ. [R23, R372, R373, R374] -/
def Obligations.PowerStatesAndIslandGates : Prop :=
  (∀ (s : State), s.hostUp = true →
    (∀ v, s.pwr.change = none → s.rf 0x100000 28 2 = 0 → fld v 30 2 = 1 →
      Completes (.powerStateRequest v) s (fun t => Apart s t ∧ MemSame s t ∧ RegsBut [0x100000] s t ∧
        t.rf 0x100000 28 2 = 0 ∧ t.rf 0x100000 30 2 = 1 ∧
        (if s.idleOk then t.rb 0x100000 27 = true ∧ t.pwr.change.isSome = true
         else t.rb 0x100000 26 = true ∧ t.pwr.change = none))) ∧
    (∀ c dt, s.pwr.change = some c → c.dest = 1 → c.final = 1 → s.rf 0x100000 28 2 = 0 → s.idleOk = true →
      c.since + 6250 ≤ s.time.ticks + dt →
      Completes (.powerStateChangeDone dt) s (fun t => Apart s t ∧ MemSame s t ∧
        t.rf 0x100000 28 2 = 1 ∧ t.rb 0x100000 27 = false ∧ t.pwr.change = none)) ∧
    (∀ c dt, s.pwr.change = some c → c.dest = 0 → c.final = 0 → c.since + 31250 ≤ s.time.ticks + dt →
      Completes (.powerStateChangeDone dt) s (fun t => Apart s t ∧ MemSame s t ∧
        t.rf 0x100000 28 2 = 0 ∧ t.rb 0x100000 27 = false ∧ t.pwr.change = none)) ∧
    (∀ v, s.pwr.change = none → s.rf 0x100000 28 2 = 1 → fld v 30 2 = 2 →
      Completes (.powerStateRequest v) s (fun t => Apart s t ∧ MemSame s t ∧ t.rf 0x100000 28 2 = 1 ∧
        ((∀ c < 64, s.dState c ≠ 1 ∧ s.dState c ≠ 2 ∧ s.dState c ≠ 3) → t.rb 0x100000 27 = true ∧
          (∃ c, t.pwr.change = some c ∧ c.dest = 2 ∧ c.final = 2 ∧ c.since = s.time.ticks) ∧
          (∀ n < s.nRx, t.laneState (.rx n) = 0) ∧ (∀ n < s.nTx, t.laneState (.tx n) = 0) ∧
          (∀ q < 4 * s.nStacks, (t.quarter q).doze = true ∧ ((s.quarter q).selfRef = false → (t.quarter q).waits 4 = true))) ∧
        (¬ (∀ c < 64, s.dState c ≠ 1 ∧ s.dState c ≠ 2 ∧ s.dState c ≠ 3) →
          t.rb 0x100000 26 = true ∧ t.pwr.change = none ∧ RegsBut [0x100000] s t))) ∧
    (∀ c dt, s.pwr.change = some c → c.dest = 2 → c.final = 2 → s.pwr.wake = false → c.since + 1250000 ≤ s.time.ticks + dt →
      (∀ q < 4 * s.nStacks, (s.quarter q).selfRef = true) → (∀ e ∈ s.cores, e.2.load = none ∧ e.2.store = false) →
      s.xbr.waiting = [] →
      (∀ c < 64, s.dState c ≠ 1 ∧ s.dState c ≠ 2 ∧ s.dState c ≠ 3) →
      Completes (.powerStateChangeDone dt) s (fun t => Apart s t ∧ MemSame s t ∧
        t.rf 0x100000 28 2 = 2 ∧ t.rb 0x100000 27 = false ∧ t.pwr.change = none)) ∧
    (s.rf 0x100000 28 2 = 2 →
      (∀ off v, off < 0x2000000 → off % 4 = 0 → s.unmapped off = false → runsInDoze off = false →
        Completes (.registerWrite off v 0xF) s (fun t => Apart s t ∧ MemSame s t ∧ RegsBut [0x100000] s t ∧ t.rb 0x100000 25 = true) ∧
        Completes (.rcRegisterRead ⟨off, 4⟩) s (fun t => Apart s t ∧ MemSame s t ∧ RegsBut [0x100000] s t ∧ t.rb 0x100000 25 = true ∧
          t.link.rdata = [0, 0, 0, 0])) ∧
      (∀ v, s.pwr.change = none → fld v 30 2 ≠ 2 →
        Completes (.powerStateRequest v) s (fun t => Apart s t ∧ MemSame s t ∧ RegsBut [0x100000] s t ∧
          t.rb 0x100000 27 = true ∧ ∃ c, t.pwr.change = some c ∧ c.dest = 1 ∧ c.since = s.time.ticks)) ∧
      (∀ c dt, s.pwr.change = some c → c.dest = 1 → c.final = 1 → c.since + 125000 ≤ s.time.ticks + dt →
        Completes (.powerStateChangeDone dt) s (fun t => Apart s t ∧ MemSame s t ∧
          t.rf 0x100000 28 2 = 1 ∧ t.rb 0x100000 27 = false ∧ t.pwr.change = none ∧
          ∀ q < 4 * s.nStacks, s.rb (0x700000 + 0x10000 * (q / 4)) (4 + q % 4) = false → (t.quarter q).selfRef = false)))) ∧
  (∀ (s : State) (dt : Nat) (counts : List (Nat × Nat)) (n f : Nat),
    s.auxUp = true → s.pwr.gate + 625000 ≤ s.time.ticks + dt → n < 497 → s.hasIsland n = true → f < 2 ^ 24 →
    counts.find? (fun c => c.1 == n) = some (n, f) →
    Completes (.islFreqGateEnd dt counts) s (fun t => Apart s t ∧ MemSame s t ∧
      (s.islandOn n = true → n ∉ s.pwr.stopped → t.reg (0x104000 + 4 * n) = lo32 (2 ^ 31 + f) ∧
        t.rf (0x105000 + 4 * n) 0 24 = min (s.rf (0x105000 + 4 * n) 0 24) f) ∧
      (s.islandOn n = false ∨ n ∈ s.pwr.stopped → t.reg (0x104000 + 4 * n) = 0x40000000#32 ∧ t.reg (0x105000 + 4 * n) = s.reg (0x105000 + 4 * n))))

/-- A reading of the five die sensors shows each temperature, sets the warning alert where one reaches WARN, and where one
reaches TRIP drives FOGHORN_N low and records the trip (both limits as they are written, log 23); a stack temperature
is shown with its band, sets HOT and its alert above 95 °C, and trips above 105 °C; a supply out of limits for 10 µs
and a write of PWR_FOG.SET each latch FOGHORN_N low, from which no output stage emits; PMB_ALERT_N going low sets its
alert bit, and going high changes no register. [R276, R375, R376, R377, R379] -/
def Obligations.ThermalAndFaultPins : Prop :=
  ∀ s : State,
    (∀ dt (temps : List Int), s.aux = true → s.pwr.thermTick + 625000 ≤ s.time.ticks + dt → temps.length = 5 →
      Completes (.thermSensorRead dt temps) s (fun t => Apart s t ∧ MemSame s t ∧
        (∀ i < 5, t.reg (0x100024 + 4 * i) = lo32 (wrapI 16 (temps.getD i 0))) ∧
        ((∃ a ∈ temps, 16 * (s.rf 0x100020 0 8 : Int) ≤ a) → t.rb 0x100048 0 = true) ∧
        ((∃ a ∈ temps, 16 * (s.rf 0x100020 8 8 : Int) ≤ a) → t.foghorn = true ∧ t.pwr.tripped = true ∧ t.emits = false))) ∧
    (∀ st temp dt, s.up = true → st < s.nStacks → temp < 256 →
      Completes (.stackTempRead st temp dt) s (fun t => Apart s t ∧ MemSame s t ∧
        t.rf (0x700004 + 0x10000 * st) 24 8 = temp ∧
        t.rf (0x700004 + 0x10000 * st) 22 2 = (if temp < 85 then 0 else if temp ≤ 95 then 1 else 2) ∧
        (95 < temp → t.rb (0x700004 + 0x10000 * st) 21 = true ∧ t.rb 0x100048 6 = true) ∧
        (105 < temp → t.foghorn = true ∧ t.pwr.tripped = true))) ∧
    (∀ dt, s.aux = true → 6250 ≤ dt →
      Completes (.supplyFault dt) s (fun t => Apart s t ∧ MemSame s t ∧ t.rb 0x100040 1 = true ∧ t.foghorn = true ∧
        t.emits = false)) ∧
    (∀ v, s.hostUp = true → bit v 31 = true →
      Completes (.fogSet v) s (fun t => Apart s t ∧ MemSame s t ∧ RegsBut [0x100040] s t ∧ t.rb 0x100040 2 = true ∧
        t.foghorn = true ∧ t.emits = false)) ∧
    (s.aux = true → Completes (.pmbAlertN true) s (fun t => Apart s t ∧ MemSame s t ∧ RegsBut [0x100048] s t ∧
      t.rb 0x100048 2 = true ∧ t.pwr.pmbLow = true) ∧
      Completes (.pmbAlertN false) s (fun t => Apart s t ∧ MemSame s t ∧ RegsBut [] s t ∧ t.pwr.pmbLow = false))

/-- Each instruction loads its code and captures its data register, and none changes a register or a memory: IDCODE
captures the 32-bit identification code; BYPASS, CLAMP and HIGHZ the 1-bit bypass register, which holds 0; EXTEST and
SAMPLE/PRELOAD 39 cells, with the update latch written; FUSE_READ the 512 fuse bits; FABRIC the last word read, with
an update that has bit 95 set, and comes while none before it waits, asking the fabric for one word access as master
11, unless DBGOFF is set, when it acts as BYPASS; a code that the table does not list acts as BYPASS; BIST_RUN, taken
only with WARMRST_N low, starts a self-test. The end of a self-test shows its counts in PWR_BIST and changes no other
register. [R384, R385, R386, R387] -/
def Obligations.TapInstructions : Prop :=
  ∀ s : State, s.aux = true →
    (∀ c ir, (c, ir) ∈ [(Instr.bypass, 0xFF#8), (.clamp, 0x04#8), (.highz, 0x05#8)] →
      Completes c s (fun t => Apart s t ∧ MemSame s t ∧ RegsBut [] s t ∧ t.pwr.tap.ir = ir ∧ t.pwr.tap.drLen = 1 ∧
        t.pwr.tap.dr = 0)) ∧
    Completes .idcode s (fun t => Apart s t ∧ MemSame s t ∧ RegsBut [] s t ∧ t.pwr.tap.ir = 0x01#8 ∧ t.pwr.tap.drLen = 32 ∧
      t.pwr.tap.dr = (if s.gradeC then 0x17241993#512 else 0x17240993#512)) ∧
    (∀ upd c ir, (c, ir) ∈ [(Instr.extest upd, 0x00#8), (Instr.samplePreload upd, 0x02#8)] →
      Completes c s (fun t => Apart s t ∧ MemSame s t ∧ RegsBut [] s t ∧ t.pwr.tap.ir = ir ∧ t.pwr.tap.drLen = 39 ∧ t.pwr.tap.scan = upd)) ∧
    Completes .fuseRead s (fun t => Apart s t ∧ MemSame s t ∧ RegsBut [] s t ∧ t.pwr.tap.ir = 0x21#8 ∧ t.pwr.tap.drLen = 512 ∧
      t.pwr.tap.dr = BitVec.ofNat 512 s.fuseBits) ∧
    (∀ upd : BitVec 96, s.fuse.dbgOff = true → Completes (.tapFabric upd) s (fun t => Apart s t ∧ MemSame s t ∧
      RegsBut [] s t ∧ t.xbr = s.xbr ∧ t.pwr.tap.ir = 0x30#8 ∧ t.pwr.tap.drLen = 1 ∧ t.pwr.tap.dr = 0)) ∧
    (∀ upd : BitVec 96, s.fuse.dbgOff = false → (∀ r ∈ s.xbr.waiting, r.master ≠ 11) →
      Completes (.tapFabric upd) s (fun t => Apart s t ∧ MemSame s t ∧ RegsBut [] s t ∧ t.pwr.tap.ir = 0x30#8 ∧ t.pwr.tap.drLen = 96 ∧
        t.pwr.tap.dr = BitVec.ofNat 512 s.pwr.tap.rdata.toNat ∧
        (upd.getLsbD 95 = false → t.xbr = s.xbr) ∧
        (upd.getLsbD 95 = true → ∃ r, t.xbr.waiting = s.xbr.waiting ++ [r] ∧ r.master = 11 ∧
          r.addr = upd.toNat / 2 ^ 32 % 2 ^ 32 ∧ r.write = upd.getLsbD 94 ∧ r.data = [lo32 upd.toNat]))) ∧
    (∀ (ir : Byte) (upd : BitVec 96), ir ∉ [0x00#8, 0x01#8, 0x02#8, 0x20#8, 0x21#8, 0x30#8] →
      (s.tapScan ir upd).pwr.tap.ir = ir ∧ (s.tapScan ir upd).pwr.tap.drLen = 1 ∧ (s.tapScan ir upd).pwr.tap.dr = 0 ∧
      MemSame s (s.tapScan ir upd) ∧ RegsBut [] s (s.tapScan ir upd)) ∧
    (∀ upd, s.pwr.warmLow = true → bit upd 31 = true →
      Completes (.bistRun upd) s (fun t => Apart s t ∧ MemSame s t ∧ RegsBut [] s t ∧ t.pwr.tap.ir = 0x20#8 ∧ t.pwr.tap.busy = true)) ∧
    (∀ upd, s.pwr.warmLow = false → Completes (.bistRun upd) s (fun t => t = s)) ∧
    (∀ tiles slices, s.pwr.tap.busy = true → (∀ n ∈ tiles, n < s.nTiles) → (∀ n ∈ slices, n < s.nSlices) →
      Completes (.bistDone tiles slices) s (fun t => Apart s t ∧ MemSame s t ∧ RegsBut [0x100050] s t ∧
        t.pwr.tap.busy = false ∧ t.pwr.tap.done = true ∧ t.rb 0x100050 31 = true ∧
        t.rf 0x100050 8 8 = tiles.eraseDups.length % 256 ∧ t.rf 0x100050 0 8 = slices.eraseDups.length % 256))

/-- A write or read of an offset that no register is at changes nothing and reads 0; a write with a byte disabled only
sets PARTWR; outside Doze a write of a plain RW register replaces its RW bits and no other, one of BCN_FLAG clears the
bits written 1, one of BCN_LOCK sets them, and one of PR_READY (RO) changes nothing; a read of BCN_GRP_DROP returns
the count and clears it, and one of PWR_ISL_FMIN leaves all ones; a write of XBR_CTL sets REMAP; a read of
LTN_ENG_DEAD LO latches HI. Where the register space of the control fabric is not open to the host, the access joins
those that wait for their grant and does nothing else (that one granted at once is part of its own command is the
model's choice, log 29). [R6, R7, R8, R9, R23, R165, R240, R337] -/
def Obligations.RegisterAccessTypes : Prop :=
  ∀ s : State, s.hostUp = true → s.dozing = false →
    (¬ FabQuiet s 9 2 →
      (∀ off v be, off < 0x2000000 → off % 4 = 0 →
        Completes (.registerWrite off v be) s (fun t => Asked s t (hostReq (fabRegs + off) true v be)) ∧
        Completes (.rcRegisterRead ⟨off, 4⟩) s (fun t => Asked s t (hostRead (fabRegs + off) 4))) ∧
      (∀ v, Completes (.remapWrite v) s (fun t => Asked s t (hostReq (fabRegs + 0x300000) true v 0xF)))) ∧
    (FabQuiet s 9 2 →
    (∀ off v, off < 0x2000000 → off % 4 = 0 → s.unmapped off = true →
      Completes (.registerWrite off v 0xF) s (fun t => GrantOnly s t) ∧
      Completes (.rcRegisterRead ⟨off, 4⟩) s (fun t => Apart s t ∧ MemSame s t ∧ RegsBut [] s t ∧ t.link.rdata = [0, 0, 0, 0])) ∧
    (∀ off v be, off < 0x2000000 → off % 4 = 0 → be ≠ 0xF →
      Completes (.registerWrite off v be) s (fun t => Apart s t ∧ MemSame s t ∧ RegsBut [0x1040000] s t ∧
        t.rb 0x1040000 0 = true)) ∧
    (∀ off m, (off, m) ∈ [(0xA00000, 7#32), (0xA00004, 0xFFFF#32), (0xB00004, 0xFFFF#32), (0xB00008, 0xFFFF#32),
        (0x500010, 0xFFFFFFFF#32), (0x500018, 0xFFFFFFFF#32), (0x400804, 0xFFFFFFFF#32), (0x700008, 0xFFFF#32),
        (0x100044, 0x7F#32), (0x200030, 0xFFFF#32)] →
      ∀ v, Completes (.registerWrite off v 0xF) s (fun t => Apart s t ∧ MemSame s t ∧ RegsBut [off] s t ∧
        t.reg off = (s.reg off &&& ~~~m) ||| (v &&& m))) ∧
    (∀ w v, w < 4 →
      Completes (.registerWrite (0x200000 + 4 * w) v 0xF) s (fun t => Apart s t ∧ MemSame s t ∧
        RegsBut [0x200000 + 4 * w] s t ∧ t.reg (0x200000 + 4 * w) = s.reg (0x200000 + 4 * w) &&& ~~~v) ∧
      Completes (.registerWrite (0x200020 + 4 * w) v 0xF) s (fun t => Apart s t ∧ MemSame s t ∧
        RegsBut [0x200020 + 4 * w] s t ∧ t.reg (0x200020 + 4 * w) = s.reg (0x200020 + 4 * w) ||| v)) ∧
    (∀ v, Completes (.registerWrite 0x60000C v 0xF) s (fun t => Apart s t ∧ MemSame s t ∧ RegsBut [] s t)) ∧
    (∀ g, g < 16 → Completes (.rcRegisterRead ⟨(0x200040 + 4 * g), 4⟩) s (fun t => Apart s t ∧ MemSame s t ∧
      RegsBut [0x200040 + 4 * g] s t ∧ t.link.rdata = leBytes 4 (s.reg (0x200040 + 4 * g)).toNat ∧
      t.reg (0x200040 + 4 * g) = 0)) ∧
    (∀ n, n < 497 → s.gradeC = false → Completes (.rcRegisterRead ⟨(0x105000 + 4 * n), 4⟩) s (fun t => Apart s t ∧ MemSame s t ∧
      RegsBut [0x105000 + 4 * n] s t ∧ t.link.rdata = leBytes 4 (s.reg (0x105000 + 4 * n)).toNat ∧
      fld (t.reg (0x105000 + 4 * n)) 0 24 = 0xFFFFFF)) ∧
    (∀ v, Completes (.remapWrite v) s (fun t => Apart s t ∧ MemSame s t ∧ RegsBut [0x300000] s t ∧
      t.rb 0x300000 0 = bit v 0)) ∧
    (∀ e, e < 4 → s.gradeC = false → Completes (.ltnEngDeadRead e) s (fun t => Apart s t ∧ MemSame s t ∧ RegsBut [] s t ∧
      t.link.rdata = leBytes 4 (ticksNs (s.ltn e).deadTicks % 2 ^ 32) ∧
      (t.ltn e).latchHi = hi32 (ticksNs (s.ltn e).deadTicks))))

/-- Before the memories are released an access to either window only sets EARLY, and a read answers zeros. Afterwards,
where no error is stored and the quarters of device memory concerned serve, a BAR4 read within present memory answers
the bytes at DMA_WIN plus the offset and changes no memory; a BAR4 write writes there the bytes enabled and no other,
but that where the units of the part have written at the same tick, bytes of the lines it covers may read as they were
before those writes (that this window of loss is one tick long is the model's choice of log 82), and a poisoned one
changes nothing; outside Doze a memory-window write of control SRAM writes the bytes enabled and no other, and one of
instruction memory changes nothing while its core is not HALTED, where the fabric's target is open to the host, and
else waits for its grant (log 29). A resize sets the window size and aligns DMA_WIN, and training shows rate, width,
FLIT mode and relaxed ordering. [R191, R238, R240, R242, R243, R269, R371] -/
def Obligations.HostWindowsReachMemory : Prop :=
  ∀ s : State, s.hostUp = true →
    (s.pwr.released = false →
      (∀ off len, off + len ≤ 2 ^ s.link.bar4 → Completes (.bar4Read off len none) s (fun t => Apart s t ∧ MemSame s t ∧
        RegsBut [0x1040000] s t ∧ t.rb 0x1040000 1 = true ∧ t.link.rdata = List.replicate len 0)) ∧
      (∀ off bytes en poisoned, off + bytes.length ≤ 2 ^ s.link.bar4 →
        Completes (.bar4Write off bytes en poisoned none) s (fun t => Apart s t ∧ MemSame s t ∧
          RegsBut [0x1040000] s t ∧ t.rb 0x1040000 1 = true)) ∧
      (∀ off len, 0x2000000 ≤ off → off < 0x4000000 → 1 ≤ len → off % 4 + len ≤ 4 →
        Completes (.rcRegisterRead ⟨off, len⟩) s (fun t => Apart s t ∧ MemSame s t ∧
          RegsBut [0x1040000] s t ∧ t.rb 0x1040000 1 = true ∧ t.link.rdata = List.replicate len 0)) ∧
      (∀ off v be, 0x2000000 ≤ off → off < 0x4000000 → Completes (.memoryWindowWrite off v be) s (fun t => Apart s t ∧
        MemSame s t ∧ RegsBut [0x1040000] s t ∧ t.rb 0x1040000 1 = true))) ∧
    (s.pwr.released = true → s.err.upsets = [] → s.err.poison = [] →
      (∀ off len, off + len ≤ 2 ^ s.link.bar4 → s.reg64 0x1040008 + off + len ≤ s.memEnd →
        s.hbmServes (s.reg64 0x1040008 + off) len = true → Completes (.bar4Read off len none) s (fun t => Apart s t ∧ MemSame s t ∧ RegsBut [] s t ∧ t.link.rpoison = false ∧
          t.link.rdata = rdBytes s.hbm (s.reg64 0x1040008 + off) len)) ∧
      (∀ off bytes en, off + bytes.length ≤ 2 ^ s.link.bar4 → s.reg64 0x1040008 + off + bytes.length ≤ s.memEnd →
        en.length = bytes.length → s.hbmServes (s.reg64 0x1040008 + off) bytes.length = true → s.hbmWas = none →
        Completes (.bar4Write off bytes en false none) s (fun t => Apart s t ∧ RegsBut [] s t ∧
          t.csram = s.csram ∧ t.host = s.host ∧
          (∀ i < bytes.length, rd8 t.hbm (s.reg64 0x1040008 + off + i) =
            if en.getD i false then bytes.getD i 0#8 else rd8 s.hbm (s.reg64 0x1040008 + off + i)) ∧
          (∀ a, a < s.reg64 0x1040008 + off ∨ s.reg64 0x1040008 + off + bytes.length ≤ a → rd8 t.hbm a = rd8 s.hbm a))) ∧
      (∀ off bytes en m, off + bytes.length ≤ 2 ^ s.link.bar4 → s.reg64 0x1040008 + off + bytes.length ≤ s.memEnd →
        en.length = bytes.length → s.hbmServes (s.reg64 0x1040008 + off) bytes.length = true → s.hbmWas = some m →
        let a0 := s.reg64 0x1040008 + off
        Completes (.bar4Write off bytes en false none) s (fun t => Apart s t ∧ RegsBut [] s t ∧
          t.csram = s.csram ∧ t.host = s.host ∧
          (∀ i < bytes.length, en.getD i false = true → rd8 t.hbm (a0 + i) = bytes.getD i 0#8) ∧
          (∀ a, rd8 t.hbm a = rd8 s.hbm a ∨ (a0 ≤ a ∧ a < a0 + bytes.length ∧ en.getD (a - a0) false = true) ∨
            (rd8 t.hbm a = rd8 m a ∧ a0 / 64 ≤ a / 64 ∧ a / 64 ≤ (a0 + bytes.length - 1) / 64)))) ∧
      (∀ off bytes en, off + bytes.length ≤ 2 ^ s.link.bar4 → Completes (.bar4Write off bytes en true none) s (fun t => t = s)) ∧
      (s.dozing = false → ¬ FabQuiet s 9 1 → ∀ o v be, o + 4 ≤ 0x400000 →
        Completes (.memoryWindowWrite (0x2000000 + o) v be) s (fun t => Asked s t (hostReq (fabSram + o) true v be))) ∧
      (s.dozing = false → FabQuiet s 9 1 → ∀ off v be, 0x2000000 ≤ off → off + 4 ≤ 0x2400000 →
        Completes (.memoryWindowWrite off v be) s (fun t => Apart s t ∧ RegsBut [] s t ∧ t.hbm = s.hbm ∧ t.host = s.host ∧
          (∀ i < 4, rd8 t.csram (off - 0x2000000 + i) =
            if be.getLsbD i then (leBytes 4 v.toNat).getD i 0 else rd8 s.csram (off - 0x2000000 + i)) ∧
          (∀ a, a < off - 0x2000000 ∨ off - 0x2000000 + 4 ≤ a → rd8 t.csram a = rd8 s.csram a))) ∧
      (s.dozing = false → ∀ k o v be, k < 8 → o < 0x10000 → (s.core k).run ≠ 0 →
        Completes (.memoryWindowWrite (0x3000000 + 0x20000 * k + o) v be) s (fun t => Apart s t ∧ MemSame s t ∧ t.cores = s.cores ∧
          RegsBut [] s t ∧ (FabQuiet s 9 (3 + k) → GrantOnly s t)))) ∧
    (∀ n, 30 ≤ n → n ≤ (if s.gradeC then 38 else 39) → Completes (.bar4Resize n) s (fun t => Apart s t ∧ MemSame s t ∧
      RegsBut [0x1040008, 0x104000C] s t ∧ t.link.bar4 = n ∧ t.reg64 0x1040008 = s.reg64 0x1040008 / 2 ^ n * 2 ^ n)) ∧
    (∀ rate width relaxed, 1 ≤ rate → rate < 8 → width ∈ [1, 2, 4, 8, 16] →
      Completes (.hostLinkTraining rate width ⟨decide (6 ≤ rate), relaxed⟩) s (fun t => Apart s t ∧ MemSame s t ∧
        RegsBut [0x1040000] s t ∧ t.rf 0x1040000 28 4 = rate ∧ t.rf 0x1040000 23 5 = width ∧
        t.rb 0x1040000 22 = decide (6 ≤ rate) ∧ t.rb 0x1040000 21 = relaxed))

/-- The end of a bank's refresh interval, whose length follows the window of its stack, adds one to what the bank owes,
less the refreshes issued, and forces one at eight, counted; the end of a window clears the activation tables of the
stack and no other; a pseudo-channel idle for MEM_PD_IDLE enters power-down; RETRAIN and SREF bits written ask for the
token of their quarter; a free token goes to a waiting request of the highest rank; the end of retraining frees the
token, with RTFAIL set on failure; the end of a neighbour refresh counts it and frees the token; the exit of self-
refresh leaves no owed refresh and no activation of its banks. [R275, R276, R277, R278, R290] -/
def Obligations.RefreshAndMaintenance : Prop :=
  ∀ s : State, s.up = true →
    (∀ p bank issued dt, p / 64 < s.nStacks → bank < 64 → (s.quarter (p / 16)).selfRef = false →
      tget 0 s.mem.refAt (64 * p + bank) + s.windowOf (p / 64) * 625000 * 128 / 8192 ≤ 128 * (s.time.ticks + dt) →
      Completes (.refreshInterval p bank issued dt) s (fun t => Apart s t ∧ MemSame s t ∧
        tget 0 t.mem.owed (64 * p + bank) =
          (let owed := tget 0 s.mem.owed (64 * p + bank) + 1 - min (tget 0 s.mem.owed (64 * p + bank) + 1) issued
           if 8 ≤ owed then 7 else owed) ∧
        (issued = 0 → 7 ≤ tget 0 s.mem.owed (64 * p + bank) →
          (t.reg (oMemCnt (p / 16) 2)).toNat = min (((s.advance dt).reg (oMemCnt (p / 16) 2)).toNat + 1) 0xFFFFFFFF) ∧
        (∀ i, i ≠ 64 * p + bank → tget 0 t.mem.owed i = tget 0 s.mem.owed i))) ∧
    (∀ st dt, st < s.nStacks → tget 0 s.mem.windowAt st + 625000 * s.windowOf st ≤ s.time.ticks + dt →
      Completes (.refreshWindowEnd st dt) s (fun t => Apart s t ∧ MemSame s t ∧
      ∀ i, tget [] t.mem.acts i = if i / 4096 = st then [] else tget [] s.mem.acts i)) ∧
    (∀ p dt, p / 64 < s.nStacks → s.rf (0x70000C + 0x10000 * (p / 64)) 0 16 ≠ 0 →
      5 * s.rf (0x70000C + 0x10000 * (p / 64)) 0 16 ≤ 8 * dt → s.mem.pdown.contains p = false →
      Completes (.hbmPowerDown p dt) s (fun t => Apart s t ∧ MemSame s t ∧ t.mem.pdown.contains p = true ∧
        t.time.ticks = s.time.ticks + dt)) ∧
    (∀ st v c, st < s.nStacks → c < 4 → bit v c = true → s.rb (0x700000 + 0x10000 * st) c = false →
      Completes (.memRetrainRequest st v) s (fun t => Apart s t ∧ MemSame s t ∧
        t.rb (0x700000 + 0x10000 * st) c = true ∧ (t.quarter (4 * st + c)).waits 2 = true)) ∧
    (∀ st v c, st < s.nStacks → c < 4 → bit v (4 + c) = true → (s.quarter (4 * st + c)).selfRef = false →
      Completes (.memSrefRequest st v) s (fun t => Apart s t ∧ MemSame s t ∧
        t.rb (0x700000 + 0x10000 * st) (4 + c) = true ∧ (t.quarter (4 * st + c)).waits 4 = true)) ∧
    (∀ q, s.hasQuarter q = true → (s.quarter q).holder = none → (s.quarter q).queue ≠ [] →
      Completes (.maintTokenGrant q) s (fun t => Apart s t ∧ MemSame s t ∧
        ∃ r ∈ (s.quarter q).queue, (t.quarter q).holder = some r ∧ ∀ x ∈ (s.quarter q).queue, r.rank ≤ x.rank)) ∧
    (∀ q dt ok, s.holds q 2 = true → Completes (.retrainDone q dt ok) s (fun t => Apart s t ∧ MemSame s t ∧
      (t.quarter q).holder = none ∧ t.rb (0x700000 + 0x10000 * (q / 4)) (q % 4) = false ∧
      (ok = false → t.rb (0x700004 + 0x10000 * (q / 4)) (8 + q % 4) = true))) ∧
    (∀ q, s.holds q 1 = true → Completes (.neighbourRefreshDone q) s (fun t => Apart s t ∧ MemSame s t ∧
      (t.quarter q).holder = none ∧
      (t.reg (oMemCnt q 3)).toNat = min ((s.reg (oMemCnt q 3)).toNat + 1) 0xFFFFFFFF)) ∧
    (∀ q dt, s.hasQuarter q = true → (s.quarter q).selfRef = true → s.wantsSref q = false →
      Completes (.selfRefreshExit q dt) s (fun t => Apart s t ∧ MemSame s t ∧ (t.quarter q).selfRef = false ∧
        (t.quarter q).holder = none ∧
        ∀ i, i / 1024 = q → tget 0 t.mem.owed i = 0 ∧ tget [] t.mem.acts i = []))

/-- GO with no pass pending and a range that R220 allows queues a pass of that range and sets the pending bit; a step,
which finds no stored error, reads up to the next 1 MiB of stack offset or the end of the range and frees its token; a
host pass that has read its range ends with its summary in MEM_SCRUB_SUM, clears the pending bit and publishes
SCRUB_DONE; POP frees the oldest entry of the log. [R287, R288, R289, R290] -/
def Obligations.ScrubPassesAndTheLog : Prop :=
  ∀ s : State, s.up = true →
    (∀ st v, st < s.nStacks → bit v 31 = true → s.rb (0x700020 + 0x10000 * st) 30 = false →
      scrubOk st (s.reg64 (0x700028 + 0x10000 * st)) (s.reg64 (0x700030 + 0x10000 * st)) = true →
      Completes (.scrubGo st v) s (fun t => Apart s t ∧ MemSame s t ∧ t.rb (0x700020 + 0x10000 * st) 30 = true ∧
        t.scrubs st = s.scrubs st ++ [⟨.host, st, s.reg64 (0x700028 + 0x10000 * st), s.reg64 (0x700030 + 0x10000 * st),
          s.reg64 (0x700028 + 0x10000 * st), 0, 0, none, 0, none, 0⟩])) ∧
    (∀ st dt p rest, st < s.nStacks → s.scrubs st = p :: rest → p.stack = st → s.holds (devQuarter p.next) 3 = true →
      s.err.upsets = [] →
      Completes (.scrubStepDone st dt none) s (fun t => Apart s t ∧ MemSame s t ∧
        (t.quarter (devQuarter p.next)).holder = none ∧ ∃ p', t.scrubs st = p' :: rest ∧ p'.next = p.stepEnd ∧
          p'.corrected = p.corrected ∧ p'.uncorr = p.uncorr ∧ p'.first = p.first ∧ p'.start = p.start ∧ p'.len = p.len)) ∧
    (∀ st p rest, st < s.nStacks → s.scrubs st = p :: rest → p.stack = st → p.by_ = .host → p.start + p.len ≤ p.next →
      Completes (.scrubDone st) s (fun t => Apart s t ∧ MemSame s t ∧ t.scrubs st = rest ∧
        t.rb (0x700020 + 0x10000 * st) 30 = false ∧ Published s t 99 ∧
        ∀ j < 9, t.reg (0x700040 + 0x10000 * st + 4 * j) = lo32 (field p.summary (4 * j) 4))) ∧
    (∀ v, bit v 0 = true → Completes (.eccLogPop v) s (fun t => Apart s t ∧ MemSame s t ∧ RegsBut [] s t ∧
      t.err.log = (match oldest (fun _ => true) s.err.log with
        | some (p, _) => sdel s.err.log p
        | none => s.err.log)))

/-- One tick with RUN = 1 adds the increment in effect to TIM_NS and its fraction as the procedure of R294 does, and sets
WRAP and publishes TIM_WRAP where the sum passes 2^32; any number of ticks comes to that many single ticks; with RUN =
0 neither moves. PORST_N leaves TIM_NS and the fraction 0, RUN 1, and an increment of 0x01 and 0x9999_999A. [R294] -/
def Obligations.DeviceTimeFollowsTheTick : Prop :=
  (∀ s : State, s.running = true →
    (let acc := s.time.frac.toNat + (s.reg 0x40000C).toNat
     let sum := s.time.ns.toNat + s.rf 0x400010 0 8 + acc / 2 ^ 32
     (s.advance 1).time.frac.toNat = acc % 2 ^ 32 ∧ (s.advance 1).time.ns.toNat = sum % 2 ^ 32 ∧
     (2 ^ 32 ≤ sum → s.advance 1 =
        ({ s with time := (s.advance 1).time } : State).wraps 1 ∧ (s.advance 1).rb 0x400004 0 = true) ∧
     (sum < 2 ^ 32 → s.advance 1 = { s with time := (s.advance 1).time }))) ∧
  (∀ (s : State) (a b : Nat), s.advance (a + b) = (s.advance a).advance b) ∧
  (∀ (s : State) (n : Nat), s.running = false →
    (s.advance n).time.ns = s.time.ns ∧ (s.advance n).time.frac = s.time.frac ∧ (s.advance n).regs = s.regs) ∧
  (∀ s : State, Completes .porstN s (fun t => t.time.ns = 0 ∧ t.time.frac = 0 ∧ t.running = true ∧
    t.rf 0x400010 0 8 = 1 ∧ t.reg 0x40000C = 0x9999999A#32))

/-- A write to TIM_INC_FRAC is held and changes no register; a write to TIM_INC_INT commits the held fraction and the
written integer together, as reads of both then show, and changes nothing else; they take effect at the next tick.
[R295] -/
def Obligations.IncrementCommitsTogether : Prop :=
  ∀ s : State, s.aux = true →
    (∀ v, Completes (.timIncFracWrite v) s (fun t => Apart s t ∧ MemSame s t ∧ RegsBut [] s t ∧ t.time.held = v ∧
      t.time.ns = s.time.ns ∧ t.time.frac = s.time.frac)) ∧
    (∀ v, Completes (.timIncCommit v) s (fun t => Apart s t ∧ MemSame s t ∧ RegsBut [0x40000C, 0x400010] s t ∧
      t.reg 0x40000C = s.time.held ∧ t.reg 0x400010 = v &&& 0xFF ∧ t.time = s.time)) ∧
    (∀ v w, ∃ t u, exec (.timIncFracWrite v) s = .next t ∧ exec (.timIncCommit w) t = .next u ∧
      u.reg 0x40000C = v ∧ u.reg 0x400010 = w &&& 0xFF ∧
      (u.running = true → (u.advance 1).time.ns.toNat * 2 ^ 32 + (u.advance 1).time.frac.toNat =
        (u.time.ns.toNat * 2 ^ 32 + u.time.frac.toNat + (w.toNat % 256) * 2 ^ 32 + v.toNat) % 2 ^ 64))

/-- A write of a compare's PERIOD, or of TARGET with EN = 0, or of CTL with EN = 0, only takes its value, bits of FIRED
and MISSED written 1 clearing. An arming (EN = 1 written, or TARGET with EN = 1) while RUN = 0 also records the
setting and nothing else. With RUN = 1 it is judged by d, the target less TIM_NS modulo 2^32, a PERIOD of 2^31 or more
acting as 0: with d = 0 the compare fires (its event is published, FIRED set, EN cleared with PERIOD 0, else TARGET
moves on by PERIOD); with d below 2^31 it waits; otherwise MISSED is set, and EN clears with PERIOD 0, else TARGET
advances by the smallest multiple of PERIOD that gives 1 ≤ d < 2^31. A compare that device time has reached fires,
with TARGET advanced by the smallest nonzero multiple of PERIOD that puts it ahead, MISSED where the first of them did
not. Ticks in which device time wraps set WRAP and publish TIM_WRAP. A write of RUN = 0 stops device time and changes
nothing else; one of RUN = 1 while device time runs changes nothing, and while it stands starts it, judges each
enabled compare as an arming does, and each waiting WAITT as its dispatch does: DONE at its target, PASSED behind it,
else it waits on; other compares and queues stand. Each capture that watches a PPS edge, or the oldest instant of its
source still to be taken up, stores it with VALID set and publishes TIM_CAPTURE where VALID was 0, and otherwise
counts it in LOST, which saturates at 255. [R294, R296, R297, R298, R299] -/
def Obligations.ComparesAreJudgedAtArming : Prop :=
  ∀ s : State, s.auxUp = true →
    (∀ i, i < 8 →
      let o := oCmp i
      let after := fun (c v : W32) (t : State) => t.rb (o + 8) 31 = bit v 31 ∧ t.rb (o + 8) 0 = (bit c 0 && !bit v 0) ∧
        t.rb (o + 8) 1 = (bit c 1 && !bit v 1)
      (∀ v, Completes (.timCmpArm i 1 v) s (fun t => Apart s t ∧ MemSame s t ∧ RegsBut [o + 4] s t ∧ t.reg (o + 4) = v ∧ t.time = s.time)) ∧
      (∀ v, s.rb (o + 8) 31 = false ∨ s.running = false → Completes (.timCmpArm i 0 v) s (fun t => Apart s t ∧ MemSame s t ∧
        RegsBut [o] s t ∧ t.reg o = v ∧ t.time = s.time)) ∧
      (∀ v, bit v 31 = false ∨ s.running = false → Completes (.timCmpArm i 2 v) s (fun t => Apart s t ∧ MemSame s t ∧
        RegsBut [o + 8] s t ∧ after (s.reg (o + 8)) v t ∧ t.time = s.time)) ∧
      (∀ v, bit v 31 = true → s.running = true → Completes (.timCmpArm i 2 v) s (fun t => Apart s t ∧ MemSame s t ∧
        t.time = s.time ∧ CmpJudged s t i (s.reg o) (s.rb (o + 8) 0 && !bit v 0) (s.rb (o + 8) 1 && !bit v 1))) ∧
      (∀ v, s.rb (o + 8) 31 = true → s.running = true → Completes (.timCmpArm i 0 v) s (fun t => Apart s t ∧ MemSame s t ∧
        t.time = s.time ∧ CmpJudged s t i v (s.rb (o + 8) 0) (s.rb (o + 8) 1))) ∧
      (∀ dt, (s.advance dt).running = true → s.rb (o + 8) 31 = true → ((s.advance dt).ns - s.reg o).toNat < 2 ^ 31 →
        let u := s.advance dt
        let p := s.cmpPeriod i
        Completes (.timCmpFire i dt) s (fun t => Apart s t ∧ MemSame s t ∧ RegsBut [o, o + 8, 0x200040, 0x400004, 0x200044] s t ∧
          t.time = u.time ∧ t.rb (o + 8) 0 = true ∧ Published s t i ∧
          (p = 0 → t.rb (o + 8) 31 = false ∧ t.reg o = s.reg o ∧ t.rb (o + 8) 1 = s.rb (o + 8) 1) ∧
          (p ≠ 0 → t.rb (o + 8) 31 = true ∧ 1 ≤ t.cmpDist i ∧ t.cmpDist i < 2 ^ 31 ∧
            t.rb (o + 8) 1 = (s.rb (o + 8) 1 || decide (2 ^ 31 ≤ (s.reg o + lo32 p - u.ns).toNat)) ∧
            ∃ m, 1 ≤ m ∧ t.reg o = s.reg o + lo32 (m * p) ∧ ∀ j, 1 ≤ j → j < m →
              ¬ (1 ≤ (s.reg o + lo32 (j * p) - u.ns).toNat ∧ (s.reg o + lo32 (j * p) - u.ns).toNat < 2 ^ 31))))) ∧
    (∀ dt, s.running = true → 2 ^ 64 ≤ s.time.ns.toNat * 2 ^ 32 + s.time.frac.toNat
        + dt * (s.rf 0x400010 0 8 * 2 ^ 32 + (s.reg 0x40000C).toNat) →
      Completes (.timWrap dt) s (fun t => Apart s t ∧ MemSame s t ∧ RegsBut [0x400004, 0x200044] s t ∧ t.rb 0x400004 0 = true ∧
        Published s t 8 ∧ t.time = (s.advance dt).time)) ∧
    (∀ v, bit v 0 = false → Completes (.timRunWrite v) s (fun t => Apart s t ∧ MemSame s t ∧ RegsBut [0x400000] s t ∧
      t.running = false ∧ t.time = s.time)) ∧
    (∀ v, bit v 0 = true → s.running = true → Completes (.timRunWrite v) s (fun t => Apart s t ∧ MemSame s t ∧ RegsBut [] s t ∧
      t.time = s.time ∧ t.cq = s.cq)) ∧
    (∀ v, bit v 0 = true → s.running = false → Completes (.timRunWrite v) s (fun t => Apart s t ∧ MemSame s t ∧ t.running = true ∧
      t.time = s.time ∧
      (∀ i, i < 8 → t.reg (oCmp i + 4) = s.reg (oCmp i + 4) ∧
        (s.rb (oCmp i + 8) 31 = true → CmpShows s t i (s.reg (oCmp i)) (s.rb (oCmp i + 8) 0) (s.rb (oCmp i + 8) 1)) ∧
        (s.rb (oCmp i + 8) 31 = false → t.reg (oCmp i) = s.reg (oCmp i) ∧ t.reg (oCmp i + 8) = s.reg (oCmp i + 8))) ∧
      (∀ k e, k < 8 → s.waiting k 0x09 = some e →
        let d := (lo32 (e.words 2 2) - s.ns).toNat
        let ends := fun (outcome : Nat) => t.queue k = (s.queue k).drop 1 ∧
          (e.status.getLsbD 15 = true → rdLe (t.core k).dmem (2 * (e.status.toNat % 32768)) 2 = 256 * outcome)
        (d = 0 → ends 1) ∧ (2 ^ 31 ≤ d → ends 4) ∧
        (d ≠ 0 → d < 2 ^ 31 → t.core k = s.core k ∧ ∃ e', t.waiting k 0x09 = some e' ∧ e'.block = e.block ∧
          (t.queue k).drop 1 = (s.queue k).drop 1)) ∧
      (∀ k, k < 8 → s.waiting k 0x09 = none → t.queue k = s.queue k ∧ t.core k = s.core k))) ∧
    (∀ src d, (src = 0x80 ∨ src = 0x81 → d = s.capNow src 0) →
        (src ≠ 0x80 → src ≠ 0x81 → s.time.due.find? (fun x => x.src == src) = some d) →
      Completes (.timCapture src) s (fun t => Apart s t ∧ MemSame s t ∧
        t.time.due = (if src = 0x80 ∨ src = 0x81 then s.time.due else s.time.due.erase d) ∧
        ∀ j, j < 16 →
          let o := oCap j
          let takes := s.rf o 0 8 = d.src ∧ (d.src = 0x84 → s.rb o 28 = true → s.rf o 16 12 = d.srcId)
          (takes → s.rb o 31 = false → t.rb o 31 = true ∧ t.reg (o + 4) = d.ns ∧ t.rf (o + 8) 24 8 = d.sub % 256 ∧
            t.rf (o + 8) 0 12 = d.srcId % 4096 ∧ t.rf (o + 12) 0 16 = d.chan % 65536 ∧ t.reg (o + 16) = lo32 d.index ∧
            t.rf (o + 20) 0 16 = d.index / 2 ^ 32 % 65536 ∧ t.reg (o + 24) = lo32 d.sec ∧
            t.rf (o + 28) 0 16 = d.sec / 2 ^ 32 % 65536 ∧ t.rf (o + 32) 0 30 = d.nanos % 2 ^ 30 ∧ t.rf o 8 8 = s.rf o 8 8 ∧
            Published s t 9) ∧
          (takes → s.rb o 31 = true → t.rf o 8 8 = min (s.rf o 8 8 + 1) 255 ∧ t.rb o 31 = true ∧
            ∀ i < 9, 1 ≤ i → t.reg (o + 4 * i) = s.reg (o + 4 * i)) ∧
          (¬ takes → ∀ i < 9, t.reg (o + 4 * i) = s.reg (o + 4 * i))))

/-- With EN set and block lock held, a received frame of 64 to 2,000 bytes with its FCS: with a bad FCS it is only
counted; with a good one and a destination that is neither TIM_PORT_MAC nor a group address it is passed over; else it
is stored at the slot NEXT of control SRAM, after its length and the time of its start-of-frame block, FULL is set,
TIM_PORT published, the frame counted, NEXT advances modulo 16, and an event message adds an RX entry to the timestamp
FIFO, or is counted in LOST where 32 stand there; in Doze, or where FULL was set, it is dropped and counted. A frame
of another length is passed over. GO with BUSY 0 and LEN in range sets BUSY and takes LEN bytes of control SRAM;
without GO, with BUSY or with LEN out of range nothing is sent. When the frame has left, with its FCS after it, BUSY
clears, and an event message sent with TS = 1 adds a TX entry with the time of its start-of-frame block and its TAG,
and publishes TIM_PORT, where the FIFO has room. POP removes the oldest timestamp. That the FCS is the CRC-32 of IEEE
802.3 is the model's reading (log 81), and that a TIM_PORT_TXADDR halfway between multiples of 8 acts as the lower is
its choice within R316 (log 97). [R300, R301, R302, R303, R316] -/
def Obligations.TimePortMovesFrames : Prop :=
  ∀ s : State, s.auxUp = true →
    (let stamps := fun (t : State) (e : Option TsEntry) =>
      t.time.fifo = (if s.time.fifo.length < 32 then s.time.fifo ++ e.toList else s.time.fifo) ∧
      t.rf 0x400830 16 16 = (if e.isSome = true ∧ 32 ≤ s.time.fifo.length then min (s.rf 0x400830 16 16 + 1) 65535
        else s.rf 0x400830 16 16)
     (∀ f fcs lane4, s.rb 0x400800 31 = true → s.laneState .port = 4 →
      let slot := s.rf 0x40080C 16 4
      let mine := (f.headD 0).getLsbD 0 = true ∨ f.take 6 = (leBytes 6 ((s.reg 0x400804).toNat + 2 ^ 32 * s.rf 0x400808 0 16)).reverse
      (60 ≤ f.length → f.length ≤ 1996 → fcs = true → mine → s.dozing = false → s.rb 0x40080C slot = false →
        Completes (.tportFrameRx f fcs lane4) s (fun t => Apart s t ∧
          RegsBut [0x40080C, 0x984040, 0x400830, 0x200044] s t ∧ Counted s t 0x984040 1 ∧ Published s t 10 ∧
          t.hbm = s.hbm ∧ t.host = s.host ∧ t.rb 0x40080C slot = true ∧ (∀ j < 16, j ≠ slot → t.rb 0x40080C j = s.rb 0x40080C j) ∧
          t.rf 0x40080C 16 4 = (slot + 1) % 16 ∧
          stamps t ((ptpEvent f).map (fun e => ⟨false, e.1, e.2.1, e.2.2, (s.sfd lane4).1, (s.sfd lane4).2, slot⟩)) ∧
          (let a := s.rf 0x400800 15 7 * 32768 + 2048 * slot
           rdLe t.csram a 2 = f.length ∧ rdLe t.csram (a + 2) 2 = 0 ∧
           rdLe t.csram (a + 4) 4 = (s.sfd lane4).1.toNat ∧ rdBytes t.csram (a + 8) f.length = f ∧
           ∀ b, b < a ∨ a + 8 + f.length ≤ b → rd8 t.csram b = rd8 s.csram b))) ∧
      (60 ≤ f.length → f.length ≤ 1996 → fcs = true → mine → s.dozing = true ∨ s.rb 0x40080C slot = true →
        Completes (.tportFrameRx f fcs lane4) s (fun t => Apart s t ∧ MemSame s t ∧ RegsBut [0x984048] s t ∧
          Counted s t 0x984048 1 ∧ t.time = s.time)) ∧
      (60 ≤ f.length → f.length ≤ 1996 → fcs = false → Completes (.tportFrameRx f fcs lane4) s (fun t => Apart s t ∧ MemSame s t ∧
        RegsBut [0x984044] s t ∧ Counted s t 0x984044 1 ∧ t.time = s.time)) ∧
      (f.length < 60 ∨ 1996 < f.length ∨ (fcs = true ∧ ¬ mine) → Completes (.tportFrameRx f fcs lane4) s (fun t => t = s))) ∧
     (∀ v, bit v 31 = true → s.rb 0x400810 30 = false → 60 ≤ fld v 0 11 → fld v 0 11 ≤ 1996 → s.err.upsets = [] →
      Completes (.tportTxGo v) s (fun t => Apart s t ∧ MemSame s t ∧ RegsBut [0x400810] s t ∧ t.rb 0x400810 30 = true ∧
        t.time = { s.time with sending := some (⟨rdBytes s.csram (min ((s.rf 0x400814 0 22 + 3) / 8 * 8) 0x3FFFF8) (fld v 0 11), bit v 29, fld v 16 12⟩ : TxPort) })) ∧
     (∀ v, bit v 31 = false ∨ s.rb 0x400810 30 = true ∨ fld v 0 11 < 60 ∨ 1996 < fld v 0 11 →
      Completes (.tportTxGo v) s (fun t => Apart s t ∧ MemSame s t ∧ RegsBut [0x400810] s t ∧
        t.rb 0x400810 30 = s.rb 0x400810 30 ∧ t.time = s.time)) ∧
     (∀ start dt lane4 x, s.time.sending = some x → Completes (.tportTxDone ⟨start, dt⟩ lane4) s (fun t => Apart s t ∧ MemSame s t ∧
      RegsBut [0x400810, 0x400830, 0x400004, 0x200044] s t ∧ t.rb 0x400810 30 = false ∧ t.time.sending = none ∧
      t.time.sent = s.time.sent ++ [x.frame ++ etherFcs x.frame] ∧ t.time.ticks = s.time.ticks + start + dt ∧
      stamps t (if x.ts then (ptpEvent x.frame).map (fun e => ⟨true, e.1, e.2.1, e.2.2, ((s.advance start).sfd lane4).1,
        ((s.advance start).sfd lane4).2, x.tag⟩) else none) ∧
      (x.ts = true → (ptpEvent x.frame).isSome = true → s.time.fifo.length < 32 → Published s t 10)))) ∧
    (∀ v, Completes (.timTsPop v) s (fun t => Apart s t ∧ MemSame s t ∧ RegsBut [] s t ∧
      t.time.fifo = if bit v 0 then s.time.fifo.drop 1 else s.time.fifo))

/-- An input that loses activity is DISQUALIFIED unless OFF. The end of a gate (1 s, 16 s for a PPS input) stores MEAS and
disqualifies an input outside the window; within it a DISQUALIFIED one becomes QUALIFIED if it has not been so since
PORST_N or REF_WTR is 0, and else WAITs from that instant; a WAITing or QUALIFIED one stays so. When the wait is over
the input is QUALIFIED. Every change publishes REF_QUAL and leaves other inputs alone. The selection rule, due at a
change of qualification or the end of a second: with no candidate a loop in FREERUN or HOLDOVER stays there, and any
other enters HOLDOVER; with no active candidate, or with REVERT and a best candidate of lower rank while no switch is
under way, it enters SWITCHING to the best candidate; otherwise the active input is kept. The best candidate has the
lowest rank; the active input comes before others of that rank, and without it there the lowest number where they
agree pairwise or in FREERUN, else the one whose MEAS is nearest to y. Two candidates of one rank that disagree set
DISAGREE, and publish REF_DISAGREE when that begins. The end of a switch to an input still QUALIFIED writes the step,
wrapped and clamped, publishes REF_STEP, counts it for each kiln that is open, firing or ending, and enters LOCKING;
after 10 tau in bounds the loop is LOCKED. Each second in FREERUN and HOLDOVER the temperature is read and y kept
within 100,000 ppb. [R304, R305, R306, R307, R308, R309, R311, R312] -/
def Obligations.ReferenceInputsAndLoop : Prop :=
  (∀ (s : State) (n : Nat), s.aux = true → n < 5 →
    let o := 0x500100 + 16 * n
    let moved := fun (t : State) (q : Nat) => t.qstate n = q ∧ (q ≠ s.qstate n → Published s t 11 ∧ t.ref.selDue = true) ∧
      (∀ m, m ≠ n → m < 5 → t.qstate m = s.qstate m)
    Completes (.refActivityLost n) s (fun t => Apart s t ∧ MemSame s t ∧ RegsBut [o, 0x200044] s t ∧ t.time = s.time ∧
      moved t (if s.qstate n = 0 then 0 else 1)) ∧
    (∀ dt (meas : Int), s.qstate n ≠ 0 → s.canBeActive n = true →
      tget 0 s.ref.gateFrom n + (if n = 2 ∨ n = 3 then 16 * 625000000 else 625000000) ≤ s.time.ticks + dt →
      let m := max (-2147483648) (min 2147483647 meas)
      Completes (.refGateEnd n dt meas) s (fun t => Apart s t ∧ MemSame s t ∧ RegsBut [o, o + 4, 0x400004, 0x200044] s t ∧
        t.refMeas n = m ∧ t.time = (s.advance dt).time ∧ tget 0 t.ref.gateFrom n = s.time.ticks + dt ∧
        (256 * (s.reg 0x500014).toNat < m.natAbs → moved t 1) ∧
        (m.natAbs ≤ 256 * (s.reg 0x500014).toNat →
          (s.qstate n = 1 → s.ref.everQual.contains n = false ∨ s.reg 0x500010 = 0 → moved t 3 ∧ t.ref.everQual.contains n = true) ∧
          (s.qstate n = 1 → s.ref.everQual.contains n = true → s.reg 0x500010 ≠ 0 →
            moved t 2 ∧ tget 0 t.ref.wtrFrom n = s.time.ticks + dt) ∧
          (s.qstate n ≠ 1 → moved t (s.qstate n))))) ∧
    (∀ dt, s.qstate n = 2 → tget 0 s.ref.wtrFrom n + min 3600 (s.reg 0x500010).toNat * 625000000 ≤ s.time.ticks + dt →
      Completes (.refWtrExpiry n dt) s (fun t => Apart s t ∧ MemSame s t ∧ RegsBut [o, 0x400004, 0x200044] s t ∧ moved t 3 ∧
        t.ref.everQual.contains n = true))) ∧
  (∀ s : State, (s.bestCand = none ↔ ∀ n < 5, s.isCand n = false) ∧
    ∀ n, s.bestCand = some n → n < 5 ∧ s.isCand n = true ∧ (∀ m < 5, s.isCand m = true → s.refRank n ≤ s.refRank m) ∧
      (s.refActive < 5 → s.isCand s.refActive = true → s.refRank s.refActive = s.refRank n → n = s.refActive) ∧
      (let best := fun (m : Nat) => m < 5 ∧ s.isCand m = true ∧ s.refRank m = s.refRank n
       let apart := fun (a b : Nat) => 256 * (s.reg 0x500018).toNat < (s.refMeas a - s.refMeas b).natAbs
       ¬ best s.refActive →
        (s.refState = 0 ∨ (∀ a b, best a → best b → ¬ apart a b) → ∀ m, best m → n ≤ m) ∧
        (s.refState ≠ 0 → (∃ a b, best a ∧ best b ∧ apart a b) → ∀ m, best m →
          (s.refMeas n - s.ref.y).natAbs ≤ (s.refMeas m - s.ref.y).natAbs ∧
          ((s.refMeas n - s.ref.y).natAbs = (s.refMeas m - s.ref.y).natAbs → n ≤ m)))) ∧
  (∀ s : State, s.aux = true →
    (∀ dt a b, s.ref.selDue = true ∨ s.ref.selNext ≤ s.time.ticks + dt → a < 5 → b < 5 → s.isCand a = true → s.isCand b = true →
      s.refRank a = s.refRank b → 256 * (s.reg 0x500018).toNat < (s.refMeas a - s.refMeas b).natAbs →
      Completes (.refSelect dt) s (fun t => t.rb 0x500004 24 = true ∧ (s.ref.disagree = false → Published s t 15))) ∧
    (∀ dt, s.ref.selDue = true ∨ s.ref.selNext ≤ s.time.ticks + dt →
      let enters := fun (t : State) (st act : Nat) (c : Option Nat) => Apart s t ∧ MemSame s t ∧ t.refState = st ∧ t.refActive = act ∧
        t.ref.selDue = false ∧ (∀ i ∈ c, Published s t i) ∧ (∀ m < 5, t.qstate m = s.qstate m)
      (s.bestCand = none → s.refState = 0 ∨ s.refState = 4 → Completes (.refSelect dt) s (fun t => enters t s.refState s.refActive none)) ∧
      (s.bestCand = none → s.refState ≠ 0 → s.refState ≠ 4 → Completes (.refSelect dt) s (fun t => enters t 4 7 (some 13))) ∧
      (∀ n, s.bestCand = some n → s.refActive = 7 ∨ s.isCand s.refActive = false ∨
          (s.rb 0x500000 31 = true ∧ s.refState ≠ 1 ∧ s.refRank n < s.refRank s.refActive) →
        Completes (.refSelect dt) s (fun t => enters t 1 n (some 12))) ∧
      (∀ n, s.bestCand = some n → s.refActive ≠ 7 → s.isCand s.refActive = true →
          s.rb 0x500000 31 = false ∨ s.refState = 1 ∨ s.refRank s.refActive ≤ s.refRank n →
        Completes (.refSelect dt) s (fun t => enters t s.refState s.refActive none))) ∧
    (∀ dt (ps : Int), s.refState = 1 → s.qstate s.refActive = 3 →
      let h : Int := if isPps s.refActive = true ∨ s.ref.old.elim false isPps = true then 500000000000 else 400000
      Completes (.refSwitchDone dt ps) s (fun t => Apart s t ∧ MemSame s t ∧ t.refState = 2 ∧ t.refActive = s.refActive ∧
        Published s t 14 ∧ ∃ w : Int, -h < w ∧ w ≤ h ∧ (ps - w) % (2 * h) = 0 ∧
          (let c : Int := max (-2147483647) (min 2147483647 w)
           (t.reg 0x50000C).toInt = c ∧ t.rb 0x500004 25 = (s.rb 0x500004 25 || decide (c ≠ w)) ∧
           ∀ k < 16, t.kiln k = if 2 ≤ (s.kiln k).state then
             { s.kiln k with steps := (s.kiln k).steps + 1, stepPs := (s.kiln k).stepPs + c } else s.kiln k))) ∧
    (∀ dt, s.refState = 2 → s.qstate s.refActive = 3 →
      s.ref.since + tenTau (if isPps s.refActive then min (s.rf 0x500000 0 3) 1 else s.rf 0x500000 0 3) ≤ s.time.ticks + dt →
      Completes (.refLocked dt) s (fun t => Apart s t ∧ MemSame s t ∧ RegsBut [0x500004, 0x400004, 0x200044] s t ∧ t.refState = 3 ∧
        t.refActive = s.refActive)) ∧
    (∀ dt temp, s.refState = 0 ∨ s.refState = 4 → s.ref.holdNext ≤ s.time.ticks + dt →
      Completes (.refHoldoverUpdate dt temp) s (fun t => Apart s t ∧ MemSame s t ∧ RegsBut [0x50002C, 0x400004, 0x200044] s t ∧
        t.rf 0x50002C 0 16 = (if s.rb 0x500000 30 then s.rf 0x50002C 16 16 else temp.toNat) ∧
        -25600000 ≤ t.ref.y ∧ t.ref.y ≤ 25600000 ∧ t.refState = s.refState ∧ t.ref.holdNext = s.time.ticks + dt + 625000000)))

/-- Each 625,000,000 ticks REF_AGE_S adds 1 modulo 2^32, and outside FREERUN and HOLDOVER the temperature is read (from
TEMP_SW with TEMPSRC = 1); a pulse of PPSOUT begins at its tick, with SYNCOUT at every SYNC_N-th, and sets the next
one 625,000,000 ticks after its due tick; REALIGN begins an alignment, whose instant (the edge within 1.1 s, or with
no PPS source the first tick after the write) restarts the PPSOUT and CLKOUT dividers with SYNCOUT at the first pulse;
one that finds no edge within 1.1 s is abandoned with RAFAIL set and the dividers kept. (That the first pulse comes
625,000,000 ticks after the alignment is the model's choice of log 58: R314 says only that the divider restarts.)
[R312, R313, R314] -/
def Obligations.ReferenceOutputs : Prop :=
  ∀ s : State, s.aux = true →
    (∀ dt temp, s.ref.ageNext ≤ s.time.ticks + dt → Completes (.refAgeTick ⟨dt, temp⟩) s (fun t => Apart s t ∧ MemSame s t ∧
      RegsBut [0x500040, 0x50002C, 0x400004, 0x200044] s t ∧
      t.reg 0x500040 = s.reg 0x500040 + 1 ∧ t.ref.ageNext = s.ref.ageNext + 625000000 ∧
      t.rf 0x50002C 0 16 = (if s.refState = 0 ∨ s.refState = 4 then s.rf 0x50002C 0 16
        else if s.rb 0x500000 30 then s.rf 0x50002C 16 16 else temp.toNat))) ∧
    (∀ dt, s.ref.ppsNext ≤ s.time.ticks + dt → Completes (.ppsoutPulse dt) s (fun t => Apart s t ∧ MemSame s t ∧
      RegsBut [0x400004, 0x200044] s t ∧
      t.ref.ppsNext = s.ref.ppsNext + 625000000 ∧ t.ref.ppsCount = s.ref.ppsCount + 1 ∧ t.ppsOut = true ∧
      (s.ref.ppsCount % max 1 (s.rf 0x500020 16 16) = 0 → t.syncOut = true) ∧
      (s.ref.ppsCount % max 1 (s.rf 0x500020 16 16) ≠ 0 → t.ref.syncAt = s.ref.syncAt))) ∧
    (∀ v, bit v 31 = true → Completes (.refRealign v) s (fun t => Apart s t ∧ MemSame s t ∧ RegsBut [] s t ∧
      t.ref = { s.ref with realign := some s.time.ticks } ∧ t.time = s.time)) ∧
    (∀ dt t0, s.ref.realign = some t0 →
      let no := 2 ≤ s.rf 0x500020 4 2
      (no → t0 < s.time.ticks + dt) → (¬ no → s.time.ticks + dt ≤ t0 + 687500000) →
      let x := if no then t0 + 1 else s.time.ticks + dt
      Completes (.refRealignAlign dt) s (fun t => Apart s t ∧ MemSame s t ∧ RegsBut [0x400004, 0x200044] s t ∧
        t.ref = { s.ref with realign := none, ppsNext := x + 625000000, ppsCount := 0, clkFrom := x })) ∧
    (∀ dt t0, s.ref.realign = some t0 → s.rf 0x500020 4 2 < 2 → t0 + 687500000 ≤ s.time.ticks + dt →
      Completes (.refRealignTimeout dt) s (fun t => Apart s t ∧ MemSame s t ∧ RegsBut [0x500004, 0x400004, 0x200044] s t ∧
        t.ref = { s.ref with realign := none } ∧ t.rb 0x500004 23 = true))

/-- An event below hop count 7 that is delivered sets its flag and adds 1 to its counter modulo 2^16; each subscribed
input of a kiln admits it (PEND one more, COLL set where one was pending) or, at PEND = 3, counts it in LOST; a
Keeper's subscribed input sets its bit of ip while its island runs, and is held otherwise; a group's inputs set and
clear its bit; an input not subscribed keeps its events; without a subscription, a WAITB on its channel leaves its
queue, a DMA channel that WAITs for it goes on to its next instruction, and a capture that watches the channel has an
instant to take up. One whose hop count is 7 only sets its BCN_LOOP bit. A write of BCN_PUB publishes on the user
channels named, where their group is enabled, and each is counted in BCN_GRP_DROP where it is not. A write of a task
input takes effect unless a channel it names is locked, and EN = 0 discards its pending events. An event taken by a
kiln's FIRE input faults as AUTO with AUTO set, and as STATE where the kiln neither integrates nor is open, its cause
recorded; on a kiln with fewer than 4 boundaries it sets the least safe one, whose events carry its hop count plus 1.
[R298, R317, R319, R320, R321, R322, R323, R324, R325, R326, R328, R329] -/
def Obligations.BeaconsReachTheirWatchers : Prop :=
  ∀ s : State, s.auxUp = true →
    (∀ i c h, s.bcn.flight[i]? = some (c, h) → c < 128 → h < 7 →
      Completes (.beaconDelivery i) s (fun t => Apart s t ∧ t.rb (0x200000 + 4 * (c / 32)) (c % 32) = true ∧
        t.reg (0x200100 + 4 * c) = lo32 (((s.reg (0x200100 + 4 * c)).toNat + 1) % 65536) ∧
        ((∀ e ∈ s.link.chans, e.2.wait ≠ some c) → t.bcn.flight = s.bcn.flight.eraseIdx i) ∧
        (∀ k e, k < 8 → s.waiting k 0x0A = some e → t.queue k = if e.word 2 = c then (s.queue k).drop 1 else s.queue k) ∧
        (∀ y < 64, s.link.chans.filter (fun e => e.1 == y) = [(y, s.chan y)] → (s.chan y).wait = some c →
          (t.chan y).wait = none ∧ t.dState y = 1 ∧
          (t.reg (0x100005C + 0x1000 * y)).toNat = ((s.reg (0x100005C + 0x1000 * y)).toNat + 32) % 2 ^ 22) ∧
        t.time.due = (if ∃ j < 16, s.rf (oCap j) 0 8 = c then s.time.due ++ [s.capNow c h] else s.time.due) ∧
        (∀ n < 112, s.subscribed n c = false → t.pend n = s.pend n ∧ t.reg (0x200600 + 4 * n) = s.reg (0x200600 + 4 * n)) ∧
        (∀ n, 64 ≤ n → n < 80 → s.subscribed n c = true →
          ((s.pend n).length < 3 → t.pend n = s.pend n ++ [h] ∧
            t.rb (0x200600 + 4 * n) 31 = (s.rb (0x200600 + 4 * n) 31 || !(s.pend n).isEmpty)) ∧
          (3 ≤ (s.pend n).length → t.pend n = s.pend n ∧
            t.rf (0x200600 + 4 * n) 0 16 = min (s.rf (0x200600 + 4 * n) 0 16 + 1) 65535)) ∧
        (∀ n < 64, s.subscribed n c = true →
          (s.up = true → t.pend n = [] ∧ (t.core (n / 8)).ip.getLsbD (n % 8) = true) ∧
          (s.up = false → (s.pend n).length < 3 → t.pend n = s.pend n ++ [h])) ∧
        (∀ g < 16, (s.subscribed (96 + g) c = true → t.rb 0x200030 g = false) ∧
          (s.subscribed (80 + g) c = true → s.subscribed (96 + g) c = false → t.rb 0x200030 g = true)))) ∧
    (∀ i c h, s.bcn.flight[i]? = some (c, h) → c < 128 → 7 ≤ h → Completes (.beaconDelivery i) s (fun t => Apart s t ∧
      MemSame s t ∧ RegsBut [0x200010 + 4 * (c / 32)] s t ∧ t.rb (0x200010 + 4 * (c / 32)) (c % 32) = true ∧
      t.bcn = { s.bcn with flight := s.bcn.flight.eraseIdx i })) ∧
    (s.hostUp = true → ∀ v : W32,
      let on := (List.range 8).filter (fun i => v.getLsbD i)
      (s.rb 0x200030 15 = true → Completes (.bcnPub v) s (fun t => Apart s t ∧ MemSame s t ∧
        RegsBut [] s t ∧ t.bcn = { s.bcn with flight := s.bcn.flight ++ on.map (fun i => (120 + i, 0)) })) ∧
      (s.rb 0x200030 15 = false → Completes (.bcnPub v) s (fun t => Apart s t ∧ MemSame s t ∧
        RegsBut [0x20007C] s t ∧ t.bcn = s.bcn ∧ Counted s t 0x20007C on.length))) ∧
    (s.hostUp = true → ∀ n v, n < 112 →
      (s.locked (s.rf (0x200400 + 4 * n) 16 7) = true ∨ s.locked (fld v 16 7) = true →
        Completes (.bcnTaskWrite n v) s (fun t => t = s)) ∧
      (s.locked (s.rf (0x200400 + 4 * n) 16 7) = false → s.locked (fld v 16 7) = false →
        Completes (.bcnTaskWrite n v) s (fun t => Apart s t ∧ MemSame s t ∧ RegsBut [0x200400 + 4 * n] s t ∧
          t.reg (0x200400 + 4 * n) = v &&& 0xC07FFFFF#32 ∧ t.pend n = (if bit v 31 then s.pend n else []) ∧
          ∀ m, m ≠ n → t.pend m = s.pend m))) ∧
    (∀ k h rest, s.up = true → k < 16 → s.role ≤ 1 → (s.kiln k).task = none → s.pend (64 + k) = h :: rest →
      let v := s.kiln k
      let fails := fun (c : Nat) => Completes (.klnFireTask k) s (fun t => Apart s t ∧ MemSame s t ∧ t.pend (64 + k) = rest ∧
        t.rf (0x200600 + 4 * (64 + k)) 16 8 = c ∧ RegsBut [0x200600 + 4 * (64 + k)] s t ∧ ∀ j < 16, t.kiln j = s.kiln j)
      (v.state ≠ 2 ∧ v.state ≠ 3 ∨ v.endAt ≠ none → fails 2) ∧
      (v.state = 2 ∨ v.state = 3 → v.endAt = none → s.auto k = true → fails 7) ∧
      (∀ b, v.state = 2 ∨ v.state = 3 → v.endAt = none → s.auto k = false → v.pend.length < 4 → 0 < s.kilnG k →
        s.lastReleased (s.kilnChans k) = some b →
        let low := max (128 * (b + 1 + s.rf (0x200400 + 4 * (64 + k)) 0 16)) (v.busyTo + 1)
        Completes (.klnFireTask k) s (fun t => Apart s t ∧ MemSame s t ∧ RegsBut [] s t ∧ t.pend (64 + k) = rest ∧
          (∀ j, j ≠ k → t.kiln j = s.kiln j) ∧ ∃ x, x % s.kilnG k = 0 ∧ low ≤ x ∧ x < low + s.kilnG k ∧
            t.kiln k = { v with pend := v.pend ++ [(x, none)], hops := (t.kiln k).hops } ∧ tget 0 (t.kiln k).hops x = h + 1)))

/-- A write of LN_CTL sets EN as written, and CFG_ERR where RATE is then the reserved 3; with EN = 0, or EN newly 1, or
POL, RATE or MODE changed, the lane is DOWN, its times counted anew, and else it keeps its state, but that ALIGN and
HOLD set together lock a framed lane in SIGNAL. A write of LN_CTLE sets the code, 36 at most. 10 µs of EN and a signal
take a receiver from DOWN to SIGNAL, and 10 µs of EN a TX lane to UP; 64 valid sync headers in a row bring block lock
(BLOCK_LOCK; on the time port UP), and an invalid one while hunting slips by one bit; 16 invalid ones of 64 lose block
lock, but in SLIP mode none does, and each is counted; 1 µs without a signal leaves the receiver DOWN and PRBS_LOCK
clear. Leaving UP sets LEFT_UP, and publishes LANE_LOST on an RX lane. (That any change of the field's code is a
change of MODE, one between the codes 0 to 3 too, which all act as 0 by R390, is the model's choice of log 94.) [R52,
R54, R56, R59, R60, R65, R390] -/
def Obligations.LaneControlAndStates : Prop :=
  ∀ (s : State) (l : LaneId), s.laneOn l = true →
    let b := laneBase l
    let own := [b, b + 4, 0x200044, 0x200048, 0x500140, 0x4C + b, 0x600108] ++ (match l with
      | .tx n => [0xD08104 + 8 * n]
      | _ => [])
    let left := fun (t : State) => s.laneState l = 4 → t.laneState l ≠ 4 →
      t.rb (b + 4) 0 = true ∧ ∀ n, l = .rx n → Published s t 16
    (∀ v, Completes (.lnCtlWrite l v) s (fun t => Apart s t ∧ MemSame s t ∧ RegsBut own s t ∧ left t ∧
      t.lnEn l = bit v 31 ∧ t.rb (b + 4) 28 = decide (t.lnRate l = 3) ∧
      (let restarts := bit v 31 = false ∨ s.lnEn l = false ∨ fld (t.reg b) 24 5 ≠ fld (s.reg b) 24 5
       let locks := t.lnAlign l = true ∧ t.lnBit l 29 = true ∧ t.lnMode l = 0 ∧ s.laneState l = 1 ∧ isTxLane l = false
       (restarts → t.laneState l = 0 ∧ (t.lane l).since = s.time.ticks) ∧
       (¬ restarts → locks → t.laneState l = if l = .port then 4 else 2) ∧
       (¬ restarts → ¬ locks → t.laneState l = s.laneState l)))) ∧
    (∀ dt n, l = .tx n → s.lnEn l = true → s.lnRate l ≠ 3 → s.laneState l = 0 →
      (s.lane l).since + 6250 ≤ s.time.ticks + dt →
      Completes (.txLaneUp n dt) s (fun t => Apart s t ∧ MemSame s t ∧ RegsBut [b + 4] (s.advance dt) t ∧
        t.laneState l = 4)) ∧
    (isTxLane l = false →
      (∀ v, Completes (.lnCtleWrite l v) s (fun t => Apart s t ∧ MemSame s t ∧ RegsBut [b + 8] s t ∧
        (t.reg (b + 8)).toNat = min 36 (fld v 0 6))) ∧
      (∀ dt, s.lnEn l = true → s.lnRate l ≠ 3 → s.laneState l = 0 → (s.lane l).since + 6250 ≤ s.time.ticks + dt →
        Completes (.laneSignalDetect l dt) s (fun t => Apart s t ∧ MemSame s t ∧ RegsBut [b + 4] (s.advance dt) t ∧
          t.laneState l = 1)) ∧
      (∀ dt, s.laneState l ≠ 0 → 625 ≤ dt → Completes (.laneLossOfSignal l dt) s (fun t => Apart s t ∧ MemSame s t ∧
        RegsBut (0x400004 :: own) s t ∧ t.laneState l = 0 ∧ t.rb (b + 4) 27 = false ∧ left t)) ∧
      (∀ hdrs : List (BitVec 2), s.laneState l = 1 → s.lnAlign l = false → s.lnMode l = 0 → (s.lane l).run < 64 →
        hdrs.length = 64 - (s.lane l).run → (∀ h ∈ hdrs, h = 0b01#2 ∨ h = 0b10#2) →
        Completes (.laneBlockLock l hdrs) s (fun t => Apart s t ∧ MemSame s t ∧
          RegsBut [b + 4, b + 16] s t ∧ t.laneState l = (if l = .port then 4 else 2) ∧
          (t.lane l).pos = (s.lane l).pos)) ∧
      (∀ h : BitVec 2, s.laneState l = 1 → s.lnAlign l = false → s.lnMode l = 0 → h ≠ 0b01#2 → h ≠ 0b10#2 →
        Completes (.laneBlockLock l [h]) s (fun t => Apart s t ∧ MemSame s t ∧ RegsBut [b + 16] s t ∧ t.laneState l = 1 ∧
          (t.lane l).run = 0 ∧ (t.lane l).pos = ((s.lane l).pos + 1) % 66)) ∧
      (2 ≤ s.laneState l → s.lnAlign l = false → ∀ hdrs : List (BitVec 2), hdrs.length = 16 →
        (∀ h ∈ hdrs, h ≠ 0b01#2 ∧ h ≠ 0b10#2) →
        Completes (.laneBlockLockLost l hdrs) s (fun t => Apart s t ∧ MemSame s t ∧ t.laneState l = 1 ∧ left t ∧
          s.reg (b + 0x54) ≤ t.reg (b + 0x54))) ∧
      (2 ≤ s.laneState l → s.lnAlign l = true → ∀ hdrs : List (BitVec 2),
        Completes (.laneBlockLockLost l hdrs) s (fun t => Apart s t ∧ MemSame s t ∧ 2 ≤ t.laneState l ∧
          Counted s t (b + 0x54) (hdrs.filter (fun h => h ≠ 0b01#2 ∧ h ≠ 0b10#2)).length)))

/-- With ALIGN = 1 a write of SLIP = 1 shifts the deserialiser by one bit, clears HOLD, makes the count of headers stale,
and returns a lane past SIGNAL to SIGNAL; with ALIGN = 0 or SLIP = 0 the write changes nothing. START with BUSY 0 sets
BUSY and begins the measurement; without START, or while BUSY, a write begins none; once the dwell is over BUSY clears
and the count of mismatches, saturating, is shown. (The dwell is of DWELL and RATE as they stand at the end, so that a
write of them while BUSY acts on the measurement under way, and a measurement on a lane that is DOWN runs as on any:
the model's choices of log 94.) In a PRBS mode 64 error-free bits in a row set PRBS_LOCK, an errored bit before then
begins the row anew, and from then on each errored bit is counted. [R58, R59, R65] -/
def Obligations.SlipEyeAndPrbs : Prop :=
  ∀ (s : State) (l : LaneId), s.laneOn l = true → isTxLane l = false →
    let b := laneBase l
    (∀ v, bit v 0 = true → s.lnAlign l = true → Completes (.lnSlip l v) s (fun t => Apart s t ∧ MemSame s t ∧
      RegsBut [b, b + 4, b + 16, 0x4C + b, 0x600108, 0x200048] s t ∧
      t.lnBit l 29 = false ∧ (t.lane l).pos = ((s.lane l).pos + 1) % 66 ∧ t.rb (b + 16) 31 = true ∧
      t.laneState l = (if 2 ≤ s.laneState l then 1 else s.laneState l))) ∧
    (∀ v, s.lnAlign l = false ∨ bit v 0 = false → Completes (.lnSlip l v) s (fun t => t = s)) ∧
    (∀ v, bit v 31 = true → s.rb (b + 32) 30 = false → Completes (.eyeStart l v) s (fun t => Apart s t ∧
      MemSame s t ∧ RegsBut [b + 32] s t ∧ t.rb (b + 32) 30 = true ∧
      t.rf (b + 32) 24 4 = fld v 24 4 ∧ (t.lane l).eye = some s.time.ticks)) ∧
    (∀ v, bit v 31 = false ∨ s.rb (b + 32) 30 = true → Completes (.eyeStart l v) s (fun t => Apart s t ∧
      MemSame s t ∧ RegsBut [b + 32] s t ∧ t.rb (b + 32) 30 = s.rb (b + 32) 30 ∧ t.lanes = s.lanes)) ∧
    (∀ t0 dt mism, (s.lane l).eye = some t0 →
      t0 + bitTicks l (s.lnRate l) (2 ^ (24 + s.rf (b + 32) 24 4)) ≤ s.time.ticks + dt →
      Completes (.eyeMeasureDone l dt mism) s (fun t => Apart s t ∧ MemSame s t ∧
        RegsBut [b + 32, b + 36] (s.advance dt) t ∧ t.rb (b + 32) 30 = false ∧
        (t.reg (b + 36)).toNat = min mism 0xFFFFFFFF ∧ (t.lane l).eye = none)) ∧
    (s.lnMode l ≠ 0 → s.laneState l = 1 →
      (s.rb (b + 4) 27 = false → (s.lane l).prbsRun < 64 →
        Completes (.prbsLock l (List.replicate (64 - (s.lane l).prbsRun) false)) s (fun t => Apart s t ∧ MemSame s t ∧
          RegsBut [b + 4] s t ∧ t.rb (b + 4) 27 = true ∧ t.laneState l = 1) ∧
        Completes (.prbsLock l [true]) s (fun t => Apart s t ∧ MemSame s t ∧ RegsBut [] s t ∧ (t.lane l).prbsRun = 0)) ∧
      (∀ errs : List Bool, s.rb (b + 4) 27 = true → Completes (.prbsLock l errs) s (fun t => Apart s t ∧ MemSame s t ∧
        RegsBut [b + 0x50] s t ∧ Counted s t (b + 0x50) (errs.filter id).length)))

/-- On a lane with block lock and no frame in progress: on an RX lane under entry 0, the blocks of a frame whose header
gives the length of its payload and whose trailer holds its CRC-32C bring the lane UP (from BLOCK_LOCK or FRAME_LOCK
on) and, with wedging on, put the frame, its fields as R66 places them, in the lane FIFO, counted as FRAMES_OK; with
the FIFO full it is dropped as OVERFLOW; of an unknown type or another format it is counted as TYPE or FORMAT; with
another CRC-32C it is dropped and counted as CRC, the FIFO unchanged, and the lane falls to BLOCK_LOCK, from UP only
at the fourth in a row. With wedging off nothing is counted and the FIFO is unchanged. On a Waoth lane a frame with
its CRC-32C brings the lane UP, and one without brings it no further and, with PR_CTL.EN set, counts in PR_CNT 2 (with
EN clear R341 ignores the lane, as log 33 reads it). The time port takes sync headers alone from the blocks. [R60,
R62, R63, R64, R66, R67, R71, R80, R85, R341, R344] -/
def Obligations.FramesAreRecoveredFromBlocks : Prop :=
  (∀ (s : State) (n : Nat) (hdr pay : List Byte) (crc a b c : Nat),
    s.laneOn (.rx n) = true → 2 ≤ s.laneState (.rx n) → s.laneState (.rx n) ≤ 4 → s.lnFmt (.rx n) = 0 →
    (s.lane (.rx n)).frm = none →
    hdr.length = 32 → pay.length = field hdr 16 2 → pay.length % 8 = 0 → pay.length ≤ 3072 → crc < 2 ^ 32 →
    let o := laneBase (.rx n)
    let ty := field hdr 0 2 / 4096
    let lamp : Block := ⟨0b10#2, [0xD2#8, 0x5A#8, 0xC3#8, 0x96#8, 0x0F#8, 0xE1#8, 0x78#8, 0x2D#8]⟩
    let data : List Block := (List.range (4 + pay.length / 8)).map (fun i => ⟨0b01#2, ((hdr ++ pay).drop (8 * i)).take 8⟩)
    let tail : Block := ⟨0b10#2, [0xE1#8, BitVec.ofNat 8 a, BitVec.ofNat 8 b, BitVec.ofNat 8 c] ++ leBytes 4 crc⟩
    Completes (.rxFrameReceived (.rx n) ([lamp] ++ data ++ [tail])) s (fun t => Apart s t ∧ MemSame s t ∧
      RegsBut [o + 4, o + 16, o + 0x40, o + 0x44, o + 0x48, 0xA00104, 0xA00108, 0x200048] s t ∧
      (crc = (crc32c (hdr ++ pay)).toNat → t.laneState (.rx n) = 4 ∧
        (s.rb 0xA00000 0 = true →
          ((s.lane (.rx n)).fifo.length < 8 → Counted s t (o + 0x40) 1 ∧
            (ty ∈ [1, 2, 3] → field hdr 2 1 % 8 = 0 → ∃ f, (t.lane (.rx n)).fifo = (s.lane (.rx n)).fifo ++ [f] ∧
              f.ty = ty ∧ f.src = field hdr 0 2 % 4096 ∧ f.chan = field hdr 4 2 ∧
              f.base = field hdr 6 2 % 4096 ∧ f.index = field hdr 8 6 ∧ f.valid = field hdr 14 2 ∧ f.len = pay.length ∧
              f.payload = pay ∧ f.crc.toNat = crc) ∧
            (ty ∉ [1, 2, 3] → (t.lane (.rx n)).fifo = (s.lane (.rx n)).fifo ∧ Counted s t 0xA00104 1) ∧
            (ty ∈ [1, 2, 3] → field hdr 2 1 % 8 ≠ 0 → (t.lane (.rx n)).fifo = (s.lane (.rx n)).fifo ∧ Counted s t 0xA00108 1)) ∧
          (8 ≤ (s.lane (.rx n)).fifo.length → (t.lane (.rx n)).fifo = (s.lane (.rx n)).fifo ∧ Counted s t (o + 0x48) 1))) ∧
      (crc ≠ (crc32c (hdr ++ pay)).toNat → (t.lane (.rx n)).fifo = (s.lane (.rx n)).fifo ∧
        (s.rb 0xA00000 0 = true → Counted s t (o + 0x44) 1) ∧
        t.laneState (.rx n) = (if s.laneState (.rx n) = 4 ∧ (s.lane (.rx n)).fails < 3 then 4 else 2)) ∧
      (s.rb 0xA00000 0 = false → (t.lane (.rx n)).fifo = (s.lane (.rx n)).fifo ∧ RegsBut [o + 4, o + 16, 0x200048] s t))) ∧
  (∀ (s : State) (n : Nat) (hdr pay : List Byte) (crc : Nat),
    s.laneOn (.w n) = true → 2 ≤ s.laneState (.w n) → s.laneState (.w n) ≤ 4 → (s.lane (.w n)).frm = none →
    hdr.length = 8 → pay.length = field hdr 2 2 → pay.length % 8 = 0 → pay.length ≤ 4096 → crc < 2 ^ 32 →
    let lamp : Block := ⟨0b10#2, [0xD2#8, 0x5A#8, 0xC3#8, 0x96#8, 0x0F#8, 0xE1#8, 0x78#8, 0x2D#8]⟩
    let data : List Block := (List.range (1 + pay.length / 8)).map (fun i => ⟨0b01#2, ((hdr ++ pay).drop (8 * i)).take 8⟩)
    let tail : Block := ⟨0b10#2, [0xE1#8, 0#8, 0#8, 0#8] ++ leBytes 4 crc⟩
    Completes (.rxFrameReceived (.w n) ([lamp] ++ data ++ [tail])) s (fun t => Apart s t ∧ MemSame s t ∧
      (crc = (crc32c (hdr ++ pay)).toNat → t.laneState (.w n) = 4 ∧ t.reg 0x600108 = s.reg 0x600108) ∧
      (crc ≠ (crc32c (hdr ++ pay)).toNat → (s.rb 0x600000 31 = true → Counted s t 0x600108 1) ∧
        (s.rb 0x600000 31 = false → t.reg 0x600108 = s.reg 0x600108) ∧
        t.laneState (.w n) = (if s.laneState (.w n) = 4 ∧ (s.lane (.w n)).fails < 3 then 4 else 2)))) ∧
  (∀ (s : State) (blocks : List Block), s.laneOn .port = true → (∀ b ∈ blocks, syncOk b.sync = true) →
    s.laneState .port = 4 →
    Completes (.rxFrameReceived .port blocks) s (fun t => Apart s t ∧ MemSame s t ∧ RegsBut [0x984010] s t ∧ t.laneState .port = 4 ∧
      t.time = s.time))

/-- A write of VALID = 1 to entry 1 to 7 that is not valid takes the type codes and the header length, and sets VALID and
clears ERR where the checks of R72 hold on its fields, and sets ERR and leaves VALID 0 where they do not; a write of
VALID = 0 to such an entry only takes the codes and length; of a valid entry only the clearing of VALID is taken;
entry 0 takes nothing. That a field of width 0 must still lie within the header is the model's choice (log 86). [R71,
R72] -/
def Obligations.FormatEntriesAreValidated : Prop :=
  ∀ (s : State) (e : Nat) (v : W32), s.up = true → e < 8 →
    (e = 0 → Completes (.fmtValidate e v) s (fun t => t = s)) ∧
    (1 ≤ e → s.rb (0xA01020 + 0x40 * e) 31 = false → bit v 31 = false →
      Completes (.fmtValidate e v) s (fun t => Apart s t ∧ MemSame s t ∧ RegsBut [0xA01020 + 0x40 * e] s t ∧
        t.rf (0xA01020 + 0x40 * e) 0 27 = fld v 0 27 ∧ t.rb (0xA01020 + 0x40 * e) 31 = false ∧
        t.rb (0xA01020 + 0x40 * e) 30 = s.rb (0xA01020 + 0x40 * e) 30)) ∧
    (1 ≤ e → s.rb (0xA01020 + 0x40 * e) 31 = false → bit v 31 = true →
      Completes (.fmtValidate e v) s (fun t => Apart s t ∧ MemSame s t ∧ RegsBut [0xA01020 + 0x40 * e] s t ∧
        t.rf (0xA01020 + 0x40 * e) 0 27 = fld v 0 27 ∧
        (let fd := fun f => s.reg (0xA01000 + 0x40 * e + 4 * f)
         let good := ∀ f < 8, fld (fd f) 16 6 ≤ [12, 8, 3, 16, 12, 48, 16, 16].getD f 0 ∧
           (if f = 2 ∨ f = 6 then fld (fd f) 16 6 = 0 ∨ fld (fd f) 16 6 = [12, 8, 3, 16, 12, 48, 16, 16].getD f 0
            else 1 ≤ fld (fd f) 16 6) ∧
           fld (fd f) 0 9 + (if bit (fd f) 24 then 8 * ((fld (fd f) 16 6 + 7) / 8) else fld (fd f) 16 6)
             ≤ 64 * (fld v 24 3 + 1) ∧
           (bit (fd f) 24 = true → fld (fd f) 0 9 % 8 = 0)
         (good → t.rb (0xA01020 + 0x40 * e) 31 = true ∧ t.rb (0xA01020 + 0x40 * e) 30 = false) ∧
         (¬ good → t.rb (0xA01020 + 0x40 * e) 31 = false ∧ t.rb (0xA01020 + 0x40 * e) 30 = true)))) ∧
    (1 ≤ e → s.rb (0xA01020 + 0x40 * e) 31 = true → Completes (.fmtValidate e v) s (fun t => Apart s t ∧ MemSame s t ∧
      t.rb (0xA01020 + 0x40 * e) 31 = bit v 31 ∧
      ∀ o, (o ≠ 0xA01020 + 0x40 * e → t.reg o = s.reg o) ∧ fld (t.reg o) 0 31 = fld (s.reg o) 0 31))

/-- Wedging takes the frame at the head of a lane's FIFO; with WDG_CTL.EN clear it discards it, and nothing else changes.
A HAIL restarts the timeout of its source; one that breaks the layout of R69 is only counted; one whose two ranges
both overlap those of another PRESENT source sets CONFLICT, is counted and published, and leaves the ranges; any other
makes the source PRESENT with the ranges and rate it gives, and publishes SRC_ARRIVED where it was not. A BUOY of a
DEPARTED or an EMPTY source is only counted (an EMPTY one's times follow); of a PRESENT one it is counted, restarts
the timeout and, with EPOCH_CHK set, sets EPOCH_BAD to whether the epoch it implies lies outside the tolerance (or the
period of its rate is 0), publishing SRC_EPOCH where it newly does, with the awaited blocks blanked under EPOCH_BLANK.
A PRESENT source whose timeout has passed becomes DEPARTED, its awaited blocks blanked and SRC_DEPARTED published. A
write to an entry clears CONFLICT where it says so, and FORGET leaves the entry EMPTY; a write of the timeout changes
that register alone. No other entry changes. That a HAIL keeps EPOCH_BAD and CONFLICT and FORGET clears them is the
model's choice (log 86). [R69, R70, R73, R74, R75, R77, R80, R85] -/
def Obligations.SourcesArriveAndDepart : Prop :=
  ∀ s : State, s.up = true → s.err.upsets = [] →
    let others := fun (t : State) (n : Nat) => ∀ m, m ≠ n → t.src m = s.src m
    let gone := fun (t : State) (n : Nat) => ∀ c, ∀ x ∈ (t.ring c).slots, x.released = false → ∀ b ∈ x.blocks, b ≠ .awaited n
    (∀ n f rest, n < s.nRx → (s.lane (.rx n)).fifo = f :: rest →
      let v := { s.src f.src with lastSeen := s.ns, lastTick := s.time.ticks }
      let after := fun (t : State) => Apart s t ∧ MemSame s t ∧ (t.lane (.rx n)).fifo = rest ∧ others t f.src
      let off := fun (t : State) => Apart s t ∧ MemSame s t ∧ RegsBut [] s t ∧ (t.lane (.rx n)).fifo = rest ∧ t.srcs = s.srcs ∧ t.asm_ = s.asm_
      (s.rb 0xA00000 0 = false → (f.ty = 2 → Completes (.hailFrame n) s off) ∧ (f.ty = 3 → Completes (.buoyFrame n) s off)) ∧
      (s.rb 0xA00000 0 = true → f.ty = 2 →
        let inF := field f.payload 0 2
        let inC := field f.payload 2 2
        let chF := field f.payload 4 2
        let chC := if field f.payload 6 2 = 0 then 65536 else field f.payload 6 2
        let sound := f.len = 32 ∧ inF < 4096 ∧ inF % 16 = 0 ∧ 16 ≤ inC ∧ inC ≤ 4096 ∧ inC % 16 = 0 ∧ inF + inC ≤ 4096 ∧
          chF + chC ≤ 65536 ∧ field f.payload 8 1 < 16 ∧ (f.payload.drop 9).all (· == 0) = true
        let clash := ∃ e ∈ s.srcs, e.1 ≠ f.src ∧ e.2.state = 1 ∧ e.2.inFirst < inF + inC ∧ inF < e.2.inFirst + e.2.inCount ∧
          e.2.chFirst < chF + chC ∧ chF < e.2.chFirst + e.2.chCount
        (¬ sound → Completes (.hailFrame n) s (fun t => after t ∧ RegsBut [0xA0013C] s t ∧ Counted s t 0xA0013C 1 ∧
          t.src f.src = v)) ∧
        (sound → clash → Completes (.hailFrame n) s (fun t => after t ∧ RegsBut [0xA00140, 0x200048] s t ∧
          Counted s t 0xA00140 1 ∧ Published s t 19 ∧ t.src f.src = { v with conflict := true })) ∧
        (sound → ¬ clash → Completes (.hailFrame n) s (fun t => after t ∧ RegsBut [0x200048] s t ∧
          t.src f.src = { v with state := 1, rate := field f.payload 8 1, inFirst := inF, inCount := inC, chFirst := chF, chCount := chC } ∧
          ((s.src f.src).state ≠ 1 → Published s t 17)))) ∧
      (s.rb 0xA00000 0 = true → f.ty = 3 →
        ((s.src f.src).state = 2 → Completes (.buoyFrame n) s (fun t => after t ∧ RegsBut [0xA00110] s t ∧
          Counted s t 0xA00110 1 ∧ t.src f.src = s.src f.src)) ∧
        ((s.src f.src).state = 0 → Completes (.buoyFrame n) s (fun t => after t ∧ RegsBut [0xA0010C] s t ∧
          Counted s t 0xA0010C 1 ∧ t.src f.src = v)) ∧
        ((s.src f.src).state = 1 →
          let r := (s.src f.src).rate
          let p := (s.reg (0xA00040 + 8 * r)).toNat + 2 ^ 32 * s.rf (0xA00044 + 8 * r) 0 24
          let told : Nat := (field f.payload 0 6 * 1000000000 + field f.payload 6 4) * 2 ^ 32
          let epoch : Nat := (((s.reg 0xA00010).toNat + 2 ^ 32 * s.rf 0xA00014 0 16) * 1000000000 + min 999999999 (s.rf 0xA00018 0 30)) * 2 ^ 32
          let off : Int := (told : Int) - ((f.index * p : Nat) : Int) - (epoch : Int)
          let bad := if s.epochChk then decide (p = 0) || decide ((s.reg 0xA0001C).toNat * 2 ^ 32 < off.natAbs) else (s.src f.src).epochBad
          Completes (.buoyFrame n) s (fun t => after t ∧ RegsBut [0xA00144, 0xA00190, 0x200048] s t ∧ Counted s t 0xA00144 1 ∧
            t.src f.src = { v with epochBad := bad } ∧
            (bad = true → (s.src f.src).epochBad = false → Published s t 20 ∧ (s.epochBlank = true → gone t f.src)))))) ∧
    (∀ n dt, n < 4096 → (s.src n).state = 1 → s.rf 0xA00008 0 16 ≠ 0 →
      (s.src n).lastTick + 625000 * s.rf 0xA00008 0 16 ≤ s.time.ticks + dt →
      Completes (.srcTimeout n dt) s (fun t => Apart s t ∧ MemSame s t ∧ RegsBut [0xA00188, 0x400004, 0x200044, 0x200048] s t ∧
        t.src n = { s.src n with state := 2 } ∧ others t n ∧ gone t n ∧ Published s t 18)) ∧
    (∀ n v, n < 4096 →
      (bit v 23 = true → Completes (.srcForget n v) s (fun t => Apart s t ∧ MemSame s t ∧ RegsBut [0xA00188, 0x200048] s t ∧
        t.src n = SrcEntry.empty ∧ others t n ∧ ((s.src n).state = 1 → gone t n ∧ Published s t 18))) ∧
      (bit v 23 = false → Completes (.srcForget n v) s (fun t => Apart s t ∧ MemSame s t ∧ RegsBut [] s t ∧ others t n ∧
        t.src n = { s.src n with conflict := (s.src n).conflict && !bit v 29 } ∧ t.asm_ = s.asm_))) ∧
    (∀ v, Completes (.srcTimeoutWrite v) s (fun t => Apart s t ∧ MemSame s t ∧ RegsBut [0xA00008] s t ∧
      t.rf 0xA00008 0 16 = fld v 0 16 ∧ t.srcs = s.srcs))

/-- Wedging takes the DATA frame at the head of a lane's FIFO; with WDG_CTL.EN clear it discards it, and nothing else
changes. A frame of a DEPARTED or an EMPTY source, one misaligned, outside its source's ranges, of inputs not placed,
of another length than its mode's, or (under EPOCH_BLANK) of a source whose epoch is bad, is counted under its own
reason, and no slot changes. Any other, for a channel whose ring has not begun, sets the base, opens the slot with its
deadline, and stores its block, counted as accepted; for a slot from the base to K - 1 blocks beyond it that is not
yet open, it opens every slot up to its own, with one deadline, and stores its block; for an open slot that awaits the
block it stores the block, and while the memory of the block serves no access the frame waits in the FIFO; a second
copy is dropped as DUP where its CRC-32C is equal, and where it differs the block is blanked and both DUP_DIFF and
BLANK_DIFF are counted; any later copy of a block blanked so is dropped as DUP, and a copy of one blanked under R77 in
its open slot as LATE; a frame below the base or for a released slot is LATE; one K or more blocks beyond the base,
with no slot, is FULL where the oldest slot is released and AHEAD otherwise. (The deadline counts from the row at
which wedging takes the frame: R78 counts it from the frame's arrival, which is so taken by the model's choice of log
95.) [R22, R76, R77, R78, R80, R81, R85] -/
def Obligations.DataFramesFillSlots : Prop :=
  ∀ (s : State) (n : Nat) (f : Frame) (rest : List Frame), s.up = true → s.err.upsets = [] → n < s.nRx →
    (s.lane (.rx n)).fifo = f :: rest → f.ty = 1 →
    let b := f.index / 128
    let v := s.src f.src
    let after := fun (t : State) => Apart s t ∧ MemSame s t ∧ (t.lane (.rx n)).fifo = rest
    let drop := fun (k : Nat) => Completes (.dataFrame n) s (fun t => after t ∧ RegsBut [0xA00100 + 4 * k] s t ∧
      Counted s t (0xA00100 + 4 * k) 1 ∧ ∀ c, (t.ring c).slots = (s.ring c).slots)
    let ranged := v.inFirst ≤ f.base ∧ f.base + 16 ≤ v.inFirst + v.inCount ∧ v.chFirst ≤ f.chan ∧ f.chan < v.chFirst + v.chCount
    let served := ∀ a m, s.hbmServes a m = true
    (s.rb 0xA00000 0 = false → Completes (.dataFrame n) s (fun t => after t ∧ RegsBut [] s t ∧ t.srcs = s.srcs ∧ t.asm_ = s.asm_)) ∧
    (s.rb 0xA00000 0 = true →
    (v.state = 2 → drop 4) ∧ (v.state = 0 → drop 3) ∧
    (v.state = 1 → f.base % 16 ≠ 0 ∨ f.index % 128 ≠ 0 → drop 5) ∧
    (v.state = 1 → f.base % 16 = 0 → f.index % 128 = 0 →
      (¬ ranged → drop 6) ∧
      (ranged →
        ((∀ p, s.plc.cur = some p → f.base / 16 ∉ p.plan.inBlocks f.chan) → drop 7) ∧
        (∀ p c3 srate, s.plc.cur = some p → f.base / 16 ∈ p.plan.inBlocks f.chan → p.plan.mode f.chan = some (c3, srate) →
          (f.len ≠ (if c3 then 1536 else 3072) → drop 8) ∧
          (f.len = (if c3 then 1536 else 3072) → s.epochBlank = true → v.epochBad = true → drop 9) ∧
          (f.len = (if c3 then 1536 else 3072) → s.epochBlank = false ∨ v.epochBad = false →
            let stores := Completes (.dataFrame n) s (fun t => after t ∧ Counted s t 0xA00100 1 ∧
              (∃ x, t.slotAt f.chan b = some x ∧ x.released = false ∧ x.block f.base = .stored f.crc f.valid f.payload ∧
                (s.slotAt f.chan b = none → x.deadline = s.time.ticks + 625 * p.skewUs)) ∧
              (t.ring f.chan).base = some ((s.ring f.chan).base.getD b) ∧ ∀ c, c ≠ f.chan → t.ring c = s.ring c)
            ((s.ring f.chan).base = none → (s.ring f.chan).slots = [] → s.owner f.chan (f.base / 16) = some f.src → served → stores) ∧
            (∀ base, (s.ring f.chan).base = some base →
              (b < base → drop 10) ∧
              ((∀ y ∈ (s.ring f.chan).slots, y.blk < base + (s.ring f.chan).slots.length) → base + (s.ring f.chan).slots.length ≤ b →
                b < base + ringK p.skewUs srate → s.owner f.chan (f.base / 16) = some f.src → served →
                stores ∧ Completes (.dataFrame n) s (fun t => ∀ d, base + (s.ring f.chan).slots.length ≤ d → d ≤ b →
                  ∃ y, t.slotAt f.chan d = some y ∧ y.released = false ∧ y.deadline = s.time.ticks + 625 * p.skewUs)) ∧
              (∀ x, base ≤ b → s.slotAt f.chan b = some x →
                (x.released = true → drop 10) ∧
                (∀ o, x.released = false → b < base + ringK p.skewUs srate → x.block f.base = .awaited o →
                  x.ins.length = x.blocks.length →
                  ((x.ranges.getD (x.ins.findIdx (· == f.base / 16)) []).all (fun r => s.hbmServes r.1 r.2) = true → stores) ∧
                  ((x.ranges.getD (x.ins.findIdx (· == f.base / 16)) []).all (fun r => s.hbmServes r.1 r.2) = false →
                    Completes (.dataFrame n) s (fun t => t = s))) ∧
                (∀ crc w pay, x.released = false → b < base + ringK p.skewUs srate → x.block f.base = .stored crc w pay →
                  (crc = f.crc → drop 13) ∧
                  (crc ≠ f.crc → x.ins.length = x.blocks.length →
                    Completes (.dataFrame n) s (fun t => after t ∧ RegsBut [0xA00138, 0xA0018C] s t ∧
                    (∃ y, t.slotAt f.chan b = some y ∧ y.block f.base = .blank 35) ∧
                    Counted s t 0xA00138 1 ∧ Counted s t 0xA0018C 1))) ∧
                (∀ r, x.released = false → x.ins.contains (f.base / 16) = true → x.block f.base = .blank r →
                  (r ∈ [33, 34, 36] → drop 10) ∧ (r = 35 → b < base + ringK p.skewUs srate → drop 13))) ∧
              (base + ringK p.skewUs srate ≤ b → s.slotAt f.chan b = none →
                drop (if (s.ring f.chan).slots.head?.elim false (·.released) then 12 else 11))))))))

/-- When the deadline of an open slot has passed, each block of it still awaited is blanked and counted as BLANK_MISSING,
and no other slot changes. The first slot of a channel not yet released is released once none of its blocks is
awaited, the controllers serve its memory, and no placement holds it, on a part in no pair, where no upset strikes: it
counts as released from then on, its readers are the tiles and engines that take it, and no other channel changes.
[R78, R79] -/
def Obligations.SlotsAreReleasedInOrder : Prop :=
  ∀ (s : State) (c b : Nat) (x : Slot), s.up = true →
    (∀ dt, (s.ring c).slots.filter (fun y => y.blk == b) = [x] → x.released = false → x.deadline ≤ s.time.ticks + dt →
      Completes (.slotDeadline c b dt) s (fun t => Apart s t ∧ MemSame s t ∧ RegsBut [0xA00180] (s.advance dt) t ∧
        Counted (s.advance dt) t 0xA00180 (x.blocks.filter (·.isAwaited)).length ∧
        t.slotAt c b = some { x with blocks := x.blocks.map (fun k => if k.isAwaited then .blank 32 else k) } ∧
        (∀ d e, (d, e) ≠ (c, b) → t.slotAt d e = s.slotAt d e))) ∧
    (s.nextSlot c = some x → x.blk = b → (∀ k ∈ x.blocks, k.isAwaited = false) → s.slotServes x = true →
      s.heldByPlacement c b = false → s.role ≤ 1 → s.err.upsets = [] → s.pair.kilnFrom = [] → s.pair.blockFrom = [] →
      Completes (.slotRelease c none) s (fun t => Apart s t ∧ MemSame s t ∧ RegsBut [] s t ∧ t.wasReleased c b = true ∧
        (∀ d, d ≠ c → t.ring d = s.ring d) ∧
        (∀ y, t.slotAt c b = some y → y.released = true ∧ y.readers = s.readersOf c b)))

/-- A tile with a bank free takes up its next chunk once every slot it covers is released; at its end the sums of its kept
cells stand in a complete bank: RE and IM the sums, over the blocks of the chunk valid in both inputs, of the products
of R31, and the count 128 for each such block; a drained bank, with no error stored, adds the sum of each of its
words, RE, IM and count, to what the slice holds for that word and span (exactly within the limits of R35, from zero
where nothing has come yet), counts one chunk, and leaves the banks behind it. [R31, R86, R87, R88, R89, R90, R92,
R94] -/
def Obligations.TilesFormChunks : Prop :=
  ∀ (s : State) (t : Nat), s.up = true →
    (∀ k kp x c i n, (s.tile t).cur = none → (s.tile t).full.length ≤ 1 → s.nextPair t = some (k, kp, x, c, i, n) →
      (s.kiln k).holds x = false → (∀ b ∈ chunkBlocks x kp.l, s.isReleased c b = true) →
      Completes (.tileChunkStart t) s (fun u => Apart s u ∧ MemSame s u ∧ RegsBut [] s u ∧
        (u.tile t).cur = some ⟨k, (kp.desc.pairs.getD n (0, 0)).1, (kp.desc.pairs.getD n (0, 0)).2, c, x⟩ ∧
        (u.tile t).full = (s.tile t).full ∧ u.kilns = s.kilns)) ∧
    (∀ h p w kp, (s.tile t).cur = some h → s.plc.cur = some p → s.tileWork t = some w → s.placedKiln h.kiln = some kp →
      (s.kiln h.kiln).holds h.first = false → t < 256 →
      Completes (.chunkEnd t) s (fun u => Apart s u ∧ MemSame s u ∧ RegsBut [0xC00008 + 0x10 * t] s u ∧
        (u.tile t).cur = none ∧ u.kilns = s.kilns ∧
        ∃ sums, (u.tile t).full = (s.tile t).full ++ [⟨h, sums⟩] ∧
          sums.map (·.1) = (kp.desc.cells h.p h.q (h.chan - kp.desc.chFirst)).map (fun x => x.2.2) ∧
          (∀ e ∈ sums, e.2.count % 128 = 0 ∧ e.2.count ≤ kp.l) ∧
          (let side := fun (n b : Nat) => (kp.inputs[n]?).bind (fun i => (s.slotAt h.chan b).bind (fun x =>
             (x.valid? i).map (fun y => samplesOf kp.desc.c3 y i)))
           let term := fun (z : Nat × Nat × Nat) (b : Nat) => match side (64 * h.p + z.1) b, side (64 * h.q + z.2.1) b with
             | some u, some v => ((List.zipWith (fun (x y : Int × Int) => x.1 * y.1 + x.2 * y.2) u v).sum,
                 (List.zipWith (fun (x y : Int × Int) => x.2 * y.1 - x.1 * y.2) u v).sum, 128)
             | _, _ => ((0 : Int), (0 : Int), (0 : Nat))
           let blks := (List.range (kp.l / 128)).map (h.first / 128 + ·)
           ∀ (n : Nat) (z : Nat × Nat × Nat) (e : Nat × E48), (kp.desc.cells h.p h.q (h.chan - kp.desc.chFirst))[n]? = some z → sums[n]? = some e →
             e.2.re = (blks.map (fun b => (term z b).1)).sum ∧ e.2.im = (blks.map (fun b => (term z b).2.1)).sum ∧
             e.2.count = (blks.map (fun b => (term z b).2.2)).sum))) ∧
    (∀ h rest kp, (s.tile t).full = h :: rest → s.placedKiln h.chunk.kiln = some kp →
      (s.kiln h.chunk.kiln).holds h.chunk.first = false → s.err.upsets = [] → s.plc.ceTicks = [] →
      (h.sums.map (·.1)).Nodup → t < 256 →
      Completes (.chunkDrained t none) s (fun u => Apart s u ∧ MemSame s u ∧
        RegsBut [0xC00004 + 0x10 * t, 0xC00008 + 0x10 * t] s u ∧ (u.tile t).full = rest ∧
        (u.reg (0xC00004 + 0x10 * t)).toNat = min ((s.reg (0xC00004 + 0x10 * t)).toNat + 1) 0xFFFFFFFF ∧
        ∀ e ∈ h.sums, ∃ a, (u.kiln h.chunk.kiln).spanAt e.1 (h.chunk.first / kp.g * kp.g) = some a ∧
          (let b := ((s.kiln h.chunk.kiln).spanAt e.1 (h.chunk.first / kp.g * kp.g)).getD
              ⟨h.chunk.first / kp.g * kp.g, 0, E48.zero, (false, false, false), false⟩
           a.chunks = b.chunks + 1 ∧ (b.stuck = (false, false, false) → (b.sum.re + e.2.re).natAbs < 2 ^ 47 →
             (b.sum.im + e.2.im).natAbs < 2 ^ 47 → b.sum.count + e.2.count < 2 ^ 32 →
             a.sum = ⟨b.sum.re + e.2.re, b.sum.im + e.2.im, b.sum.count + e.2.count⟩))))

/-- With every contribution to a line for its next span arrived, no error stored and the controllers serving its memory,
an update of an E48 line adds, word by word, the sums of the span to the stored words (to zero on the first update of
the integration), exactly where the limits of R35 are not passed, changes no other byte of device memory, and moves
the line on by one span. An update of a K16 line stores the line and the exponent byte that k16_update forms from the
stored ones (from zeros on the first), with BND from the 65,537th update of the integration on where the exponent is
not 0 (that each such update sets it is the model's choice, log 100), keeps the exponents that the header will name no
lower than its own, and changes no byte outside the line and its exponent line. [R35, R39, R92, R93, R95] -/
def Obligations.KilnUpdatesAreExact : Prop :=
  ∀ (s : State) (k line : Nat) (p : KilnPlace), s.up = true → s.placedKiln k = some p → (s.kiln k).live = true →
    line < p.desc.lines → s.err.upsets = [] →
    let v := s.kiln k
    let x := v.lineNext' line
    let bank := v.bankOf v.bank
    let addr := bank.lineAddr v.bank line
    v.lineReady p line x = true → s.updBank k p x = some v.bank → bank.poison.contains line = false →
    (∀ a ∈ v.lineSums p.desc line x, a.bad = false ∧ a.stuck = (false, false, false)) →
    s.lineServes bank p.desc v.bank line = true →
    (p.desc.k16 = false → bank.stuck = [] →
      Completes (.kilnUpdate k line none) s (fun t => Apart s t ∧ t.csram = s.csram ∧ t.host = s.host ∧
        (t.kiln k).lineNext' line = x + p.g ∧
        (∀ a, a < addr ∨ addr + 64 ≤ a → rd8 t.hbm a = rd8 s.hbm a) ∧
        (∀ q < 4,
          let old := if bank.touched.contains line then E48.ofBytes (rdBytes s.hbm (addr + 16 * q) 16) else E48.zero
          let d := ((v.lineSums p.desc line x).map (·.sum)).getD q E48.zero
          (old.re + d.re).natAbs < 2 ^ 47 → (old.im + d.im).natAbs < 2 ^ 47 → old.count + d.count < 2 ^ 32 →
          E48.ofBytes (rdBytes t.hbm (addr + 16 * q) 16) = ⟨old.re + d.re, old.im + d.im, old.count + d.count⟩))) ∧
    (p.desc.k16 = true →
      (bank.expLine v.bank line + 64 ≤ addr ∨ addr + 64 ≤ bank.expLine v.bank line) →
      Completes (.kilnUpdate k line none) s (fun t => Apart s t ∧ t.csram = s.csram ∧ t.host = s.host ∧
        (t.kiln k).lineNext' line = x + p.g ∧
        (∀ a, (a < addr ∨ addr + 64 ≤ a) → (a < bank.expLine v.bank line ∨ bank.expLine v.bank line + 64 ≤ a) → rd8 t.hbm a = rd8 s.hbm a) ∧
        (let a := v.lineSums p.desc line x
         let old := if bank.touched.contains line then
           K16Line.ofBytes (rdBytes s.hbm addr 64) (rd8 s.hbm (bank.expLine v.bank line + line % 64)) else K16Line.zero
         let l := (k16Update old v.seed line x (a.flatMap (fun w => [w.sum.re, w.sum.im])) (a.map (fun w => w.sum.count))).bounded
           ((x + p.g - bank.first) / p.g)
         rdBytes t.hbm addr 64 = l.bytes ∧ rd8 t.hbm (bank.expLine v.bank line + line % 64) = l.expByte ∧
         ((t.kiln k).bankOf v.bank).fit ≥ fitDown l.m l.e ∧ ((t.kiln k).bankOf v.bank).peak ≥ l.e)))

/-- Outside a pair, a kiln does not close while a line waits for an update below its boundary; one whose lines have every
such update and whose other bank is free, with no line of the firing reported by a partner, closes: the firing takes
the next sequence number, KLN_SEQ and FIRED show it, FIRED is published where its group is enabled, the drain of that
bank begins with FIRST and LAST of the span, and the other bank accumulates from the boundary (FIRING, or SHUT at an
end index). Where the other bank still drains and an update past the boundary is ready, OVERRUN is set and counted;
STALL holds, SKIP removes the boundary, with the FIRE that named it, and counts it. The close changes no byte of
device memory. [R97, R101, R103, R104, R105, R110, R114] -/
def Obligations.BanksCloseAtBoundaries : Prop :=
  ∀ (s : State) (k b : Nat) (p : KilnPlace), s.up = true → k < 16 → s.role ≤ 1 → s.placedKiln k = some p →
    s.boundary k = some b → s.pair.closes = [] → s.pair.skips = [] →
    let v := s.kiln k
    (v.linesTo p.desc b = false → ∀ maxAct totAct,
      Completes (.kilnBankClose k maxAct totAct) s (fun t => t = s)) ∧
    (v.live = true → v.drain = none → v.linesTo p.desc b = true → 0 < p.desc.groups →
      (∀ e ∈ s.pair.reported.groups, e.1 ≠ k) → ∀ maxAct totAct,
      Completes (.kilnBankClose k maxAct totAct) s (fun t => Apart s t ∧ t.csram = s.csram ∧ t.hbm = s.hbm ∧
        (t.kiln k).bank = 1 - v.bank ∧ (t.kiln k).seq = (v.seq + 1) % 2 ^ 32 ∧ t.reg (0xC20030 + 0x100 * k) = lo32 v.seq ∧
        t.rb (0xC20004 + 0x100 * k) 0 = true ∧
        (s.rb 0x200030 ((32 + 2 * k) / 8) = true → (32 + 2 * k, tget 0 v.hops b) ∈ t.bcn.flight) ∧
        (t.kiln k).state = (if v.endAt.elim false (fun e => e.1 == b) then 4 else 3) ∧
        (v.endAt = none → ((t.kiln k).bankOf (1 - v.bank)).first = b) ∧
        ∃ d, (t.kiln k).drain = some d ∧ d.bank = v.bank ∧ d.seq = v.seq ∧ d.groups = p.desc.groups ∧ d.done = [] ∧
          d.closeNs = s.ns ∧ field d.hdr 0 8 = (v.bankOf v.bank).first % 2 ^ 64 ∧ field d.hdr 8 8 = (b - 1) % 2 ^ 64)) ∧
    (v.live = true → v.drain.isSome = true → v.overAt ≠ some b → v.endAt.elim false (fun e => e.1 == b) = false →
      s.updateReadyAt k b p = true →
      Completes (.fireOverrun k) s (fun t => Apart s t ∧ MemSame s t ∧ t.rb (0xC20004 + 0x100 * k) 1 = true ∧ Published s t (33 + 2 * k) ∧
        (t.reg (0xC20034 + 0x100 * k)).toNat = min ((s.reg (0xC20034 + 0x100 * k)).toNat + 1) 0xFFFFFFFF ∧
        (s.rb (0xC20000 + 0x100 * k) 0 = true → (t.kiln k).gone = b ∧ (t.kiln k).stalled = v.stalled ∧ (∀ e ∈ (t.kiln k).pend, e.1 ≠ b) ∧
          (t.reg (0xC20038 + 0x100 * k)).toNat = min ((s.reg (0xC20038 + 0x100 * k)).toNat + 1) 0xFFFFFFFF) ∧
        (s.rb (0xC20000 + 0x100 * k) 0 = false → (t.kiln k).stalled = true ∧ (t.kiln k).overAt = some b ∧
          (t.kiln k).gone = v.gone)))

/-- On one ring with room, outside a pair, with nothing held or lost and the controllers serving the bank: a group not yet
drained is written as one line record at the position PROD stands at, with the common part and GROUP as laid out, no
other byte of host memory changes, and RSEQ and the index move on; when all are written, the completion record
follows, with the lines written, dropped and in all, and the bank is free: a FIRING kiln is OPEN again, and one in
SHUT whose placement stands is PLACED. [R102, R105, R110, R113, R115, R116, R120] -/
def Obligations.DrainsEmitRecords : Prop :=
  ∀ (s : State) (k r : Nat) (d : Drain) (p : KilnPlace), s.up = true → k < 16 → s.role ≤ 1 → s.foghorn = false →
    s.pair.hold = [] → s.pair.lost = [] → s.err.upsets = [] → (s.kiln k).rings = [r] → (s.kiln k).drain = some d →
    s.kilnPlace k = some p → d.hdrTodo = [] → s.rEn r = true → (s.rng r).lost = [] →
    let len := if p.desc.k16 then 66 else 65
    let at_ := s.rBase r + (s.rng r).head % s.rSize r * 64
    (∀ g, g < d.groups → d.done.contains g = false → d.compTodo = none → len + 2 ≤ s.rFree r → s.groupServes k g p d = true →
      (s.rng r).head % s.rSize r + len ≤ s.rSize r →
      Completes (.firingLineRecordWrite k g none) s (fun t => Apart s t ∧ t.hbm = s.hbm ∧ t.csram = s.csram ∧
        RegsBut [] s t ∧
        rdLe t.host at_ 1 = 2 ∧ rdLe t.host (at_ + 1) 1 = k ∧ rdLe t.host (at_ + 2) 2 = len ∧
        rdLe t.host (at_ + 4) 4 = d.seq % 2 ^ 32 ∧ rdLe t.host (at_ + 8) 4 = (s.rng r).rseq % 2 ^ 32 ∧
        rdLe t.host (at_ + 16) 4 = g % 2 ^ 32 ∧
        (∀ a, a < at_ ∨ at_ + 64 * len ≤ a → rd8 t.host a = rd8 s.host a) ∧
        (t.rng r).rseq = ((s.rng r).rseq + 1) % 2 ^ 32 ∧ (t.rng r).head = ((s.rng r).head + len) % 2 ^ 32 ∧
        ∃ e, (t.kiln k).drain = some e ∧ e.done = d.done ++ [g] ∧ tget 0 e.written 0 = tget 0 d.written 0 + 1 ∧
          (e.compTodo = if d.done.length + 1 = d.groups then some [0] else none))) ∧
    (d.compTodo = some [0] → 2 ≤ s.rFree r → (s.rng r).head % s.rSize r + 2 ≤ s.rSize r →
      Completes (.firingCompletionWrite k) s (fun t => Apart s t ∧ t.hbm = s.hbm ∧ t.csram = s.csram ∧
        rdLe t.host at_ 1 = 3 ∧ rdLe t.host (at_ + 1) 1 = k ∧ rdLe t.host (at_ + 4) 4 = d.seq % 2 ^ 32 ∧
        rdLe t.host (at_ + 16) 4 = tget 0 d.written 0 % 2 ^ 32 ∧ rdLe t.host (at_ + 20) 4 = tget 0 d.dropped 0 % 2 ^ 32 ∧ rdLe t.host (at_ + 24) 4 = d.groups % 2 ^ 32 ∧
        (∀ a, a < at_ ∨ at_ + 128 ≤ a → rd8 t.host a = rd8 s.host a) ∧
        (t.rng r).rseq = ((s.rng r).rseq + 1) % 2 ^ 32 ∧ (t.kiln k).drain = none ∧
        ((s.kiln k).state = 3 → (t.kiln k).state = 2) ∧
        ((s.kiln k).state = 4 → (t.kiln k).state = if (s.kiln k).omitted then 0 else 1)))

/-- A write of KLN_CTL takes OVERRUN in every state and AUTO only in IDLE or PLACED; a write of a half of KLN_SEED takes
it in IDLE or PLACED and changes nothing otherwise. A part that stands by takes neither. [R98, R104, R349] -/
def Obligations.KilnControlsAndSeeds : Prop :=
  ∀ (s : State) (k : Nat) (v : W32), s.up = true → k < 16 →
    (s.standby = false → Completes (.klnCtlWrite k v) s (fun t => Apart s t ∧ MemSame s t ∧ RegsBut [0xC20000 + 0x100 * k] s t ∧
      t.rb (0xC20000 + 0x100 * k) 0 = bit v 0 ∧
      t.rb (0xC20000 + 0x100 * k) 1 = (if (s.kiln k).state ≤ 1 then bit v 1 else s.rb (0xC20000 + 0x100 * k) 1))) ∧
    (∀ hi : Bool, s.standby = false → (s.kiln k).state ≤ 1 →
      Completes (.klnSeedWrite k hi v) s (fun t => Apart s t ∧ MemSame s t ∧
        RegsBut [0xC20008 + 0x100 * k + (if hi then 4 else 0)] s t ∧
        t.reg (0xC20008 + 0x100 * k + (if hi then 4 else 0)) = v)) ∧
    (∀ hi : Bool, s.standby = true ∨ 2 ≤ (s.kiln k).state → Completes (.klnSeedWrite k hi v) s (fun t => t = s)) ∧
    (s.standby = true → Completes (.klnCtlWrite k v) s (fun t => t = s))

/-- Once the tiles have done what lies below EFFECT and the blocks that do not stay have given what they form, the pending
placement is the one in effect at its EFFECT: each IDLE or PLACED kiln it names is PLACED, a PLACED kiln it omits is
IDLE, a kiln that integrates keeps its L, S and layout, and every tile starts afresh with the work it is given, at
EFFECT, a correlate tile at the first chunk that begins there or later; of memory only the delay tables of blocks that
stay are written, where it puts them, and it waits while the controllers do not serve those. The work of an excluded
correlate tile moves to the tile found for it at a boundary of its kiln, that of a beam tile at a multiple of 256
samples at least 1 ms after the exclusion; then, where no window of a block that moves is open, the windows of an
excluded slice and the regions lie where the re-placement puts them. [R97, R131, R169, R170, R183, R184, R275, R391] -/
def Obligations.PlacementsTakeEffect : Prop :=
  ∀ s : State, s.up = true →
    (∀ p, s.plc.pend = some p → (∀ q, s.plc.cur = some q → ∀ e ∈ q.tiles, s.tileAt e.1 p.effect = true) →
      s.beam.windows = [] → (∀ m < 24, blockKept s.plc.cur p m = true ∨ s.groupIdle m = true) → (p.tiles.map (·.1)).Nodup →
      let stay := (p.blocks.map (·.1)).filter (blockKept s.plc.cur p)
      (s.tabsServe p stay = false → Completes .placementEffect s (fun t => t = s)) ∧
      (s.tabsServe p stay = true → Completes .placementEffect s (fun t => Apart s t ∧ t.csram = s.csram ∧ t.host = s.host ∧
        (∀ a, (∀ m ∈ stay, ∀ y ∈ (s.block m).tabs, ∀ r ∈ p.delayRanges m y.epoch 0 (8 * y.taus.length), a < r.1 ∨ r.1 + r.2 ≤ a) →
          rd8 t.hbm a = rd8 s.hbm a) ∧ t.plc.pend = none ∧
        (∃ q, t.plc.cur = some q ∧ q.plan = p.plan ∧ q.effect = p.effect ∧ q.tiles = p.tiles ∧
          ∀ e ∈ p.tiles, (t.tile e.1).cur = none ∧ (t.tile e.1).full = [] ∧ (t.tile e.1).at_ = (q.startAt e.2 p.effect, 0, 0)) ∧
        (∀ k < 16, (p.kilns.any (fun e => e.1 == k) = true → (s.kiln k).state ≤ 1 → (t.kiln k).state = 1) ∧
          (p.kilns.any (fun e => e.1 == k) = false → (s.kiln k).state = 1 → (t.kiln k).state = 0) ∧
          (2 ≤ (s.kiln k).state → (t.kiln k).state = (s.kiln k).state) ∧
          (∀ a b, (s.kiln k).live = true → s.placedKiln k = some a → t.placedKiln k = some b →
            b.l = a.l ∧ b.s = a.s ∧ b.layout = a.layout)) ∧
        (∀ c, p.plan.mode c = none → (t.ring c).slots = [])))) ∧
    (∀ n dt m p w, s.plc.moves.find? (sameUnit (.tile n)) = some m → s.plc.cur = some p → s.tileWork n = some w →
      (∀ k, w.kiln = some k → s.tileAtBoundary n k = true) →
      (w.kiln = none → s.tileAt256 n = true ∧ m.since + 625000 ≤ s.time.ticks + dt) →
      (∀ e ∈ p.tiles, e.1 ≠ m.dest) → m.dest ≠ n →
      Completes (.excludedWorkMove (.tile n) dt) s (fun t => Apart s t ∧ MemSame s t ∧ t.tileWork m.dest = some w ∧
        t.tileWork n = none ∧ (t.tile m.dest).at_ = (s.tile n).at_ ∧ t.plc.moves.find? (sameUnit (.tile n)) = none)) ∧
    (∀ n dt m p r, s.plc.moves.find? (sameUnit (.slice n)) = some m → s.plc.cur = some p → m.re = some r →
      s.beamsAt256 r = true → s.tabsServe r (r.blocks.map (·.1)) = true → m.since + 625000 ≤ s.time.ticks + dt →
      Completes (.excludedWorkMove (.slice n) dt) s (fun t => Apart s t ∧ t.csram = s.csram ∧ t.host = s.host ∧
        (∃ q, t.plc.cur = some q ∧ q.tiles = p.tiles ∧ q.asmOff = r.asmOff ∧ q.asmSize = r.asmSize ∧ q.delayOff = r.delayOff ∧
          q.delaySize = r.delaySize) ∧
        (∀ j b x, s.placedBlock j = some b → r.blocks.find? (fun e => e.1 == j) = some x →
          (t.placedBlock j).map (·.slice) = some x.2.slice) ∧
        t.plc.moves.find? (sameUnit (.slice n)) = none))

/-- A visit whose slots are released, whose delay table is ready, whose windows are open or can be opened, and of whose
delay entries the controllers serve what it has still to read, with no error stored, adds to the window of each of its
slots, sample by sample and beam by beam, the weighted samples of the inputs of its block that are valid there, from
zeros where the window opens now, and records the block as contributed; it changes no other window, counts what the
tile waited as stall, and moves the tile on. The block's next window to which every input block has contributed
closes: it is gone, no other window changes, and where its block has an active group and no enabled TX entry, the
group receives, beam by beam, the sums requantised with DET_SHIFT to 8 + 8, with the losses of the window. (Stall is
counted at two core cycles a tick, by log 37, and a visit that waits for room, of a window next in order that is not
open, lets the first complete window close before its turn, by log 90: both are the model's choices.) [R124, R125,
R126, R127, R135, R139] -/
def Obligations.BeamVisitsFillWindows : Prop :=
  ∀ s : State, s.up = true →
    (∀ t x c i m P p pl w, s.nextVisit t = some (x, c, i, m, P) → s.plc.cur = some pl → s.tileWork t = some w →
      s.placedBlock m = some p → s.visitReady x c m p = true → s.switchFirst x = false → s.delayServes m (x / s.epochLen m) P p.desc.n x = true →
      t < 256 → s.err.upsets = [] →
      Completes (.beamVisitStart t none) s (fun u => Apart s u ∧ MemSame s u ∧ RegsBut [0xC00008 + 0x10 * t] s u ∧
        Counted s u (0xC00008 + 0x10 * t) (2 * (s.time.ticks - (s.tile t).since)) ∧
        (u.tile t).at_ = (x, c, i + 1) ∧
        (∀ d, d < (if p.desc.c3 then 2 else 1) →
          let V := (s.beam.windows.find? (windowIs m c (x / 128 + d))).getD (Window.open_ m c (x / 128 + d))
          ∃ W, u.beam.windows.find? (windowIs m c (x / 128 + d)) = some W ∧ W.got = V.got ++ [P] ∧
            (V.sums.length = 8192 → ∀ sl, s.slotAt c (x / 128 + d) = some sl → ∀ k < 64, ∀ q < 128,
              (W.sums.getD (128 * k + q) (0, 0)).1 = (V.sums.getD (128 * k + q) (0, 0)).1 + (BeamTerm u m x c P p sl k q).1 ∧
              (W.sums.getD (128 * k + q) (0, 0)).2 = (V.sums.getD (128 * k + q) (0, 0)).2 + (BeamTerm u m x c P p sl k q).2)) ∧
        (∀ W ∈ s.beam.windows, (W.m ≠ m ∨ W.chan ≠ c ∨ (W.blk ≠ x / 128 ∧ (p.desc.c3 = false ∨ W.blk ≠ x / 128 + 1))) →
          W ∈ u.beam.windows))) ∧
    (∀ m p w e, s.placedBlock m = some p → s.closable m (p.desc.n / 64) p.desc.c3 = some w → s.framesServe m = true → (s.block m).eraAt (128 * w.blk) = some e →
      Completes (.beamWindowClose m none) s (fun u => Apart s u ∧ u.csram = s.csram ∧ u.host = s.host ∧
        (∀ W ∈ u.beam.windows, windowIs m w.chan w.blk W = false) ∧
        (∀ W ∈ s.beam.windows, windowIs m w.chan w.blk W = false → W ∈ u.beam.windows) ∧
        (s.beam.txgPend = [] → (∀ j < 64, s.txgBeams j = none) → u.hbm = s.hbm ∧
          ((s.grp m).active = true → w.sums.length = 8192 →
          ∃ d, (tget DetChan.init (u.grp m).chans w.chan).wins = (tget DetChan.init (s.grp m).chans w.chan).wins ++ [d] ∧
            d.blk = w.blk ∧ d.loss = w.loss ∧
            ∀ k < 64, ∀ t < 128, d.samples.getD (128 * k + t) (0, 0) =
              (requant 8 (e.det k) (w.sums.getD (128 * k + t) (0, 0))).1))))

/-- With no error stored, once the visits of the epoch before the last are done and the controllers serve the tables, the
evaluation of an epoch gives each entry of the block the code that the procedure of R131 forms from its four
coefficients in device memory, at the offset R130 gives, and n0, under the STEER pending for that epoch if there is
one and else under the settings that hold there; the codes lie, 8 bytes each in order, in the delay table of the
epoch's parity, and no other byte of device memory changes. A STEER pending for that epoch comes into effect with it:
its table is shown, its operation completes, and the group has a restart at its index, in order of index. (The order
of the codes within the delay region is the model's choice of log 41.) [R130, R131, R133, R144, R178] -/
def Obligations.EpochsAreEvaluatedFromTheTable : Prop :=
  ∀ (s : State) (m e : Nat) (p : BlockPlace) (pl : Placement) (tbl : Nat) (n0 : Int), s.up = true → m < 24 →
    (s.block m).nextEval = some e → s.plc.cur = some pl → s.placedBlock m = some p →
    (e < 2 ∨ s.visitsDone m ((e - 1) * s.epochLen m) = true) → s.err.upsets = [] → (s.block m).tab e = none →
    let x := e * s.epochLen m
    let rs := pl.delayRanges m e 0 (512 * p.desc.n)
    ((∃ q, (s.block m).pend = some q ∧ q.ns ≤ x ∧ tbl = q.table ∧ n0 = q.n0) ∨
      ((∀ q, (s.block m).pend = some q → x < q.ns) ∧ ∃ r, (s.block m).eraAt x = some r ∧ tbl = r.table ∧ n0 = r.n0)) →
    s.hbmServes tbl (2048 * p.desc.n) = true → (∀ r ∈ rs, s.hbmServes r.1 r.2 = true) →
    Completes (.glazeEpochEvalStart m none) s (fun t => Apart s t ∧ t.csram = s.csram ∧ t.host = s.host ∧ (t.block m).nextEval = none ∧
      (∃ q, (t.block m).tab e = some q ∧ q.lost = [] ∧
        (∀ k < 64, ∀ i < p.desc.n, q.taus.getD (k * p.desc.n + i) 0 =
          (let c := fun h => signI 64 (rdLe s.hbm (tbl + 32 * (k * p.desc.n + i) + 8 * h) 8)
           let d : Int := e * s.epochLen m + s.epochLen m / 2 - n0
           tauCode (c 0) (c 1) (c 2) (c 3) d)) ∧
        (rs.Pairwise (fun a b => a.1 + a.2 ≤ b.1 ∨ b.1 + b.2 ≤ a.1) → (rs.map (·.2)).sum = 512 * p.desc.n →
          rs.flatMap (fun r => rdBytes t.hbm r.1 r.2) = q.taus.flatMap (leBytes 8))) ∧
      (∀ a, (∀ r ∈ rs, a < r.1 ∨ r.1 + r.2 ≤ a) → rd8 t.hbm a = rd8 s.hbm a) ∧
      (∀ q, (s.block m).pend = some q → q.ns ≤ x →
        (t.block m).pend = none ∧ (t.block m).steered = true ∧ (t.block m).eras.head?.map (·.table) = some q.table ∧
        t.reg (0xD00108 + 0x20 * m) = lo32 q.table ∧ t.reg (0xD0010C + 0x20 * m) = hi32 q.table ∧
        (∀ i, i ∈ (t.grp m).restarts ↔ i = q.ns ∨ i ∈ (s.grp m).restarts) ∧ (t.grp m).restarts.Pairwise (· < ·) ∧
        (∀ i, q.op = some i → ∀ o ∈ t.cq.ops, o.id ≠ i)))

/-- A pending switch is made as the first visit at or after its index is about to start: the other bank is active. A host
write of a gain reaches the inactive bank while no switch is pending and nothing else. GLZ_F0 and GLZ_DF take a write
while no beam block is placed, EPOCH and the shifts while their block is not placed, and ignore it otherwise;
GLZ_TX_CTL and the detection settings take a write at any time, and no running group changes by it. [R128, R134] -/
def Obligations.GainsAndSettingsAreTaken : Prop :=
  ∀ s : State, s.up = true →
    (∀ n op pl e v b, s.beam.switch_ = some (n, op) → s.plc.cur = some pl → e ∈ pl.tiles → s.nextVisit e.1 = some v → n ≤ v.1 →
      s.placedBlock v.2.2.2.1 = some b → s.visitReady v.1 v.2.1 v.2.2.2.1 b = true →
      Completes .glazeSwitch s (fun t => Apart s t ∧ MemSame s t ∧ t.beam.active = !s.beam.active ∧ t.beam.switch_ = none ∧
        t.beam.switched = n ∧ ∀ x, n ≤ x → t.gainBank x = b2n (!s.beam.active))) ∧
    (∀ bank i v, bank < 2 → i < 4096 →
      (s.beam.switch_ = none → bank = b2n (!s.beam.active) → Completes (.glzGainWrite bank i v) s (fun t => Apart s t ∧
        MemSame s t ∧ RegsBut [0xD10000 + 0x4000 * bank + 4 * i] s t ∧ t.reg (0xD10000 + 0x4000 * bank + 4 * i) = v)) ∧
      (s.beam.switch_.isSome = true ∨ bank = b2n s.beam.active →
        Completes (.glzGainWrite bank i v) s (fun t => t = s))) ∧
    (∀ o ∈ [(0xD00000, 0xFFFFFFFF#32), (0xD00004, 0xFFFF#32), (0xD00008, 0xFFFFFFFF#32)], ∀ v,
      ((∀ pl, s.plc.cur = some pl → pl.blocks = []) → Completes (.glzSettingWrite o.1 v) s (fun t => Apart s t ∧
        MemSame s t ∧ RegsBut [o.1] s t ∧ t.reg o.1 = v &&& o.2)) ∧
      (∀ pl, s.plc.cur = some pl → pl.blocks ≠ [] → Completes (.glzSettingWrite o.1 v) s (fun t => t = s))) ∧
    (∀ m v, m < 24 → (s.placedBlock m = none → Completes (.glzSettingWrite (0xD00100 + 0x20 * m) v) s (fun t => Apart s t ∧
        MemSame s t ∧ RegsBut [0xD00100 + 0x20 * m] s t ∧ t.reg (0xD00100 + 0x20 * m) = v &&& 0xFFFF#32)) ∧
      ((s.placedBlock m).isSome = true → Completes (.glzSettingWrite (0xD00100 + 0x20 * m) v) s (fun t => t = s))) ∧
    (∀ b v, b < 1536 → (s.placedBlock (b / 64) = none → Completes (.glzSettingWrite (0xD01000 + 0x10 * b) v) s (fun t => Apart s t ∧
        MemSame s t ∧ RegsBut [0xD01000 + 0x10 * b] s t ∧ t.reg (0xD01000 + 0x10 * b) = v &&& 0x1F001F#32)) ∧
      ((s.placedBlock (b / 64)).isSome = true → Completes (.glzSettingWrite (0xD01000 + 0x10 * b) v) s (fun t => t = s))) ∧
    (∀ v, Completes (.glzSettingWrite 0xD0000C v) s (fun t => Apart s t ∧ MemSame s t ∧ RegsBut [0xD0000C] s t ∧
      t.reg 0xD0000C = v &&& 0xFFF#32 ∧ t.beam = s.beam)) ∧
    (∀ g v, g < 24 → ∀ o ∈ [(0xD80000, 0xFFF1FFFF#32), (0xD80004, 0x7FFF#32), (0xD80008, 0xFFFFFFFF#32), (0xD8000C, 0xFFFFFFFF#32)],
      Completes (.glzSettingWrite (o.1 + 0x10 * g) v) s (fun t => Apart s t ∧ MemSame s t ∧
        RegsBut [o.1 + 0x10 * g] s t ∧ t.reg (o.1 + 0x10 * g) = v &&& o.2 ∧ t.beam = s.beam))

/-- With no block placed, a write of EN = 1 to a TX entry whose lane is present, whose BASE is aligned and whose beams lie
in no other enabled entry, with at most 512 in all, enables it with ERR clear; one that fails a check leaves EN 0 and
sets ERR; a write of EN = 0 disables it and leaves ERR. A write while a block of its beams is placed waits and changes
no register; HX7240-C takes none. The frame of a window that closes is queued on its lane, UP and with fewer than 16
queued, and is else dropped and counted, on a part that emits and holds nothing. On a framed TX lane that is UP, of a
part that emits, a frame held since a takeover leaves first, and else the oldest frame queued: it goes out as the
blocks of R61 to R64 and is counted. In a PRBS mode none leaves. (Which window closes next holds the choice of log
90.) [R59, R126, R134, R136, R137, R138, R343, R355, R358] -/
def Obligations.TxEntriesAndBeamFrames : Prop :=
  ∀ s : State, s.up = true →
    (∀ j v, s.gradeC = false → j < 64 →
      ((∀ m, s.placedBlock m = none) →
        Completes (.glzTxgEnable j v) s (fun t => Apart s t ∧ MemSame s t ∧ RegsBut [0xD08000 + 4 * j] s t ∧
          t.rf (0xD08000 + 4 * j) 0 11 = fld v 0 11 ∧ t.rf (0xD08000 + 4 * j) 24 5 = fld v 24 5 ∧
          t.rb (0xD08000 + 4 * j) 29 = bit v 29 ∧
          (let n := if bit v 29 then 8 else 16
           let good := fld v 24 5 < s.nTx ∧ fld v 0 11 % n = 0 ∧
             (∀ i < 64, i ≠ j → ∀ o, s.txgBeams i = some o → fld v 0 11 + n ≤ o.1 ∨ o.1 + o.2 ≤ fld v 0 11) ∧
             ((((List.range 64).filter (· ≠ j)).filterMap s.txgBeams).map (·.2)).sum + n ≤ 512
           (bit v 31 = true → good → t.rb (0xD08000 + 4 * j) 31 = true ∧ t.rb (0xD08000 + 4 * j) 30 = false) ∧
           (bit v 31 = true → ¬ good → t.rb (0xD08000 + 4 * j) 31 = false ∧ t.rb (0xD08000 + 4 * j) 30 = true) ∧
           (bit v 31 = false → t.rb (0xD08000 + 4 * j) 31 = false ∧ t.rb (0xD08000 + 4 * j) 30 = s.rb (0xD08000 + 4 * j) 30)))) ∧
      ((s.txgBlock j v).isSome = true → Completes (.glzTxgEnable j v) s (fun t => Apart s t ∧ MemSame s t ∧ RegsBut [] s t ∧
        sget (fun _ => 0) t.beam.txgPend j = v))) ∧
    (∀ j v, s.gradeC = true → Completes (.glzTxgEnable j v) s (fun t => t = s)) ∧
    (∀ m p w e j bo, s.placedBlock m = some p → s.closable m (p.desc.n / 64) p.desc.c3 = some w → (s.block m).eraAt (128 * w.blk) = some e →
      s.emits = true → s.pair.hold = [] → s.beam.txgPend = [] → j < 64 → s.txgBeams j = some bo → bo.1 / 64 = m →
      w.chan < 2 ^ 16 → 128 * w.blk < 2 ^ 48 →
      (∀ i, i < 64 → i ≠ j → ∀ o, s.txgBeams i = some o → o.1 / 64 ≠ m) →
      let n := s.rf (0xD08000 + 4 * j) 24 5
      let q := tget [] s.beam.txq n
      Completes (.beamWindowClose m none) s (fun t => Apart s t ∧ t.csram = s.csram ∧ t.host = s.host ∧
        (s.laneState (.tx n) = 4 → q.length < 16 → t.reg (0xD08104 + 8 * n) = s.reg (0xD08104 + 8 * n) ∧
          ∃ f, tget [] t.beam.txq n = q ++ [f] ∧ f.length = 4128 ∧ field f 0 2 = s.rf 0xD0000C 0 12 + 16384 ∧ field f 4 2 = w.chan ∧
            field f 6 2 = bo.1 ∧ field f 8 6 = 128 * w.blk ∧ field f 16 2 = 4096) ∧
        (s.laneState (.tx n) ≠ 4 ∨ 16 ≤ q.length → tget [] t.beam.txq n = q ∧ Counted s t (0xD08104 + 8 * n) 1) ∧
        (∀ i, i ≠ n → tget [] t.beam.txq i = tget [] s.beam.txq i))) ∧
    (∀ n, n < s.nTx → s.emits = true → s.laneState (.tx n) = 4 →
      (s.lnMode (.tx n) ≠ 0 → Completes (.txBeamFrameSent n) s (fun t => t = s)) ∧
      (∀ f rest, s.lnMode (.tx n) = 0 → s.heldFrame n = none → tget [] s.beam.txq n = f :: rest →
        Completes (.txBeamFrameSent n) s (fun t => Apart s t ∧ MemSame s t ∧ RegsBut [0xD08100 + 8 * n] s t ∧
          tget [] t.beam.txq n = rest ∧ t.beam.sent = (n, frameBlocks f) :: s.beam.sent ∧ t.pair.hold = s.pair.hold ∧
          Counted s t (0xD08100 + 8 * n) 1)) ∧
      (∀ e, s.lnMode (.tx n) = 0 → s.heldFrame n = some e → s.holdServes e.blocks = true → s.err.upsets = [] →
        Completes (.txBeamFrameSent n) s (fun t => Apart s t ∧ MemSame s t ∧ RegsBut [0xD08100 + 8 * n] s t ∧
          t.beam.txq = s.beam.txq ∧ t.beam.sent = (n, frameBlocks (s.heldBytes e)) :: s.beam.sent ∧
          t.pair.hold = s.pair.hold.erase e ∧ Counted s t (0xD08100 + 8 * n) 1)))

/-- At a restart whose earlier outputs are all out and whose index the samples of the block have reached, with no error
stored, an enabled group that passes the checks of R147 runs from the index with the settings of its registers
(response, L and D of its preset or of RESP, LEN and DEC; POWER or STOKES; REDQ; the mask; the ring), its outputs
begin anew from the samples at or after the index, and ACTIVE shows. One that fails a check is inactive, with ERR and
a cause that fails: 1, the ring is no DROP ring of format DETECT; 2, L is 0 or beyond 65,536; 3, D is not whole; 4,
the response has m = 0 or is a half form with L odd; 5, the block is not placed. (Of several the lowest is shown,
which is the model's choice of log 89.) One not enabled is inactive, without ERR. On a part that emits and holds
nothing, the next output of a channel, the group's next in order of its last sample and then of channel, once its last
sample is formed, is written as one DETECT record to the ring of the group (dropped and counted if the ring is full or
disabled), RSEQ counts it, and the next output of the channel follows. [R141, R142, R143, R144, R145, R146, R147] -/
def Obligations.DetectionGroupsRestartAndOutput : Prop :=
  ∀ (s : State) (g : Nat), s.up = true → g < 24 →
    (∀ nr rest, (s.grp g).restarts = nr :: rest → s.olderDone g nr = true → s.reached g nr = true → s.err.upsets = [] →
      let ctl := s.reg (0xD80000 + 0x10 * g)
      let q := DetAsked ctl
      let r := s.rf (0xD80004 + 0x10 * g) 0 15
      let ringGood := r < s.nRings ∧ s.rDrop r = true ∧ s.rFmt r = 1
      let lenGood := 1 ≤ q.2.1 ∧ q.2.1 ≤ 65536
      let decGood := q.2.1 % q.2.2 = 0
      let formGood := 1 ≤ q.2.1 / [1, 2, 2, 4, 3, 6, 4, 8].getD q.1 1 ∧ (q.1 % 2 = 1 → q.2.1 % 2 = 0)
      let placed := (s.placedBlock g).isSome = true
      let all_ := ringGood ∧ lenGood ∧ decGood ∧ formGood ∧ placed
      Completes (.detGroupRestart g) s (fun t => Apart s t ∧ MemSame s t ∧ RegsBut [0xD80200 + 4 * g] s t ∧
        (t.grp g).nr = nr ∧ (t.grp g).restarts = rest ∧
        (bit ctl 31 = true → all_ →
          (t.grp g).active = true ∧ t.rb (0xD80200 + 4 * g) 31 = true ∧ t.rb (0xD80200 + 4 * g) 30 = false ∧
          t.rf (0xD80200 + 4 * g) 0 4 = 0 ∧ (t.grp g).ring = r ∧ (t.grp g).stokes = bit ctl 30 ∧ (t.grp g).resp = q.1 ∧
          (t.grp g).len = q.2.1 ∧ (t.grp g).dec = q.2.1 / q.2.2 ∧ (t.grp g).redq = fld ctl 20 2 ∧
          (t.grp g).mask = s.reg64 (0xD80008 + 0x10 * g) ∧
          (∀ c, let d := tget DetChan.init (t.grp g).chans c
            d.coarse = 0 ∧ d.fine = 0 ∧ d.any_ = false ∧
            d.wins = (tget DetChan.init (s.grp g).chans c).wins.filter (fun w => decide (nr ≤ 128 * w.blk)))) ∧
        (bit ctl 31 = true → ¬ all_ →
          (t.grp g).active = false ∧ t.rb (0xD80200 + 4 * g) 31 = false ∧ t.rb (0xD80200 + 4 * g) 30 = true ∧
          t.rf (0xD80200 + 4 * g) 0 4 =
            (if ¬ ringGood then 1 else if ¬ lenGood then 2 else if ¬ decGood then 3 else if ¬ formGood then 4 else 5)) ∧
        (bit ctl 31 = false → (t.grp g).active = false ∧ t.rb (0xD80200 + 4 * g) 31 = false ∧
          t.rb (0xD80200 + 4 * g) 30 = false ∧ t.rf (0xD80200 + 4 * g) 0 4 = 0))) ∧
    (∀ c coarse n last, (s.grp g).active = true → (∀ q rest, (s.grp g).restarts = q :: rest → last < q) → c ∈ s.grpChans g →
      (s.grp g).next (tget DetChan.init (s.grp g).chans c) = (coarse, n, last) →
      (∃ w ∈ (tget DetChan.init (s.grp g).chans c).wins, last / 128 ≤ w.blk) →
      (∀ x ∈ s.grpChans g, x ≠ c → last < ((s.grp g).next (tget DetChan.init (s.grp g).chans x)).2.2 ∨
        (last = ((s.grp g).next (tget DetChan.init (s.grp g).chans x)).2.2 ∧ c < x)) →
      s.emits = true → s.pair.hold = [] → s.err.upsets = [] → s.rDrop (s.grp g).ring = true →
      (s.rng (s.grp g).ring).lost = [] →
      let r := (s.grp g).ring
      let len := if (s.grp g).stokes then 9 else 5
      let at_ := s.rBase r + (s.rng r).head % s.rSize r * 64
      Completes (.detectOutput g c) s (fun t => Apart s t ∧ t.hbm = s.hbm ∧ t.csram = s.csram ∧
        (t.rng r).rseq = ((s.rng r).rseq + 1) % 2 ^ 32 ∧
        (let d := tget DetChan.init (s.grp g).chans c
         let e := tget DetChan.init (t.grp g).chans c
         e.any_ = true ∧ (if coarse then e.coarse = d.coarse + 1 ∧ e.fine = d.fine else e.fine = d.fine + 1 ∧ e.coarse = d.coarse)) ∧
        (s.rEn r = true → len ≤ s.rFree r → (s.rng r).head % s.rSize r + len ≤ s.rSize r →
          rdLe t.host at_ 1 = 0x10 ∧ rdLe t.host (at_ + 1) 1 = g ∧ rdLe t.host (at_ + 2) 2 = len ∧
          rdLe t.host (at_ + 4) 4 = n % 2 ^ 32 ∧ rdLe t.host (at_ + 16) 6 = last % 2 ^ 48 ∧ rdLe t.host (at_ + 22) 2 = c % 2 ^ 16 ∧
          (∀ a, a < at_ ∨ at_ + 64 * len ≤ a → rd8 t.host a = rd8 s.host a)) ∧
        (s.rEn r = false ∨ s.rFree r < len → t.host = s.host ∧
          (t.reg (0x110001C + 0x20 * r)).toNat = min ((s.reg (0x110001C + 0x20 * r)).toNat + 1) 0xFFFFFFFF)))

/-- A slot with units of PULSE, RUNT, SLEW or NONE takes the samples of a step together. One with a loss meets nothing and
ends runs and history; without, PULSE is met as a run of width w_min to w_max ends, RUNT as a run that never exceeded
H ends within w_max, SLEW where the difference over k samples exceeds s and did not at the sample before. C0 goes
before C1, and X is taken where neither is met and the window has passed: the slot moves to the state its entry gives,
with n_in at the last of the step, counting a request where TRIG is set, unless a TIMEOUT has been taken at this
instant; with no event nothing moves. A TIMEOUT of a unit that has run out is met (of unit 1 once neither unit 0 has
run out nor a step that is ready gives C0, which go first); its event is taken at once, unless the slot has taken one
at this instant. Neither writes device memory but where the engine is ARMED. [R152, R153, R154, R155] -/
def Obligations.ConditionsDriveTheSlotTable : Prop :=
  ∀ (s : State) (e i : Nat), s.up = true → s.role ≤ 1 → e < s.nEng → i < 16 → (s.slot (16 * e + i)).armed = true →
    let v := s.slot (16 * e + i)
    let w := s.reg (0xE01060 + 0x10000 * e + 0x100 * i + 4 * v.st)
    let win := fld w 0 20
    let trig := 0xE01080 + 0x10000 * e + 0x100 * i
    let moved := fun (t : State) (ev last : Nat) (out : Bool) =>
      (t.slot (16 * e + i)).st = fld w (28 - 4 * ev) 3 ∧ (t.slot (16 * e + i)).nIn = last ∧
      (t.slot (16 * e + i)).evAt = some (t.time.ticks, out) ∧
      (t.reg trig).toNat = min ((s.reg trig).toNat + (if bit w (31 - 4 * ev) then 1 else 0)) 0xFFFFFFFF
    let kept := fun (t : State) => (t.slot (16 * e + i)).st = v.st ∧ (t.slot (16 * e + i)).nIn = v.nIn ∧
      (t.slot (16 * e + i)).evAt = v.evAt ∧ RegsBut [] s t ∧ (∀ j, t.ltn j = s.ltn j)
    let apart := fun (t : State) => Apart s t ∧ t.csram = s.csram ∧ t.host = s.host ∧ ((s.ltn e).state ≠ 2 → t.hbm = s.hbm) ∧
      (∀ j, j ≠ 16 * e + i → t.slot j = s.slot j) ∧ (∀ j, j ≠ e → t.ltn j = s.ltn j) ∧ (t.slot (16 * e + i)).armed = true
    (∀ (l : Nat), (∃ u, u < 2 ∧ s.unitKind e i u ≠ 0) →
      (∀ u, u < 2 → s.unitKind e i u = 0 ∨ (s.unitKind e i u ∈ [1, 2, 4] ∧
        ∃ x, (v.unit u).queue.head? = some x ∧ x.restart = false ∧ x.last = l)) →
      let met := fun (u : Nat) => s.unitKind e i u ≠ 0 ∧ ∃ x, (v.unit u).queue.head? = some x ∧ x.loss = false ∧
        (let p := s.unitPar e i u
         (p.kind = 1 ∧ x.val ≤ p.hi ∧ ∃ q, (v.unit u).run = some q ∧ p.wmin ≤ q.1 ∧ q.1 ≤ p.wmax) ∨
         (p.kind = 2 ∧ x.val ≤ p.lo ∧ ∃ q, (v.unit u).run = some q ∧ q.2 = false ∧ q.1 ≤ p.wmax) ∨
         (p.kind = 4 ∧ (v.unit u).slew = false ∧ ∃ y, (v.unit u).hist[p.k - 1]? = some y ∧ p.hi < x.val - y))
      let x := ¬ met 0 ∧ ¬ met 1 ∧ win ≠ 0 ∧ v.nIn + 128 * win ≤ l
      Completes (.ltnStreamSample e i) s (fun t => apart t ∧ t.time = s.time ∧ (t.slot (16 * e + i)).last = l ∧
        (∀ u y rest, u < 2 → s.unitKind e i u ≠ 0 → (v.unit u).queue = y :: rest →
          ((t.slot (16 * e + i)).unit u).queue = rest ∧
          (y.loss = true → ((t.slot (16 * e + i)).unit u).run = none ∧ ((t.slot (16 * e + i)).unit u).hist = [])) ∧
        (v.evAt ≠ some (s.time.ticks, true) →
          (met 0 → moved t 0 l false) ∧ (¬ met 0 → met 1 → moved t 1 l false) ∧ (x → moved t 2 l false)) ∧
        (v.evAt = some (s.time.ticks, true) ∨ (¬ met 0 ∧ ¬ met 1 ∧ ¬ x) → kept t))) ∧
    (∀ u dt, u < 2 → s.unitKind e i u = 3 → (v.unit u).met = false →
      s.unitTimeout e i u * 5 < 8 * (s.time.ticks + dt - (v.unit u).since) →
      (u = 1 → s.timedOut e i 0 (s.time.ticks + dt) = false ∧ s.stepC0 e i = false) →
      Completes (.ltnTimeout e i u dt) s (fun t => apart t ∧ t.time.ticks = s.time.ticks + dt ∧
        ((t.slot (16 * e + i)).unit u).met = true ∧ (t.slot (16 * e + i)).last = v.last ∧
        ((∀ b, v.evAt ≠ some (s.time.ticks + dt, b)) → moved t u v.last true) ∧
        (∀ b, v.evAt = some (s.time.ticks + dt, b) → (t.slot (16 * e + i)).st = v.st ∧ (t.slot (16 * e + i)).nIn = v.nIn ∧
          t.reg trig = s.reg trig ∧ (∀ j, t.ltn j = s.ltn j))))

/-- With no item waiting, and where the next block index is released in every channel of the set, no beam sample is still
to come and the controllers serve the buffer, its blocks go to position k mod N_K of the current buffer, each at its
channel, with the first sample index and the channel in its header, and in FILLING or ARMED no other byte of device
memory changes; P + 1 blocks arm a FILLING engine and end its dead time. A window that is whole, or that this block
makes whole, freezes the buffer with the capture counted, the freeze at TIM_NS as it stands (or as an item gave it),
where the controllers serve the whole buffer, and nothing is written over a window already whole. [R156, R157, R158,
R159, R160] -/
def Obligations.EnginesFillAndFreezeBuffers : Prop :=
  ∀ (s : State) (e k : Nat) (p : EngPlace) (xs : List (Nat × Slot)), s.up = true → s.role ≤ 1 → s.placedEng e = some p →
    (s.ltn e).next = some k → s.engSlots p.desc k = some xs → xs.any (fun q => s.beamsDue p.desc q.1 q.2) = false →
    s.capServes e k p = true → (s.ltn e).items = [] → 1 ≤ p.desc.nk → e < 4 →
    let v := s.ltn e
    let adr := fun c => p.base + v.cur * p.stride + ((k % p.desc.nk) * p.desc.chCount + (c - p.desc.chFirst)) * p.desc.blockBytes
    (v.state = 1 ∨ v.state = 2 → Completes (.ltnBlockWrite e) s (fun t => Apart s t ∧ t.csram = s.csram ∧ t.host = s.host ∧
      (t.ltn e).next = some (k + 1) ∧ (t.ltn e).count = v.count + 1 ∧ (t.ltn e).cur = v.cur ∧
      (t.ltn e).frozen = v.frozen ∧ (t.ltn e).toWrite = v.toWrite ∧ (t.ltn e).cap = v.cap ∧ (∀ j, j ≠ e → t.ltn j = s.ltn j) ∧
      (v.state = 1 → (t.ltn e).state = if p.desc.pre + 1 ≤ v.count + 1 then 2 else 1) ∧ (v.state = 2 → (t.ltn e).state = 2) ∧
      (v.state = 1 → p.desc.pre + 1 ≤ v.count + 1 → ∀ t0, v.deadFrom = some t0 → (t.ltn e).deadFrom = none ∧
        (t.ltn e).deadTicks = v.deadTicks + (s.time.ticks - t0) ∧ (t.ltn e).prevIgn = v.ignNow) ∧
      (∀ q ∈ xs, rdBytes t.hbm (adr q.1) p.desc.blockBytes = s.capBlock p.desc q.2 q.1 ∧
        rdLe t.hbm (adr q.1) 6 = 128 * q.2.blk % 2 ^ 48 ∧ rdLe t.hbm (adr q.1 + 6) 2 = q.1 % 2 ^ 16) ∧
      (∀ a, (∀ q ∈ xs, a < adr q.1 ∨ adr q.1 + p.desc.blockBytes ≤ a) → rd8 t.hbm a = rd8 s.hbm a))) ∧
    (∀ c, v.state = 3 → v.cap = some c → s.freezeServes e p = true → c.t / 128 - p.desc.pre + p.desc.nk ≤ k + 1 →
      Completes (.ltnBlockWrite e) s (fun t => Apart s t ∧ t.csram = s.csram ∧ t.host = s.host ∧
        v.cur ∈ (t.ltn e).frozen ∧ (t.ltn e).cap = none ∧ (∀ j, j ≠ e → t.ltn j = s.ltn j) ∧
        (∃ d, (t.ltn e).toWrite = v.toWrite ++ [d] ∧ d.t = c.t ∧ d.acceptNs = c.acceptNs ∧ d.freezeNs = (if c.known then c.freezeNs else s.ns) ∧ d.known = true ∧
          (d.missed = true ↔ c.t / 128 - p.desc.pre < v.firstBlk)) ∧
        (c.t / 128 - p.desc.pre + p.desc.nk ≤ k → ∀ q ∈ xs, ∀ x, x < p.desc.blockBytes →
          adr q.1 + x < p.stats v.cur → rd8 t.hbm (adr q.1 + x) = rd8 s.hbm (adr q.1 + x)) ∧
        (t.reg (0xE00080 + 0x10000 * e)).toNat = min ((s.reg (0xE00080 + 0x10000 * e)).toNat + 1) 0xFFFFFFFF))

/-- Outside a pair, with nothing held or lost, the oldest capture gives one record with TYPE 0x20, its engine, CSEQ and
trigger index at the positions of R162 where the ring has room, no other byte of host memory changes, CSEQ and RSEQ go
up by 1 and LTN_FROZEN is published. Where the ring is off, or full under DROP, the record is dropped and counted,
CSEQ and RSEQ going up as well; where it is full under STALL the capture waits. A write of LTN_ENG_REL releases the
buffers named and no other, on an ACTIVE part whether the replay buffer has room for its item or not (R346; log 101),
and a part that stands by ignores it (R349). [R162, R248, R346, R349] -/
def Obligations.CapturesAreRecordedAndReleased : Prop :=
  ∀ (s : State) (e : Nat), s.up = true → e < 4 → e < s.nEng →
    (∀ p c rest, s.role ≤ 1 → s.placedEng e = some p → (s.ltn e).toWrite = c :: rest → c.known = true → c.missed = false →
      s.foghorn = false → s.pair.hold = [] → s.err.upsets = [] → (s.rng (s.rf (0xE00000 + 0x10000 * e) 0 15)).lost = [] →
      let r := s.rf (0xE00000 + 0x10000 * e) 0 15
      let at_ := s.rBase r + (s.rng r).head % s.rSize r * 64
      let gone := fun (t : State) => (t.ltn e).cseq = ((s.ltn e).cseq + 1) % 2 ^ 32 ∧ (t.ltn e).toWrite = rest ∧
        (t.rng r).rseq = ((s.rng r).rseq + 1) % 2 ^ 32 ∧ Published s t (65 + 4 * e)
      (s.rEn r = true → 2 ≤ s.rFree r → (s.rng r).head % s.rSize r + 2 ≤ s.rSize r →
        Completes (.ltnCaptureRecord e) s (fun t => Apart s t ∧ t.hbm = s.hbm ∧ t.csram = s.csram ∧
          rdLe t.host at_ 1 = 0x20 ∧ rdLe t.host (at_ + 1) 1 = e ∧ rdLe t.host (at_ + 4) 4 = (s.ltn e).cseq % 2 ^ 32 ∧
          rdLe t.host (at_ + 16) 6 = c.t % 2 ^ 48 ∧ rdLe t.host (at_ + 30) 1 = c.buffer % 256 ∧
          rdLe t.host (at_ + 56) 4 = c.acceptNs.toNat ∧ rdLe t.host (at_ + 60) 4 = c.freezeNs.toNat ∧
          (∀ a, a < at_ ∨ at_ + 128 ≤ a → rd8 t.host a = rd8 s.host a) ∧ gone t)) ∧
      (s.rEn r = false ∨ (s.rFree r < 2 ∧ s.rDrop r = true) → Completes (.ltnCaptureRecord e) s (fun t => Apart s t ∧ MemSame s t ∧
          gone t ∧ (t.reg (0x110001C + 0x20 * r)).toNat = min ((s.reg (0x110001C + 0x20 * r)).toNat + 1) 0xFFFFFFFF)) ∧
      (s.rEn r = true → s.rFree r < 2 → s.rDrop r = false → Completes (.ltnCaptureRecord e) s (fun t => Apart s t ∧ MemSame s t ∧
          t.ltn e = s.ltn e ∧ RegsBut [] s t ∧ t.bcn = s.bcn))) ∧
    (∀ v, s.standby = false → Completes (.ltnBufferRelease e v) s (fun t => Apart s t ∧ MemSame s t ∧
      (t.ltn e).frozen = (s.ltn e).frozen.filter (fun b => !(fld v 0 16).testBit b) ∧ (t.ltn e).toWrite = (s.ltn e).toWrite ∧
      (∀ j, j ≠ e → t.ltn j = s.ltn j) ∧
      ((s.ltn e).state ≠ 4 → t.ltn e = { s.ltn e with frozen := (t.ltn e).frozen } ∧ RegsBut [0x60010C] s t ∧
        (s.role ≠ 2 → RegsBut [] s t)))) ∧
    (∀ v, s.standby = true → Completes (.ltnBufferRelease e v) s (fun t => t = s))

/-- Where core k issues the word: ADD and ADDI give ws + wt or ws + imm, SUB ws − wt, NEG −ws, ABS |ws|; a result that
does not fit is the nearer limit with SATW = 1, else modulo 2¹⁶. Z and N come from the result, C from carry or no
borrow (cleared by NEG and ABS), V from the overflow of the exact result, VS is set with V. CMP and CMPI set the flags
of the difference modulo 2¹⁶ and write no register. One cycle and one instruction are counted; no other register,
memory or core changes. That SATW leaves CMP alone is the model's reading. [R194, R197, R200, R206] -/
def Obligations.KeeperSumsSetTheirFlags : Prop :=
  ∀ (s : State) (k : Nat) (d a b : BitVec 4) (imm : W16),
    let c := s.core k
    let x := c.getW a
    let run := fun (i : Instr) (w : W32) (v : Int) (cy : Bool) => KReady s k w → Completes i s (fun t =>
      KAlu s t k [d] ∧ (t.core k).getW d = KNarrow c v ∧ KFlags c (t.core k) (KNarrow c v) (some cy) (some (Exceeds 16 v)))
    let cmp := fun (i : Instr) (w : W32) (y : W16) => KReady s k w → Completes i s (fun t =>
      KAlu s t k [] ∧ KFlags c (t.core k) (x - y) (some (decide (y.toNat ≤ x.toNat))) (some (Exceeds 16 (x.toInt - y.toInt))))
    run (.kAdd k d a b) (encR 0x01 d a b 0 0) (x.toInt + (c.getW b).toInt) (decide (65536 ≤ x.toNat + (c.getW b).toNat)) ∧
    run (.kSub k d a b) (encR 0x02 d a b 0 0) (x.toInt - (c.getW b).toInt) (decide ((c.getW b).toNat ≤ x.toNat)) ∧
    run (.kAddi k d a imm) (encI 0x03 d a imm) (x.toInt + imm.toInt) (decide (65536 ≤ x.toNat + imm.toNat)) ∧
    run (.kNeg k d a) (encR 0x10 d a 0 0 0) (-x.toInt) false ∧
    run (.kAbs k d a) (encR 0x11 d a 0 0 0) (if x.toInt < 0 then -x.toInt else x.toInt) false ∧
    cmp (.kCmp k a b) (encR 0x0D 0 a b 0 0) (c.getW b) ∧
    cmp (.kCmpi k a imm) (encI 0x0E 0 a imm) imm

/-- Where core k issues the word: bitwise instructions and shifts by 0 to 31 give their result, set Z and N and clear V;
SHL and LSR by 16 or more give 0, ASR the sign fill. MOVI writes its immediate and no flag. EXP gives the redundant
sign bits h of ws, that is h ≥ j exactly where −2^(15 − j) ≤ ws < 2^(15 − j), and sets Z and N. BEXP lowers be to it.
NOP changes nothing. One cycle and one instruction are counted, and nothing else changes. [R194, R197, R198, R200,
R201] -/
def Obligations.KeeperLogicShiftsAndMoves : Prop :=
  ∀ (s : State) (k : Nat) (d a b : BitVec 4) (n : Count) (imm : W16),
    let c := s.core k
    let x := c.getW a
    let cnt := match n with | .imm v => v.toNat | .reg r => (c.getW r).toNat % 32
    let run := fun (i : Instr) (w : W32) (r : W16) => KReady s k w → Completes i s (fun t =>
      KAlu s t k [d] ∧ (t.core k).getW d = r ∧ KFlags c (t.core k) r none (some false))
    run (.kAnd k d a b) (encR 0x04 d a b 0 0) (x &&& c.getW b) ∧ run (.kOr k d a b) (encR 0x05 d a b 0 0) (x ||| c.getW b) ∧
    run (.kXor k d a b) (encR 0x06 d a b 0 0) (x ^^^ c.getW b) ∧ run (.kAndi k d a imm) (encI 0x07 d a imm) (x &&& imm) ∧
    run (.kOri k d a imm) (encI 0x08 d a imm) (x ||| imm) ∧ run (.kXori k d a imm) (encI 0x09 d a imm) (x ^^^ imm) ∧
    run (.kShl k d a n) (encShift 0x0A d a n) (BitVec.ofNat 16 (x.toNat * 2 ^ cnt)) ∧
    run (.kAsr k d a n) (encShift 0x0B d a n) (BitVec.ofInt 16 (x.toInt / 2 ^ cnt)) ∧
    run (.kLsr k d a n) (encShift 0x0C d a n) (BitVec.ofNat 16 (x.toNat / 2 ^ cnt)) ∧
    (KReady s k (encI 0x0F d 0 imm) → Completes (.kMovi k d imm) s (fun t => KAlu s t k [d] ∧ (t.core k).getW d = imm ∧
      (t.core k).st = c.st ∧ (t.core k).be = c.be)) ∧
    (∀ h, IsExp 16 x.toInt h →
      (KReady s k (encR 0x12 d a 0 0 0) → Completes (.kExp k d a) s (fun t => KAlu s t k [d] ∧
        ((t.core k).getW d).toNat = h ∧ KFlags c (t.core k) (BitVec.ofNat 16 h) none none)) ∧
      (KReady s k (encR 0x13 0 a 0 0 0) → Completes (.kBexp k a) s (fun t => KAlu s t k [] ∧ (t.core k).st = c.st ∧
        (t.core k).be.toNat = min c.be.toNat h))) ∧
    (KReady s k 0 → Completes (.kNop k) s (fun t => KAlu s t k [] ∧ (t.core k).st = c.st ∧ (t.core k).be = c.be))

/-- Where core k issues the word: MUL, MAC, MSU take the product T selects, LAC ws·2^s, SHA the accumulator scaled
(floored for s < 0), ADDA the sum or difference, CLRA 0; the exact value is stored modulo 2⁴⁰ or at the nearer limit
with SATA = 1, and AV and AVS follow its overflow. RND writes ⌊(a + 2^(s−1)) / 2^s⌋, or a for s = 0, clamped to 16
bits, with V for a clamp; EXPA the redundant sign bits of the 40-bit accumulator. RND, EXPA and the a2 of ADDA read
the accumulator as it was before the instruction just before. Nothing else changes. [R202, R203, R207] -/
def Obligations.KeeperAccumulates : Prop :=
  ∀ (s : State) (k : Nat) (a a2 : BitVec 1) (ty : BitVec 2) (x y d : BitVec 4) (sh : BitVec 6) (n : RndShift),
    let c := s.core k
    let acc := fun (i : Instr) (w : W32) (v : Int) => KReady s k w → Completes i s (fun t => KRan s t k ∧ KNext c (t.core k) ∧
      KFrame [] [a] [] c (t.core k) ∧ (t.core k).dmem = c.dmem ∧ KAccWrite c (t.core k) a v)
    let p := KProd ty (c.getW x) (c.getW y)
    let v := (c.getA a).toInt
    let o := (c.getAOld a).toInt
    let sft := match n with | .imm q => min q.toNat 39 | .reg r => min ((c.getW r).toNat % 64) 39
    let r : Int := if sft = 0 then o else (o + 2 ^ (sft - 1)) / 2 ^ sft
    let w : W16 := if 32767 < r then 0x7FFF else if r < -32768 then 0x8000 else BitVec.ofInt 16 r
    acc (.kMul k a ty x y) (encA 0x14 a ty 0 x y 0 0 0) p ∧ acc (.kMac k a ty x y) (encA 0x15 a ty 0 x y 0 0 0) (v + p) ∧
    acc (.kMsu k a ty x y) (encA 0x16 a ty 0 x y 0 0 0) (v - p) ∧
    acc (.kLac k a x sh) (encA 0x19 a 0 0 x 0 sh 0 0) ((c.getW x).toInt * 2 ^ sh.toNat) ∧
    acc (.kSha k a sh) (encA 0x1A a 0 0 0 0 sh 0 0) (if 0 ≤ sh.toInt then v * 2 ^ sh.toInt.toNat else v / 2 ^ (-sh.toInt).toNat) ∧
    acc (.kAdda k a a2 ty) (encA 0x1B a ty a2 0 0 0 0 0) (if ty = 0 then v + (c.getAOld a2).toInt else v - (c.getAOld a2).toInt) ∧
    acc (.kClra k a) (encA 0x1C a 0 0 0 0 0 0 0) 0 ∧
    (KReady s k (encRnd d a n) → Completes (.kRnd k d a n) s (fun t => KAlu s t k [d] ∧ (t.core k).getW d = w ∧
      KFlags c (t.core k) w none (some (Exceeds 16 r)))) ∧
    (∀ h, IsExp 40 o h → KReady s k (encA 0x1D a 0 0 0 0 0 0 d) → Completes (.kExpa k d a) s (fun t => KAlu s t k [d] ∧
      ((t.core k).getW d).toNat = h ∧ KFlags c (t.core k) (BitVec.ofNat 16 h) none none))

/-- Modes 0 and 4 address p + imm and p + m and leave p; modes 1, 2, 3 and 5 address p and step it by m, by m within the
circular buffer of l words that starts at a multiple of the least power of two at or above l, by imm, and by m with
reversed carry over bits 15 to 0; arithmetic is modulo 2²⁴ with m and imm sign-extended. LIP loads its sign-extended
immediate, ADDP adds one; they change no flag, no other register and no memory. [R199, R204] -/
def Obligations.KeeperPointersStep : Prop :=
  ∀ (s : State) (k : Nat) (p : BitVec 3) (imm : W16) (imm23 : BitVec 23),
    let c := s.core k
    let v := c.getP p
    let m := (c.getM p).signExtend 24
    let one := fun (i : Instr) (w : W32) (x : W24) => KReady s k w → Completes i s (fun t => KRan s t k ∧ KNext c (t.core k) ∧
      KFrame [] [] [p] c (t.core k) ∧ (t.core k).getP p = x ∧ (t.core k).st = c.st ∧ (t.core k).be = c.be ∧
      (t.core k).dmem = c.dmem)
    one (.kLip k p imm23) (encP 0x25 p imm23) (imm23.signExtend 24) ∧
    one (.kAddp k p imm) (encM 0x26 0 p 0 imm) (v + imm.signExtend 24) ∧
    ea c p 0 imm = (v + imm.signExtend 24, v) ∧ ea c p 1 imm = (v, v + m) ∧ ea c p 3 imm = (v, v + imm.signExtend 24) ∧
    ea c p 4 imm = (v + m, v) ∧
    (c.getL p = 0 → ea c p 2 imm = (v, v + m)) ∧
    (∀ j, c.getL p ≠ 0 → (c.getL p).toNat ≤ 2 ^ j → (∀ i, (c.getL p).toNat ≤ 2 ^ i → j ≤ i) → ∃ off : Nat,
      ((off : Int) = (((v.toNat % 2 ^ j : Nat) : Int) + (c.getM p).toInt) % ((c.getL p).toNat : Int)) ∧
      (ea c p 2 imm).1 = v ∧ (ea c p 2 imm).2.toNat = v.toNat / 2 ^ j * 2 ^ j + off) ∧
    (ea c p 5 imm).1 = v ∧ (ea c p 5 imm).2.toNat / 65536 = v.toNat / 65536 ∧
    ((ea c p 5 imm).2.setWidth 16).reverse = (v.setWidth 16).reverse + (c.getM p).reverse

/-- Where core k issues the word and the address lies in its own data memory, LD and LDL load one or two words, ST, STX
and STL store one or two, STX lowers be to the headroom of the value, and the pointer steps; DMAC accumulates the
product of the old pair and then loads it through its two pointers. No other word of data memory, no other register
and no flag changes, but for AV and AVS of DMAC. LDL and STL need an even address. [R190, R199, R202, R204] -/
def Obligations.KeeperLoadsAndStoresItsOwnMemory : Prop :=
  ∀ (s : State) (k : Nat) (d : BitVec 4) (p mode : BitVec 3) (imm : W16),
    let c := s.core k
    let e := ea c p mode imm
    let word := fun (c : Core) (a : Nat) => rdLe c.dmem (2 * a) 2
    let base := fun (t : State) (ws : List (BitVec 4)) => KRan s t k ∧ KNext c (t.core k) ∧ KFrame ws [] [p] c (t.core k) ∧
      (t.core k).getP p = e.2 ∧ (t.core k).st = c.st
    (e.1.toNat < 0x8000 → KReady s k (encM 0x20 d p mode imm) → Completes (.kLd k d p mode imm none) s (fun t => base t [d] ∧
      (t.core k).be = c.be ∧ (t.core k).dmem = c.dmem ∧ ((t.core k).getW d).toNat = word c e.1.toNat)) ∧
    (e.1.toNat < 0x8000 → e.1.toNat % 2 = 0 → KReady s k (encM 0x23 d p mode imm) → Completes (.kLdl k d p mode imm none) s (fun t =>
      base t [d, d + 1] ∧ (t.core k).be = c.be ∧ (t.core k).dmem = c.dmem ∧ ((t.core k).getW d).toNat = word c e.1.toNat ∧
      ((t.core k).getW (d + 1)).toNat = word c (e.1.toNat + 1))) ∧
    (e.1.toNat < 0x8000 → KReady s k (encM 0x21 d p mode imm) → Completes (.kSt k d p mode imm) s (fun t => base t [] ∧
      (t.core k).be = c.be ∧ word (t.core k) e.1.toNat = (c.getW d).toNat ∧
      (∀ a, a ≠ e.1.toNat → word (t.core k) a = word c a))) ∧
    (∀ h, e.1.toNat < 0x8000 → IsExp 16 (c.getW d).toInt h → KReady s k (encM 0x22 d p mode imm) →
      Completes (.kStx k d p mode imm) s (fun t => base t [] ∧ (t.core k).be.toNat = min c.be.toNat h ∧
      word (t.core k) e.1.toNat = (c.getW d).toNat ∧ (∀ a, a ≠ e.1.toNat → word (t.core k) a = word c a))) ∧
    (e.1.toNat < 0x8000 → e.1.toNat % 2 = 0 → KReady s k (encM 0x24 d p mode imm) → Completes (.kStl k d p mode imm) s (fun t =>
      base t [] ∧ (t.core k).be = c.be ∧ word (t.core k) e.1.toNat = (c.getW d).toNat ∧
      word (t.core k) (e.1.toNat + 1) = (c.getW (d + 1)).toNat ∧
      (∀ a, a ≠ e.1.toNat → a ≠ e.1.toNat + 1 → word (t.core k) a = word c a))) ∧
    (∀ (a : BitVec 1) (ty : BitVec 2) (n pj : BitVec 3) (ci cj : BitVec 1),
      (c.getP p).toNat < 0x8000 → (c.getP pj).toNat < 0x8000 → KReady s k (encD 0x17 a ty n p ci pj cj) →
      let w : BitVec 4 := n.setWidth 4 <<< 1
      Completes (.kDmac k a ty n p ci pj cj) s (fun t => KRan s t k ∧ KNext c (t.core k) ∧
        KFrame [w, w + 1] [a] [p, pj] c (t.core k) ∧ (t.core k).dmem = c.dmem ∧
        KAccWrite c (t.core k) a ((c.getA a).toInt + KProd ty (c.getW w) (c.getW (w + 1))) ∧
        ((t.core k).getW w).toNat = word c (c.getP p).toNat ∧ ((t.core k).getW (w + 1)).toNat = word c (c.getP pj).toNat ∧
        (t.core k).getP p = (ea c p (if ci = 0 then 1 else 2) 0).2 ∧ (t.core k).getP pj = (ea c pj (if cj = 0 then 1 else 2) 0).2))

/-- Where core k issues the word, a branch makes the next instruction its delay slot, after which control goes to the
target where the branch is taken, else to the address of the branch + 2: B by the condition codes, AO and NAO reading
AV with its lag; CALL always, with w15 the address + 2; JR to bits 13:0 of ws; BDNZ after ws goes down by 1, where it
is not 0. RETI returns after its delay slot. RPT sets rc and repeats the next instruction. WAITI waits where no
unmasked interrupt is pending. No other register changes. [R204, R205, R206, R208] -/
def Obligations.KeeperControlFlow : Prop :=
  ∀ (s : State) (k : Nat) (x cc : BitVec 4) (target : BitVec 14) (n : BitVec 12),
    let c := s.core k
    let z := c.st.getLsbD 0; let nn := c.st.getLsbD 1; let cy := c.st.getLsbD 2; let v := c.st.getLsbD 3; let av := c.avOld.getLsbD 0
    let taken := ([true, z, !z, nn != v, nn == v, z || nn != v, !z && nn == v, !cy, cy, nn, !nn, v, !v, av, !av])[cc.toNat]?
    let same := fun (t : State) (ws : List (BitVec 4)) => KRan s t k ∧ KFrame ws [] [] c (t.core k) ∧ (t.core k).dmem = c.dmem ∧
      (t.core k).st = c.st ∧ (t.core k).be = c.be ∧ (t.core k).pc = c.pc + 1
    let br := fun (t : State) (ws : List (BitVec 4)) (tgt : BitVec 14) => same t ws ∧ (t.core k).run = 1 ∧
      (t.core k).after = some (.goto tgt) ∧ (t.core k).rpt = false
    (∀ b, taken = some b → KReady s k (encB 0x28 cc 0 target) →
      Completes (.kB k cc target) s (fun t => br t [] (if b then target else c.pc + 2))) ∧
    (KReady s k (encB 0x29 0 0 target) → Completes (.kCall k target) s (fun t => br t [15] target ∧
      ((t.core k).getW 15).toNat = (c.pc + 2).toNat)) ∧
    (KReady s k (encB 0x2A 0 x 0) → Completes (.kJr k x) s (fun t => br t [] (BitVec.ofNat 14 (c.getW x).toNat))) ∧
    (KReady s k (encB 0x2B 0 x target) → Completes (.kBdnz k x target) s (fun t => (t.core k).getW x = c.getW x - 1 ∧
      br t [x] (if c.getW x = 1 then c.pc + 2 else target))) ∧
    (KReady s k (encB 0x2C 0 0 0) → Completes (.kReti k) s (fun t => same t [] ∧ (t.core k).run = 1 ∧
      (t.core k).after = some .reti)) ∧
    (KReady s k (encK 0x2D n) → Completes (.kRpt k n) s (fun t => KRan s t k ∧
      KFrame [] [] [] { c with rc := (t.core k).rc } (t.core k) ∧ (t.core k).st = c.st ∧ (t.core k).be = c.be ∧
      (t.core k).dmem = c.dmem ∧ (t.core k).pc = c.pc + 1 ∧ (t.core k).rpt = true ∧ (t.core k).run = 1 ∧
      (t.core k).rc.toNat = if n = 0 then 4096 else n.toNat)) ∧
    (KReady s k (encK 0x2E 0) → Completes (.kWaiti k) s (fun t => same t [] ∧ (t.core k).after = none ∧
      (t.core k).run = (if c.ip &&& c.im = 0 then 2 else 1)))

/-- Where core k issues the word: MVS reads st (AV and AVS with their lag), be, rc (after this issue of a repeat), ir, ie,
im, ip, tc, the parts of an accumulator with its lag (the top part sign-extended), a pointer's halves, m and l. MVD
writes st bits 8:0, be clamped to 15, rc clamped to 4,096, ir, IE and PIE, im, clears bits of ip, one part of an
accumulator, one part of a pointer, m or l, and nothing else. No flag changes but by MVD to st. [R195, R206, R207] -/
def Obligations.KeeperSpecialRegisters : Prop :=
  ∀ (s : State) (k : Nat) (d : BitVec 4) (code : BitVec 6),
    let c := s.core k
    let n := code.toNat
    let x := c.getW d
    (KReady s k (encS 0x30 d code) → Completes (.kMvs k d code) s (fun t => KAlu s t k [d] ∧ (t.core k).st = c.st ∧
      (t.core k).be = c.be ∧
      let r := ((t.core k).getW d).toNat
      (n = 0 → ∀ i, i < 16 → ((t.core k).getW d).getLsbD i = if i = 5 ∨ i = 6 then c.avOld.getLsbD (i - 5) else c.st.getLsbD i) ∧
      (n = 1 → r = c.be.toNat) ∧ (n = 2 → r = (if c.rpt then (c.rc - 1).toNat else c.rc.toNat)) ∧ (n = 3 → r = c.ir.toNat) ∧
      (n = 4 → r = c.ie.toNat) ∧ (n = 5 → r = c.im.toNat) ∧ (n = 6 → r = c.ip.toNat) ∧ (n = 7 → r = c.tc.toNat) ∧
      (∀ a : BitVec 1, let v := (c.getAOld a).toInt
        (n = 8 + 3 * a.toNat → (r : Int) = v % 65536) ∧ (n = 9 + 3 * a.toNat → (r : Int) = v / 65536 % 65536) ∧
        (n = 10 + 3 * a.toNat → ((t.core k).getW d).toInt = v / 2 ^ 32)) ∧
      (∀ i : BitVec 3, (n = 16 + i.toNat → r = (c.getP i).toNat % 65536) ∧ (n = 24 + i.toNat → r = (c.getP i).toNat / 65536) ∧
        (n = 32 + i.toNat → r = (c.getM i).toNat) ∧ (n = 40 + i.toNat → r = (c.getL i).toNat)))) ∧
    (KReady s k (encS 0x31 d code) → (c.after = some .reti → n ≠ 3 ∧ n ≠ 4) → Completes (.kMvd k d code) s (fun t =>
      let c' := t.core k
      KRan s t k ∧ KNext c c' ∧ (∀ i, c'.getW i = c.getW i) ∧ c'.dmem = c.dmem ∧
      (n = 0 → c'.st.toNat = x.toNat % 512 ∧ (c.after ≠ some .reti → c'.avOld.toNat = x.toNat / 32 % 4)) ∧ (n ≠ 0 → c'.st = c.st) ∧
      (n = 1 → c'.be.toNat = min x.toNat 15) ∧ (n ≠ 1 → c'.be = c.be) ∧
      (n = 2 → c'.rc.toNat = min (x.toNat % 8192) 4096) ∧ (n ≠ 2 → c.rpt = false → c'.rc = c.rc) ∧
      (n = 3 → c'.ir.toNat = x.toNat % 16384) ∧ (n ≠ 3 → c'.ir = c.ir) ∧
      (n = 4 → c'.ie.getLsbD 0 = x.getLsbD 0 ∧ c'.ie.getLsbD 1 = x.getLsbD 1 ∧ c'.ie.getLsbD 2 = c.ie.getLsbD 2 ∧
        c'.ie.getLsbD 3 = c.ie.getLsbD 3) ∧ (n ≠ 4 → c.after ≠ some .reti → c'.ie = c.ie) ∧
      (n = 5 → c'.im.toNat = x.toNat % 256) ∧ (n ≠ 5 → c'.im = c.im) ∧
      (n = 6 → ∀ i, i < 8 → c'.ip.getLsbD i = (c.ip.getLsbD i && !x.getLsbD i)) ∧ (n ≠ 6 → c'.ip = c.ip) ∧
      (∀ a : BitVec 1,
        (n = 8 + 3 * a.toNat → (c'.getA a).toNat = (c.getA a).toNat / 2 ^ 16 * 2 ^ 16 + x.toNat) ∧
        (n = 9 + 3 * a.toNat → (c'.getA a).toNat = (c.getA a).toNat / 2 ^ 32 * 2 ^ 32 + x.toNat * 2 ^ 16 + (c.getA a).toNat % 2 ^ 16) ∧
        (n = 10 + 3 * a.toNat → (c'.getA a).toNat = x.toNat % 256 * 2 ^ 32 + (c.getA a).toNat % 2 ^ 32) ∧
        (n < 8 + 3 * a.toNat ∨ 10 + 3 * a.toNat < n → c'.getA a = c.getA a)) ∧
      (∀ i : BitVec 3,
        (n = 16 + i.toNat → (c'.getP i).toNat = (c.getP i).toNat / 65536 * 65536 + x.toNat) ∧
        (n = 24 + i.toNat → (c'.getP i).toNat = x.toNat % 256 * 65536 + (c.getP i).toNat % 65536) ∧
        (n ≠ 16 + i.toNat → n ≠ 24 + i.toNat → c'.getP i = c.getP i) ∧
        c'.getM i = (if n = 32 + i.toNat then x else c.getM i) ∧ c'.getL i = (if n = 40 + i.toNat then x else c.getL i))))

/-- An illegal word, or one where it may not stand, traps ILLEGAL; a load or store of a reserved range traps DATA with
subcause 2, LD, ST and STX in register space, and LDL and STL at an odd address of a memory, with 3 (that a reserved
address comes before an odd one is the model's choice, log 64); a conduct fault that waits traps CONDUCT with its
cause and records its address. Interrupt entry saves the address and IE and goes to 0x20. Before the Keepers are
released none of the three traps and entries comes. START clears a halted core's registers, be to 15, and runs it at
KPR_ENTRY, its memories unchanged; STOP halts it with WHY = 1 at a boundary, and waits for one elsewhere; KPR_IRQ sets
bits of ip and ends WAITI. [R190, R196, R208, R209, R212, R213, R214, R215] -/
def Obligations.KeeperTrapsInterruptsAndRuns : Prop :=
  ∀ (s : State) (k : Nat),
    let c := s.core k
    let ready := s.kUp = true ∧ k < 8 ∧ c.run = 1 ∧ c.load = none ∧ c.stop = false ∧ s.err.upsets = []
    (ready → c.cfault = none → (c.interruptible && c.irqReady) = false → opOf c.word ≠ 0x3C →
      wordOk c.word = false ∨ placeOk c c.word = false →
      Completes (.illegalInstruction k) s (fun t => KTrapped s t k 1 0)) ∧
    (∀ (d : BitVec 4) (p mode : BitVec 3) (imm : W16),
      let a := (ea c p mode imm).1.toNat
      let gap := (0x8000 ≤ a ∧ a < 0x200000) ∨ (0x400000 ≤ a ∧ a < 0xC00000)
      let traps := fun (i : Instr) (w : W32) => KReady s k w → (gap → Completes i s (fun t => KTrapped s t k 4 2)) ∧
        (0xC00000 ≤ a → Completes i s (fun t => KTrapped s t k 4 3))
      let long := fun (i : Instr) (w : W32) => KReady s k w → (gap → Completes i s (fun t => KTrapped s t k 4 2)) ∧
        (¬ gap → a < 0x400000 → a % 2 = 1 → Completes i s (fun t => KTrapped s t k 4 3))
      traps (.kLd k d p mode imm none) (encM 0x20 d p mode imm) ∧ traps (.kSt k d p mode imm) (encM 0x21 d p mode imm) ∧
      traps (.kStx k d p mode imm) (encM 0x22 d p mode imm) ∧
      long (.kLdl k d p mode imm none) (encM 0x23 d p mode imm) ∧ long (.kStl k d p mode imm) (encM 0x24 d p mode imm)) ∧
    (∀ cause addr, ready → c.cfault = some (cause, addr) → cause < 256 → Completes (.trapConduct k) s (fun t =>
      KTrapped s t k 3 cause ∧ (t.core k).cfault = none ∧
      (t.reg (0xF00010 + 0x10000 * k)).toNat = 2 ^ 24 * cause + addr.toNat)) ∧
    (ready → c.cfault = none → c.after = none → c.rpt = false → c.ie.getLsbD 0 = true → c.ip &&& c.im ≠ 0 →
      Completes (.interruptEntry k) s (fun t => Apart s t ∧ MemSame s t ∧ (∀ j, j ≠ k → t.core j = s.core j) ∧
        KFrame [] [] [] { c with ir := c.pc, ie := (t.core k).ie } (t.core k) ∧ (t.core k).pc = 0x20 ∧ (t.core k).st = c.st ∧
        (t.core k).ie.getLsbD 0 = false ∧ (t.core k).ie.getLsbD 1 = true ∧ (t.core k).ie.getLsbD 2 = true ∧
        (t.core k).ie.getLsbD 3 = c.ie.getLsbD 3 ∧ (t.core k).aOld = c.a ∧ (t.core k).dmem = c.dmem)) ∧
    (∀ i ∈ [Instr.illegalInstruction k, .trapConduct k, .interruptEntry k], s.pwr.released = false → Completes i s (fun t => t = s)) ∧
    (s.up = true → k < 8 → c.run = 0 → Completes (.keeperStart k) s (fun t => Apart s t ∧ MemSame s t ∧ RegsBut [] s t ∧
      (∀ j, j ≠ k → t.core j = s.core j) ∧ (t.core k).run = 1 ∧ (t.core k).pc.toNat = (s.reg (0xF00004 + 0x10000 * k)).toNat % 2 ^ 14 ∧
      (t.core k).be = 15 ∧ (∀ i, (t.core k).getW i = 0) ∧ (∀ i, (t.core k).getA i = 0) ∧ (∀ i, (t.core k).getP i = 0) ∧
      (∀ i, (t.core k).getM i = 0 ∧ (t.core k).getL i = 0) ∧ (t.core k).st = 0 ∧ (t.core k).rc = 0 ∧ (t.core k).ir = 0 ∧
      (t.core k).ie = 0 ∧ (t.core k).im = 0 ∧ (t.core k).ip = 0 ∧ (t.core k).tc = 0 ∧ (t.core k).imem = c.imem ∧
      (t.core k).dmem = c.dmem)) ∧
    (ready → c.after = none → c.rpt = false → s.queue k = [] → Completes (.keeperStop k) s (fun t => Apart s t ∧ MemSame s t ∧
      RegsBut [0xF00040 + 0x10000 * k] s t ∧ (c.behind = false → RegsBut [] s t) ∧ (∀ j, j ≠ k → t.core j = s.core j) ∧
      t.core k = { c with run := 0, why := 1, behind := false })) ∧
    (ready → c.after ≠ none ∨ c.rpt = true → Completes (.keeperStop k) s (fun t => Apart s t ∧ MemSame s t ∧
      RegsBut [] s t ∧ (∀ j, j ≠ k → t.core j = s.core j) ∧ t.core k = { c with stop := true })) ∧
    (∀ v, s.up = true → k < 8 → Completes (.kprIrqSet k v) s (fun t => Apart s t ∧ MemSame s t ∧ RegsBut [0xF00040 + 0x10000 * k] s t ∧
      (t.core k).ip = c.ip ||| v.setWidth 8 ∧ (∀ j, j ≠ k → t.core j = s.core j) ∧
      (c.run = 2 → (c.ip ||| v.setWidth 8) &&& c.im ≠ 0 → t.core k = { c with ip := c.ip ||| v.setWidth 8, run := 1, behind := false }) ∧
      (c.run ≠ 2 ∨ (c.ip ||| v.setWidth 8) &&& c.im = 0 → t.core k = { c with ip := c.ip ||| v.setWidth 8 } ∧ RegsBut [] s t)))

/-- A store to control SRAM (ST, STX, STL) or register space (STL) posts its word, under the byte enables of the words it
writes, and the core goes on; a load from control SRAM (LD, LDL) or register space (LDL) posts a request and the core
stalls; while a store of the core is outstanding either waits behind it. The grant of a free target with one waiting
Keeper takes its request and counts its wait. A load returns the control SRAM word, or what a read of the register
gives, into its registers, steps the pointer and the core runs on, its instruction counted; a store writes exactly the
bytes it enables in control SRAM, a plain register as a write of BAR0 does, and nothing where it names a KPR_
register, and is then no longer outstanding. [R190, R192, R217, R332, R333, R335] -/
def Obligations.FabricCarriesKeeperAccesses : Prop :=
  ∀ (s : State) (k : Nat), s.up = true → k < 8 → s.err.upsets = [] →
    let c := s.core k
    (∀ (d : BitVec 4) (p mode : BitVec 3) (imm : W16),
      let e := ea c p mode imm
      let a := e.1.toNat
      let sram := 0x200000 ≤ a ∧ a < 0x400000
      let long := (sram ∧ a % 2 = 0) ∨ 0xC00000 ≤ a
      let addr := if a < 0x400000 then 2 ^ 32 + 2 * (a - 0x200000) / 4 * 4 else 2 ^ 33 + 4 * (a - 0xC00000)
      let posts := fun (t : State) (be data : Nat) => KRan s t k ∧ KNext c (t.core k) ∧ KFrame [] [] [p] c (t.core k) ∧
        (t.core k).getP p = e.2 ∧ (t.core k).st = c.st ∧ (t.core k).store = true ∧ (t.core k).dmem = c.dmem ∧
        ∃ r, t.xbr.waiting = s.xbr.waiting ++ [r] ∧ r.master = k ∧ r.write = true ∧ r.addr = addr ∧ r.be.toNat = be ∧
          r.data.map (·.toNat) = [data]
      let stalls := fun (t : State) (isLong : Bool) (half : Nat) => Apart s t ∧ MemSame s t ∧
        RegsBut [0xF00040 + 0x10000 * k] s t ∧ (c.behind = false → RegsBut [] s t) ∧
        (∀ j, j ≠ k → t.core j = s.core j) ∧ (t.core k).run = 3 ∧ (∀ i, (t.core k).getW i = c.getW i) ∧
        (∀ i, (t.core k).getP i = c.getP i) ∧ (t.core k).dmem = c.dmem ∧
        (∃ l, (t.core k).load = some l ∧ l.long = isLong ∧ l.half = half ∧ l.dest = d ∧ l.ptr = p ∧ l.ptrVal = e.2) ∧
        ∃ r, t.xbr.waiting = s.xbr.waiting ++ [r] ∧ r.master = k ∧ r.write = false ∧ r.addr = addr
      let ls := fun (op : Nat) (i : Instr) (ok : Prop) (Q : State → Prop) => KReady s k (encM op d p mode imm) → ok →
        (c.store = false → Completes i s Q) ∧
        (c.store = true → Completes i s (fun t => Apart s t ∧ MemSame s t ∧ RegsBut [] s t ∧ t.xbr = s.xbr ∧
          (∀ j, j ≠ k → t.core j = s.core j) ∧
          t.core k = if c.behind then c else { c with behind := true, since := s.time.ticks }))
      let w := (c.getW d).toNat
      ls 0x24 (.kStl k d p mode imm) long (fun t => posts t 15 (w + 65536 * (c.getW (d + 1)).toNat) ∧ (t.core k).be = c.be) ∧
      ls 0x21 (.kSt k d p mode imm) sram (fun t => posts t (if a % 2 = 0 then 3 else 12) (w * 65536 ^ (a % 2)) ∧ (t.core k).be = c.be) ∧
      (∀ h, IsExp 16 (c.getW d).toInt h → ls 0x22 (.kStx k d p mode imm) sram (fun t =>
        posts t (if a % 2 = 0 then 3 else 12) (w * 65536 ^ (a % 2)) ∧ (t.core k).be.toNat = min c.be.toNat h)) ∧
      ls 0x23 (.kLdl k d p mode imm none) long (fun t => stalls t true 0) ∧
      ls 0x20 (.kLd k d p mode imm none) sram (fun t => stalls t false (a % 2))) ∧
    (∀ (r : FabReq) (target waited : Nat), s.xbr.waiting = [r] → r.master = k →
      (target = 1 ∧ 2 ^ 32 ≤ r.addr ∧ r.addr < 2 ^ 33) ∨ (target = 2 ∧ 2 ^ 33 ≤ r.addr) →
      s.xbr.granted = [] → Completes (.fabricGrant target waited) s (fun t => Apart s t ∧ MemSame s t ∧
        RegsBut [0x300100 + 4 * k] s t ∧ t.xbr.waiting = [] ∧ t.xbr.granted = [r] ∧ t.cores = s.cores ∧
        (t.reg (0x300100 + 4 * k)).toNat = min ((s.reg (0x300100 + 4 * k)).toNat + waited) 0xFFFFFFFF)) ∧
    (∀ (r : FabReq) (l : LoadPend) (o : Nat), s.xbr.granted = [r] → r.master = k → r.write = false → c.load = some l →
      c.run = 3 → c.stop = false →
      (r.addr = 2 ^ 32 + o → o < 0x400000 →
      Completes (.fabricLoadReturn k none) s (fun t => Apart s t ∧ MemSame s t ∧ t.xbr.granted = [] ∧ (t.core k).run = 1 ∧
        (t.core k).load = none ∧ (t.core k).getP l.ptr = l.ptrVal ∧ (t.core k).dmem = c.dmem ∧ (t.core k).st = c.st ∧
        (l.long = false → l.half < 2 → ((t.core k).getW l.dest).toNat = rdLe s.csram (o + 2 * l.half) 2) ∧
        (l.long = true → ((t.core k).getW l.dest).toNat = rdLe s.csram o 2 ∧
          ((t.core k).getW (l.dest + 1)).toNat = rdLe s.csram (o + 2) 2) ∧
        (∀ i, i ≠ l.dest → (l.long = true → i ≠ l.dest + 1) → (t.core k).getW i = c.getW i) ∧
        (t.reg (0xF00044 + 0x10000 * k)).toNat = min ((s.reg (0xF00044 + 0x10000 * k)).toNat + 1) 0xFFFFFFFF)) ∧
      (r.addr = 2 ^ 33 + o → l.long = true →
        let v := (({ s with xbr := { s.xbr with granted := [] } } : State).regRd o).1.toNat
        Completes (.fabricLoadReturn k none) s (fun t => Apart s t ∧ MemSame s t ∧ t.xbr.granted = [] ∧ (t.core k).run = 1 ∧
          (t.core k).load = none ∧ (t.core k).getP l.ptr = l.ptrVal ∧ (t.core k).dmem = c.dmem ∧ (t.core k).st = c.st ∧
          ((t.core k).getW l.dest).toNat = v % 65536 ∧ ((t.core k).getW (l.dest + 1)).toNat = v / 65536 ∧
          (∀ i, i ≠ l.dest → i ≠ l.dest + 1 → (t.core k).getW i = c.getW i)))) ∧
    (∀ (r : FabReq) (o : Nat), s.xbr.granted = [r] → r.master = k → r.write = true →
      let ended := fun (t : State) => Apart s t ∧ t.hbm = s.hbm ∧ t.host = s.host ∧ t.xbr.granted = [] ∧ (t.core k).store = false ∧
        (t.core k).dmem = c.dmem ∧ t.queue k = (s.queue k).map (fun e => { e with store := false })
      (r.addr = 2 ^ 32 + o → o < 0x400000 → o % 4 = 0 →
        Completes (.fabricStoreComplete k) s (fun t => ended t ∧ RegsBut [] s t ∧
          (∀ i, i < 4 → (rd8 t.csram (o + i)).toNat = if r.be.getLsbD i then (r.data.headD 0).toNat / 256 ^ i % 256 else (rd8 s.csram (o + i)).toNat) ∧
          (∀ a, a < o ∨ o + 4 ≤ a → rd8 t.csram a = rd8 s.csram a))) ∧
      (r.addr = 2 ^ 33 + o → o / 0x100000 = 15 →
        Completes (.fabricStoreComplete k) s (fun t => ended t ∧ RegsBut [] s t ∧ t.csram = s.csram)) ∧
      (∀ m, r.addr = 2 ^ 33 + o → r.be = 15 → (o, m) ∈ [(0xA00004, 0xFFFF#32), (0xB00004, 0xFFFF#32), (0xB00008, 0xFFFF#32),
          (0x500010, 0xFFFFFFFF#32), (0x500018, 0xFFFFFFFF#32), (0x400804, 0xFFFFFFFF#32), (0x700008, 0xFFFF#32),
          (0x100044, 0x7F#32), (0x200030, 0xFFFF#32)] →
        Completes (.fabricStoreComplete k) s (fun t => ended t ∧ t.csram = s.csram ∧ RegsBut [o] s t ∧
          t.reg o = (s.reg o &&& ~~~m) ||| (r.data.headD 0 &&& m))))

/-- An issued conduct instruction puts one entry with its block as it stands, its address and issue number at the tail of
its queue, counts it, and the core goes on; with 64 entries there the core stalls and nothing else changes; a block
outside data memory traps DATA with subcause 2. HALT stops the core with WHY = 2 and leaves the queue. The head entry
is dispatched once its stores have completed; in Idle an OPEN, STEER or ARM waits and the part starts back to Run,
PWR_STATE.BUSY set. [R218, R219, R221, R223, R232, R372] -/
def Obligations.ConductIsQueuedAndDispatched : Prop :=
  ∀ (s : State) (k : Nat) (cop : BitVec 6) (p : BitVec 3) (imm : W16),
    let c := s.core k
    let a := (c.getP p + imm.signExtend 24).toNat
    let entry := fun (blk : List W16) => KAt s k (encC cop p imm) → s.standby = false → (s.queue k).length < 64 →
      Completes (.conductIssue k cop p imm none) s (fun t => QFrame s t k ∧ KNext c (t.core k) ∧ KFrame [] [] [] c (t.core k) ∧
        (t.core k).dmem = c.dmem ∧ (t.core k).st = c.st ∧ (t.core k).be = c.be ∧
        RegsBut [0xF00040 + 0x10000 * k, 0xF00044 + 0x10000 * k, 0xF00060 + 0x10000 * k] s t ∧
        (t.reg (0xF00060 + 0x10000 * k)).toNat = min ((s.reg (0xF00060 + 0x10000 * k)).toNat + 1) 0xFFFFFFFF ∧
        ∃ e, t.queue k = s.queue k ++ [e] ∧ e.cop = cop.toNat ∧ e.addr = c.pc ∧ e.block = blk ∧ e.stage = 0 ∧ e.store = c.store ∧ e.issue = tget 0 s.cq.issued k)
    (∀ n, copWords cop.toNat = some n → n ≠ 0 → a + n ≤ 0x8000 →
      entry ((List.range n).map (fun i => BitVec.ofNat 16 (rdLe c.dmem (2 * (a + i)) 2)))) ∧
    (copWords cop.toNat = some 0 → cop ≠ 0x1F → p = 0 → (imm = 0 ∨ cop = 0x0B ∨ cop = 0x11) → entry [imm]) ∧
    (∀ n, copWords cop.toNat = some n → n ≠ 0 → KAt s k (encC cop p imm) →
      (0x8000 < a + n → Completes (.conductIssue k cop p imm none) s (fun t => KTrapped s t k 4 2)) ∧
      (a + n ≤ 0x8000 → 64 ≤ (s.queue k).length → c.behind = false → Completes (.conductIssue k cop p imm none) s (fun t => QFrame s t k ∧
        RegsBut [] s t ∧ t.queue k = s.queue k ∧ t.core k = { c with run := 3, since := s.time.ticks }))) ∧
    (KAt s k (encC 0x1F 0 0) → Completes (.halt k) s (fun t => QFrame s t k ∧ t.queue k = s.queue k ∧ (t.core k).run = 0 ∧
      (t.core k).why = 2 ∧ (t.core k).dmem = c.dmem ∧ KFrame [] [] [] c (t.core k) ∧
      (c.after = none → (t.core k).pc = c.pc + 1))) ∧
    (∀ e, QHead s k e e.cop 0 → isBarrier e.cop = false →
      (s.rf 0x100000 28 2 ≠ 1 ∨ e.cop ≠ 2 ∧ e.cop ≠ 5 ∧ e.cop ≠ 7 → Completes (.conductDispatch k) s (fun t => QFrame s t k ∧ RegsBut [] s t ∧
        t.cores = s.cores ∧ t.queue k = { e with stage := 1 } :: (s.queue k).drop 1)) ∧
      (s.rf 0x100000 28 2 = 1 → e.cop = 2 ∨ e.cop = 5 ∨ e.cop = 7 → s.pwr.change = none → Completes (.conductDispatch k) s (fun t =>
        QFrame s t k ∧ RegsBut [0x100000] s t ∧ t.rb 0x100000 27 = true ∧ t.queue k = s.queue k ∧
        ∃ x, t.pwr.change = some x ∧ x.dest = 0 ∧ x.since = s.time.ticks)))

/-- A WAITT is judged at dispatch: DONE at the target, PASSED where it lies 2³¹ ns or more back, else it waits, as while
device time stands, and is DONE once TIM_NS has reached it. A WAITB with a channel up to 127 waits from its dispatch
and ends with DONE as an event on the channel is delivered, or by TIMEOUT after so many ns. FENCE.ALL and FENCE.KILN
wait, and complete where no earlier operation (acting on the kiln) is open and not before; FENCE.HOST where its POSTs,
its FIREs and SHUTs, those it follows, and the firings it found draining are over and an index written back covers
what they placed, and not before. A kiln above 15, and a WAITB of another channel, fault as RANGE. SIGNAL publishes on
channels 120 to 127 and faults as RANGE on others. [R221, R222, R223, R225, R226, R228, R229, R268, R324] -/
def Obligations.BarriersHoldAndEnd : Prop :=
  ∀ (s : State) (k : Nat) (e : QEntry),
    let waits := fun (t : State) => QFrame s t k ∧ RegsBut [] s t ∧ t.cores = s.cores ∧
      ∃ e', t.queue k = e' :: (s.queue k).drop 1 ∧ e'.stage = 2 ∧ e'.since = s.time.ticks ∧ e'.cop = e.cop ∧ e'.block = e.block
    let d := (lo32 (e.words 2 2) - s.ns).toNat
    (QHead s k e 0x09 0 → e.word 1 = 0 →
      (s.running = true → d = 0 → Completes (.waitt k) s (fun t => QDone s t k e 1)) ∧
      (s.running = true → 2 ^ 31 ≤ d → Completes (.waitt k) s (fun t => QDone s t k e 4)) ∧
      (s.running = false ∨ d ≠ 0 ∧ d < 2 ^ 31 → Completes (.waitt k) s waits)) ∧
    (∀ dt, QHead s k e 0x09 2 → (s.advance dt).running = true → ((s.advance dt).ns - lo32 (e.words 2 2)).toNat < 2 ^ 31 →
      Completes (.waittDone k dt) s (fun t => QDone s t k e 1)) ∧
    (QHead s k e 0x0A 0 → (e.word 1 = 0 → e.word 2 ≤ 127 → Completes (.waitb k) s waits) ∧
      (e.word 1 ≠ 0 ∨ 127 < e.word 2 → s.queue k = [e] → Completes (.waitb k) s (fun t => QFaulted s t k e 1))) ∧
    (∀ i c h, QHead s k e 0x0A 2 → e.word 2 = c → s.bcn.flight[i]? = some (c, h) → c < 128 → h < 7 →
      Completes (.beaconDelivery i) s (fun t => Apart s t ∧ t.queue k = (s.queue k).drop 1 ∧
        (e.status.getLsbD 15 = true → rdLe (t.core k).dmem (2 * (e.status.toNat % 32768)) 2 = 256) ∧
        (t.reg (0xF00064 + 0x10000 * k)).toNat = min ((s.reg (0xF00064 + 0x10000 * k)).toNat + 1) 0xFFFFFFFF)) ∧
    (∀ dt, QHead s k e 0x0A 2 → e.words 3 2 ≠ 0 → 5 * e.words 3 2 ≤ 8 * (s.time.ticks + dt - e.since) →
      Completes (.waitbTimeout k dt) s (fun t => QDone s t k e 5)) ∧
    (QHead s k e 0x10 0 → Completes (.fenceAll k) s waits) ∧
    (QHead s k e 0x11 0 → (e.word 0 ≤ 15 → Completes (.fenceKiln k) s waits) ∧
      (15 < e.word 0 → s.queue k = [e] → Completes (.fenceKiln k) s (fun t => QFaulted s t k e 1))) ∧
    (QHead s k e 0x12 0 → Completes (.fenceHost k) s (fun t => waits t ∧ ∃ e', t.queue k = e' :: (s.queue k).drop 1 ∧
      (∀ o ∈ s.cq.ops, o.keeper = k → (o.cop = 0x0C → o.id ∈ e'.posts) ∧ (o.cop = 3 ∨ o.cop = 4 → o.id ∈ e'.fires)) ∧
      (∀ j d, j < 16 → (s.kiln j).drain = some d → (j, d.seq) ∈ e'.firings) ∧
      (∀ i, Owed.post i k ∈ s.owed → i ∈ e'.posts) ∧ (∀ j q, Owed.firing j q ∈ s.owed → (j, q) ∈ e'.firings) ∧
      (∀ f ∈ s.followLog k, f.cop = 3 ∨ f.cop = 4 → f.issue ∈ e'.follows))) ∧
    ((QHead s k e 0x10 2 ∧ (∀ o ∈ s.cq.ops, o.keeper ≠ k)) ∨
     (QHead s k e 0x11 2 ∧ (∀ o ∈ s.cq.ops, o.keeper = k → e.word 0 ∉ o.kilns)) ∨
     (QHead s k e 0x12 2 ∧ (∀ o ∈ s.cq.ops, o.id ∉ e.posts ∧ o.id ∉ e.fires) ∧ (∀ i ∈ e.posts, Owed.post i k ∉ s.owed) ∧
       (∀ i ∈ e.follows, s.following k i = false) ∧
       (∀ f ∈ e.firings, Owed.firing f.1 f.2 ∉ s.owed ∧ ∀ d, (s.kiln f.1).drain = some d → d.seq ≠ f.2)) →
      Completes (.fenceComplete k) s (fun t => QDone s t k e 1 ∧ RegsBut [0xF00064 + 0x10000 * k] s t)) ∧
    ((QHead s k e 0x10 2 ∧ (∃ o ∈ s.cq.ops, o.keeper = k)) ∨
     (QHead s k e 0x11 2 ∧ (∃ o ∈ s.cq.ops, o.keeper = k ∧ e.word 0 ∈ o.kilns)) ∨
     (QHead s k e 0x12 2 ∧ ((∃ o ∈ s.cq.ops, o.id ∈ e.posts ∨ o.id ∈ e.fires) ∨ (∃ i ∈ e.posts, Owed.post i k ∈ s.owed) ∨
       (∃ i ∈ e.follows, s.following k i = true) ∨
       (∃ f ∈ e.firings, Owed.firing f.1 f.2 ∈ s.owed ∨ ∃ d, (s.kiln f.1).drain = some d ∧ d.seq = f.2))) →
      Completes (.fenceComplete k) s (fun t => t = s)) ∧
    (QHead s k e 0x0B 1 →
      (120 ≤ e.word 0 → e.word 0 ≤ 127 → Completes (.signal k) s (fun t => QDone s t k e 1 ∧
        (s.rb 0x200030 15 = true → (e.word 0, 0) ∈ t.bcn.flight))) ∧
      (e.word 0 < 120 ∨ 127 < e.word 0 → s.queue k = [e] → Completes (.signal k) s (fun t => QFaulted s t k e 1)))

/-- With the part alone and the entry at its unit: OPEN of a PLACED kiln with a ring set that serves makes bank A
accumulate from its index, with sequence 0, and completes; a SHUT of a PLACED kiln makes it IDLE. FIRE of a kiln that
integrates under AUTO = 0 with fewer than 4 boundaries adds its boundary, and SHUT gives the kiln its end; both stay
open. With NEXT the index is the least safe one. OPEN of a kiln not PLACED, FIRE or SHUT of one that neither
integrates nor (SHUT) is PLACED fault as STATE, FIRE under AUTO as AUTO. An OPEN that waited for a release goes on as
one accepted, and not before one has come. [R98, R99, R100, R105, R109, R220, R223, R227, R229] -/
def Obligations.ConductActsOnKilns : Prop :=
  ∀ (s : State) (k : Nat) (e : QEntry) (x : Nat),
    let j := e.word 2
    let v := s.kiln j
    let chans := s.kilnChans j
    let rings := (List.range (2 ^ e.word 4)).map (e.word 3 + ·)
    let lone := s.role ≤ 1 ∧ j ≤ 15 ∧ e.word 1 ≤ 1 ∧ 0 < s.kilnG j
    let serves := ∀ r ∈ rings, r < s.nRings ∧ s.rFmt r = 0 ∧ 1024 ≤ s.rSize r ∧
      (∀ i < 16, i ≠ j → 2 ≤ (s.kiln i).state → r ∉ (s.kiln i).rings)
    let opens := fun (t : State) => QDone s t k e 1 ∧ (t.kiln j).state = 2 ∧ (t.kiln j).s0 = x ∧ (t.kiln j).bank = 0 ∧
      (t.kiln j).a.first = x ∧ (t.kiln j).rings = rings ∧ (t.kiln j).pend = [] ∧ (t.kiln j).endAt = none ∧ (t.kiln j).seq = 0 ∧
      (t.kiln j).drain = none ∧ (∀ i, i ≠ j → t.kiln i = s.kiln i)
    let others := fun (t : State) => RegsBut [] s t ∧ (∀ i, i ≠ j → t.kiln i = s.kiln i)
    (lone → v.state = 1 → e.word 4 ≤ 4 → serves → (∀ b, s.lastReleased chans = some b → b < x / 128) →
      (QHead s k e 2 1 → Resolved s e chans (e.words 5 3) (e.word 8) (s.kilnG j) 0 x → Completes (.openKiln k) s opens) ∧
      (QHead s k e 2 3 → e.flag 0 = true → s.followLog k = [] → Resolved s e chans (e.words 5 3) (e.word 8) (s.kilnG j) 0 x →
        Completes (.nextResolve k none) s opens) ∧
      (QHead s k e 2 3 → s.followLog k = [] → s.lastReleased chans = none → Completes (.nextResolve k none) s (fun t => t = s))) ∧
    (lone → QHead s k e 2 1 → v.state ≠ 1 → e.word 4 ≤ 4 → e.word 3 + 2 ^ e.word 4 ≤ s.nRings → s.queue k = [e] →
      Completes (.openKiln k) s (fun t => QFaulted s t k e 2 ∧ t.kilns = s.kilns)) ∧
    (lone → QHead s k e 3 1 →
      (v.state = 2 ∨ v.state = 3 → v.endAt = none → s.auto j = false → v.pend.length < 4 →
        Resolved s e chans (e.words 3 3) (e.word 6) (s.kilnG j) (v.busyTo + 1) x →
        Completes (.fire k) s (fun t => QTaken s t k e [j] ∧ others t ∧ t.kiln j = { v with pend := v.pend ++ [(x, some s.cq.nextOp)], hops := (t.kiln j).hops })) ∧
      (s.queue k = [e] → (v.state ≠ 2 ∧ v.state ≠ 3 ∨ v.endAt ≠ none → Completes (.fire k) s (fun t => QFaulted s t k e 2 ∧ t.kilns = s.kilns)) ∧
        (v.state = 2 ∨ v.state = 3 → v.endAt = none → s.auto j = true → Completes (.fire k) s (fun t => QFaulted s t k e 7 ∧ t.kilns = s.kilns)))) ∧
    (lone → QHead s k e 4 1 →
      (v.state = 1 → Completes (.shut k) s (fun t => QDone s t k e 1 ∧ t.kiln j = { v with state := 0 } ∧ (∀ i, i ≠ j → t.kiln i = s.kiln i))) ∧
      (v.state = 2 ∨ v.state = 3 → v.endAt = none → s.auto j = false →
        Resolved s e chans (e.words 3 3) (e.word 6) (s.kilnG j) (v.busyTo + 1) x →
        Completes (.shut k) s (fun t => QTaken s t k e [j] ∧ others t ∧ t.kiln j = { v with endAt := some (x, some s.cq.nextOp) })) ∧
      (s.queue k = [e] → v.state = 0 ∨ v.state = 4 ∨ (v.endAt ≠ none ∧ v.state ≠ 1) →
        Completes (.shut k) s (fun t => QFaulted s t k e 2 ∧ t.kilns = s.kilns)))

/-- With the part alone and the entry at its unit: STEER of a placed block with none pending makes its table, n₀, index
and, with SHIFTS, the 64 shift words of control SRAM pending. GLAZE with none pending fills the inactive gain bank
with its words from control SRAM and the active bank's elsewhere (KEEP: leaves it) and makes a switch pending, or with
no beam block placed switches and completes at once. ARM of a slot with sound conditions arms it in state 0, and an
IDLE engine with a free buffer begins to fill; DISARM disarms it, and faults as STATE where it is not armed. No other
gain, block or slot changes. [R128, R133, R154, R159, R163, R220, R223, R227, R229] -/
def Obligations.ConductActsOnBeamsAndSlots : Prop :=
  ∀ (s : State) (k : Nat) (e : QEntry) (x : Nat), s.role ≤ 1 →
    let m := e.word 2
    let sh := e.words 14 2
    (∀ bp, QHead s k e 5 1 → s.placedBlock m = some bp → m ≤ 23 → (s.block m).pend = none → e.word 1 ≤ 3 → e.words 4 4 % 64 = 0 →
      e.words 4 4 + 2048 * bp.desc.n ≤ s.memEnd → (e.flag 1 = true → sh % 2 = 0 ∧ sh + 128 ≤ 0x400000) →
      Resolved s e (s.blockChans m) (e.words 11 3) (e.word 3) (s.epochLen m) ((s.block m).begun * s.epochLen m) x →
      Completes (.steer k none) s (fun t => QTaken s t k e [] ∧ RegsBut [] s t ∧ (∀ i, i ≠ m → t.block i = s.block i) ∧
        (t.block m).eras = (s.block m).eras ∧
        ∃ p, (t.block m).pend = some p ∧ p.ns = x ∧ p.table = e.words 4 4 ∧ p.n0 = e.words 8 3 ∧ (t.block m).lastNs = x ∧
          p.op = some s.cq.nextOp ∧ (e.flag 1 = false → p.shifts = none) ∧
          (e.flag 1 = true → ∃ l, p.shifts = some l ∧ l.length = 64 ∧ ∀ i w, l[i]? = some w →
            fld w 0 5 = rdLe s.csram (sh + 2 * i) 1 % 32 ∧ fld w 16 5 = rdLe s.csram (sh + 2 * i + 1) 1 % 32))) ∧
    (let act := 0xD10000 + (if s.beam.active then 0x4000 else 0)
     let ina := 0xD10000 + (if s.beam.active then 0 else 0x4000)
     let src := e.words 4 2
     QHead s k e 6 1 → s.beam.switch_ = none → e.word 3 = 0 → (∀ o ∈ s.cq.ops, o.id ≠ s.cq.nextOp) →
      (e.word 1 = 8 ∨ e.word 1 = 9 → s.noBlocks = false →
        Resolved s e s.allBlockChans (e.words 8 3) (e.word 2) 256 s.visitedTo x →
        Completes (.glaze k none) s (fun t => QTaken s t k e [] ∧ RegsBut [] s t ∧ t.beam.switch_ = some (x, some s.cq.nextOp) ∧
          t.beam.active = s.beam.active)) ∧
      (e.word 1 = 0 ∨ e.word 1 = 1 → s.noBlocks = false → 1 ≤ e.word 7 → e.word 6 + e.word 7 ≤ 4096 → src % 4 = 0 →
        src + 4 * e.word 7 ≤ 0x400000 → Resolved s e s.allBlockChans (e.words 8 3) (e.word 2) 256 s.visitedTo x →
        Completes (.glaze k none) s (fun t => QTaken s t k e [] ∧ t.beam.switch_ = some (x, some s.cq.nextOp) ∧
          (∀ i < 4096, (t.reg (ina + 4 * i)).toNat = if e.word 6 ≤ i ∧ i < e.word 6 + e.word 7
            then rdLe s.csram (src + 4 * (i - e.word 6)) 4 else (s.reg (act + 4 * i)).toNat) ∧
          RegsBut ((List.range 4096).map (fun i => ina + 4 * i)) s t)) ∧
      (e.word 1 = 8 → s.noBlocks = true → e.words 8 3 % 256 = 0 → s.visitedTo ≤ e.words 8 3 →
        Completes (.glaze k none) s (fun t => QDone s t k e 1 ∧ t.beam.active = !s.beam.active ∧ t.beam.switch_ = none))) ∧
    (∀ g i, e.word 2 = g + 256 * i → i < 16 → e.word 1 = 0 → g < s.nEng → g < 4 →
      (QHead s k e 7 1 → (s.slot (16 * g + i)).armed = false → ∀ p, s.placedEng g = some p → s.condBad g i = false →
        (let r := s.rf (0xE00000 + 0x10000 * g) 0 15
         r < s.nRings ∧ s.rDrop r = true ∧ s.rFmt r = 2) →
        Completes (.arm k) s (fun t => QDone s t k e 1 ∧ (t.slot (16 * g + i)).armed = true ∧ (t.slot (16 * g + i)).st = 0 ∧
          (∀ j, j ≠ 16 * g + i → t.slot j = s.slot j) ∧ (∀ j, j ≠ g → t.ltn j = s.ltn j) ∧
          ((s.ltn g).state ≠ 0 → t.ltn g = s.ltn g) ∧
          (∀ b, (s.ltn g).state = 0 → freeBuffer p.desc (s.ltn g).frozen (s.ltn g).cur = some b →
            (t.ltn g).state = 1 ∧ (t.ltn g).cur = b ∧ (t.ltn g).count = 0))) ∧
      (QHead s k e 8 1 →
        ((s.slot (16 * g + i)).armed = true → Completes (.disarm k) s (fun t => QDone s t k e 1 ∧
          (t.slot (16 * g + i)).armed = false ∧ (∀ j, j ≠ 16 * g + i → t.slot j = s.slot j))) ∧
        ((s.slot (16 * g + i)).armed = false → s.queue k = [e] → Completes (.disarm k) s (fun t => QFaulted s t k e 2 ∧
          t.slots = s.slots))))

/-- With the part alone and the entry at its unit: PLACE with its checks met computes the placement; a refused plan leaves
every placement as it was, writes the refusal at RECORD and completes as REJECTED with the reason; an accepted one
writes its record, completes as DONE, and pends where one is in force that it may not replace at once. POST holds the
bytes of SRC from 16 on for its ring, and the record written has TYPE 0x30, Keeper, LEN64, TAG, RSEQ and those bytes;
a ring that is not enabled faults as RING. SCRUB queues a pass over its range behind those of its stack. [R168, R169,
R171, R220, R223, R229, R231, R248, R288] -/
def Obligations.ConductReachesPlacerHostAndScrubber : Prop :=
  ∀ (s : State) (k : Nat) (e : QEntry), s.role ≤ 1 →
    (QHead s k e 1 1 → s.placeAddrBad (e.words 2 2) (e.words 4 2) = false →
      let raw := rdBytes s.csram (e.words 2 2) (s.planLen (e.words 2 2))
      let p := Plan.parse raw
      let env := s.placeEnv p
      let rec_ := e.words 4 2
      let base := fun (t : State) (bytes : List Byte) => Apart s t ∧ t.hbm = s.hbm ∧ t.host = s.host ∧
        t.queue k = (s.queue k).drop 1 ∧ (∀ j, j ≠ k → t.queue j = s.queue j) ∧
        rdBytes t.csram rec_ bytes.length = bytes ∧
        (∀ a, a < rec_ ∨ rec_ + bytes.length ≤ a → rd8 t.csram a = rd8 s.csram a) ∧
        (t.reg (0xF00064 + 0x10000 * k)).toNat = min ((s.reg (0xF00064 + 0x10000 * k)).toNat + 1) 0xFFFFFFFF
      ∀ x, s.placeJudge e p false = .go x →
      (∀ r, p.place env = .error r → r.reason < 8 → Completes (.place k none) s (fun t => base t (r.record p.planId) ∧
        QStatus s t k e 3 r.reason ∧ t.plc = s.plc ∧ t.kilns = s.kilns ∧ s.rf 0xB00010 27 3 ≤ 7 ∧ t.rf 0xB00010 27 3 = r.reason)) ∧
      (∀ q, p.place env = .ok q → s.placeNow = false → Completes (.place k none) s (fun t => base t (s.placeRecord p env q) ∧
        QStatus s t k e 1 0 ∧ t.plc = { s.plc with pend := some q } ∧ t.kilns = s.kilns ∧ t.rf 0xB00010 27 3 = 0)) ∧
      (∀ q, p.place env = .ok q → s.placeNow = true → Completes (.place k none) s (fun t =>
        rdBytes t.csram rec_ (s.placeRecord p env q).length = s.placeRecord p env q ∧ t.queue k = (s.queue k).drop 1 ∧
        t.plc.pend = none ∧ ∃ q', t.plc.cur = some q' ∧ q'.plan = q.plan ∧ q'.tiles = q.tiles))) ∧
    (let a := e.words 4 2
     QHead s k e 0x0C 1 → (e.word 1 = 0 ∨ e.word 1 = 4) → e.word 2 < s.nRings → 1 ≤ e.word 3 → e.word 3 ≤ 64 → a % 64 = 0 →
     a + 64 * e.word 3 ≤ 0x400000 →
      (s.rEn (e.word 2) = true → s.rFmt (e.word 2) = 3 → s.rb (0x1060000 + 0x10 * s.rOwner (e.word 2)) 31 = true →
        Completes (.post k none) s (fun t => QTaken s t k e [] ∧ RegsBut [] s t ∧ ∃ r, t.cq.posts = s.cq.posts ++ [r] ∧ r.op = s.cq.nextOp ∧
          r.keeper = k ∧ r.ring = e.word 2 ∧ r.len64 = e.word 3 ∧ r.tag = e.words 6 2 ∧ r.mirror = e.flag 2 ∧ r.sent = none ∧
          r.body = rdBytes s.csram (a + 16) (64 * e.word 3 - 16))) ∧
      (s.rEn (e.word 2) = false → s.queue k = [e] → Completes (.post k none) s (fun t => QFaulted s t k e 8 ∧ t.cq.posts = s.cq.posts))) ∧
    (∀ (x : PostRec) rest o, s.up = true → s.cq.posts = x :: rest → x.sent = none → (s.rng x.ring).lost = [] → o.keeper < 8 → (∀ y ∈ rest, y.op ≠ x.op) → x.mirror = false →
      x.body.length + 16 = 64 * x.len64 → x.keeper < 8 → s.foghorn = false → s.pair.hold = [] → s.err.upsets = [] → s.rEn x.ring = true →
      x.len64 ≤ s.rFree x.ring → (s.rng x.ring).head % s.rSize x.ring + x.len64 ≤ s.rSize x.ring → s.cq.ops = [o] → o.id = x.op →
      let at_ := s.rBase x.ring + (s.rng x.ring).head % s.rSize x.ring * 64
      Completes (.postRecordWrite x.ring) s (fun t => Apart s t ∧ t.hbm = s.hbm ∧ t.csram = s.csram ∧ t.cq.posts = rest ∧ t.cq.ops = [] ∧
        rdLe t.host at_ 1 = 0x30 ∧ rdLe t.host (at_ + 1) 1 = x.keeper ∧ rdLe t.host (at_ + 2) 2 = x.len64 % 2 ^ 16 ∧
        rdLe t.host (at_ + 4) 4 = x.tag % 2 ^ 32 ∧ rdLe t.host (at_ + 8) 4 = (s.rng x.ring).rseq % 2 ^ 32 ∧
        rdBytes t.host (at_ + 16) x.body.length = x.body ∧
        (∀ a, a < at_ ∨ at_ + 64 * x.len64 ≤ a → rd8 t.host a = rd8 s.host a) ∧
        (t.rng x.ring).rseq = ((s.rng x.ring).rseq + 1) % 2 ^ 32 ∧
        (o.status.getLsbD 15 = true → rdLe (t.core o.keeper).dmem (2 * (o.status.toNat % 32768)) 2 = 0x100))) ∧
    (let st := e.word 2
     let a := e.words 4 4
     let n := e.words 8 4
     QHead s k e 0x0D 1 → e.word 1 = 0 → st ≤ 7 → st < s.nStacks → e.word 3 = 0 → a % 64 = 0 → n % 64 = 0 → 0 < n →
     st * 51539607552 ≤ a → a + n ≤ (st + 1) * 51539607552 → e.words 12 2 % 64 = 0 → e.words 12 2 + 64 ≤ 0x400000 →
      Completes (.scrub k) s (fun t => QTaken s t k e [] ∧ RegsBut [] s t ∧ ∃ p, t.scrubs st = s.scrubs st ++ [p] ∧ p.start = a ∧
        p.len = n ∧ p.next = a ∧ p.stack = st ∧ p.by_ = .keeper s.cq.nextOp (e.words 12 2)))

/-- A command of context 0 with nothing unused set: LOAD and READ copy LENGTH bytes between host memory and the space
named, and change no other byte, but that a LOAD of device memory may lose what units have written to its lines at the
same tick (the model's choice of form, log 82); where the fabric target of another space is not open to the command
unit they wait for its grant (log 29); START_KEEPER starts a halted core at the entry given, STOP_KEEPER halts one at
a boundary; ATTACH attaches the context named or the lowest free one with its index area, DETACH detaches and disables
its rings; RING_SETUP writes and enables a ring from position 0, answers RANGE with ERR set where its format, size or
policy is not sound (without ERR where it does not enable the ring and its format or size is out of range), STATE
where the ring is enabled, and STATE with ERR set where the owner is not attached; QUERY reports and changes no
register. Another context's LOAD is DENIED. A response takes its place in an enabled response ring of the context that
owned the command's ring as it ran, one that cannot be placed there is dropped and counted in the command ring's
RNG_DROPS, and CONS then advances. [R196, R215, R244, R245, R246, R252, R253, R254, R255, R256] -/
def Obligations.CommandsAreCarriedOut : Prop :=
  ∀ (s : State) (r : Nat) (b : List Byte),
    let len := field b 12 4
    let host := field b 16 8
    let dev := field b 24 8
    let k := field b 9 1
    let c := field b 8 2
    let moves := field b 8 1 ≤ 3 ∧ (if 2 ≤ field b 8 1 then k ≤ 7 else k = 0) ∧ 0 < len ∧ len ≤ 16777216 ∧ len % 4 = 0 ∧ host % 4 = 0 ∧
      dev % 4 = 0 ∧ dev + len ≤ (if field b 8 1 = 0 then s.memEnd else if field b 8 1 = 1 then 0x400000 else 0x10000)
    let target := if field b 8 1 = 1 then 1 else 3 + k
    let open_ := field b 8 1 ≠ 0 → FabQuiet s 8 target
    let asks := fun (c : Instr) (write : Bool) => field b 8 1 ≠ 0 → ¬ FabQuiet s 8 target → (∀ q ∈ s.xbr.waiting, q.master ≠ 8) →
      Completes c s (fun t => Asked s t (s.moveReq r write))
    let space := fun (t : State) => if field b 8 1 = 0 then t.hbm else if field b 8 1 = 1 then t.csram
      else if field b 8 1 = 2 then (t.core k).imem else (t.core k).dmem
    (CmdNext s r 1 b → moves → (field b 8 1 = 2 → (s.core k).run = 0 ∧ s.fuse.verify = false) →
      asks (.cmdLoad r none) true ∧ (open_ →
      Completes (.cmdLoad r none) s (fun t => CmdRan s t r b 0 (leBytes 4 len) ∧ t.host = s.host ∧
        (field b 8 1 ≠ 0 → t.hbm = s.hbm) ∧ (field b 8 1 ≠ 1 → t.csram = s.csram) ∧
        (∀ i < len, rd8 (space t) (dev + i) = rd8 s.host (host + i)) ∧
        (∀ a, a < dev ∨ dev + len ≤ a → rd8 (space t) a = rd8 (space s) a ∨
          ∃ m, field b 8 1 = 0 ∧ s.hbmWas = some m ∧ rd8 t.hbm a = rd8 m a ∧ dev / 64 ≤ a / 64 ∧ a / 64 ≤ (dev + len - 1) / 64)))) ∧
    (CmdNext s r 2 b → moves → asks (.cmdRead r none) false ∧ (open_ → Completes (.cmdRead r none) s (fun t => CmdRan s t r b 0 (leBytes 4 len) ∧ t.hbm = s.hbm ∧
        t.csram = s.csram ∧ (∀ i < len, rd8 t.host (host + i) = rd8 (space s) (dev + i)) ∧
        (∀ a, a < host ∨ host + len ≤ a → rd8 t.host a = rd8 s.host a)))) ∧
    (CmdNext s r 3 b → field b 8 1 ≤ 7 → field b 9 1 = 1 → field b 10 2 ≤ 0x3FFF → (s.core (field b 8 1)).run = 0 →
      s.fuse.verify = false → Completes (.cmdStartKeeper r) s (fun t => CmdRan s t r b 0 [] ∧ MemSame s t ∧
        (t.core (field b 8 1)).run = 1 ∧ (t.core (field b 8 1)).pc.toNat = field b 10 2 ∧ (t.core (field b 8 1)).be = 15 ∧
        (t.core (field b 8 1)).dmem = (s.core (field b 8 1)).dmem ∧ (∀ j, j ≠ field b 8 1 → t.core j = s.core j))) ∧
    (CmdNext s r 4 b → field b 8 1 ≤ 7 → (let v := s.core (field b 8 1)
        v.run = 1 ∧ v.after = none ∧ v.rpt = false ∧ v.load = none) → Completes (.cmdStopKeeper r) s (fun t => CmdRan s t r b 0 [] ∧
        (t.core (field b 8 1)).run = 0 ∧ (t.core (field b 8 1)).why = 1 ∧ t.queue (field b 8 1) = [])) ∧
    (∀ x, CmdNext s r 5 b → x ≤ 1023 → s.rb (0x1060000 + 0x10 * x) 31 = false →
      (c = x ∨ c = 0xFFFF ∧ ∀ y < x, s.rb (0x1060000 + 0x10 * y) 31 = true) → host % 4096 = 0 →
      Completes (.cmdAttach r) s (fun t => CmdRan s t r b 0 (leBytes 2 x) ∧ MemSame s t ∧ t.rb (0x1060000 + 0x10 * x) 31 = true ∧
        t.reg64 (0x1060004 + 0x10 * x) = host ∧
        RegsBut [0x1060000 + 0x10 * x, 0x1060004 + 0x10 * x, 0x1060008 + 0x10 * x] s t)) ∧
    (CmdNext s r 6 b → c ≤ 1023 → s.rb (0x1060000 + 0x10 * c) 31 = true → field b 1 1 = 0 →
      Completes (.cmdDetach r) s (fun t => CmdRan s t r b 0 [] ∧ MemSame s t ∧ t.rb (0x1060000 + 0x10 * c) 31 = false ∧
        (∀ x < 32768, s.rOwner x = c → t.rEn x = false) ∧ (∀ x < 32768, s.rOwner x ≠ c → t.rEn x = s.rEn x))) ∧
    (let cfg := lo32 (field b 24 4)
     let own := lo32 (field b 28 4)
     let ctx := fld own 16 10
     let sound := fld cfg 24 4 ≤ 6 ∧ (if fld cfg 24 4 = 0 then 16 else 12) ≤ fld cfg 19 5 ∧ fld cfg 19 5 ≤ 30 ∧
       (fld cfg 24 4 = 6 → bit cfg 30 = false)
     (CmdNext s r 7 b → bit cfg 31 = false → fld cfg 19 5 < 12 ∨ 30 < fld cfg 19 5 ∨ 6 < fld cfg 24 4 →
      Completes (.cmdRingSetup r) s (fun t => CmdRan s t r b 2 [] ∧ MemSame s t ∧ RegsBut [] s t)) ∧
     (CmdNext s r 7 b → bit cfg 31 = false → 12 ≤ fld cfg 19 5 → fld cfg 19 5 ≤ 30 → fld cfg 24 4 ≤ 6 → c < s.nRings → s.rEn c = false →
      cfg &&& 0x1007FFFF#32 = 0 → own &&& 0xFC00F800#32 = 0 → field b 16 4 % 4096 = 0 →
      Completes (.cmdRingSetup r) s (fun t => CmdRan s t r b 0 [] ∧ MemSame s t ∧ t.rEn c = false ∧ t.rFmt c = fld cfg 24 4 ∧
        t.rOwner c = ctx ∧ t.reg (0x1100000 + 0x20 * c) = lo32 (field b 16 4) ∧ t.reg (0x1100004 + 0x20 * c) = lo32 (field b 20 4))) ∧
     (CmdNext s r 7 b → c < s.nRings → cfg &&& 0x1007FFFF#32 = 0 → own &&& 0xFC00F800#32 = 0 → field b 16 4 % 4096 = 0 →
     bit cfg 31 = true →
      (¬ sound → Completes (.cmdRingSetup r) s (fun t => CmdRan s t r b 2 [] ∧ MemSame s t ∧ t.rEn c = s.rEn c ∧
        t.rb (0x1100008 + 0x20 * c) 18 = true ∧ RegsBut [0x1100008 + 0x20 * c] s t)) ∧
      (sound → s.rEn c = true → s.rb (0x1060000 + 0x10 * ctx) 31 = true → Completes (.cmdRingSetup r) s (fun t =>
        CmdRan s t r b 3 [] ∧ MemSame s t ∧ RegsBut [] s t)) ∧
      (sound → s.rEn c = false → s.rb (0x1060000 + 0x10 * ctx) 31 = true → Completes (.cmdRingSetup r) s (fun t => CmdRan s t r b 0 [] ∧ MemSame s t ∧
        t.rEn c = true ∧ t.rFmt c = fld cfg 24 4 ∧ t.rOwner c = ctx ∧ t.reg (0x1100000 + 0x20 * c) = lo32 (field b 16 4) ∧
        t.reg (0x1100004 + 0x20 * c) = lo32 (field b 20 4) ∧ t.reg (0x1100018 + 0x20 * c) = lo32 (field b 32 4) ∧
        t.reg (0x1100010 + 0x20 * c) = 0 ∧ t.reg (0x1100014 + 0x20 * c) = 0 ∧ (t.rng c).head = 0 ∧ (t.rng c).rseq = 0)) ∧
      (sound → s.rEn c = false → s.rb (0x1060000 + 0x10 * ctx) 31 = false → Completes (.cmdRingSetup r) s (fun t => CmdRan s t r b 3 [] ∧ MemSame s t ∧
        t.rEn c = false ∧ t.rb (0x1100008 + 0x20 * c) 18 = true ∧ RegsBut [0x1100008 + 0x20 * c] s t)))) ∧
    (CmdNext s r 8 b → c < s.nRings → Completes (.cmdQuery r) s (fun t => ∃ res, CmdRan s t r b 0 res ∧ MemSame s t ∧ RegsBut [] s t ∧
      res.length = 40 ∧ field res 0 4 = (s.reg 8).toNat ∧
      (∀ w, w < 8 → w ≠ 2 → field res (8 + 4 * w) 4 = (s.reg (0x1100000 + 0x20 * c + 4 * w)).toNat))) ∧
    (s.cmdsServed = true → s.nextCmdRing = some r → b = s.cmdBytes r → field b 0 1 = 1 → s.rOwner r ≠ 0 → s.cmdServes b = true → s.err.upsets = [] →
      Completes (.cmdLoad r none) s (fun t => CmdRan s t r b 4 [] ∧ MemSame s t ∧ RegsBut [] s t ∧ t.cores = s.cores)) ∧
    (∀ d rest, s.cmdsServed = true → s.link.cmds = (r, d) :: rest → (∀ e ∈ rest, e.1 ≠ r) → d.detach = none → s.err.upsets = [] →
      (d.resp = false → Completes (.responseRecordWrite r) s (fun t => Apart s t ∧ MemSame s t ∧ RegsBut [] s t ∧ t.link.cmds = rest ∧
        (t.rng r).head = ((s.rng r).head + 1) % 2 ^ 32)) ∧
      (let q := d.respRing
       let at_ := s.rBase q + (s.rng q).head % s.rSize q * 64
       d.resp = true → q ≠ r → q < s.nRings → s.rEn q = true → s.rFmt q = 4 → s.rOwner q = d.owner → 1 ≤ s.rFree q → 0 < s.rSize q →
       (s.rng q).lost = [] → d.op < 256 → d.status < 256 → d.tag < 2 ^ 32 → d.result.length = 48 →
        Completes (.responseRecordWrite r) s (fun t => Apart s t ∧ t.hbm = s.hbm ∧ t.csram = s.csram ∧ t.link.cmds = rest ∧
          (t.rng r).head = ((s.rng r).head + 1) % 2 ^ 32 ∧ (t.rng q).head = ((s.rng q).head + 1) % 2 ^ 32 ∧
          rdLe t.host at_ 1 = 0x40 ∧ rdLe t.host (at_ + 1) 1 = d.op ∧ rdLe t.host (at_ + 2) 1 = d.status ∧
          rdLe t.host (at_ + 4) 4 = d.tag ∧ rdLe t.host (at_ + 14) 2 = r % 65536 ∧ rdBytes t.host (at_ + 16) 48 = d.result ∧
          (∀ a, a < at_ ∨ at_ + 64 ≤ a → rd8 t.host a = rd8 s.host a))) ∧
      (d.resp = true → (s.rng d.respRing).lost = [] → s.respRing d.owner d.respRing = false → Completes (.responseRecordWrite r) s (fun t =>
        Apart s t ∧ MemSame s t ∧ t.link.cmds = rest ∧ (t.rng r).head = ((s.rng r).head + 1) % 2 ^ 32 ∧
        RegsBut [0x110001C + 0x20 * r] s t ∧ Counted s t (0x110001C + 0x20 * r) 1)))

/-- An aligned 8-byte doorbell, and no other access, moves CONS of an enabled ring of its page as far as the written back
PROD, where no held record waits for the ring; a ring not owned or not there, bits 31:15 set, or an index beyond it,
of either direction, count as bad and move nothing. A context attaches and detaches by its register, a detach
disabling its rings. A write of RNG_CFG enables a sound ring, sets ERR for one that is not or has an owner not
attached, and disables with EN 0, the records that wait dropped and counted (the model's choice, log 51). A writeback
writes the 32-bit index at its place in the index area and in the register; with COUNT records that no message covers,
or TIME_US after the first of them, the vector is sent or its pending bit set (mask and pending bits lie where the
model places them, log 14). A request of the host that gets no completion stops its channel or ends its LOAD in ERROR.
[R237, R241, R244, R246, R247, R249, R250, R251, R256, R263] -/
def Obligations.RingsMoveTheirIndices : Prop :=
  ∀ s : State, s.hostUp = true → s.err.upsets = [] →
    (∀ (off len : Nat) (v : W64), off % 8 ≠ 0 ∨ len ≠ 8 → Completes (.doorbell off len v) s (fun t => t = s)) ∧
    (∀ (off : Nat) (v : W64), off < 0x800000 → off % 8 = 0 → s.nRings ≤ v.toNat % 2 ^ 32 →
      Completes (.doorbell off 8 v) s (fun t => Apart s t ∧ MemSame s t ∧ RegsBut [0x106000C + 0x10 * (off / 0x2000)] s t ∧
        Counted s t (0x106000C + 0x10 * (off / 0x2000)) 1)) ∧
    (∀ (off r x : Nat), off < 0x800000 → off % 8 = 0 → r < 32768 → x < 2 ^ 32 →
      let c := off / 0x2000
      let fill := ((s.reg (0x1100010 + 0x20 * r)).toNat + 2 ^ 32 - (s.reg (0x1100014 + 0x20 * r)).toNat) % 2 ^ 32
      let step := (x + 2 ^ 32 - (s.reg (0x1100014 + 0x20 * r)).toNat) % 2 ^ 32
      let bad := Completes (.doorbell off 8 (BitVec.ofNat 64 (r + 2 ^ 32 * x))) s (fun t => Apart s t ∧ MemSame s t ∧
        RegsBut [0x106000C + 0x10 * c] s t ∧
        (t.reg (0x106000C + 0x10 * c)).toNat = min ((s.reg (0x106000C + 0x10 * c)).toNat + 1) 0xFFFFFFFF)
      (∀ h ∈ s.pair.hold, HoldEntry.ofRing r h = false) →
      (r < s.nRings → s.rEn r = true → s.rOwner r = c → s.rFmt r ≠ 5 →
        (step ≤ fill → Completes (.doorbell off 8 (BitVec.ofNat 64 (r + 2 ^ 32 * x))) s (fun t => Apart s t ∧ MemSame s t ∧
          RegsBut [0x1100014 + 0x20 * r] s t ∧ (t.reg (0x1100014 + 0x20 * r)).toNat = x)) ∧ (fill < step → bad)) ∧
      (r < s.nRings → s.rEn r = true → s.rOwner r = c → s.rFmt r = 5 → (x + 2 ^ 32 - (s.rng r).head) % 2 ^ 32 ≤ s.rSize r →
        Completes (.doorbell off 8 (BitVec.ofNat 64 (r + 2 ^ 32 * x))) s (fun t => Apart s t ∧ MemSame s t ∧
          RegsBut [0x1100010 + 0x20 * r] s t ∧ (t.reg (0x1100010 + 0x20 * r)).toNat = x)) ∧
      (r < s.nRings → s.rEn r = true → s.rOwner r = c → s.rFmt r = 5 → s.rSize r < (x + 2 ^ 32 - (s.rng r).head) % 2 ^ 32 → bad) ∧
      (s.rEn r = false ∨ s.rOwner r ≠ c → bad)) ∧
    (∀ (c : Nat) (v : W32), c < 1024 → Completes (.ctxCtlWrite c v) s (fun t => Apart s t ∧ MemSame s t ∧
      t.rb (0x1060000 + 0x10 * c) 31 = bit v 31 ∧
      (bit v 31 = true → RegsBut [0x1060000 + 0x10 * c] s t) ∧
      (bit v 31 = false → s.rb (0x1060000 + 0x10 * c) 31 = true → ∀ x < 32768, s.rOwner x = c → t.rEn x = false))) ∧
    (∀ (r : Nat) (v : W32), r < s.nRings →
      (s.rEn r = true → bit v 31 = false → Completes (.ringEnableWrite r v) s (fun t => Apart s t ∧ MemSame s t ∧
        RegsBut [0x1100008 + 0x20 * r, 0x110001C + 0x20 * r] s t ∧ t.rEn r = false ∧ (t.rng r).waiting = [] ∧
        Counted s t (0x110001C + 0x20 * r) (((s.rng r).waiting.filter (fun w => !w.1.isDma)).length +
          (if s.emits then (s.pair.hold.filter (HoldEntry.ofRing r)).length else 0)))) ∧
      (s.rEn r = true → bit v 31 = true → Completes (.ringEnableWrite r v) s (fun t => Apart s t ∧ MemSame s t ∧ RegsBut [] s t)) ∧
      (s.rEn r = false → bit v 31 = true → Completes (.ringEnableWrite r v) s (fun t => Apart s t ∧ MemSame s t ∧
          RegsBut [0x1100008 + 0x20 * r] s t ∧
          (if fld v 24 4 ≤ 6 ∧ (if fld v 24 4 = 0 then 16 else 12) ≤ fld v 19 5 ∧ fld v 19 5 ≤ 30 ∧ (fld v 24 4 = 6 → bit v 30 = false) ∧
              s.rb (0x1060000 + 0x10 * s.rOwner r) 31 = true
           then t.rEn r = true ∧ t.rFmt r = fld v 24 4 ∧ (t.rng r).rseq = 0 ∧ t.rb (0x1100008 + 0x20 * r) 18 = false
           else t.rEn r = false ∧ t.rb (0x1100008 + 0x20 * r) 18 = true)))) ∧
    (∀ r, r < s.nRings → s.rEn r = true → (s.rng r).head < 2 ^ 32 →
      let idx := 0x1100000 + 0x20 * r + (if s.rFmt r = 5 then 0x14 else 0x10)
      let at_ := s.ctxIdx (s.rOwner r) + 4 * r
      let vec := s.rf (0x110000C + 0x20 * r) 0 11
      let sent := fun (t : State) => (t.rng r).unsent = 0 ∧
        (if s.rb (0x108000C + 16 * vec) 0 = true then t.rb (0x1090000 + 4 * (vec / 32)) (vec % 32) = true ∧ t.link.msis = s.link.msis
         else t.link.msis = vec :: s.link.msis)
      ((s.reg idx).toNat ≠ (s.rng r).head → Completes (.indexWriteback r) s (fun t => Apart s t ∧ t.hbm = s.hbm ∧
        t.csram = s.csram ∧ RegsBut [idx, 0x1090000 + 4 * (vec / 32)] s t ∧ (t.reg idx).toNat = (s.rng r).head ∧
        rdLe t.host at_ 4 = (s.rng r).head ∧ (∀ a, a < at_ ∨ at_ + 4 ≤ a → rd8 t.host a = rd8 s.host a) ∧ (t.rng r).owed = [] ∧
        (let n := s.rf (0x1100018 + 0x20 * r) 16 16
         (s.rIe r = true → n ≠ 0 → n ≤ (s.rng r).unsent → sent t) ∧
         (s.rIe r = false ∨ n = 0 ∨ (s.rng r).unsent < n → (t.rng r).unsent = (s.rng r).unsent ∧ t.link.msis = s.link.msis ∧
           RegsBut [idx] s t)))) ∧
      (∀ dt, s.rIe r = true → s.rf (0x1100018 + 0x20 * r) 0 16 ≠ 0 → (s.rng r).unsent ≠ 0 →
        (s.rng r).firstTick + 625 * s.rf (0x1100018 + 0x20 * r) 0 16 ≤ s.time.ticks + dt →
        Completes (.msixTimer r dt) s (fun t => Apart s t ∧ t.hbm = s.hbm ∧ t.csram = s.csram ∧
          rdLe t.host at_ 4 = (s.rng r).head ∧ (t.reg idx).toNat = (s.rng r).head ∧
          (∀ a, a < at_ ∨ at_ + 4 ≤ a → rd8 t.host a = rd8 s.host a) ∧ sent t))) ∧
    (s.up = true → ∀ c, c < 64 → s.dActive c = true → Completes (.hostCompletionTimeout (.dma c)) s (fun t => Apart s t ∧ t.hbm = s.hbm ∧
      t.csram = s.csram ∧ t.dState c = 0 ∧ t.rf (0x1000004 + 0x1000 * c) 26 3 = 3)) ∧
    (∀ r b, CmdNext s r 1 b → s.moveBad (MoveCmd.parse b) = false → s.loadState (MoveCmd.parse b) = false →
      Completes (.hostCompletionTimeout (.command r)) s (fun t => t.host = s.host ∧ ∃ n, n ≤ field b 12 4 ∧ CmdRan s t r b 5 (leBytes 4 n)))

/-- GO starts the shadow of an IDLE channel, arms a RUNNING one and else sets SHBUSY; a shadow of length 0 stops it with
BADDESC. A burst of at most 4 KiB, not across a 4 KiB host boundary, is copied with its swap, from HBM or control SRAM
to the host or back, or into its ring, whose PROD moves on, where the ring has room, and else waits there; addresses
and residue move on, and the last sets DONE and counts, an event following a BARRIER of a transfer to the host. ABORT
makes an active channel ABORTING; KILL makes a channel IDLE at once, with cause 7 and no event, and of host memory
nothing but the bytes of a burst in flight to it can change. A program starts with its counters 0, and MOVE, LOOP,
WAIT, SIGNAL and END do as they say, END stopping it with cause END. [R257, R258, R259, R260, R263, R264, R266] -/
def Obligations.ChannelsMoveTheirTransfers : Prop :=
  ∀ (s : State) (c : Nat), s.hostUp = true → c < 64 → s.err.upsets = [] →
    let C := 0x1000000 + 0x1000 * c
    let ch := s.chan c
    let src := s.reg64 (C + 0x30)
    let dst := s.reg64 (C + 0x38)
    let left := (s.reg (C + 0x40)).toNat
    let f := s.reg (C + 0x44)
    let cause := fun (t : State) => t.rf (C + 4) 26 3
    (∀ v, bit v 0 = true → s.rb C 29 = false →
      (s.dState c = 0 → s.descBad (s.reg64 (C + 0x10)) (s.reg64 (C + 0x18)) (s.reg (C + 0x20)).toNat (s.reg (C + 0x24) &&& 0xFF) = false →
        Completes (.dmaShadowGo c v) s (fun t => Apart s t ∧ MemSame s t ∧ t.dState c = 1 ∧ t.reg64 (C + 0x30) = s.reg64 (C + 0x10) ∧
          t.reg64 (C + 0x38) = s.reg64 (C + 0x18) ∧ t.reg (C + 0x40) = s.reg (C + 0x20) ∧ t.reg (C + 0x44) = s.reg (C + 0x24) &&& 0xFF)) ∧
      (s.dState c = 0 → s.reg (C + 0x20) = 0 → Completes (.dmaShadowGo c v) s (fun t => Apart s t ∧ t.dState c = 0 ∧ cause t = 4 ∧
        t.hbm = s.hbm ∧ t.csram = s.csram)) ∧
      (s.dState c = 1 → Completes (.dmaShadowGo c v) s (fun t => Apart s t ∧ MemSame s t ∧ t.dState c = 2 ∧ RegsBut [C + 4] s t)) ∧
      (s.dState c = 2 ∨ s.dState c = 4 → Completes (.dmaShadowGo c v) s (fun t => Apart s t ∧ MemSame s t ∧ t.dState c = s.dState c ∧
        t.rb (C + 4) 1 = true ∧ RegsBut [C + 4] s t))) ∧
    (s.dState c = 1 ∨ s.dState c = 2 → s.dActive c = true → Completes (.dmaAbort c) s (fun t => Apart s t ∧ MemSame s t ∧ t.dState c = 4 ∧
      RegsBut [C + 4] s t)) ∧
    (s.dWrites c = false → Completes (.dmaKill c) s (fun t => Apart s t ∧ MemSame s t ∧ t.dState c = 0 ∧ cause t = 7 ∧ t.bcn = s.bcn ∧
      t.link.msis = s.link.msis ∧ RegsBut [C + 4, C + 0x40, C + 0x60] s t)) ∧
    (s.dWrites c = true → Completes (.dmaKill c) s (fun t => Apart s t ∧ t.hbm = s.hbm ∧ t.csram = s.csram ∧ t.dState c = 0 ∧
      cause t = 7 ∧ t.bcn = s.bcn ∧ t.link.msis = s.link.msis ∧
      (∀ a, a < s.dHostAddr c ∨ s.dHostAddr c + s.dBurst c ≤ a → rd8 t.host a = rd8 s.host a))) ∧
    (s.rb C 29 = true → s.dState c = 0 → Completes (.dmaProgStart c) s (fun t => Apart s t ∧ MemSame s t ∧ t.dState c = 1 ∧
      (t.chan c).prog = true ∧ (t.chan c).ctr = [0, 0, 0, 0] ∧ (t.reg (C + 0x5C)).toNat = (s.reg (C + 0x58)).toNat / 32 * 32)) ∧
    (let sw := fun (i : Nat) => i ^^^ [0, 1, 3, 7, 2].getD (fld f 4 3) 0
     let unit := [1, 2, 4, 8, 4].getD (fld f 4 3) 1
     let dev := fun (t : State) (a : Nat) => if 2 ^ 39 ≤ a then rd8 t.csram (a - 2 ^ 39) else rd8 t.hbm a
     let inDev := fun (a : Nat) => a + left ≤ s.memEnd ∨ (2 ^ 39 ≤ a ∧ a + left ≤ 2 ^ 39 + 0x400000)
     s.dActive c = true → s.devServes c = true → fld f 4 3 ≤ 4 → 0 < left → left < 2 ^ 32 → left % unit = 0 → src % unit = 0 →
     s.memEnd ≤ 2 ^ 39 →
      (∀ n, bit f 1 = false → dst % unit = 0 →
        (if bit f 0 then n = min left (4096 - src % 4096) ∧ inDev dst ∧ src + left ≤ 2 ^ 64
         else n = min left (4096 - dst % 4096) ∧ inDev src ∧ dst + left ≤ 2 ^ 64) →
        s.dState c = 1 ∨ (s.dState c = 2 ∧ n < left) → (n < left ∨ bit f 3 = false ∧ bit f 7 = false) →
        Completes (.dmaBurstComplete c none) s (fun t => Apart s t ∧
          t.reg64 (C + 0x30) = (src + n) % 2 ^ 64 ∧ t.reg64 (C + 0x38) = (dst + n) % 2 ^ 64 ∧ (t.reg (C + 0x40)).toNat = left - n ∧
          (bit f 0 = false → t.hbm = s.hbm ∧ t.csram = s.csram ∧ (∀ i < n, rd8 t.host (dst + i) = dev s (src + sw i)) ∧
            (∀ a, a < dst ∨ dst + n ≤ a → rd8 t.host a = rd8 s.host a)) ∧
          (bit f 0 = true → t.host = s.host ∧ (∀ i < n, dev t (dst + i) = rd8 s.host (src + sw i)) ∧
            (2 ^ 39 ≤ dst → t.hbm = s.hbm ∧ ∀ a, a + 2 ^ 39 < dst ∨ dst + n ≤ a + 2 ^ 39 → rd8 t.csram a = rd8 s.csram a) ∧
            (dst < 2 ^ 39 → t.csram = s.csram ∧ ∀ a, a < dst ∨ dst + n ≤ a → rd8 t.hbm a = rd8 s.hbm a)) ∧
          (n < left → t.dState c = s.dState c) ∧
          (n = left → t.dState c = (if ch.prog then 1 else 0) ∧ t.rb (C + 4) 0 = true ∧ (t.reg (C + 0x60)).toNat = (ch.done + 1) % 2 ^ 32 ∧
            (ch.prog = true → (t.reg (C + 0x5C)).toNat = ((s.reg (C + 0x5C)).toNat + 32) % 2 ^ 22) ∧
            (bit f 2 = true → bit f 0 = false → Published s t (80 + c / 8))))) ∧
      (let r := dst % 2 ^ 15
       let at_ := s.rBase r + (s.rng r).head % s.rSize r * 64
       let n := min left (4096 - at_ % 4096)
       bit f 1 = true → bit f 0 = false → s.dState c = 1 → inDev src → left % 64 = 0 → r < s.nRings → s.rEn r = true → s.rFmt r = 6 →
       Offerer.dma c ∉ (s.rng r).lost →
        (n / 64 ≤ s.rFree r → n < left ∨ bit f 3 = false ∧ bit f 7 = false → Completes (.dmaBurstComplete c none) s (fun t => Apart s t ∧ t.hbm = s.hbm ∧ t.csram = s.csram ∧
          t.dState c = (if n < left ∨ ch.prog = true then 1 else 0) ∧ t.reg64 (C + 0x30) = (src + n) % 2 ^ 64 ∧ t.reg64 (C + 0x38) = dst ∧ (t.reg (C + 0x40)).toNat = left - n ∧
          (t.rng r).head = ((s.rng r).head + n / 64) % 2 ^ 32 ∧ (∀ i < n, rd8 t.host (at_ + i) = dev s (src + sw i)) ∧
          (∀ a, a < at_ ∨ at_ + n ≤ a → rd8 t.host a = rd8 s.host a))) ∧
        (s.rFree r < n / 64 → Completes (.dmaBurstComplete c none) s (fun t => Apart s t ∧ MemSame s t ∧ RegsBut [] s t ∧
          t.dState c = 1 ∧ (t.rng r).head = (s.rng r).head ∧ (Offerer.dma c, n / 64) ∈ (t.rng r).waiting)))) ∧
    (let pc := (s.reg (C + 0x5C)).toNat
     let b := rdBytes s.csram pc 32
     let next := fun (t : State) => Apart s t ∧ MemSame s t ∧ (t.reg (C + 0x5C)).toNat = (pc + 32) % 2 ^ 22 ∧ t.dState c = 1
     s.dState c = 1 → ch.prog = true → ch.moving = false → FabQuiet s 10 1 →
      (field b 0 1 = 0 → Completes (.dmaEnd c) s (fun t => Apart s t ∧ t.hbm = s.hbm ∧ t.csram = s.csram ∧ t.dState c = 0 ∧ cause t = 6 ∧
        (t.chan c).prog = false ∧ (t.reg (C + 0x5C)).toNat = pc)) ∧
      (field b 0 1 = 1 → s.descBad (field b 8 8) (field b 16 8) (field b 4 4) (lo32 (field b 1 1)) = false →
        Completes (.dmaMove c) s (fun t => Apart s t ∧ MemSame s t ∧ t.dState c = 1 ∧ (t.chan c).moving = true ∧
          t.reg64 (C + 0x30) = field b 8 8 ∧ t.reg64 (C + 0x38) = field b 16 8 ∧ (t.reg (C + 0x40)).toNat = field b 4 4 ∧
          (t.reg (C + 0x44)).toNat = field b 1 1 ∧ (t.reg (C + 0x5C)).toNat = pc)) ∧
      (∀ n v, field b 0 1 = 2 → field b 1 1 = n → n < 4 → ch.ctr.length = 4 →
        v = (if ch.ctr.getD n 0 = 0 then field b 4 4 else ch.ctr.getD n 0) → 0 < v → v < 2 ^ 32 →
        (v = 1 → Completes (.dmaLoop c) s (fun t => next t ∧ (t.chan c).ctr.getD n 1 = 0)) ∧
        (1 < v → field b 8 4 % 32 = 0 → Completes (.dmaLoop c) s (fun t => Apart s t ∧ MemSame s t ∧ t.dState c = 1 ∧
          (t.chan c).ctr.getD n 0 = v - 1 ∧ (t.reg (C + 0x5C)).toNat = field b 8 4 % 2 ^ 22))) ∧
      (field b 0 1 = 3 → Completes (.dmaWait c) s (fun t => Apart s t ∧ MemSame s t ∧ RegsBut [C + 4] s t ∧
        t.dState c = 3 ∧
        (t.chan c).wait = some (field b 4 2))) ∧
      (field b 0 1 = 4 → 120 ≤ field b 4 2 → field b 4 2 ≤ 127 → Completes (.dmaSignal c) s (fun t => next t ∧
        (s.rb 0x200030 15 = true → (field b 4 2, 0) ∈ t.bcn.flight))))

/-- EN takes a part from OFF to SOLO and back, discarding what it held. FORCE and a lost partner make a STANDBY with
nothing under way take over: SOLO, with the partner's claim + 1, one takeover counted; FORCE elsewhere changes no
role. A heartbeat goes out on each UP lane every 625 ticks, in the bytes of R345; a good one that arrives takes its
lane to UP, and makes a SOLO part ACTIVE, JOINING (with JOIN sent) or CLASH by the claims, and an ACTIVE one whose
claim is beaten STANDBY (its queued BEAM frames going to the holding buffer, where device memory serves), or SOLO
where the partner is OFF; a bad one is counted while EN is set. LINK follows the lanes heard; 5 µs without a
heartbeat, or FOGIN_N low where FOGIN is set, make an ACTIVE part SOLO. An ACTIVE part sends its positions every 625
ticks, one item counted. (The model's choices: that a REPORT takes frames of its own by the size of its contents, log
40; that what a part held is discarded as EN goes to 0, log 45; that a claim leaves the roles JOINING and STANDBY as
they are, log 74; and that SEQ begins at 1 again where the partner has started anew, log 43.) [R341, R342, R345, R354,
R357, R358] -/
def Obligations.PairRolesFollowHeartbeats : Prop :=
  ∀ s : State,
    let quiet := s.asm_ = [] ∧ s.pair.follow = [] ∧ s.kilns = [] ∧ s.pair.hold = [] ∧ s.plc.cur = none ∧ s.eng = []
    let own := (s.reg 0x600008).toNat / 65536
    let other := (s.reg 0x600008).toNat % 65536
    let tookOver := fun (t : State) => Apart s t ∧ MemSame s t ∧ t.role = 1 ∧ (t.reg 0x600008).toNat = (other + 1) % 65536 * 65536 + other ∧
      t.pair.present = false ∧ (t.reg 0x600100).toNat = min ((s.reg 0x600100).toNat + 1) 0xFFFFFFFF
    (∀ v, s.hostUp = true → bit v 29 = false →
      (s.paired = false → s.role = 0 → bit v 31 = true → Completes (.prEnableWrite v) s (fun t => Apart s t ∧ MemSame s t ∧ t.paired = true ∧
        t.role = 1 ∧ t.pair.present = false ∧ t.rb 0x600000 30 = bit v 30)) ∧
      (s.paired = true → bit v 31 = false → Completes (.prEnableWrite v) s (fun t => Apart s t ∧ MemSame s t ∧
        t.paired = false ∧ t.role = 0 ∧ t.pair.hold = [] ∧ t.pair.present = false ∧ t.rf 0x600004 25 4 = 0))) ∧
    (∀ v, s.hostUp = true → bit v 29 = true → s.paired = true → bit v 31 = true → bit v 30 = false →
      (s.role = 4 → quiet → Completes (.prForce v) s tookOver) ∧
      (s.role ≤ 3 → Completes (.prForce v) s (fun t => Apart s t ∧ MemSame s t ∧ t.role = s.role ∧ RegsBut [0x600000] s t))) ∧
    (∀ n dt, s.auxUp = true → n ∈ s.wUp → tget 0 s.pair.hbSent n + 625 ≤ s.time.ticks + dt →
      Completes (.heartbeatSend n dt) s (fun t => Apart s t ∧ MemSame s t ∧ tget 0 t.pair.hbSent n = s.time.ticks + dt ∧
        ∃ x, t.pair.sent = x :: s.pair.sent ∧ x.lane = n ∧ x.seq = none ∧ x.bytes.length = 24 ∧ field x.bytes 0 1 = 1 ∧
          field x.bytes 1 1 = 0 ∧ field x.bytes 2 2 = 16 ∧ field x.bytes 4 4 = 0 ∧ field x.bytes 8 1 = s.role ∧
          (∀ m, m < 4 → ((field x.bytes 9 1).testBit m ↔ m ∈ s.wUp)) ∧ field x.bytes 10 2 = own ∧
          field x.bytes 12 4 = s.pair.rxSeq % 2 ^ 32 ∧ (field x.bytes 16 1 = 1 ↔ s.pair.nak = true))) ∧
    (∀ (f : WFrame) dt lanes claim ack, s.auxUp = true → s.hears f = true → lanes < 16 → claim < 65536 →
      let d := (own + 65536 - claim) % 65536
      (f.good = false → ∀ role nak, Completes (.heartbeat f dt role lanes claim ack nak) s (fun t => Apart s t ∧ MemSame s t ∧ t.role = s.role ∧
        t.pair = s.pair ∧ Counted s t 0x600108 (if s.paired then 1 else 0))) ∧
      (s.laneState (.w f.lane) ≤ 4 → f.good = true → ∀ role nak, Completes (.heartbeat f dt role lanes claim ack nak) s (fun t =>
        t.laneState (.w f.lane) = 4 ∧ (s.paired = false → Apart s t ∧ MemSame s t ∧ t.role = s.role ∧ t.pair = s.pair))) ∧
      (f.good = true → s.paired = true → s.role = 2 → s.pair.replay = [] → ∀ nak,
        Completes (.heartbeat f dt 0 lanes claim ack nak) s (fun t => Apart s t ∧ MemSame s t ∧ t.role = 1 ∧ t.pair.present = false)) ∧
      (∀ role, f.good = true → s.paired = true → s.pair.replay = [] → role ≠ 0 → s.fogged = false → s.rb 0x600004 22 = false →
        Completes (.heartbeat f dt role lanes claim ack false) s (fun t => Apart s t ∧
          ((s.role = 2 → 32769 ≤ d → s.beam.txq = []) → MemSame s t) ∧ t.pair.present = true ∧
          (t.reg 0x600008).toNat = own * 65536 + claim ∧
          (s.role = 1 → 1 ≤ d → d ≤ 32767 → t.role = 2) ∧
          (s.role = 1 → 32769 ≤ d → t.role = 3 ∧ ∃ x, t.pair.replay = [x] ∧ x.msg = s.joinMsg ∧
            x.seq = some (if s.pair.startsAnew role ack then 1 else s.pair.txSeq)) ∧
          (s.role = 1 → d = 0 → t.role = 1 ∧ t.rb 0x600004 22 = true) ∧
          (s.role = 2 → 32769 ≤ d → t.role = 4 ∧ (s.queuedServe = true → t.beam.txq = [])) ∧ (s.role = 2 → d ≤ 32767 → t.role = 2) ∧
          (3 ≤ s.role → t.role = s.role)))) ∧
    (∀ lanes : BitVec 4, s.auxUp = true → s.paired = true → s.heardLanes = lanes.toNat → s.rf 0x600004 25 4 ≠ lanes.toNat →
      Completes (.prLink lanes) s (fun t => Apart s t ∧ MemSame s t ∧ t.rf 0x600004 25 4 = lanes.toNat ∧ t.role = s.role ∧
        (s.rb 0x200030 14 = true → (112, 0) ∈ t.bcn.flight))) ∧
    (∀ dt, s.auxUp = true → s.paired = true → s.pair.present = true → s.pair.lastHb + 3125 ≤ s.time.ticks + dt →
      (s.role = 2 → Completes (.prPartnerTimeout dt) s (fun t => Apart s t ∧ MemSame s t ∧ t.role = 1 ∧ t.pair.present = false ∧
        t.rf 0x600004 25 4 = 0 ∧ t.reg 0x600008 = s.reg 0x600008)) ∧
      (s.role = 4 → quiet → Completes (.prPartnerTimeout dt) s tookOver)) ∧
    (s.auxUp = true → s.paired = true → s.role = 2 → s.rb 0x600000 30 = true → Completes (.foginN true) s (fun t => Apart s t ∧ MemSame s t ∧
      t.role = 1 ∧ t.pwr.foginLow = true ∧ t.rb 0x100048 5 = true)) ∧
    (s.auxUp = true → Completes (.foginN false) s (fun t => Apart s t ∧ MemSame s t ∧ RegsBut [] s t ∧ t.pwr.foginLow = false ∧ t.pair = s.pair)) ∧
    (∀ dt, s.up = true → s.role = 2 → s.pair.repSent + 625 ≤ s.time.ticks + dt → s.wUp ≠ [] →
      Completes (.reportSend dt) s (fun t => Apart s t ∧ MemSame s t ∧ t.pair.repSent = s.time.ticks + dt ∧ t.pair.emitted.groups = [] ∧ Counted s t 0x60010C 1 ∧
        t.pair.emitted.rings = s.pair.emitted.rings ∧ ∃ l, t.pair.sent = l ++ s.pair.sent ∧
          l.length = max 1 (((WMsg.report s.pair.emitted).size + 4095) / 4096) ∧
          ∀ x ∈ l, x.lane ∈ s.wUp ∧ x.seq = none ∧ x.msg = .report s.pair.emitted))

/-- A good item whose SEQ is the next is taken, with the frames that carry the rest of it, and ends NAK where no frame
before the last one refused is still to come; one ahead raises NAK and one behind is a duplicate, and neither is
applied; a bad one is counted. A STANDBY applies a FIRE item with its boundary and drops the entry it matches from the
follow log; a close and a re-key wait for their boundary; a LOSS item adds the partner's mask or watermark; a MIRROR
item replaces a held record's bytes from 16 on in the holding buffer, or waits for it. An ACTIVE part answers JOIN
with its snapshot, in as many consecutive frames as it takes; a JOINING part that loads one is STANDBY with its gain
banks, and UNFIT where its plan cannot be placed. A REPORT frees the held entries it covers, each counted, and is
itself counted as an item applied. (The size of a message and the frames it takes are the model's choice of log 40,
and that a held entry lies in blocks of 64 bytes that of log 92.) [R346, R347, R348, R349, R352, R353, R354, R355,
R356] -/
def Obligations.StandbyFollowsTheSaggar : Prop :=
  ∀ (s : State) (f : WFrame), s.up = true → s.hears f = true → s.paired = true → 2 ≤ s.role → s.pair.rxSeq < 2 ^ 32 → f.seq < 2 ^ 32 →
    let next := f.good = true ∧ f.seq = (s.pair.rxSeq + 1) % 2 ^ 32
    let moved := fun (m : WMsg) (t : State) => Apart s t ∧ t.csram = s.csram ∧ t.host = s.host ∧
      t.pair.rxSeq = (s.pair.rxSeq + max 1 ((m.size + 4095) / 4096)) % 2 ^ 32 ∧
      (let left := (s.pair.gapTo + 2 ^ 32 - (t.pair.rxSeq + 1) % 2 ^ 32) % 2 ^ 32
       t.pair.nak = (s.pair.nak && decide (left ≠ 0) && decide (left < 2 ^ 31)))
    let taken := fun (m : WMsg) (t : State) => moved m t ∧ t.hbm = s.hbm
    let item := fun (m : WMsg) (t : State) => taken m t ∧ Counted s t 0x600110 1
    (∀ (i : ConductItem),
      (f.good = false → Completes (.conductItem f i) s (fun t => Apart s t ∧ MemSame s t ∧ t.pair = s.pair ∧ t.kilns = s.kilns ∧
        RegsBut [0x600108, oLnStat (.w f.lane)] s t ∧ Counted s t 0x600108 1)) ∧
      (f.good = true → f.seq ≠ (s.pair.rxSeq + 1) % 2 ^ 32 →
        Completes (.conductItem f i) s (fun t => Apart s t ∧ MemSame s t ∧ RegsBut [oLnStat (.w f.lane)] s t ∧ t.kilns = s.kilns ∧
          ((s.pair.rxSeq + 2 ^ 32 - f.seq) % 2 ^ 32 < 2 ^ 31 → t.pair = s.pair) ∧
          (2 ^ 31 ≤ (s.pair.rxSeq + 2 ^ 32 - f.seq) % 2 ^ 32 → t.pair = { s.pair with nak := true, gapTo := t.pair.gapTo } ∧
            (s.pair.nak = false → t.pair.gapTo = f.seq)))) ∧
      (next → s.role = 4 → s.pair.unfit = false → i.cop = 3 → i.keeper < 8 →
        let j := (i.block.getD 2 0).toNat
        Completes (.conductItem f i) s (fun t => item (.conduct i) t ∧
          t.kiln j = { s.kiln j with pend := (s.kiln j).pend ++ [(i.index, none)], hops := (t.kiln j).hops,
                                     byItem := (s.kiln j).byItem ++ [(i.index, i.keeper, i.issue)] } ∧
          (∀ k, k ≠ j → t.kiln k = s.kiln k) ∧
          ((s.followLog i.keeper).any (fun e => e.issue == i.issue) = true →
            t.followLog i.keeper = (s.followLog i.keeper).filter (fun e => e.issue ≠ i.issue))))) ∧
    (∀ k b seq ns steps ps, next → s.role = 4 →
      ((s.kiln k).live = true → Completes (.decision f (.close k b seq ns steps ps)) s (fun t => item (.decision (.close k b seq ns steps ps)) t ∧ t.kilns = s.kilns ∧
        t.pair.closes = s.pair.closes ++ [⟨k, b, seq, ns, steps, ps⟩])) ∧
      Completes (.decision f (.rekey k b)) s (fun t => item (.decision (.rekey k b)) t ∧ t.kilns = s.kilns ∧ t.pair.rekeys = s.pair.rekeys ++ [(k, b)])) ∧
    (∀ c b mask, next →
      Completes (.loss f c b mask false) s (fun t => taken (.loss c b mask false) t ∧ t.pair.losses = s.pair.losses ++ [(c, b, mask)] ∧ t.asm_ = s.asm_) ∧
      Completes (.loss f c b mask true) s (fun t => taken (.loss c b mask true) t ∧ t.pair.losses = s.pair.losses ∧
        ∃ m, (c, m) ∈ t.pair.marks ∧ b ≤ m)) ∧
    (∀ k r pos bytes, next → s.role = 4 →
      (s.pair.hold = [] → Completes (.mirror f k r pos bytes) s (fun t => item (.mirror k r pos bytes) t ∧ t.pair.hold = [] ∧
        t.pair.mirrors = s.pair.mirrors ++ [(k, r, pos, bytes)])) ∧
      (∀ e, s.pair.hold = [e] → e.stream = .ring r → e.pos.1 = pos → field (s.heldBytes e) 0 2 = 0x30 + 256 * k →
        field (s.heldBytes e) 14 1 = 1 → e.blocks.Nodup → e.len = 64 * e.blocks.length → bytes.length + 16 = e.len →
        Completes (.mirror f k r pos bytes) s (fun t => moved (.mirror k r pos bytes) t ∧ Counted s t 0x600110 1 ∧
          t.pair.mirrors = s.pair.mirrors ∧ t.pair.hold = [e] ∧ t.heldBytes e = (s.heldBytes e).take 16 ++ bytes ∧
          (∀ a, (∀ b ∈ e.blocks, a < s.holdBase + 64 * b ∨ s.holdBase + 64 * b + 64 ≤ a) → rd8 t.hbm a = rd8 s.hbm a)))) ∧
    (∀ u, next → s.role = 2 → s.pair.txSeq < 2 ^ 32 → Completes (.join f u) s (fun t => taken (.join u []) t ∧
      ∃ l, t.pair.replay = s.pair.replay ++ l ∧ l.length = max 1 (((WMsg.snapshot s.snap).size + 4095) / 4096) ∧
        ∀ n x, l[n]? = some x → x.seq = some ((s.pair.txSeq + n) % 2 ^ 32) ∧ x.msg = .snapshot s.snap ∧ x.part = n)) ∧
    (∀ x : Snapshot, next → s.role = 3 → s.err.upsets = [] → x.gains0.length = 4096 → x.gains1.length = 4096 →
      (x.plan = [] ∨ ∃ r, (Plan.parse x.plan).place (((s.loadSnap { x with plan := [] }).setRole 4).itemEnv (Plan.parse x.plan) x.spans x.keys) = .error r) →
      Completes (.snapshot f x) s (fun t => taken (.snapshot x) t ∧ t.role = 4 ∧ t.kilns = [] ∧ t.pair.follow = [] ∧ t.beam.active = x.activeBank ∧
        (∀ i, i < 4096 → some (t.reg (0xD10000 + 4 * i)) = x.gains0[i]? ∧ some (t.reg (0xD14000 + 4 * i)) = x.gains1[i]?) ∧
        (x.plan ≠ [] → t.pair.unfit = true ∧ t.reg 0x60000C = 0 ∧ t.reg 0x600010 = 0))) ∧
    (∀ (pos : Positions), f.good = true → s.role = 4 → (∀ k < 16, (s.kiln k).drain = none) → s.pair.hold.length < 2 ^ 32 →
      Completes (.report f pos) s (fun t => Apart s t ∧ MemSame s t ∧ t.pair.rxSeq = s.pair.rxSeq ∧
        (∀ e, e ∈ t.pair.hold → e ∈ s.pair.hold) ∧
        (∀ e r, e ∈ s.pair.hold → e.stream = .ring r → pos.rings = [(r, e.pos.1)] → e ∉ t.pair.hold) ∧
        Counted s t 0x600110 1 ∧ (t.reg 0x600114).toNat = min ((s.reg 0x600114).toNat + (s.pair.hold.length - t.pair.hold.length)) 0xFFFFFFFF))
end

