-- ==== Sys2Proof/Laws/Line.lean ====
section
/-! SUPPORT. The line (R61): a receiver's descrambler gives back what the scrambler took. -/

namespace Sys2Proof.Machine

theorem descramble_scramble (r : BitVec 58) (l : List Bool) : (descramble r (scramble r l).1).1 = l := by
  induction l generalizing r with
  | nil => rfl
  | cons b t ih =>
    have h : ((((b ^^ r.getLsbD 38) ^^ r.getLsbD 57) ^^ r.getLsbD 38) ^^ r.getLsbD 57) = b := by
      cases b <;> cases r.getLsbD 38 <;> cases r.getLsbD 57 <;> rfl
    simp only [scramble, descramble, ih, h]

end Sys2Proof.Machine
end

