-- ==== Sys2Proof/Laws/Store.lean ====
section
/-! SUPPORT. The sparse store: a read after a write, and the canonical form that every write keeps. -/

namespace Sys2Proof.Machine

variable {α : Type}

/-! ### Read after write -/

@[simp] theorem sget_sdel_same (d : Nat → α) (t : List (Nat × α)) (i : Nat) : sget d (sdel t i) i = d i := by
  induction t with
  | nil => rfl
  | cons e t ih =>
    obtain ⟨j, x⟩ := e
    by_cases h : i = j
    · subst h; simpa [sdel] using ih
    · simp [sdel, sget, h, ih]

theorem sget_sdel_ne (d : Nat → α) (t : List (Nat × α)) {i k : Nat} (h : k ≠ i) :
    sget d (sdel t i) k = sget d t k := by
  induction t with
  | nil => rfl
  | cons e t ih =>
    obtain ⟨j, x⟩ := e
    by_cases hj : i = j
    · subst hj; simp [sdel, sget, h, ih]
    · simp [sdel, sget, hj, ih]

@[simp] theorem sget_sput_same (d : Nat → α) (t : List (Nat × α)) (i : Nat) (v : α) : sget d (sput t i v) i = v := by
  induction t with
  | nil => simp [sput, sget]
  | cons e t ih =>
    obtain ⟨j, x⟩ := e
    by_cases h1 : i < j
    · simp [sput, sget, h1]
    · by_cases h2 : i = j
      · simp [sput, sget, h2]
      · simp [sput, sget, h1, h2, ih]

theorem sget_sput_ne (d : Nat → α) (t : List (Nat × α)) {i k : Nat} (v : α) (h : k ≠ i) :
    sget d (sput t i v) k = sget d t k := by
  induction t with
  | nil => simp [sput, sget, h]
  | cons e t ih =>
    obtain ⟨j, x⟩ := e
    by_cases h1 : i < j
    · simp [sput, sget, h1, h]
    · by_cases h2 : i = j
      · subst h2; simp [sput, sget, h]
      · simp [sput, sget, h1, h2, ih]

/-- A store reads back what was stored. -/
@[simp] theorem sget_sset_same [DecidableEq α] (d : Nat → α) (t : List (Nat × α)) (i : Nat) (v : α) : sget d (sset d t i v) i = v := by
  unfold sset; split
  · simp [*]
  · simp

/-- A store leaves every other index. -/
theorem sget_sset_ne [DecidableEq α] (d : Nat → α) (t : List (Nat × α)) {i k : Nat} (v : α) (h : k ≠ i) :
    sget d (sset d t i v) k = sget d t k := by
  unfold sset; split
  · exact sget_sdel_ne d t h
  · exact sget_sput_ne d t v h

theorem sget_sset [DecidableEq α] (d : Nat → α) (t : List (Nat × α)) (i k : Nat) (v : α) :
    sget d (sset d t i v) k = if k = i then v else sget d t k := by
  split
  · subst_vars; simp
  · exact sget_sset_ne d t v ‹_›

@[simp] theorem tget_tset_same [DecidableEq α] (d : α) (t : List (Nat × α)) (i : Nat) (v : α) : tget d (tset d t i v) i = v :=
  sget_sset_same _ t i v

theorem tget_tset_ne [DecidableEq α] (d : α) (t : List (Nat × α)) {i k : Nat} (v : α) (h : k ≠ i) :
    tget d (tset d t i v) k = tget d t k := sget_sset_ne _ t v h

/-! ### The canonical form -/

theorem sortedFrom_mono {t : List (Nat × α)} {a b : Nat} (h : sortedFrom b t = true) (hab : a ≤ b) :
    sortedFrom a t = true := by
  cases t with
  | nil => rfl
  | cons e t => obtain ⟨j, x⟩ := e; simp [sortedFrom] at h ⊢; exact ⟨by omega, h.2⟩

theorem sortedFrom_sdel {t : List (Nat × α)} {lo : Nat} (i : Nat) (h : sortedFrom lo t = true) :
    sortedFrom lo (sdel t i) = true := by
  induction t generalizing lo with
  | nil => rfl
  | cons e t ih =>
    obtain ⟨j, x⟩ := e
    simp [sortedFrom] at h
    by_cases hj : i = j
    · have h' := sortedFrom_mono (ih h.2) (show lo ≤ j + 1 by omega)
      simpa [sdel, hj] using h'
    · simp [sdel, hj, sortedFrom, h.1, ih h.2]

theorem sortedFrom_sput {t : List (Nat × α)} {lo i : Nat} (v : α) (h : sortedFrom lo t = true) (hi : lo ≤ i) :
    sortedFrom lo (sput t i v) = true := by
  induction t generalizing lo with
  | nil => simp [sput, sortedFrom, hi]
  | cons e t ih =>
    obtain ⟨j, x⟩ := e
    simp [sortedFrom] at h
    by_cases h1 : i < j
    · simp only [sput, h1, if_true, sortedFrom, Bool.and_eq_true, decide_eq_true_eq]; exact ⟨hi, by omega, h.2⟩
    · by_cases h2 : i = j
      · simp [sput, h2, sortedFrom, h.1, h.2]
      · simp [sput, h1, h2, sortedFrom, h.1]; exact ih h.2 (by omega)

theorem mem_of_mem_sdel {t : List (Nat × α)} {i : Nat} {e : Nat × α} (h : e ∈ sdel t i) : e ∈ t := by
  induction t with
  | nil => simp [sdel] at h
  | cons f t ih =>
    obtain ⟨j, x⟩ := f
    by_cases hj : i = j
    · simp [sdel, hj] at h; subst hj; exact List.mem_cons_of_mem _ (ih h)
    · simp [sdel, hj] at h ⊢
      rcases h with h | h
      · exact .inl h
      · exact .inr (ih h)

theorem mem_of_mem_sput {t : List (Nat × α)} {i : Nat} {v : α} {e : Nat × α} (h : e ∈ sput t i v) : e = (i, v) ∨ e ∈ t := by
  induction t with
  | nil => simpa [sput] using h
  | cons f t ih =>
    obtain ⟨j, x⟩ := f
    by_cases h1 : i < j
    · simpa [sput, h1] using h
    · by_cases h2 : i = j
      · simp [sput, h2] at h
        rcases h with h | h
        · exact .inl (by simp [h, h2])
        · exact .inr (List.mem_cons_of_mem _ h)
      · simp [sput, h1, h2] at h
        rcases h with h | h
        · exact .inr (by simp [h])
        · rcases ih h with h | h
          · exact .inl h
          · exact .inr (List.mem_cons_of_mem _ h)

/-- A store keeps the canonical form. -/
theorem swf_sset [DecidableEq α] {d : Nat → α} {t : List (Nat × α)} (i : Nat) (v : α) (h : swf d t = true) :
    swf d (sset d t i v) = true := by
  simp only [swf, Bool.and_eq_true, List.all_eq_true, decide_eq_true_eq] at h ⊢
  unfold sset; split
  · exact ⟨sortedFrom_sdel i h.1, fun e he => h.2 e (mem_of_mem_sdel he)⟩
  · refine ⟨sortedFrom_sput v h.1 (Nat.zero_le _), fun e he => ?_⟩
    rcases mem_of_mem_sput he with rfl | he
    · assumption
    · exact h.2 e he

theorem sortedFrom_filter {t : List (Nat × α)} {lo : Nat} (p : Nat × α → Bool) (h : sortedFrom lo t = true) :
    sortedFrom lo (t.filter p) = true := by
  induction t generalizing lo with
  | nil => rfl
  | cons e t ih =>
    obtain ⟨j, x⟩ := e
    simp [sortedFrom] at h
    by_cases hp : p (j, x) = true
    · simp [List.filter, hp, sortedFrom, h.1, ih h.2]
    · simp only [List.filter, hp]; exact sortedFrom_mono (ih (lo := j + 1) h.2) (by omega)

/-- Entries dropped from a store leave it canonical. -/
theorem swf_filter [DecidableEq α] {d : Nat → α} {t : List (Nat × α)} (p : Nat × α → Bool) (h : swf d t = true) :
    swf d (t.filter p) = true := by
  simp only [swf, Bool.and_eq_true, List.all_eq_true, decide_eq_true_eq] at h ⊢
  exact ⟨sortedFrom_filter p h.1, fun e he => h.2 e ((List.mem_filter.1 he).1)⟩

@[simp] theorem swf_nil [DecidableEq α] (d : Nat → α) : swf d [] = true := rfl

/-! ### Byte memories -/

@[simp] theorem rd8_wr8_same (m : List Host.Cell) (a : Nat) (b : Byte) : rd8 (wr8 m a b) a = b := sget_sset_same _ m a b

theorem rd8_wr8_ne (m : List Host.Cell) {a k : Nat} (b : Byte) (h : k ≠ a) : rd8 (wr8 m a b) k = rd8 m k :=
  sget_sset_ne _ m b h

/-- One byte written keeps the canonical form. -/
theorem Memory.wf_wr8 {m : List Host.Cell} (a : Nat) (b : Byte) (h : Memory.wf m = true) : Memory.wf (wr8 m a b) = true :=
  swf_sset a b h

/-- A byte string written keeps the canonical form. -/
theorem Memory.wf_wrBytes {m : List Host.Cell} (a : Nat) (l : List Byte) (h : Memory.wf m = true) :
    Memory.wf (wrBytes m a l) = true := by
  induction l generalizing m a with
  | nil => exact h
  | cons b t ih => exact ih _ (Memory.wf_wr8 a b h)

theorem Memory.wf_wrBytesEn {m : List Host.Cell} (a : Nat) (l : List Byte) (en : List Bool) (h : Memory.wf m = true) :
    Memory.wf (wrBytesEn m a l en) = true := by
  induction l generalizing m a en with
  | nil => simpa [wrBytesEn] using h
  | cons b t ih =>
    cases en with
    | nil => simpa [wrBytesEn] using h
    | cons e u =>
      simp only [wrBytesEn]
      split
      · exact ih _ _ (Memory.wf_wr8 a b h)
      · exact ih _ _ h

theorem Memory.wf_wrLe {m : List Host.Cell} (a n v : Nat) (h : Memory.wf m = true) : Memory.wf (wrLe m a n v) = true :=
  Memory.wf_wrBytes a _ h

/-- A byte string written leaves every byte outside it. -/
theorem rd8_wrBytes_ne (m : List Host.Cell) (a k : Nat) (l : List Byte) (h : k < a ∨ a + l.length ≤ k) :
    rd8 (wrBytes m a l) k = rd8 m k := by
  induction l generalizing m a with
  | nil => rfl
  | cons b t ih =>
    simp only [wrBytes]
    rw [ih _ _ (by simp at h; omega), rd8_wr8_ne _ _ (by simp at h; omega)]

/-- A byte string written reads back. -/
theorem rd8_wrBytes_in (m : List Host.Cell) (a : Nat) (l : List Byte) (i : Nat) (h : i < l.length) :
    rd8 (wrBytes m a l) (a + i) = l.getD i 0#8 := by
  induction l generalizing m a i with
  | nil => simp at h
  | cons b t ih =>
    simp only [wrBytes]
    cases i with
    | zero => rw [rd8_wrBytes_ne _ _ _ _ (.inl (by omega))]; simp
    | succ i =>
      have := ih (wr8 m a b) (a + 1) i (by simpa using h)
      rw [show a + (i + 1) = a + 1 + i by omega, this]; simp

/-- What a byte string written from `a` on reads as is that string. -/
theorem rdBytes_wrBytes (m : List Host.Cell) (a : Nat) (l : List Byte) : rdBytes (wrBytes m a l) a l.length = l := by
  apply List.ext_getElem
  · simp [rdBytes]
  · intro i h1 h2
    simp [rdBytes, rd8_wrBytes_in m a l i h2, List.getD_eq_getElem?_getD, h2]

end Sys2Proof.Machine
end

