-- ==== Sys2Proof/Laws/State.lean ====
section
/-! SUPPORT. The state after an update, field by field; registers and their fields read after a write. GENERATED by a script
from the list of fields of `State`. -/

namespace Sys2Proof.Machine

/-! ### Updates of the register file change nothing else -/

@[simp] theorem State.setReg_pending (s : State) (off : Nat) (v : W32) : (s.setReg off v).pending = s.pending := rfl
@[simp] theorem State.setReg_fuse (s : State) (off : Nat) (v : W32) : (s.setReg off v).fuse = s.fuse := rfl
@[simp] theorem State.setReg_freeCtr (s : State) (off : Nat) (v : W32) : (s.setReg off v).freeCtr = s.freeCtr := rfl
@[simp] theorem State.setReg_hbm (s : State) (off : Nat) (v : W32) : (s.setReg off v).hbm = s.hbm := rfl
@[simp] theorem State.setReg_csram (s : State) (off : Nat) (v : W32) : (s.setReg off v).csram = s.csram := rfl
@[simp] theorem State.setReg_host (s : State) (off : Nat) (v : W32) : (s.setReg off v).host = s.host := rfl
@[simp] theorem State.setReg_link (s : State) (off : Nat) (v : W32) : (s.setReg off v).link = s.link := rfl
@[simp] theorem State.setReg_err (s : State) (off : Nat) (v : W32) : (s.setReg off v).err = s.err := rfl
@[simp] theorem State.setReg_mem (s : State) (off : Nat) (v : W32) : (s.setReg off v).mem = s.mem := rfl
@[simp] theorem State.setReg_time (s : State) (off : Nat) (v : W32) : (s.setReg off v).time = s.time := rfl
@[simp] theorem State.setReg_ref (s : State) (off : Nat) (v : W32) : (s.setReg off v).ref = s.ref := rfl
@[simp] theorem State.setReg_bcn (s : State) (off : Nat) (v : W32) : (s.setReg off v).bcn = s.bcn := rfl
@[simp] theorem State.setReg_xbr (s : State) (off : Nat) (v : W32) : (s.setReg off v).xbr = s.xbr := rfl
@[simp] theorem State.setReg_lanes (s : State) (off : Nat) (v : W32) : (s.setReg off v).lanes = s.lanes := rfl
@[simp] theorem State.setReg_srcs (s : State) (off : Nat) (v : W32) : (s.setReg off v).srcs = s.srcs := rfl
@[simp] theorem State.setReg_asm_ (s : State) (off : Nat) (v : W32) : (s.setReg off v).asm_ = s.asm_ := rfl
@[simp] theorem State.setReg_plc (s : State) (off : Nat) (v : W32) : (s.setReg off v).plc = s.plc := rfl
@[simp] theorem State.setReg_tiles (s : State) (off : Nat) (v : W32) : (s.setReg off v).tiles = s.tiles := rfl
@[simp] theorem State.setReg_kilns (s : State) (off : Nat) (v : W32) : (s.setReg off v).kilns = s.kilns := rfl
@[simp] theorem State.setReg_beam (s : State) (off : Nat) (v : W32) : (s.setReg off v).beam = s.beam := rfl
@[simp] theorem State.setReg_eng (s : State) (off : Nat) (v : W32) : (s.setReg off v).eng = s.eng := rfl
@[simp] theorem State.setReg_slots (s : State) (off : Nat) (v : W32) : (s.setReg off v).slots = s.slots := rfl
@[simp] theorem State.setReg_cores (s : State) (off : Nat) (v : W32) : (s.setReg off v).cores = s.cores := rfl
@[simp] theorem State.setReg_cq (s : State) (off : Nat) (v : W32) : (s.setReg off v).cq = s.cq := rfl
@[simp] theorem State.setReg_pair (s : State) (off : Nat) (v : W32) : (s.setReg off v).pair = s.pair := rfl
@[simp] theorem State.setReg_pwr (s : State) (off : Nat) (v : W32) : (s.setReg off v).pwr = s.pwr := rfl

@[simp] theorem State.setRf_pending (s : State) (off lo len v : Nat) : (s.setRf off lo len v).pending = s.pending := rfl
@[simp] theorem State.setRf_fuse (s : State) (off lo len v : Nat) : (s.setRf off lo len v).fuse = s.fuse := rfl
@[simp] theorem State.setRf_freeCtr (s : State) (off lo len v : Nat) : (s.setRf off lo len v).freeCtr = s.freeCtr := rfl
@[simp] theorem State.setRf_hbm (s : State) (off lo len v : Nat) : (s.setRf off lo len v).hbm = s.hbm := rfl
@[simp] theorem State.setRf_csram (s : State) (off lo len v : Nat) : (s.setRf off lo len v).csram = s.csram := rfl
@[simp] theorem State.setRf_host (s : State) (off lo len v : Nat) : (s.setRf off lo len v).host = s.host := rfl
@[simp] theorem State.setRf_link (s : State) (off lo len v : Nat) : (s.setRf off lo len v).link = s.link := rfl
@[simp] theorem State.setRf_err (s : State) (off lo len v : Nat) : (s.setRf off lo len v).err = s.err := rfl
@[simp] theorem State.setRf_mem (s : State) (off lo len v : Nat) : (s.setRf off lo len v).mem = s.mem := rfl
@[simp] theorem State.setRf_time (s : State) (off lo len v : Nat) : (s.setRf off lo len v).time = s.time := rfl
@[simp] theorem State.setRf_ref (s : State) (off lo len v : Nat) : (s.setRf off lo len v).ref = s.ref := rfl
@[simp] theorem State.setRf_bcn (s : State) (off lo len v : Nat) : (s.setRf off lo len v).bcn = s.bcn := rfl
@[simp] theorem State.setRf_xbr (s : State) (off lo len v : Nat) : (s.setRf off lo len v).xbr = s.xbr := rfl
@[simp] theorem State.setRf_lanes (s : State) (off lo len v : Nat) : (s.setRf off lo len v).lanes = s.lanes := rfl
@[simp] theorem State.setRf_srcs (s : State) (off lo len v : Nat) : (s.setRf off lo len v).srcs = s.srcs := rfl
@[simp] theorem State.setRf_asm_ (s : State) (off lo len v : Nat) : (s.setRf off lo len v).asm_ = s.asm_ := rfl
@[simp] theorem State.setRf_plc (s : State) (off lo len v : Nat) : (s.setRf off lo len v).plc = s.plc := rfl
@[simp] theorem State.setRf_tiles (s : State) (off lo len v : Nat) : (s.setRf off lo len v).tiles = s.tiles := rfl
@[simp] theorem State.setRf_kilns (s : State) (off lo len v : Nat) : (s.setRf off lo len v).kilns = s.kilns := rfl
@[simp] theorem State.setRf_beam (s : State) (off lo len v : Nat) : (s.setRf off lo len v).beam = s.beam := rfl
@[simp] theorem State.setRf_eng (s : State) (off lo len v : Nat) : (s.setRf off lo len v).eng = s.eng := rfl
@[simp] theorem State.setRf_slots (s : State) (off lo len v : Nat) : (s.setRf off lo len v).slots = s.slots := rfl
@[simp] theorem State.setRf_cores (s : State) (off lo len v : Nat) : (s.setRf off lo len v).cores = s.cores := rfl
@[simp] theorem State.setRf_cq (s : State) (off lo len v : Nat) : (s.setRf off lo len v).cq = s.cq := rfl
@[simp] theorem State.setRf_pair (s : State) (off lo len v : Nat) : (s.setRf off lo len v).pair = s.pair := rfl
@[simp] theorem State.setRf_pwr (s : State) (off lo len v : Nat) : (s.setRf off lo len v).pwr = s.pwr := rfl

@[simp] theorem State.setRb_pending (s : State) (off i : Nat) (b : Bool) : (s.setRb off i b).pending = s.pending := rfl
@[simp] theorem State.setRb_fuse (s : State) (off i : Nat) (b : Bool) : (s.setRb off i b).fuse = s.fuse := rfl
@[simp] theorem State.setRb_freeCtr (s : State) (off i : Nat) (b : Bool) : (s.setRb off i b).freeCtr = s.freeCtr := rfl
@[simp] theorem State.setRb_hbm (s : State) (off i : Nat) (b : Bool) : (s.setRb off i b).hbm = s.hbm := rfl
@[simp] theorem State.setRb_csram (s : State) (off i : Nat) (b : Bool) : (s.setRb off i b).csram = s.csram := rfl
@[simp] theorem State.setRb_host (s : State) (off i : Nat) (b : Bool) : (s.setRb off i b).host = s.host := rfl
@[simp] theorem State.setRb_link (s : State) (off i : Nat) (b : Bool) : (s.setRb off i b).link = s.link := rfl
@[simp] theorem State.setRb_err (s : State) (off i : Nat) (b : Bool) : (s.setRb off i b).err = s.err := rfl
@[simp] theorem State.setRb_mem (s : State) (off i : Nat) (b : Bool) : (s.setRb off i b).mem = s.mem := rfl
@[simp] theorem State.setRb_time (s : State) (off i : Nat) (b : Bool) : (s.setRb off i b).time = s.time := rfl
@[simp] theorem State.setRb_ref (s : State) (off i : Nat) (b : Bool) : (s.setRb off i b).ref = s.ref := rfl
@[simp] theorem State.setRb_bcn (s : State) (off i : Nat) (b : Bool) : (s.setRb off i b).bcn = s.bcn := rfl
@[simp] theorem State.setRb_xbr (s : State) (off i : Nat) (b : Bool) : (s.setRb off i b).xbr = s.xbr := rfl
@[simp] theorem State.setRb_lanes (s : State) (off i : Nat) (b : Bool) : (s.setRb off i b).lanes = s.lanes := rfl
@[simp] theorem State.setRb_srcs (s : State) (off i : Nat) (b : Bool) : (s.setRb off i b).srcs = s.srcs := rfl
@[simp] theorem State.setRb_asm_ (s : State) (off i : Nat) (b : Bool) : (s.setRb off i b).asm_ = s.asm_ := rfl
@[simp] theorem State.setRb_plc (s : State) (off i : Nat) (b : Bool) : (s.setRb off i b).plc = s.plc := rfl
@[simp] theorem State.setRb_tiles (s : State) (off i : Nat) (b : Bool) : (s.setRb off i b).tiles = s.tiles := rfl
@[simp] theorem State.setRb_kilns (s : State) (off i : Nat) (b : Bool) : (s.setRb off i b).kilns = s.kilns := rfl
@[simp] theorem State.setRb_beam (s : State) (off i : Nat) (b : Bool) : (s.setRb off i b).beam = s.beam := rfl
@[simp] theorem State.setRb_eng (s : State) (off i : Nat) (b : Bool) : (s.setRb off i b).eng = s.eng := rfl
@[simp] theorem State.setRb_slots (s : State) (off i : Nat) (b : Bool) : (s.setRb off i b).slots = s.slots := rfl
@[simp] theorem State.setRb_cores (s : State) (off i : Nat) (b : Bool) : (s.setRb off i b).cores = s.cores := rfl
@[simp] theorem State.setRb_cq (s : State) (off i : Nat) (b : Bool) : (s.setRb off i b).cq = s.cq := rfl
@[simp] theorem State.setRb_pair (s : State) (off i : Nat) (b : Bool) : (s.setRb off i b).pair = s.pair := rfl
@[simp] theorem State.setRb_pwr (s : State) (off i : Nat) (b : Bool) : (s.setRb off i b).pwr = s.pwr := rfl

@[simp] theorem State.setReg64_pending (s : State) (off v : Nat) : (s.setReg64 off v).pending = s.pending := rfl
@[simp] theorem State.setReg64_fuse (s : State) (off v : Nat) : (s.setReg64 off v).fuse = s.fuse := rfl
@[simp] theorem State.setReg64_freeCtr (s : State) (off v : Nat) : (s.setReg64 off v).freeCtr = s.freeCtr := rfl
@[simp] theorem State.setReg64_hbm (s : State) (off v : Nat) : (s.setReg64 off v).hbm = s.hbm := rfl
@[simp] theorem State.setReg64_csram (s : State) (off v : Nat) : (s.setReg64 off v).csram = s.csram := rfl
@[simp] theorem State.setReg64_host (s : State) (off v : Nat) : (s.setReg64 off v).host = s.host := rfl
@[simp] theorem State.setReg64_link (s : State) (off v : Nat) : (s.setReg64 off v).link = s.link := rfl
@[simp] theorem State.setReg64_err (s : State) (off v : Nat) : (s.setReg64 off v).err = s.err := rfl
@[simp] theorem State.setReg64_mem (s : State) (off v : Nat) : (s.setReg64 off v).mem = s.mem := rfl
@[simp] theorem State.setReg64_time (s : State) (off v : Nat) : (s.setReg64 off v).time = s.time := rfl
@[simp] theorem State.setReg64_ref (s : State) (off v : Nat) : (s.setReg64 off v).ref = s.ref := rfl
@[simp] theorem State.setReg64_bcn (s : State) (off v : Nat) : (s.setReg64 off v).bcn = s.bcn := rfl
@[simp] theorem State.setReg64_xbr (s : State) (off v : Nat) : (s.setReg64 off v).xbr = s.xbr := rfl
@[simp] theorem State.setReg64_lanes (s : State) (off v : Nat) : (s.setReg64 off v).lanes = s.lanes := rfl
@[simp] theorem State.setReg64_srcs (s : State) (off v : Nat) : (s.setReg64 off v).srcs = s.srcs := rfl
@[simp] theorem State.setReg64_asm_ (s : State) (off v : Nat) : (s.setReg64 off v).asm_ = s.asm_ := rfl
@[simp] theorem State.setReg64_plc (s : State) (off v : Nat) : (s.setReg64 off v).plc = s.plc := rfl
@[simp] theorem State.setReg64_tiles (s : State) (off v : Nat) : (s.setReg64 off v).tiles = s.tiles := rfl
@[simp] theorem State.setReg64_kilns (s : State) (off v : Nat) : (s.setReg64 off v).kilns = s.kilns := rfl
@[simp] theorem State.setReg64_beam (s : State) (off v : Nat) : (s.setReg64 off v).beam = s.beam := rfl
@[simp] theorem State.setReg64_eng (s : State) (off v : Nat) : (s.setReg64 off v).eng = s.eng := rfl
@[simp] theorem State.setReg64_slots (s : State) (off v : Nat) : (s.setReg64 off v).slots = s.slots := rfl
@[simp] theorem State.setReg64_cores (s : State) (off v : Nat) : (s.setReg64 off v).cores = s.cores := rfl
@[simp] theorem State.setReg64_cq (s : State) (off v : Nat) : (s.setReg64 off v).cq = s.cq := rfl
@[simp] theorem State.setReg64_pair (s : State) (off v : Nat) : (s.setReg64 off v).pair = s.pair := rfl
@[simp] theorem State.setReg64_pwr (s : State) (off v : Nat) : (s.setReg64 off v).pwr = s.pwr := rfl

@[simp] theorem State.cntF_pending (s : State) (off lo len n : Nat) : (s.cntF off lo len n).pending = s.pending := rfl
@[simp] theorem State.cntF_fuse (s : State) (off lo len n : Nat) : (s.cntF off lo len n).fuse = s.fuse := rfl
@[simp] theorem State.cntF_freeCtr (s : State) (off lo len n : Nat) : (s.cntF off lo len n).freeCtr = s.freeCtr := rfl
@[simp] theorem State.cntF_hbm (s : State) (off lo len n : Nat) : (s.cntF off lo len n).hbm = s.hbm := rfl
@[simp] theorem State.cntF_csram (s : State) (off lo len n : Nat) : (s.cntF off lo len n).csram = s.csram := rfl
@[simp] theorem State.cntF_host (s : State) (off lo len n : Nat) : (s.cntF off lo len n).host = s.host := rfl
@[simp] theorem State.cntF_link (s : State) (off lo len n : Nat) : (s.cntF off lo len n).link = s.link := rfl
@[simp] theorem State.cntF_err (s : State) (off lo len n : Nat) : (s.cntF off lo len n).err = s.err := rfl
@[simp] theorem State.cntF_mem (s : State) (off lo len n : Nat) : (s.cntF off lo len n).mem = s.mem := rfl
@[simp] theorem State.cntF_time (s : State) (off lo len n : Nat) : (s.cntF off lo len n).time = s.time := rfl
@[simp] theorem State.cntF_ref (s : State) (off lo len n : Nat) : (s.cntF off lo len n).ref = s.ref := rfl
@[simp] theorem State.cntF_bcn (s : State) (off lo len n : Nat) : (s.cntF off lo len n).bcn = s.bcn := rfl
@[simp] theorem State.cntF_xbr (s : State) (off lo len n : Nat) : (s.cntF off lo len n).xbr = s.xbr := rfl
@[simp] theorem State.cntF_lanes (s : State) (off lo len n : Nat) : (s.cntF off lo len n).lanes = s.lanes := rfl
@[simp] theorem State.cntF_srcs (s : State) (off lo len n : Nat) : (s.cntF off lo len n).srcs = s.srcs := rfl
@[simp] theorem State.cntF_asm_ (s : State) (off lo len n : Nat) : (s.cntF off lo len n).asm_ = s.asm_ := rfl
@[simp] theorem State.cntF_plc (s : State) (off lo len n : Nat) : (s.cntF off lo len n).plc = s.plc := rfl
@[simp] theorem State.cntF_tiles (s : State) (off lo len n : Nat) : (s.cntF off lo len n).tiles = s.tiles := rfl
@[simp] theorem State.cntF_kilns (s : State) (off lo len n : Nat) : (s.cntF off lo len n).kilns = s.kilns := rfl
@[simp] theorem State.cntF_beam (s : State) (off lo len n : Nat) : (s.cntF off lo len n).beam = s.beam := rfl
@[simp] theorem State.cntF_eng (s : State) (off lo len n : Nat) : (s.cntF off lo len n).eng = s.eng := rfl
@[simp] theorem State.cntF_slots (s : State) (off lo len n : Nat) : (s.cntF off lo len n).slots = s.slots := rfl
@[simp] theorem State.cntF_cores (s : State) (off lo len n : Nat) : (s.cntF off lo len n).cores = s.cores := rfl
@[simp] theorem State.cntF_cq (s : State) (off lo len n : Nat) : (s.cntF off lo len n).cq = s.cq := rfl
@[simp] theorem State.cntF_pair (s : State) (off lo len n : Nat) : (s.cntF off lo len n).pair = s.pair := rfl
@[simp] theorem State.cntF_pwr (s : State) (off lo len n : Nat) : (s.cntF off lo len n).pwr = s.pwr := rfl

@[simp] theorem State.cnt_pending (s : State) (off n : Nat) : (s.cnt off n).pending = s.pending := rfl
@[simp] theorem State.cnt_fuse (s : State) (off n : Nat) : (s.cnt off n).fuse = s.fuse := rfl
@[simp] theorem State.cnt_freeCtr (s : State) (off n : Nat) : (s.cnt off n).freeCtr = s.freeCtr := rfl
@[simp] theorem State.cnt_hbm (s : State) (off n : Nat) : (s.cnt off n).hbm = s.hbm := rfl
@[simp] theorem State.cnt_csram (s : State) (off n : Nat) : (s.cnt off n).csram = s.csram := rfl
@[simp] theorem State.cnt_host (s : State) (off n : Nat) : (s.cnt off n).host = s.host := rfl
@[simp] theorem State.cnt_link (s : State) (off n : Nat) : (s.cnt off n).link = s.link := rfl
@[simp] theorem State.cnt_err (s : State) (off n : Nat) : (s.cnt off n).err = s.err := rfl
@[simp] theorem State.cnt_mem (s : State) (off n : Nat) : (s.cnt off n).mem = s.mem := rfl
@[simp] theorem State.cnt_time (s : State) (off n : Nat) : (s.cnt off n).time = s.time := rfl
@[simp] theorem State.cnt_ref (s : State) (off n : Nat) : (s.cnt off n).ref = s.ref := rfl
@[simp] theorem State.cnt_bcn (s : State) (off n : Nat) : (s.cnt off n).bcn = s.bcn := rfl
@[simp] theorem State.cnt_xbr (s : State) (off n : Nat) : (s.cnt off n).xbr = s.xbr := rfl
@[simp] theorem State.cnt_lanes (s : State) (off n : Nat) : (s.cnt off n).lanes = s.lanes := rfl
@[simp] theorem State.cnt_srcs (s : State) (off n : Nat) : (s.cnt off n).srcs = s.srcs := rfl
@[simp] theorem State.cnt_asm_ (s : State) (off n : Nat) : (s.cnt off n).asm_ = s.asm_ := rfl
@[simp] theorem State.cnt_plc (s : State) (off n : Nat) : (s.cnt off n).plc = s.plc := rfl
@[simp] theorem State.cnt_tiles (s : State) (off n : Nat) : (s.cnt off n).tiles = s.tiles := rfl
@[simp] theorem State.cnt_kilns (s : State) (off n : Nat) : (s.cnt off n).kilns = s.kilns := rfl
@[simp] theorem State.cnt_beam (s : State) (off n : Nat) : (s.cnt off n).beam = s.beam := rfl
@[simp] theorem State.cnt_eng (s : State) (off n : Nat) : (s.cnt off n).eng = s.eng := rfl
@[simp] theorem State.cnt_slots (s : State) (off n : Nat) : (s.cnt off n).slots = s.slots := rfl
@[simp] theorem State.cnt_cores (s : State) (off n : Nat) : (s.cnt off n).cores = s.cores := rfl
@[simp] theorem State.cnt_cq (s : State) (off n : Nat) : (s.cnt off n).cq = s.cq := rfl
@[simp] theorem State.cnt_pair (s : State) (off n : Nat) : (s.cnt off n).pair = s.pair := rfl
@[simp] theorem State.cnt_pwr (s : State) (off n : Nat) : (s.cnt off n).pwr = s.pwr := rfl

@[simp] theorem State.cntWrap_pending (s : State) (off n : Nat) : (s.cntWrap off n).pending = s.pending := rfl
@[simp] theorem State.cntWrap_fuse (s : State) (off n : Nat) : (s.cntWrap off n).fuse = s.fuse := rfl
@[simp] theorem State.cntWrap_freeCtr (s : State) (off n : Nat) : (s.cntWrap off n).freeCtr = s.freeCtr := rfl
@[simp] theorem State.cntWrap_hbm (s : State) (off n : Nat) : (s.cntWrap off n).hbm = s.hbm := rfl
@[simp] theorem State.cntWrap_csram (s : State) (off n : Nat) : (s.cntWrap off n).csram = s.csram := rfl
@[simp] theorem State.cntWrap_host (s : State) (off n : Nat) : (s.cntWrap off n).host = s.host := rfl
@[simp] theorem State.cntWrap_link (s : State) (off n : Nat) : (s.cntWrap off n).link = s.link := rfl
@[simp] theorem State.cntWrap_err (s : State) (off n : Nat) : (s.cntWrap off n).err = s.err := rfl
@[simp] theorem State.cntWrap_mem (s : State) (off n : Nat) : (s.cntWrap off n).mem = s.mem := rfl
@[simp] theorem State.cntWrap_time (s : State) (off n : Nat) : (s.cntWrap off n).time = s.time := rfl
@[simp] theorem State.cntWrap_ref (s : State) (off n : Nat) : (s.cntWrap off n).ref = s.ref := rfl
@[simp] theorem State.cntWrap_bcn (s : State) (off n : Nat) : (s.cntWrap off n).bcn = s.bcn := rfl
@[simp] theorem State.cntWrap_xbr (s : State) (off n : Nat) : (s.cntWrap off n).xbr = s.xbr := rfl
@[simp] theorem State.cntWrap_lanes (s : State) (off n : Nat) : (s.cntWrap off n).lanes = s.lanes := rfl
@[simp] theorem State.cntWrap_srcs (s : State) (off n : Nat) : (s.cntWrap off n).srcs = s.srcs := rfl
@[simp] theorem State.cntWrap_asm_ (s : State) (off n : Nat) : (s.cntWrap off n).asm_ = s.asm_ := rfl
@[simp] theorem State.cntWrap_plc (s : State) (off n : Nat) : (s.cntWrap off n).plc = s.plc := rfl
@[simp] theorem State.cntWrap_tiles (s : State) (off n : Nat) : (s.cntWrap off n).tiles = s.tiles := rfl
@[simp] theorem State.cntWrap_kilns (s : State) (off n : Nat) : (s.cntWrap off n).kilns = s.kilns := rfl
@[simp] theorem State.cntWrap_beam (s : State) (off n : Nat) : (s.cntWrap off n).beam = s.beam := rfl
@[simp] theorem State.cntWrap_eng (s : State) (off n : Nat) : (s.cntWrap off n).eng = s.eng := rfl
@[simp] theorem State.cntWrap_slots (s : State) (off n : Nat) : (s.cntWrap off n).slots = s.slots := rfl
@[simp] theorem State.cntWrap_cores (s : State) (off n : Nat) : (s.cntWrap off n).cores = s.cores := rfl
@[simp] theorem State.cntWrap_cq (s : State) (off n : Nat) : (s.cntWrap off n).cq = s.cq := rfl
@[simp] theorem State.cntWrap_pair (s : State) (off n : Nat) : (s.cntWrap off n).pair = s.pair := rfl
@[simp] theorem State.cntWrap_pwr (s : State) (off n : Nat) : (s.cntWrap off n).pwr = s.pwr := rfl

/-! ### Updates of one table change no other field -/

@[simp] theorem State.setLane_pending (s : State) (l : LaneId) (v : Lane) : (s.setLane l v).pending = s.pending := rfl
@[simp] theorem State.setLane_fuse (s : State) (l : LaneId) (v : Lane) : (s.setLane l v).fuse = s.fuse := rfl
@[simp] theorem State.setLane_freeCtr (s : State) (l : LaneId) (v : Lane) : (s.setLane l v).freeCtr = s.freeCtr := rfl
@[simp] theorem State.setLane_regs (s : State) (l : LaneId) (v : Lane) : (s.setLane l v).regs = s.regs := rfl
@[simp] theorem State.setLane_hbm (s : State) (l : LaneId) (v : Lane) : (s.setLane l v).hbm = s.hbm := rfl
@[simp] theorem State.setLane_csram (s : State) (l : LaneId) (v : Lane) : (s.setLane l v).csram = s.csram := rfl
@[simp] theorem State.setLane_host (s : State) (l : LaneId) (v : Lane) : (s.setLane l v).host = s.host := rfl
@[simp] theorem State.setLane_link (s : State) (l : LaneId) (v : Lane) : (s.setLane l v).link = s.link := rfl
@[simp] theorem State.setLane_err (s : State) (l : LaneId) (v : Lane) : (s.setLane l v).err = s.err := rfl
@[simp] theorem State.setLane_mem (s : State) (l : LaneId) (v : Lane) : (s.setLane l v).mem = s.mem := rfl
@[simp] theorem State.setLane_time (s : State) (l : LaneId) (v : Lane) : (s.setLane l v).time = s.time := rfl
@[simp] theorem State.setLane_ref (s : State) (l : LaneId) (v : Lane) : (s.setLane l v).ref = s.ref := rfl
@[simp] theorem State.setLane_bcn (s : State) (l : LaneId) (v : Lane) : (s.setLane l v).bcn = s.bcn := rfl
@[simp] theorem State.setLane_xbr (s : State) (l : LaneId) (v : Lane) : (s.setLane l v).xbr = s.xbr := rfl
@[simp] theorem State.setLane_srcs (s : State) (l : LaneId) (v : Lane) : (s.setLane l v).srcs = s.srcs := rfl
@[simp] theorem State.setLane_asm_ (s : State) (l : LaneId) (v : Lane) : (s.setLane l v).asm_ = s.asm_ := rfl
@[simp] theorem State.setLane_plc (s : State) (l : LaneId) (v : Lane) : (s.setLane l v).plc = s.plc := rfl
@[simp] theorem State.setLane_tiles (s : State) (l : LaneId) (v : Lane) : (s.setLane l v).tiles = s.tiles := rfl
@[simp] theorem State.setLane_kilns (s : State) (l : LaneId) (v : Lane) : (s.setLane l v).kilns = s.kilns := rfl
@[simp] theorem State.setLane_beam (s : State) (l : LaneId) (v : Lane) : (s.setLane l v).beam = s.beam := rfl
@[simp] theorem State.setLane_eng (s : State) (l : LaneId) (v : Lane) : (s.setLane l v).eng = s.eng := rfl
@[simp] theorem State.setLane_slots (s : State) (l : LaneId) (v : Lane) : (s.setLane l v).slots = s.slots := rfl
@[simp] theorem State.setLane_cores (s : State) (l : LaneId) (v : Lane) : (s.setLane l v).cores = s.cores := rfl
@[simp] theorem State.setLane_cq (s : State) (l : LaneId) (v : Lane) : (s.setLane l v).cq = s.cq := rfl
@[simp] theorem State.setLane_pair (s : State) (l : LaneId) (v : Lane) : (s.setLane l v).pair = s.pair := rfl
@[simp] theorem State.setLane_pwr (s : State) (l : LaneId) (v : Lane) : (s.setLane l v).pwr = s.pwr := rfl

@[simp] theorem State.setSrc_pending (s : State) (n : Nat) (v : SrcEntry) : (s.setSrc n v).pending = s.pending := rfl
@[simp] theorem State.setSrc_fuse (s : State) (n : Nat) (v : SrcEntry) : (s.setSrc n v).fuse = s.fuse := rfl
@[simp] theorem State.setSrc_freeCtr (s : State) (n : Nat) (v : SrcEntry) : (s.setSrc n v).freeCtr = s.freeCtr := rfl
@[simp] theorem State.setSrc_regs (s : State) (n : Nat) (v : SrcEntry) : (s.setSrc n v).regs = s.regs := rfl
@[simp] theorem State.setSrc_hbm (s : State) (n : Nat) (v : SrcEntry) : (s.setSrc n v).hbm = s.hbm := rfl
@[simp] theorem State.setSrc_csram (s : State) (n : Nat) (v : SrcEntry) : (s.setSrc n v).csram = s.csram := rfl
@[simp] theorem State.setSrc_host (s : State) (n : Nat) (v : SrcEntry) : (s.setSrc n v).host = s.host := rfl
@[simp] theorem State.setSrc_link (s : State) (n : Nat) (v : SrcEntry) : (s.setSrc n v).link = s.link := rfl
@[simp] theorem State.setSrc_err (s : State) (n : Nat) (v : SrcEntry) : (s.setSrc n v).err = s.err := rfl
@[simp] theorem State.setSrc_mem (s : State) (n : Nat) (v : SrcEntry) : (s.setSrc n v).mem = s.mem := rfl
@[simp] theorem State.setSrc_time (s : State) (n : Nat) (v : SrcEntry) : (s.setSrc n v).time = s.time := rfl
@[simp] theorem State.setSrc_ref (s : State) (n : Nat) (v : SrcEntry) : (s.setSrc n v).ref = s.ref := rfl
@[simp] theorem State.setSrc_bcn (s : State) (n : Nat) (v : SrcEntry) : (s.setSrc n v).bcn = s.bcn := rfl
@[simp] theorem State.setSrc_xbr (s : State) (n : Nat) (v : SrcEntry) : (s.setSrc n v).xbr = s.xbr := rfl
@[simp] theorem State.setSrc_lanes (s : State) (n : Nat) (v : SrcEntry) : (s.setSrc n v).lanes = s.lanes := rfl
@[simp] theorem State.setSrc_asm_ (s : State) (n : Nat) (v : SrcEntry) : (s.setSrc n v).asm_ = s.asm_ := rfl
@[simp] theorem State.setSrc_plc (s : State) (n : Nat) (v : SrcEntry) : (s.setSrc n v).plc = s.plc := rfl
@[simp] theorem State.setSrc_tiles (s : State) (n : Nat) (v : SrcEntry) : (s.setSrc n v).tiles = s.tiles := rfl
@[simp] theorem State.setSrc_kilns (s : State) (n : Nat) (v : SrcEntry) : (s.setSrc n v).kilns = s.kilns := rfl
@[simp] theorem State.setSrc_beam (s : State) (n : Nat) (v : SrcEntry) : (s.setSrc n v).beam = s.beam := rfl
@[simp] theorem State.setSrc_eng (s : State) (n : Nat) (v : SrcEntry) : (s.setSrc n v).eng = s.eng := rfl
@[simp] theorem State.setSrc_slots (s : State) (n : Nat) (v : SrcEntry) : (s.setSrc n v).slots = s.slots := rfl
@[simp] theorem State.setSrc_cores (s : State) (n : Nat) (v : SrcEntry) : (s.setSrc n v).cores = s.cores := rfl
@[simp] theorem State.setSrc_cq (s : State) (n : Nat) (v : SrcEntry) : (s.setSrc n v).cq = s.cq := rfl
@[simp] theorem State.setSrc_pair (s : State) (n : Nat) (v : SrcEntry) : (s.setSrc n v).pair = s.pair := rfl
@[simp] theorem State.setSrc_pwr (s : State) (n : Nat) (v : SrcEntry) : (s.setSrc n v).pwr = s.pwr := rfl

@[simp] theorem State.setRing_pending (s : State) (c : Nat) (v : ChanRing) : (s.setRing c v).pending = s.pending := rfl
@[simp] theorem State.setRing_fuse (s : State) (c : Nat) (v : ChanRing) : (s.setRing c v).fuse = s.fuse := rfl
@[simp] theorem State.setRing_freeCtr (s : State) (c : Nat) (v : ChanRing) : (s.setRing c v).freeCtr = s.freeCtr := rfl
@[simp] theorem State.setRing_regs (s : State) (c : Nat) (v : ChanRing) : (s.setRing c v).regs = s.regs := rfl
@[simp] theorem State.setRing_hbm (s : State) (c : Nat) (v : ChanRing) : (s.setRing c v).hbm = s.hbm := rfl
@[simp] theorem State.setRing_csram (s : State) (c : Nat) (v : ChanRing) : (s.setRing c v).csram = s.csram := rfl
@[simp] theorem State.setRing_host (s : State) (c : Nat) (v : ChanRing) : (s.setRing c v).host = s.host := rfl
@[simp] theorem State.setRing_link (s : State) (c : Nat) (v : ChanRing) : (s.setRing c v).link = s.link := rfl
@[simp] theorem State.setRing_err (s : State) (c : Nat) (v : ChanRing) : (s.setRing c v).err = s.err := rfl
@[simp] theorem State.setRing_mem (s : State) (c : Nat) (v : ChanRing) : (s.setRing c v).mem = s.mem := rfl
@[simp] theorem State.setRing_time (s : State) (c : Nat) (v : ChanRing) : (s.setRing c v).time = s.time := rfl
@[simp] theorem State.setRing_ref (s : State) (c : Nat) (v : ChanRing) : (s.setRing c v).ref = s.ref := rfl
@[simp] theorem State.setRing_bcn (s : State) (c : Nat) (v : ChanRing) : (s.setRing c v).bcn = s.bcn := rfl
@[simp] theorem State.setRing_xbr (s : State) (c : Nat) (v : ChanRing) : (s.setRing c v).xbr = s.xbr := rfl
@[simp] theorem State.setRing_lanes (s : State) (c : Nat) (v : ChanRing) : (s.setRing c v).lanes = s.lanes := rfl
@[simp] theorem State.setRing_srcs (s : State) (c : Nat) (v : ChanRing) : (s.setRing c v).srcs = s.srcs := rfl
@[simp] theorem State.setRing_plc (s : State) (c : Nat) (v : ChanRing) : (s.setRing c v).plc = s.plc := rfl
@[simp] theorem State.setRing_tiles (s : State) (c : Nat) (v : ChanRing) : (s.setRing c v).tiles = s.tiles := rfl
@[simp] theorem State.setRing_kilns (s : State) (c : Nat) (v : ChanRing) : (s.setRing c v).kilns = s.kilns := rfl
@[simp] theorem State.setRing_beam (s : State) (c : Nat) (v : ChanRing) : (s.setRing c v).beam = s.beam := rfl
@[simp] theorem State.setRing_eng (s : State) (c : Nat) (v : ChanRing) : (s.setRing c v).eng = s.eng := rfl
@[simp] theorem State.setRing_slots (s : State) (c : Nat) (v : ChanRing) : (s.setRing c v).slots = s.slots := rfl
@[simp] theorem State.setRing_cores (s : State) (c : Nat) (v : ChanRing) : (s.setRing c v).cores = s.cores := rfl
@[simp] theorem State.setRing_cq (s : State) (c : Nat) (v : ChanRing) : (s.setRing c v).cq = s.cq := rfl
@[simp] theorem State.setRing_pair (s : State) (c : Nat) (v : ChanRing) : (s.setRing c v).pair = s.pair := rfl
@[simp] theorem State.setRing_pwr (s : State) (c : Nat) (v : ChanRing) : (s.setRing c v).pwr = s.pwr := rfl

@[simp] theorem State.setTile_pending (s : State) (t : Nat) (v : Tile) : (s.setTile t v).pending = s.pending := rfl
@[simp] theorem State.setTile_fuse (s : State) (t : Nat) (v : Tile) : (s.setTile t v).fuse = s.fuse := rfl
@[simp] theorem State.setTile_freeCtr (s : State) (t : Nat) (v : Tile) : (s.setTile t v).freeCtr = s.freeCtr := rfl
@[simp] theorem State.setTile_regs (s : State) (t : Nat) (v : Tile) : (s.setTile t v).regs = s.regs := rfl
@[simp] theorem State.setTile_hbm (s : State) (t : Nat) (v : Tile) : (s.setTile t v).hbm = s.hbm := rfl
@[simp] theorem State.setTile_csram (s : State) (t : Nat) (v : Tile) : (s.setTile t v).csram = s.csram := rfl
@[simp] theorem State.setTile_host (s : State) (t : Nat) (v : Tile) : (s.setTile t v).host = s.host := rfl
@[simp] theorem State.setTile_link (s : State) (t : Nat) (v : Tile) : (s.setTile t v).link = s.link := rfl
@[simp] theorem State.setTile_err (s : State) (t : Nat) (v : Tile) : (s.setTile t v).err = s.err := rfl
@[simp] theorem State.setTile_mem (s : State) (t : Nat) (v : Tile) : (s.setTile t v).mem = s.mem := rfl
@[simp] theorem State.setTile_time (s : State) (t : Nat) (v : Tile) : (s.setTile t v).time = s.time := rfl
@[simp] theorem State.setTile_ref (s : State) (t : Nat) (v : Tile) : (s.setTile t v).ref = s.ref := rfl
@[simp] theorem State.setTile_bcn (s : State) (t : Nat) (v : Tile) : (s.setTile t v).bcn = s.bcn := rfl
@[simp] theorem State.setTile_xbr (s : State) (t : Nat) (v : Tile) : (s.setTile t v).xbr = s.xbr := rfl
@[simp] theorem State.setTile_lanes (s : State) (t : Nat) (v : Tile) : (s.setTile t v).lanes = s.lanes := rfl
@[simp] theorem State.setTile_srcs (s : State) (t : Nat) (v : Tile) : (s.setTile t v).srcs = s.srcs := rfl
@[simp] theorem State.setTile_asm_ (s : State) (t : Nat) (v : Tile) : (s.setTile t v).asm_ = s.asm_ := rfl
@[simp] theorem State.setTile_plc (s : State) (t : Nat) (v : Tile) : (s.setTile t v).plc = s.plc := rfl
@[simp] theorem State.setTile_kilns (s : State) (t : Nat) (v : Tile) : (s.setTile t v).kilns = s.kilns := rfl
@[simp] theorem State.setTile_beam (s : State) (t : Nat) (v : Tile) : (s.setTile t v).beam = s.beam := rfl
@[simp] theorem State.setTile_eng (s : State) (t : Nat) (v : Tile) : (s.setTile t v).eng = s.eng := rfl
@[simp] theorem State.setTile_slots (s : State) (t : Nat) (v : Tile) : (s.setTile t v).slots = s.slots := rfl
@[simp] theorem State.setTile_cores (s : State) (t : Nat) (v : Tile) : (s.setTile t v).cores = s.cores := rfl
@[simp] theorem State.setTile_cq (s : State) (t : Nat) (v : Tile) : (s.setTile t v).cq = s.cq := rfl
@[simp] theorem State.setTile_pair (s : State) (t : Nat) (v : Tile) : (s.setTile t v).pair = s.pair := rfl
@[simp] theorem State.setTile_pwr (s : State) (t : Nat) (v : Tile) : (s.setTile t v).pwr = s.pwr := rfl

@[simp] theorem State.setKiln_pending (s : State) (k : Nat) (v : Kiln) : (s.setKiln k v).pending = s.pending := rfl
@[simp] theorem State.setKiln_fuse (s : State) (k : Nat) (v : Kiln) : (s.setKiln k v).fuse = s.fuse := rfl
@[simp] theorem State.setKiln_freeCtr (s : State) (k : Nat) (v : Kiln) : (s.setKiln k v).freeCtr = s.freeCtr := rfl
@[simp] theorem State.setKiln_regs (s : State) (k : Nat) (v : Kiln) : (s.setKiln k v).regs = s.regs := rfl
@[simp] theorem State.setKiln_hbm (s : State) (k : Nat) (v : Kiln) : (s.setKiln k v).hbm = s.hbm := rfl
@[simp] theorem State.setKiln_csram (s : State) (k : Nat) (v : Kiln) : (s.setKiln k v).csram = s.csram := rfl
@[simp] theorem State.setKiln_host (s : State) (k : Nat) (v : Kiln) : (s.setKiln k v).host = s.host := rfl
@[simp] theorem State.setKiln_link (s : State) (k : Nat) (v : Kiln) : (s.setKiln k v).link = s.link := rfl
@[simp] theorem State.setKiln_err (s : State) (k : Nat) (v : Kiln) : (s.setKiln k v).err = s.err := rfl
@[simp] theorem State.setKiln_mem (s : State) (k : Nat) (v : Kiln) : (s.setKiln k v).mem = s.mem := rfl
@[simp] theorem State.setKiln_time (s : State) (k : Nat) (v : Kiln) : (s.setKiln k v).time = s.time := rfl
@[simp] theorem State.setKiln_ref (s : State) (k : Nat) (v : Kiln) : (s.setKiln k v).ref = s.ref := rfl
@[simp] theorem State.setKiln_bcn (s : State) (k : Nat) (v : Kiln) : (s.setKiln k v).bcn = s.bcn := rfl
@[simp] theorem State.setKiln_xbr (s : State) (k : Nat) (v : Kiln) : (s.setKiln k v).xbr = s.xbr := rfl
@[simp] theorem State.setKiln_lanes (s : State) (k : Nat) (v : Kiln) : (s.setKiln k v).lanes = s.lanes := rfl
@[simp] theorem State.setKiln_srcs (s : State) (k : Nat) (v : Kiln) : (s.setKiln k v).srcs = s.srcs := rfl
@[simp] theorem State.setKiln_asm_ (s : State) (k : Nat) (v : Kiln) : (s.setKiln k v).asm_ = s.asm_ := rfl
@[simp] theorem State.setKiln_plc (s : State) (k : Nat) (v : Kiln) : (s.setKiln k v).plc = s.plc := rfl
@[simp] theorem State.setKiln_tiles (s : State) (k : Nat) (v : Kiln) : (s.setKiln k v).tiles = s.tiles := rfl
@[simp] theorem State.setKiln_beam (s : State) (k : Nat) (v : Kiln) : (s.setKiln k v).beam = s.beam := rfl
@[simp] theorem State.setKiln_eng (s : State) (k : Nat) (v : Kiln) : (s.setKiln k v).eng = s.eng := rfl
@[simp] theorem State.setKiln_slots (s : State) (k : Nat) (v : Kiln) : (s.setKiln k v).slots = s.slots := rfl
@[simp] theorem State.setKiln_cores (s : State) (k : Nat) (v : Kiln) : (s.setKiln k v).cores = s.cores := rfl
@[simp] theorem State.setKiln_cq (s : State) (k : Nat) (v : Kiln) : (s.setKiln k v).cq = s.cq := rfl
@[simp] theorem State.setKiln_pair (s : State) (k : Nat) (v : Kiln) : (s.setKiln k v).pair = s.pair := rfl
@[simp] theorem State.setKiln_pwr (s : State) (k : Nat) (v : Kiln) : (s.setKiln k v).pwr = s.pwr := rfl

@[simp] theorem State.setCore_pending (s : State) (k : Nat) (v : Core) : (s.setCore k v).pending = s.pending := rfl
@[simp] theorem State.setCore_fuse (s : State) (k : Nat) (v : Core) : (s.setCore k v).fuse = s.fuse := rfl
@[simp] theorem State.setCore_freeCtr (s : State) (k : Nat) (v : Core) : (s.setCore k v).freeCtr = s.freeCtr := rfl
@[simp] theorem State.setCore_regs (s : State) (k : Nat) (v : Core) : (s.setCore k v).regs = s.regs := rfl
@[simp] theorem State.setCore_hbm (s : State) (k : Nat) (v : Core) : (s.setCore k v).hbm = s.hbm := rfl
@[simp] theorem State.setCore_csram (s : State) (k : Nat) (v : Core) : (s.setCore k v).csram = s.csram := rfl
@[simp] theorem State.setCore_host (s : State) (k : Nat) (v : Core) : (s.setCore k v).host = s.host := rfl
@[simp] theorem State.setCore_link (s : State) (k : Nat) (v : Core) : (s.setCore k v).link = s.link := rfl
@[simp] theorem State.setCore_err (s : State) (k : Nat) (v : Core) : (s.setCore k v).err = s.err := rfl
@[simp] theorem State.setCore_mem (s : State) (k : Nat) (v : Core) : (s.setCore k v).mem = s.mem := rfl
@[simp] theorem State.setCore_time (s : State) (k : Nat) (v : Core) : (s.setCore k v).time = s.time := rfl
@[simp] theorem State.setCore_ref (s : State) (k : Nat) (v : Core) : (s.setCore k v).ref = s.ref := rfl
@[simp] theorem State.setCore_bcn (s : State) (k : Nat) (v : Core) : (s.setCore k v).bcn = s.bcn := rfl
@[simp] theorem State.setCore_xbr (s : State) (k : Nat) (v : Core) : (s.setCore k v).xbr = s.xbr := rfl
@[simp] theorem State.setCore_lanes (s : State) (k : Nat) (v : Core) : (s.setCore k v).lanes = s.lanes := rfl
@[simp] theorem State.setCore_srcs (s : State) (k : Nat) (v : Core) : (s.setCore k v).srcs = s.srcs := rfl
@[simp] theorem State.setCore_asm_ (s : State) (k : Nat) (v : Core) : (s.setCore k v).asm_ = s.asm_ := rfl
@[simp] theorem State.setCore_plc (s : State) (k : Nat) (v : Core) : (s.setCore k v).plc = s.plc := rfl
@[simp] theorem State.setCore_tiles (s : State) (k : Nat) (v : Core) : (s.setCore k v).tiles = s.tiles := rfl
@[simp] theorem State.setCore_kilns (s : State) (k : Nat) (v : Core) : (s.setCore k v).kilns = s.kilns := rfl
@[simp] theorem State.setCore_beam (s : State) (k : Nat) (v : Core) : (s.setCore k v).beam = s.beam := rfl
@[simp] theorem State.setCore_eng (s : State) (k : Nat) (v : Core) : (s.setCore k v).eng = s.eng := rfl
@[simp] theorem State.setCore_slots (s : State) (k : Nat) (v : Core) : (s.setCore k v).slots = s.slots := rfl
@[simp] theorem State.setCore_cq (s : State) (k : Nat) (v : Core) : (s.setCore k v).cq = s.cq := rfl
@[simp] theorem State.setCore_pair (s : State) (k : Nat) (v : Core) : (s.setCore k v).pair = s.pair := rfl
@[simp] theorem State.setCore_pwr (s : State) (k : Nat) (v : Core) : (s.setCore k v).pwr = s.pwr := rfl

@[simp] theorem State.setLtn_pending (s : State) (e : Nat) (v : LtnEng) : (s.setLtn e v).pending = s.pending := rfl
@[simp] theorem State.setLtn_fuse (s : State) (e : Nat) (v : LtnEng) : (s.setLtn e v).fuse = s.fuse := rfl
@[simp] theorem State.setLtn_freeCtr (s : State) (e : Nat) (v : LtnEng) : (s.setLtn e v).freeCtr = s.freeCtr := rfl
@[simp] theorem State.setLtn_regs (s : State) (e : Nat) (v : LtnEng) : (s.setLtn e v).regs = s.regs := rfl
@[simp] theorem State.setLtn_hbm (s : State) (e : Nat) (v : LtnEng) : (s.setLtn e v).hbm = s.hbm := rfl
@[simp] theorem State.setLtn_csram (s : State) (e : Nat) (v : LtnEng) : (s.setLtn e v).csram = s.csram := rfl
@[simp] theorem State.setLtn_host (s : State) (e : Nat) (v : LtnEng) : (s.setLtn e v).host = s.host := rfl
@[simp] theorem State.setLtn_link (s : State) (e : Nat) (v : LtnEng) : (s.setLtn e v).link = s.link := rfl
@[simp] theorem State.setLtn_err (s : State) (e : Nat) (v : LtnEng) : (s.setLtn e v).err = s.err := rfl
@[simp] theorem State.setLtn_mem (s : State) (e : Nat) (v : LtnEng) : (s.setLtn e v).mem = s.mem := rfl
@[simp] theorem State.setLtn_time (s : State) (e : Nat) (v : LtnEng) : (s.setLtn e v).time = s.time := rfl
@[simp] theorem State.setLtn_ref (s : State) (e : Nat) (v : LtnEng) : (s.setLtn e v).ref = s.ref := rfl
@[simp] theorem State.setLtn_bcn (s : State) (e : Nat) (v : LtnEng) : (s.setLtn e v).bcn = s.bcn := rfl
@[simp] theorem State.setLtn_xbr (s : State) (e : Nat) (v : LtnEng) : (s.setLtn e v).xbr = s.xbr := rfl
@[simp] theorem State.setLtn_lanes (s : State) (e : Nat) (v : LtnEng) : (s.setLtn e v).lanes = s.lanes := rfl
@[simp] theorem State.setLtn_srcs (s : State) (e : Nat) (v : LtnEng) : (s.setLtn e v).srcs = s.srcs := rfl
@[simp] theorem State.setLtn_asm_ (s : State) (e : Nat) (v : LtnEng) : (s.setLtn e v).asm_ = s.asm_ := rfl
@[simp] theorem State.setLtn_plc (s : State) (e : Nat) (v : LtnEng) : (s.setLtn e v).plc = s.plc := rfl
@[simp] theorem State.setLtn_tiles (s : State) (e : Nat) (v : LtnEng) : (s.setLtn e v).tiles = s.tiles := rfl
@[simp] theorem State.setLtn_kilns (s : State) (e : Nat) (v : LtnEng) : (s.setLtn e v).kilns = s.kilns := rfl
@[simp] theorem State.setLtn_beam (s : State) (e : Nat) (v : LtnEng) : (s.setLtn e v).beam = s.beam := rfl
@[simp] theorem State.setLtn_slots (s : State) (e : Nat) (v : LtnEng) : (s.setLtn e v).slots = s.slots := rfl
@[simp] theorem State.setLtn_cores (s : State) (e : Nat) (v : LtnEng) : (s.setLtn e v).cores = s.cores := rfl
@[simp] theorem State.setLtn_cq (s : State) (e : Nat) (v : LtnEng) : (s.setLtn e v).cq = s.cq := rfl
@[simp] theorem State.setLtn_pair (s : State) (e : Nat) (v : LtnEng) : (s.setLtn e v).pair = s.pair := rfl
@[simp] theorem State.setLtn_pwr (s : State) (e : Nat) (v : LtnEng) : (s.setLtn e v).pwr = s.pwr := rfl

@[simp] theorem State.setSlot_pending (s : State) (i : Nat) (v : LtnSlot) : (s.setSlot i v).pending = s.pending := rfl
@[simp] theorem State.setSlot_fuse (s : State) (i : Nat) (v : LtnSlot) : (s.setSlot i v).fuse = s.fuse := rfl
@[simp] theorem State.setSlot_freeCtr (s : State) (i : Nat) (v : LtnSlot) : (s.setSlot i v).freeCtr = s.freeCtr := rfl
@[simp] theorem State.setSlot_regs (s : State) (i : Nat) (v : LtnSlot) : (s.setSlot i v).regs = s.regs := rfl
@[simp] theorem State.setSlot_hbm (s : State) (i : Nat) (v : LtnSlot) : (s.setSlot i v).hbm = s.hbm := rfl
@[simp] theorem State.setSlot_csram (s : State) (i : Nat) (v : LtnSlot) : (s.setSlot i v).csram = s.csram := rfl
@[simp] theorem State.setSlot_host (s : State) (i : Nat) (v : LtnSlot) : (s.setSlot i v).host = s.host := rfl
@[simp] theorem State.setSlot_link (s : State) (i : Nat) (v : LtnSlot) : (s.setSlot i v).link = s.link := rfl
@[simp] theorem State.setSlot_err (s : State) (i : Nat) (v : LtnSlot) : (s.setSlot i v).err = s.err := rfl
@[simp] theorem State.setSlot_mem (s : State) (i : Nat) (v : LtnSlot) : (s.setSlot i v).mem = s.mem := rfl
@[simp] theorem State.setSlot_time (s : State) (i : Nat) (v : LtnSlot) : (s.setSlot i v).time = s.time := rfl
@[simp] theorem State.setSlot_ref (s : State) (i : Nat) (v : LtnSlot) : (s.setSlot i v).ref = s.ref := rfl
@[simp] theorem State.setSlot_bcn (s : State) (i : Nat) (v : LtnSlot) : (s.setSlot i v).bcn = s.bcn := rfl
@[simp] theorem State.setSlot_xbr (s : State) (i : Nat) (v : LtnSlot) : (s.setSlot i v).xbr = s.xbr := rfl
@[simp] theorem State.setSlot_lanes (s : State) (i : Nat) (v : LtnSlot) : (s.setSlot i v).lanes = s.lanes := rfl
@[simp] theorem State.setSlot_srcs (s : State) (i : Nat) (v : LtnSlot) : (s.setSlot i v).srcs = s.srcs := rfl
@[simp] theorem State.setSlot_asm_ (s : State) (i : Nat) (v : LtnSlot) : (s.setSlot i v).asm_ = s.asm_ := rfl
@[simp] theorem State.setSlot_plc (s : State) (i : Nat) (v : LtnSlot) : (s.setSlot i v).plc = s.plc := rfl
@[simp] theorem State.setSlot_tiles (s : State) (i : Nat) (v : LtnSlot) : (s.setSlot i v).tiles = s.tiles := rfl
@[simp] theorem State.setSlot_kilns (s : State) (i : Nat) (v : LtnSlot) : (s.setSlot i v).kilns = s.kilns := rfl
@[simp] theorem State.setSlot_beam (s : State) (i : Nat) (v : LtnSlot) : (s.setSlot i v).beam = s.beam := rfl
@[simp] theorem State.setSlot_eng (s : State) (i : Nat) (v : LtnSlot) : (s.setSlot i v).eng = s.eng := rfl
@[simp] theorem State.setSlot_cores (s : State) (i : Nat) (v : LtnSlot) : (s.setSlot i v).cores = s.cores := rfl
@[simp] theorem State.setSlot_cq (s : State) (i : Nat) (v : LtnSlot) : (s.setSlot i v).cq = s.cq := rfl
@[simp] theorem State.setSlot_pair (s : State) (i : Nat) (v : LtnSlot) : (s.setSlot i v).pair = s.pair := rfl
@[simp] theorem State.setSlot_pwr (s : State) (i : Nat) (v : LtnSlot) : (s.setSlot i v).pwr = s.pwr := rfl

@[simp] theorem State.setBlock_pending (s : State) (m : Nat) (v : BlockSt) : (s.setBlock m v).pending = s.pending := rfl
@[simp] theorem State.setBlock_fuse (s : State) (m : Nat) (v : BlockSt) : (s.setBlock m v).fuse = s.fuse := rfl
@[simp] theorem State.setBlock_freeCtr (s : State) (m : Nat) (v : BlockSt) : (s.setBlock m v).freeCtr = s.freeCtr := rfl
@[simp] theorem State.setBlock_regs (s : State) (m : Nat) (v : BlockSt) : (s.setBlock m v).regs = s.regs := rfl
@[simp] theorem State.setBlock_hbm (s : State) (m : Nat) (v : BlockSt) : (s.setBlock m v).hbm = s.hbm := rfl
@[simp] theorem State.setBlock_csram (s : State) (m : Nat) (v : BlockSt) : (s.setBlock m v).csram = s.csram := rfl
@[simp] theorem State.setBlock_host (s : State) (m : Nat) (v : BlockSt) : (s.setBlock m v).host = s.host := rfl
@[simp] theorem State.setBlock_link (s : State) (m : Nat) (v : BlockSt) : (s.setBlock m v).link = s.link := rfl
@[simp] theorem State.setBlock_err (s : State) (m : Nat) (v : BlockSt) : (s.setBlock m v).err = s.err := rfl
@[simp] theorem State.setBlock_mem (s : State) (m : Nat) (v : BlockSt) : (s.setBlock m v).mem = s.mem := rfl
@[simp] theorem State.setBlock_time (s : State) (m : Nat) (v : BlockSt) : (s.setBlock m v).time = s.time := rfl
@[simp] theorem State.setBlock_ref (s : State) (m : Nat) (v : BlockSt) : (s.setBlock m v).ref = s.ref := rfl
@[simp] theorem State.setBlock_bcn (s : State) (m : Nat) (v : BlockSt) : (s.setBlock m v).bcn = s.bcn := rfl
@[simp] theorem State.setBlock_xbr (s : State) (m : Nat) (v : BlockSt) : (s.setBlock m v).xbr = s.xbr := rfl
@[simp] theorem State.setBlock_lanes (s : State) (m : Nat) (v : BlockSt) : (s.setBlock m v).lanes = s.lanes := rfl
@[simp] theorem State.setBlock_srcs (s : State) (m : Nat) (v : BlockSt) : (s.setBlock m v).srcs = s.srcs := rfl
@[simp] theorem State.setBlock_asm_ (s : State) (m : Nat) (v : BlockSt) : (s.setBlock m v).asm_ = s.asm_ := rfl
@[simp] theorem State.setBlock_plc (s : State) (m : Nat) (v : BlockSt) : (s.setBlock m v).plc = s.plc := rfl
@[simp] theorem State.setBlock_tiles (s : State) (m : Nat) (v : BlockSt) : (s.setBlock m v).tiles = s.tiles := rfl
@[simp] theorem State.setBlock_kilns (s : State) (m : Nat) (v : BlockSt) : (s.setBlock m v).kilns = s.kilns := rfl
@[simp] theorem State.setBlock_eng (s : State) (m : Nat) (v : BlockSt) : (s.setBlock m v).eng = s.eng := rfl
@[simp] theorem State.setBlock_slots (s : State) (m : Nat) (v : BlockSt) : (s.setBlock m v).slots = s.slots := rfl
@[simp] theorem State.setBlock_cores (s : State) (m : Nat) (v : BlockSt) : (s.setBlock m v).cores = s.cores := rfl
@[simp] theorem State.setBlock_cq (s : State) (m : Nat) (v : BlockSt) : (s.setBlock m v).cq = s.cq := rfl
@[simp] theorem State.setBlock_pair (s : State) (m : Nat) (v : BlockSt) : (s.setBlock m v).pair = s.pair := rfl
@[simp] theorem State.setBlock_pwr (s : State) (m : Nat) (v : BlockSt) : (s.setBlock m v).pwr = s.pwr := rfl

@[simp] theorem State.setGrp_pending (s : State) (g : Nat) (v : DetGrp) : (s.setGrp g v).pending = s.pending := rfl
@[simp] theorem State.setGrp_fuse (s : State) (g : Nat) (v : DetGrp) : (s.setGrp g v).fuse = s.fuse := rfl
@[simp] theorem State.setGrp_freeCtr (s : State) (g : Nat) (v : DetGrp) : (s.setGrp g v).freeCtr = s.freeCtr := rfl
@[simp] theorem State.setGrp_regs (s : State) (g : Nat) (v : DetGrp) : (s.setGrp g v).regs = s.regs := rfl
@[simp] theorem State.setGrp_hbm (s : State) (g : Nat) (v : DetGrp) : (s.setGrp g v).hbm = s.hbm := rfl
@[simp] theorem State.setGrp_csram (s : State) (g : Nat) (v : DetGrp) : (s.setGrp g v).csram = s.csram := rfl
@[simp] theorem State.setGrp_host (s : State) (g : Nat) (v : DetGrp) : (s.setGrp g v).host = s.host := rfl
@[simp] theorem State.setGrp_link (s : State) (g : Nat) (v : DetGrp) : (s.setGrp g v).link = s.link := rfl
@[simp] theorem State.setGrp_err (s : State) (g : Nat) (v : DetGrp) : (s.setGrp g v).err = s.err := rfl
@[simp] theorem State.setGrp_mem (s : State) (g : Nat) (v : DetGrp) : (s.setGrp g v).mem = s.mem := rfl
@[simp] theorem State.setGrp_time (s : State) (g : Nat) (v : DetGrp) : (s.setGrp g v).time = s.time := rfl
@[simp] theorem State.setGrp_ref (s : State) (g : Nat) (v : DetGrp) : (s.setGrp g v).ref = s.ref := rfl
@[simp] theorem State.setGrp_bcn (s : State) (g : Nat) (v : DetGrp) : (s.setGrp g v).bcn = s.bcn := rfl
@[simp] theorem State.setGrp_xbr (s : State) (g : Nat) (v : DetGrp) : (s.setGrp g v).xbr = s.xbr := rfl
@[simp] theorem State.setGrp_lanes (s : State) (g : Nat) (v : DetGrp) : (s.setGrp g v).lanes = s.lanes := rfl
@[simp] theorem State.setGrp_srcs (s : State) (g : Nat) (v : DetGrp) : (s.setGrp g v).srcs = s.srcs := rfl
@[simp] theorem State.setGrp_asm_ (s : State) (g : Nat) (v : DetGrp) : (s.setGrp g v).asm_ = s.asm_ := rfl
@[simp] theorem State.setGrp_plc (s : State) (g : Nat) (v : DetGrp) : (s.setGrp g v).plc = s.plc := rfl
@[simp] theorem State.setGrp_tiles (s : State) (g : Nat) (v : DetGrp) : (s.setGrp g v).tiles = s.tiles := rfl
@[simp] theorem State.setGrp_kilns (s : State) (g : Nat) (v : DetGrp) : (s.setGrp g v).kilns = s.kilns := rfl
@[simp] theorem State.setGrp_eng (s : State) (g : Nat) (v : DetGrp) : (s.setGrp g v).eng = s.eng := rfl
@[simp] theorem State.setGrp_slots (s : State) (g : Nat) (v : DetGrp) : (s.setGrp g v).slots = s.slots := rfl
@[simp] theorem State.setGrp_cores (s : State) (g : Nat) (v : DetGrp) : (s.setGrp g v).cores = s.cores := rfl
@[simp] theorem State.setGrp_cq (s : State) (g : Nat) (v : DetGrp) : (s.setGrp g v).cq = s.cq := rfl
@[simp] theorem State.setGrp_pair (s : State) (g : Nat) (v : DetGrp) : (s.setGrp g v).pair = s.pair := rfl
@[simp] theorem State.setGrp_pwr (s : State) (g : Nat) (v : DetGrp) : (s.setGrp g v).pwr = s.pwr := rfl

@[simp] theorem State.setQueue_pending (s : State) (k : Nat) (v : List QEntry) : (s.setQueue k v).pending = s.pending := rfl
@[simp] theorem State.setQueue_fuse (s : State) (k : Nat) (v : List QEntry) : (s.setQueue k v).fuse = s.fuse := rfl
@[simp] theorem State.setQueue_freeCtr (s : State) (k : Nat) (v : List QEntry) : (s.setQueue k v).freeCtr = s.freeCtr := rfl
@[simp] theorem State.setQueue_regs (s : State) (k : Nat) (v : List QEntry) : (s.setQueue k v).regs = s.regs := rfl
@[simp] theorem State.setQueue_hbm (s : State) (k : Nat) (v : List QEntry) : (s.setQueue k v).hbm = s.hbm := rfl
@[simp] theorem State.setQueue_csram (s : State) (k : Nat) (v : List QEntry) : (s.setQueue k v).csram = s.csram := rfl
@[simp] theorem State.setQueue_host (s : State) (k : Nat) (v : List QEntry) : (s.setQueue k v).host = s.host := rfl
@[simp] theorem State.setQueue_link (s : State) (k : Nat) (v : List QEntry) : (s.setQueue k v).link = s.link := rfl
@[simp] theorem State.setQueue_err (s : State) (k : Nat) (v : List QEntry) : (s.setQueue k v).err = s.err := rfl
@[simp] theorem State.setQueue_mem (s : State) (k : Nat) (v : List QEntry) : (s.setQueue k v).mem = s.mem := rfl
@[simp] theorem State.setQueue_time (s : State) (k : Nat) (v : List QEntry) : (s.setQueue k v).time = s.time := rfl
@[simp] theorem State.setQueue_ref (s : State) (k : Nat) (v : List QEntry) : (s.setQueue k v).ref = s.ref := rfl
@[simp] theorem State.setQueue_bcn (s : State) (k : Nat) (v : List QEntry) : (s.setQueue k v).bcn = s.bcn := rfl
@[simp] theorem State.setQueue_xbr (s : State) (k : Nat) (v : List QEntry) : (s.setQueue k v).xbr = s.xbr := rfl
@[simp] theorem State.setQueue_lanes (s : State) (k : Nat) (v : List QEntry) : (s.setQueue k v).lanes = s.lanes := rfl
@[simp] theorem State.setQueue_srcs (s : State) (k : Nat) (v : List QEntry) : (s.setQueue k v).srcs = s.srcs := rfl
@[simp] theorem State.setQueue_asm_ (s : State) (k : Nat) (v : List QEntry) : (s.setQueue k v).asm_ = s.asm_ := rfl
@[simp] theorem State.setQueue_plc (s : State) (k : Nat) (v : List QEntry) : (s.setQueue k v).plc = s.plc := rfl
@[simp] theorem State.setQueue_tiles (s : State) (k : Nat) (v : List QEntry) : (s.setQueue k v).tiles = s.tiles := rfl
@[simp] theorem State.setQueue_kilns (s : State) (k : Nat) (v : List QEntry) : (s.setQueue k v).kilns = s.kilns := rfl
@[simp] theorem State.setQueue_beam (s : State) (k : Nat) (v : List QEntry) : (s.setQueue k v).beam = s.beam := rfl
@[simp] theorem State.setQueue_eng (s : State) (k : Nat) (v : List QEntry) : (s.setQueue k v).eng = s.eng := rfl
@[simp] theorem State.setQueue_slots (s : State) (k : Nat) (v : List QEntry) : (s.setQueue k v).slots = s.slots := rfl
@[simp] theorem State.setQueue_cores (s : State) (k : Nat) (v : List QEntry) : (s.setQueue k v).cores = s.cores := rfl
@[simp] theorem State.setQueue_pair (s : State) (k : Nat) (v : List QEntry) : (s.setQueue k v).pair = s.pair := rfl
@[simp] theorem State.setQueue_pwr (s : State) (k : Nat) (v : List QEntry) : (s.setQueue k v).pwr = s.pwr := rfl

@[simp] theorem State.setRng_pending (s : State) (r : Nat) (v : RingDyn) : (s.setRng r v).pending = s.pending := rfl
@[simp] theorem State.setRng_fuse (s : State) (r : Nat) (v : RingDyn) : (s.setRng r v).fuse = s.fuse := rfl
@[simp] theorem State.setRng_freeCtr (s : State) (r : Nat) (v : RingDyn) : (s.setRng r v).freeCtr = s.freeCtr := rfl
@[simp] theorem State.setRng_regs (s : State) (r : Nat) (v : RingDyn) : (s.setRng r v).regs = s.regs := rfl
@[simp] theorem State.setRng_hbm (s : State) (r : Nat) (v : RingDyn) : (s.setRng r v).hbm = s.hbm := rfl
@[simp] theorem State.setRng_csram (s : State) (r : Nat) (v : RingDyn) : (s.setRng r v).csram = s.csram := rfl
@[simp] theorem State.setRng_host (s : State) (r : Nat) (v : RingDyn) : (s.setRng r v).host = s.host := rfl
@[simp] theorem State.setRng_err (s : State) (r : Nat) (v : RingDyn) : (s.setRng r v).err = s.err := rfl
@[simp] theorem State.setRng_mem (s : State) (r : Nat) (v : RingDyn) : (s.setRng r v).mem = s.mem := rfl
@[simp] theorem State.setRng_time (s : State) (r : Nat) (v : RingDyn) : (s.setRng r v).time = s.time := rfl
@[simp] theorem State.setRng_ref (s : State) (r : Nat) (v : RingDyn) : (s.setRng r v).ref = s.ref := rfl
@[simp] theorem State.setRng_bcn (s : State) (r : Nat) (v : RingDyn) : (s.setRng r v).bcn = s.bcn := rfl
@[simp] theorem State.setRng_xbr (s : State) (r : Nat) (v : RingDyn) : (s.setRng r v).xbr = s.xbr := rfl
@[simp] theorem State.setRng_lanes (s : State) (r : Nat) (v : RingDyn) : (s.setRng r v).lanes = s.lanes := rfl
@[simp] theorem State.setRng_srcs (s : State) (r : Nat) (v : RingDyn) : (s.setRng r v).srcs = s.srcs := rfl
@[simp] theorem State.setRng_asm_ (s : State) (r : Nat) (v : RingDyn) : (s.setRng r v).asm_ = s.asm_ := rfl
@[simp] theorem State.setRng_plc (s : State) (r : Nat) (v : RingDyn) : (s.setRng r v).plc = s.plc := rfl
@[simp] theorem State.setRng_tiles (s : State) (r : Nat) (v : RingDyn) : (s.setRng r v).tiles = s.tiles := rfl
@[simp] theorem State.setRng_kilns (s : State) (r : Nat) (v : RingDyn) : (s.setRng r v).kilns = s.kilns := rfl
@[simp] theorem State.setRng_beam (s : State) (r : Nat) (v : RingDyn) : (s.setRng r v).beam = s.beam := rfl
@[simp] theorem State.setRng_eng (s : State) (r : Nat) (v : RingDyn) : (s.setRng r v).eng = s.eng := rfl
@[simp] theorem State.setRng_slots (s : State) (r : Nat) (v : RingDyn) : (s.setRng r v).slots = s.slots := rfl
@[simp] theorem State.setRng_cores (s : State) (r : Nat) (v : RingDyn) : (s.setRng r v).cores = s.cores := rfl
@[simp] theorem State.setRng_cq (s : State) (r : Nat) (v : RingDyn) : (s.setRng r v).cq = s.cq := rfl
@[simp] theorem State.setRng_pair (s : State) (r : Nat) (v : RingDyn) : (s.setRng r v).pair = s.pair := rfl
@[simp] theorem State.setRng_pwr (s : State) (r : Nat) (v : RingDyn) : (s.setRng r v).pwr = s.pwr := rfl

@[simp] theorem State.setChan_pending (s : State) (c : Nat) (v : DmaChan) : (s.setChan c v).pending = s.pending := rfl
@[simp] theorem State.setChan_fuse (s : State) (c : Nat) (v : DmaChan) : (s.setChan c v).fuse = s.fuse := rfl
@[simp] theorem State.setChan_freeCtr (s : State) (c : Nat) (v : DmaChan) : (s.setChan c v).freeCtr = s.freeCtr := rfl
@[simp] theorem State.setChan_regs (s : State) (c : Nat) (v : DmaChan) : (s.setChan c v).regs = s.regs := rfl
@[simp] theorem State.setChan_hbm (s : State) (c : Nat) (v : DmaChan) : (s.setChan c v).hbm = s.hbm := rfl
@[simp] theorem State.setChan_csram (s : State) (c : Nat) (v : DmaChan) : (s.setChan c v).csram = s.csram := rfl
@[simp] theorem State.setChan_host (s : State) (c : Nat) (v : DmaChan) : (s.setChan c v).host = s.host := rfl
@[simp] theorem State.setChan_err (s : State) (c : Nat) (v : DmaChan) : (s.setChan c v).err = s.err := rfl
@[simp] theorem State.setChan_mem (s : State) (c : Nat) (v : DmaChan) : (s.setChan c v).mem = s.mem := rfl
@[simp] theorem State.setChan_time (s : State) (c : Nat) (v : DmaChan) : (s.setChan c v).time = s.time := rfl
@[simp] theorem State.setChan_ref (s : State) (c : Nat) (v : DmaChan) : (s.setChan c v).ref = s.ref := rfl
@[simp] theorem State.setChan_bcn (s : State) (c : Nat) (v : DmaChan) : (s.setChan c v).bcn = s.bcn := rfl
@[simp] theorem State.setChan_xbr (s : State) (c : Nat) (v : DmaChan) : (s.setChan c v).xbr = s.xbr := rfl
@[simp] theorem State.setChan_lanes (s : State) (c : Nat) (v : DmaChan) : (s.setChan c v).lanes = s.lanes := rfl
@[simp] theorem State.setChan_srcs (s : State) (c : Nat) (v : DmaChan) : (s.setChan c v).srcs = s.srcs := rfl
@[simp] theorem State.setChan_asm_ (s : State) (c : Nat) (v : DmaChan) : (s.setChan c v).asm_ = s.asm_ := rfl
@[simp] theorem State.setChan_plc (s : State) (c : Nat) (v : DmaChan) : (s.setChan c v).plc = s.plc := rfl
@[simp] theorem State.setChan_tiles (s : State) (c : Nat) (v : DmaChan) : (s.setChan c v).tiles = s.tiles := rfl
@[simp] theorem State.setChan_kilns (s : State) (c : Nat) (v : DmaChan) : (s.setChan c v).kilns = s.kilns := rfl
@[simp] theorem State.setChan_beam (s : State) (c : Nat) (v : DmaChan) : (s.setChan c v).beam = s.beam := rfl
@[simp] theorem State.setChan_eng (s : State) (c : Nat) (v : DmaChan) : (s.setChan c v).eng = s.eng := rfl
@[simp] theorem State.setChan_slots (s : State) (c : Nat) (v : DmaChan) : (s.setChan c v).slots = s.slots := rfl
@[simp] theorem State.setChan_cores (s : State) (c : Nat) (v : DmaChan) : (s.setChan c v).cores = s.cores := rfl
@[simp] theorem State.setChan_cq (s : State) (c : Nat) (v : DmaChan) : (s.setChan c v).cq = s.cq := rfl
@[simp] theorem State.setChan_pair (s : State) (c : Nat) (v : DmaChan) : (s.setChan c v).pair = s.pair := rfl
@[simp] theorem State.setChan_pwr (s : State) (c : Nat) (v : DmaChan) : (s.setChan c v).pwr = s.pwr := rfl

/-! ### A table reads back what was put into it -/

@[simp] theorem State.setLane_lane (s : State) (l : LaneId) (v : Lane) : (s.setLane l v).lane l = v := tget_tset_same _ _ _ _
@[simp] theorem State.setSrc_src (s : State) (n : Nat) (v : SrcEntry) : (s.setSrc n v).src n = v := tget_tset_same _ _ _ _
theorem State.setSrc_src_ne (s : State) (n : Nat) (v : SrcEntry) {j : Nat} (h : j ≠ n) : (s.setSrc n v).src j = s.src j :=
  tget_tset_ne _ _ _ h
@[simp] theorem State.setRing_ring (s : State) (c : Nat) (v : ChanRing) : (s.setRing c v).ring c = v := tget_tset_same _ _ _ _
theorem State.setRing_ring_ne (s : State) (c : Nat) (v : ChanRing) {j : Nat} (h : j ≠ c) : (s.setRing c v).ring j = s.ring j :=
  tget_tset_ne _ _ _ h
@[simp] theorem State.setTile_tile (s : State) (t : Nat) (v : Tile) : (s.setTile t v).tile t = v := tget_tset_same _ _ _ _
theorem State.setTile_tile_ne (s : State) (t : Nat) (v : Tile) {j : Nat} (h : j ≠ t) : (s.setTile t v).tile j = s.tile j :=
  tget_tset_ne _ _ _ h
@[simp] theorem State.setKiln_kiln (s : State) (k : Nat) (v : Kiln) : (s.setKiln k v).kiln k = v := tget_tset_same _ _ _ _
theorem State.setKiln_kiln_ne (s : State) (k : Nat) (v : Kiln) {j : Nat} (h : j ≠ k) : (s.setKiln k v).kiln j = s.kiln j :=
  tget_tset_ne _ _ _ h
@[simp] theorem State.setCore_core (s : State) (k : Nat) (v : Core) : (s.setCore k v).core k = v := tget_tset_same _ _ _ _
theorem State.setCore_core_ne (s : State) (k : Nat) (v : Core) {j : Nat} (h : j ≠ k) : (s.setCore k v).core j = s.core j :=
  tget_tset_ne _ _ _ h
@[simp] theorem State.setLtn_ltn (s : State) (e : Nat) (v : LtnEng) : (s.setLtn e v).ltn e = v := tget_tset_same _ _ _ _
theorem State.setLtn_ltn_ne (s : State) (e : Nat) (v : LtnEng) {j : Nat} (h : j ≠ e) : (s.setLtn e v).ltn j = s.ltn j :=
  tget_tset_ne _ _ _ h
@[simp] theorem State.setSlot_slot (s : State) (i : Nat) (v : LtnSlot) : (s.setSlot i v).slot i = v := tget_tset_same _ _ _ _
theorem State.setSlot_slot_ne (s : State) (i : Nat) (v : LtnSlot) {j : Nat} (h : j ≠ i) : (s.setSlot i v).slot j = s.slot j :=
  tget_tset_ne _ _ _ h
@[simp] theorem State.setBlock_block (s : State) (m : Nat) (v : BlockSt) : (s.setBlock m v).block m = v := tget_tset_same _ _ _ _
theorem State.setBlock_block_ne (s : State) (m : Nat) (v : BlockSt) {j : Nat} (h : j ≠ m) : (s.setBlock m v).block j = s.block j :=
  tget_tset_ne _ _ _ h
@[simp] theorem State.setGrp_grp (s : State) (g : Nat) (v : DetGrp) : (s.setGrp g v).grp g = v := tget_tset_same _ _ _ _
theorem State.setGrp_grp_ne (s : State) (g : Nat) (v : DetGrp) {j : Nat} (h : j ≠ g) : (s.setGrp g v).grp j = s.grp j :=
  tget_tset_ne _ _ _ h
@[simp] theorem State.setQueue_queue (s : State) (k : Nat) (v : List QEntry) : (s.setQueue k v).queue k = v := tget_tset_same _ _ _ _
theorem State.setQueue_queue_ne (s : State) (k : Nat) (v : List QEntry) {j : Nat} (h : j ≠ k) : (s.setQueue k v).queue j = s.queue j :=
  tget_tset_ne _ _ _ h
@[simp] theorem State.setRng_rng (s : State) (r : Nat) (v : RingDyn) : (s.setRng r v).rng r = v := tget_tset_same _ _ _ _
theorem State.setRng_rng_ne (s : State) (r : Nat) (v : RingDyn) {j : Nat} (h : j ≠ r) : (s.setRng r v).rng j = s.rng j :=
  tget_tset_ne _ _ _ h
@[simp] theorem State.setChan_chan (s : State) (c : Nat) (v : DmaChan) : (s.setChan c v).chan c = v := tget_tset_same _ _ _ _
theorem State.setChan_chan_ne (s : State) (c : Nat) (v : DmaChan) {j : Nat} (h : j ≠ c) : (s.setChan c v).chan j = s.chan j :=
  tget_tset_ne _ _ _ h

/-! ### Registers and their fields -/

@[simp] theorem State.reg_setReg (s : State) (off : Nat) (v : W32) : (s.setReg off v).reg off = v := sget_sset_same _ _ _ _

theorem State.reg_setReg_ne (s : State) {off k : Nat} (v : W32) (h : k ≠ off) : (s.setReg off v).reg k = s.reg k :=
  sget_sset_ne _ _ _ h

@[simp] theorem State.reg_setRf (s : State) (off lo len v : Nat) :
    (s.setRf off lo len v).reg off = setFld (s.reg off) lo len v := s.reg_setReg off _

theorem State.reg_setRf_ne (s : State) {off k : Nat} (lo len v : Nat) (h : k ≠ off) :
    (s.setRf off lo len v).reg k = s.reg k := s.reg_setReg_ne _ h

@[simp] theorem State.reg_setRb (s : State) (off i : Nat) (b : Bool) :
    (s.setRb off i b).reg off = setBit (s.reg off) i b := s.reg_setReg off _

theorem State.reg_setRb_ne (s : State) {off k : Nat} (i : Nat) (b : Bool) (h : k ≠ off) :
    (s.setRb off i b).reg k = s.reg k := s.reg_setReg_ne _ h

/-- Bit j of a word with a field replaced. -/
theorem getLsbD_setFld (w : W32) (lo len v j : Nat) (hj : j < 32) :
    (setFld w lo len v).getLsbD j = if lo ≤ j ∧ j < lo + len then v.testBit (j - lo) else w.getLsbD j := by
  have key : ((2 ^ len - 1) <<< lo).testBit j = decide (lo ≤ j ∧ j < lo + len) := by
    rw [Nat.testBit_shiftLeft, Nat.testBit_two_pow_sub_one]
    by_cases h1 : lo ≤ j <;> simp [h1]
    omega
  simp only [setFld, BitVec.getLsbD_or, BitVec.getLsbD_and, BitVec.getLsbD_not, BitVec.getLsbD_ofNat, key, hj,
    decide_true, Bool.true_and, Nat.testBit_shiftLeft]
  by_cases h : lo ≤ j ∧ j < lo + len
  · simp [h]
  · simp [h]

/-- A field written reads back, cut to its width. -/
@[simp] theorem fld_setFld (w : W32) (lo len v : Nat) (h : lo + len ≤ 32) : fld (setFld w lo len v) lo len = v % 2 ^ len := by
  apply Nat.eq_of_testBit_eq
  intro i
  rw [fld, Nat.testBit_mod_two_pow, Nat.testBit_mod_two_pow, Nat.testBit_shiftRight]
  by_cases hi : i < len
  · have := getLsbD_setFld w lo len v (lo + i) (by omega)
    rw [BitVec.getLsbD] at this
    simp [hi, this]
  · simp [hi]

/-- A field that does not meet the one written keeps its value. -/
theorem fld_setFld_ne (w : W32) (lo len v a n : Nat) (h : a + n ≤ lo ∨ lo + len ≤ a) (hn : a + n ≤ 32) :
    fld (setFld w lo len v) a n = fld w a n := by
  apply Nat.eq_of_testBit_eq
  intro i
  rw [fld, fld, Nat.testBit_mod_two_pow, Nat.testBit_mod_two_pow, Nat.testBit_shiftRight, Nat.testBit_shiftRight]
  by_cases hi : i < n
  · have := getLsbD_setFld w lo len v (a + i) (by omega)
    rw [if_neg (by omega), BitVec.getLsbD, BitVec.getLsbD] at this
    simp [hi, this]
  · simp [hi]

@[simp] theorem bit_setBit (w : W32) (i : Nat) (b : Bool) (h : i < 32) : bit (setBit w i b) i = b := by
  rw [bit, setBit, getLsbD_setFld _ _ _ _ _ h]; cases b <;> simp

theorem bit_setBit_ne (w : W32) {i j : Nat} (b : Bool) (h : j ≠ i) (hj : j < 32) : bit (setBit w i b) j = bit w j := by
  rw [bit, setBit, getLsbD_setFld _ _ _ _ _ hj, if_neg (by omega)]; rfl

@[simp] theorem State.rf_setRf (s : State) (off lo len v : Nat) (h : lo + len ≤ 32) :
    (s.setRf off lo len v).rf off lo len = v % 2 ^ len := by simp [State.rf, h]

theorem State.rf_setRf_ne (s : State) {off k : Nat} (lo len v a n : Nat) (h : k ≠ off) :
    (s.setRf off lo len v).rf k a n = s.rf k a n := by simp [State.rf, s.reg_setRf_ne lo len v h]

theorem State.rf_setRf_other (s : State) (off lo len v a n : Nat) (h : a + n ≤ lo ∨ lo + len ≤ a) (hn : a + n ≤ 32) :
    (s.setRf off lo len v).rf off a n = s.rf off a n := by simp [State.rf, fld_setFld_ne _ _ _ _ _ _ h hn]

theorem State.rf_setReg_ne (s : State) {off k : Nat} (v : W32) (a n : Nat) (h : k ≠ off) :
    (s.setReg off v).rf k a n = s.rf k a n := by simp [State.rf, s.reg_setReg_ne v h]

theorem State.rb_setReg_ne (s : State) {off k : Nat} (v : W32) (j : Nat) (h : k ≠ off) :
    (s.setReg off v).rb k j = s.rb k j := by simp [State.rb, s.reg_setReg_ne v h]

@[simp] theorem State.rb_setRb (s : State) (off i : Nat) (b : Bool) (h : i < 32) : (s.setRb off i b).rb off i = b := by
  simp [State.rb, h]

theorem State.rb_setRb_ne (s : State) {off k : Nat} (i j : Nat) (b : Bool) (h : k ≠ off) :
    (s.setRb off i b).rb k j = s.rb k j := by simp [State.rb, s.reg_setRb_ne i b h]

theorem State.rb_setRb_other (s : State) (off : Nat) {i j : Nat} (b : Bool) (h : j ≠ i) (hj : j < 32) :
    (s.setRb off i b).rb off j = s.rb off j := by simp [State.rb, bit_setBit_ne _ b h hj]

/-- A counter of 32 bits after an increment: it saturates (R8's counters). -/
theorem State.reg_cnt (s : State) (off n : Nat) :
    ((s.cnt off n).reg off).toNat = min ((s.reg off).toNat + n) 0xFFFFFFFF := by
  have h : (s.cnt off n).rf off 0 32 = satInc 32 (s.rf off 0 32) n % 2 ^ 32 := s.rf_setRf off 0 32 _ (by omega)
  have e : ∀ t : State, t.rf off 0 32 = (t.reg off).toNat := fun t => by
    simp [State.rf, fld, Nat.mod_eq_of_lt (t.reg off).isLt]
  rw [e, e] at h
  have e2 : satInc 32 (s.reg off).toNat n = min ((s.reg off).toNat + n) (2 ^ 32 - 1) := rfl
  rw [h, e2]; omega

theorem State.reg_cnt_ne (s : State) {off k : Nat} (n : Nat) (h : k ≠ off) : (s.cnt off n).reg k = s.reg k :=
  s.reg_setReg_ne _ h

/-! ### Beacons and device time -/

@[simp] theorem State.publishH_pending (s : State) (c h : Nat) : (s.publishH c h).pending = s.pending := by
  unfold State.publishH; split
  · rfl
  · split <;> rfl
@[simp] theorem State.publish_pending (s : State) (c : Nat) : (s.publish c).pending = s.pending := s.publishH_pending c 0
@[simp] theorem State.publishH_fuse (s : State) (c h : Nat) : (s.publishH c h).fuse = s.fuse := by
  unfold State.publishH; split
  · rfl
  · split <;> rfl
@[simp] theorem State.publish_fuse (s : State) (c : Nat) : (s.publish c).fuse = s.fuse := s.publishH_fuse c 0
@[simp] theorem State.publishH_freeCtr (s : State) (c h : Nat) : (s.publishH c h).freeCtr = s.freeCtr := by
  unfold State.publishH; split
  · rfl
  · split <;> rfl
@[simp] theorem State.publish_freeCtr (s : State) (c : Nat) : (s.publish c).freeCtr = s.freeCtr := s.publishH_freeCtr c 0
@[simp] theorem State.publishH_hbm (s : State) (c h : Nat) : (s.publishH c h).hbm = s.hbm := by
  unfold State.publishH; split
  · rfl
  · split <;> rfl
@[simp] theorem State.publish_hbm (s : State) (c : Nat) : (s.publish c).hbm = s.hbm := s.publishH_hbm c 0
@[simp] theorem State.publishH_csram (s : State) (c h : Nat) : (s.publishH c h).csram = s.csram := by
  unfold State.publishH; split
  · rfl
  · split <;> rfl
@[simp] theorem State.publish_csram (s : State) (c : Nat) : (s.publish c).csram = s.csram := s.publishH_csram c 0
@[simp] theorem State.publishH_host (s : State) (c h : Nat) : (s.publishH c h).host = s.host := by
  unfold State.publishH; split
  · rfl
  · split <;> rfl
@[simp] theorem State.publish_host (s : State) (c : Nat) : (s.publish c).host = s.host := s.publishH_host c 0
@[simp] theorem State.publishH_link (s : State) (c h : Nat) : (s.publishH c h).link = s.link := by
  unfold State.publishH; split
  · rfl
  · split <;> rfl
@[simp] theorem State.publish_link (s : State) (c : Nat) : (s.publish c).link = s.link := s.publishH_link c 0
@[simp] theorem State.publishH_err (s : State) (c h : Nat) : (s.publishH c h).err = s.err := by
  unfold State.publishH; split
  · rfl
  · split <;> rfl
@[simp] theorem State.publish_err (s : State) (c : Nat) : (s.publish c).err = s.err := s.publishH_err c 0
@[simp] theorem State.publishH_mem (s : State) (c h : Nat) : (s.publishH c h).mem = s.mem := by
  unfold State.publishH; split
  · rfl
  · split <;> rfl
@[simp] theorem State.publish_mem (s : State) (c : Nat) : (s.publish c).mem = s.mem := s.publishH_mem c 0
@[simp] theorem State.publishH_time (s : State) (c h : Nat) : (s.publishH c h).time = s.time := by
  unfold State.publishH; split
  · rfl
  · split <;> rfl
@[simp] theorem State.publish_time (s : State) (c : Nat) : (s.publish c).time = s.time := s.publishH_time c 0
@[simp] theorem State.publishH_ref (s : State) (c h : Nat) : (s.publishH c h).ref = s.ref := by
  unfold State.publishH; split
  · rfl
  · split <;> rfl
@[simp] theorem State.publish_ref (s : State) (c : Nat) : (s.publish c).ref = s.ref := s.publishH_ref c 0
@[simp] theorem State.publishH_xbr (s : State) (c h : Nat) : (s.publishH c h).xbr = s.xbr := by
  unfold State.publishH; split
  · rfl
  · split <;> rfl
@[simp] theorem State.publish_xbr (s : State) (c : Nat) : (s.publish c).xbr = s.xbr := s.publishH_xbr c 0
@[simp] theorem State.publishH_lanes (s : State) (c h : Nat) : (s.publishH c h).lanes = s.lanes := by
  unfold State.publishH; split
  · rfl
  · split <;> rfl
@[simp] theorem State.publish_lanes (s : State) (c : Nat) : (s.publish c).lanes = s.lanes := s.publishH_lanes c 0
@[simp] theorem State.publishH_srcs (s : State) (c h : Nat) : (s.publishH c h).srcs = s.srcs := by
  unfold State.publishH; split
  · rfl
  · split <;> rfl
@[simp] theorem State.publish_srcs (s : State) (c : Nat) : (s.publish c).srcs = s.srcs := s.publishH_srcs c 0
@[simp] theorem State.publishH_asm_ (s : State) (c h : Nat) : (s.publishH c h).asm_ = s.asm_ := by
  unfold State.publishH; split
  · rfl
  · split <;> rfl
@[simp] theorem State.publish_asm_ (s : State) (c : Nat) : (s.publish c).asm_ = s.asm_ := s.publishH_asm_ c 0
@[simp] theorem State.publishH_plc (s : State) (c h : Nat) : (s.publishH c h).plc = s.plc := by
  unfold State.publishH; split
  · rfl
  · split <;> rfl
@[simp] theorem State.publish_plc (s : State) (c : Nat) : (s.publish c).plc = s.plc := s.publishH_plc c 0
@[simp] theorem State.publishH_tiles (s : State) (c h : Nat) : (s.publishH c h).tiles = s.tiles := by
  unfold State.publishH; split
  · rfl
  · split <;> rfl
@[simp] theorem State.publish_tiles (s : State) (c : Nat) : (s.publish c).tiles = s.tiles := s.publishH_tiles c 0
@[simp] theorem State.publishH_kilns (s : State) (c h : Nat) : (s.publishH c h).kilns = s.kilns := by
  unfold State.publishH; split
  · rfl
  · split <;> rfl
@[simp] theorem State.publish_kilns (s : State) (c : Nat) : (s.publish c).kilns = s.kilns := s.publishH_kilns c 0
@[simp] theorem State.publishH_beam (s : State) (c h : Nat) : (s.publishH c h).beam = s.beam := by
  unfold State.publishH; split
  · rfl
  · split <;> rfl
@[simp] theorem State.publish_beam (s : State) (c : Nat) : (s.publish c).beam = s.beam := s.publishH_beam c 0
@[simp] theorem State.publishH_eng (s : State) (c h : Nat) : (s.publishH c h).eng = s.eng := by
  unfold State.publishH; split
  · rfl
  · split <;> rfl
@[simp] theorem State.publish_eng (s : State) (c : Nat) : (s.publish c).eng = s.eng := s.publishH_eng c 0
@[simp] theorem State.publishH_slots (s : State) (c h : Nat) : (s.publishH c h).slots = s.slots := by
  unfold State.publishH; split
  · rfl
  · split <;> rfl
@[simp] theorem State.publish_slots (s : State) (c : Nat) : (s.publish c).slots = s.slots := s.publishH_slots c 0
@[simp] theorem State.publishH_cores (s : State) (c h : Nat) : (s.publishH c h).cores = s.cores := by
  unfold State.publishH; split
  · rfl
  · split <;> rfl
@[simp] theorem State.publish_cores (s : State) (c : Nat) : (s.publish c).cores = s.cores := s.publishH_cores c 0
@[simp] theorem State.publishH_cq (s : State) (c h : Nat) : (s.publishH c h).cq = s.cq := by
  unfold State.publishH; split
  · rfl
  · split <;> rfl
@[simp] theorem State.publish_cq (s : State) (c : Nat) : (s.publish c).cq = s.cq := s.publishH_cq c 0
@[simp] theorem State.publishH_pair (s : State) (c h : Nat) : (s.publishH c h).pair = s.pair := by
  unfold State.publishH; split
  · rfl
  · split <;> rfl
@[simp] theorem State.publish_pair (s : State) (c : Nat) : (s.publish c).pair = s.pair := s.publishH_pair c 0
@[simp] theorem State.publishH_pwr (s : State) (c h : Nat) : (s.publishH c h).pwr = s.pwr := by
  unfold State.publishH; split
  · rfl
  · split <;> rfl
@[simp] theorem State.publish_pwr (s : State) (c : Nat) : (s.publish c).pwr = s.pwr := s.publishH_pwr c 0
@[simp] theorem State.wraps_pending (s : State) (n : Nat) : (s.wraps n).pending = s.pending := by
  induction n generalizing s with
  | zero => rfl
  | succ n ih => rw [State.wraps, ih]; simp
@[simp] theorem State.wraps_fuse (s : State) (n : Nat) : (s.wraps n).fuse = s.fuse := by
  induction n generalizing s with
  | zero => rfl
  | succ n ih => rw [State.wraps, ih]; simp
@[simp] theorem State.wraps_freeCtr (s : State) (n : Nat) : (s.wraps n).freeCtr = s.freeCtr := by
  induction n generalizing s with
  | zero => rfl
  | succ n ih => rw [State.wraps, ih]; simp
@[simp] theorem State.wraps_hbm (s : State) (n : Nat) : (s.wraps n).hbm = s.hbm := by
  induction n generalizing s with
  | zero => rfl
  | succ n ih => rw [State.wraps, ih]; simp
@[simp] theorem State.wraps_csram (s : State) (n : Nat) : (s.wraps n).csram = s.csram := by
  induction n generalizing s with
  | zero => rfl
  | succ n ih => rw [State.wraps, ih]; simp
@[simp] theorem State.wraps_host (s : State) (n : Nat) : (s.wraps n).host = s.host := by
  induction n generalizing s with
  | zero => rfl
  | succ n ih => rw [State.wraps, ih]; simp
@[simp] theorem State.wraps_link (s : State) (n : Nat) : (s.wraps n).link = s.link := by
  induction n generalizing s with
  | zero => rfl
  | succ n ih => rw [State.wraps, ih]; simp
@[simp] theorem State.wraps_err (s : State) (n : Nat) : (s.wraps n).err = s.err := by
  induction n generalizing s with
  | zero => rfl
  | succ n ih => rw [State.wraps, ih]; simp
@[simp] theorem State.wraps_mem (s : State) (n : Nat) : (s.wraps n).mem = s.mem := by
  induction n generalizing s with
  | zero => rfl
  | succ n ih => rw [State.wraps, ih]; simp
@[simp] theorem State.wraps_time (s : State) (n : Nat) : (s.wraps n).time = s.time := by
  induction n generalizing s with
  | zero => rfl
  | succ n ih => rw [State.wraps, ih]; simp
@[simp] theorem State.wraps_ref (s : State) (n : Nat) : (s.wraps n).ref = s.ref := by
  induction n generalizing s with
  | zero => rfl
  | succ n ih => rw [State.wraps, ih]; simp
@[simp] theorem State.wraps_xbr (s : State) (n : Nat) : (s.wraps n).xbr = s.xbr := by
  induction n generalizing s with
  | zero => rfl
  | succ n ih => rw [State.wraps, ih]; simp
@[simp] theorem State.wraps_lanes (s : State) (n : Nat) : (s.wraps n).lanes = s.lanes := by
  induction n generalizing s with
  | zero => rfl
  | succ n ih => rw [State.wraps, ih]; simp
@[simp] theorem State.wraps_srcs (s : State) (n : Nat) : (s.wraps n).srcs = s.srcs := by
  induction n generalizing s with
  | zero => rfl
  | succ n ih => rw [State.wraps, ih]; simp
@[simp] theorem State.wraps_asm_ (s : State) (n : Nat) : (s.wraps n).asm_ = s.asm_ := by
  induction n generalizing s with
  | zero => rfl
  | succ n ih => rw [State.wraps, ih]; simp
@[simp] theorem State.wraps_plc (s : State) (n : Nat) : (s.wraps n).plc = s.plc := by
  induction n generalizing s with
  | zero => rfl
  | succ n ih => rw [State.wraps, ih]; simp
@[simp] theorem State.wraps_tiles (s : State) (n : Nat) : (s.wraps n).tiles = s.tiles := by
  induction n generalizing s with
  | zero => rfl
  | succ n ih => rw [State.wraps, ih]; simp
@[simp] theorem State.wraps_kilns (s : State) (n : Nat) : (s.wraps n).kilns = s.kilns := by
  induction n generalizing s with
  | zero => rfl
  | succ n ih => rw [State.wraps, ih]; simp
@[simp] theorem State.wraps_beam (s : State) (n : Nat) : (s.wraps n).beam = s.beam := by
  induction n generalizing s with
  | zero => rfl
  | succ n ih => rw [State.wraps, ih]; simp
@[simp] theorem State.wraps_eng (s : State) (n : Nat) : (s.wraps n).eng = s.eng := by
  induction n generalizing s with
  | zero => rfl
  | succ n ih => rw [State.wraps, ih]; simp
@[simp] theorem State.wraps_slots (s : State) (n : Nat) : (s.wraps n).slots = s.slots := by
  induction n generalizing s with
  | zero => rfl
  | succ n ih => rw [State.wraps, ih]; simp
@[simp] theorem State.wraps_cores (s : State) (n : Nat) : (s.wraps n).cores = s.cores := by
  induction n generalizing s with
  | zero => rfl
  | succ n ih => rw [State.wraps, ih]; simp
@[simp] theorem State.wraps_cq (s : State) (n : Nat) : (s.wraps n).cq = s.cq := by
  induction n generalizing s with
  | zero => rfl
  | succ n ih => rw [State.wraps, ih]; simp
@[simp] theorem State.wraps_pair (s : State) (n : Nat) : (s.wraps n).pair = s.pair := by
  induction n generalizing s with
  | zero => rfl
  | succ n ih => rw [State.wraps, ih]; simp
@[simp] theorem State.wraps_pwr (s : State) (n : Nat) : (s.wraps n).pwr = s.pwr := by
  induction n generalizing s with
  | zero => rfl
  | succ n ih => rw [State.wraps, ih]; simp
@[simp] theorem State.advance_pending (s : State) (dt : Nat) : (s.advance dt).pending = s.pending := by
  unfold State.advance; dsimp only; split <;> simp
@[simp] theorem State.advance_fuse (s : State) (dt : Nat) : (s.advance dt).fuse = s.fuse := by
  unfold State.advance; dsimp only; split <;> simp
@[simp] theorem State.advance_freeCtr (s : State) (dt : Nat) : (s.advance dt).freeCtr = s.freeCtr := by
  unfold State.advance; dsimp only; split <;> simp
@[simp] theorem State.advance_hbm (s : State) (dt : Nat) : (s.advance dt).hbm = s.hbm := by
  unfold State.advance; dsimp only; split <;> simp
@[simp] theorem State.advance_csram (s : State) (dt : Nat) : (s.advance dt).csram = s.csram := by
  unfold State.advance; dsimp only; split <;> simp
@[simp] theorem State.advance_host (s : State) (dt : Nat) : (s.advance dt).host = s.host := by
  unfold State.advance; dsimp only; split <;> simp
@[simp] theorem State.advance_link (s : State) (dt : Nat) : (s.advance dt).link = s.link := by
  unfold State.advance; dsimp only; split <;> simp
@[simp] theorem State.advance_err (s : State) (dt : Nat) : (s.advance dt).err = s.err := by
  unfold State.advance; dsimp only; split <;> simp
@[simp] theorem State.advance_mem (s : State) (dt : Nat) : (s.advance dt).mem = s.mem := by
  unfold State.advance; dsimp only; split <;> simp
@[simp] theorem State.advance_ref (s : State) (dt : Nat) : (s.advance dt).ref = s.ref := by
  unfold State.advance; dsimp only; split <;> simp
@[simp] theorem State.advance_xbr (s : State) (dt : Nat) : (s.advance dt).xbr = s.xbr := by
  unfold State.advance; dsimp only; split <;> simp
@[simp] theorem State.advance_lanes (s : State) (dt : Nat) : (s.advance dt).lanes = s.lanes := by
  unfold State.advance; dsimp only; split <;> simp
@[simp] theorem State.advance_srcs (s : State) (dt : Nat) : (s.advance dt).srcs = s.srcs := by
  unfold State.advance; dsimp only; split <;> simp
@[simp] theorem State.advance_asm_ (s : State) (dt : Nat) : (s.advance dt).asm_ = s.asm_ := by
  unfold State.advance; dsimp only; split <;> simp
@[simp] theorem State.advance_plc (s : State) (dt : Nat) : (s.advance dt).plc = s.plc := by
  unfold State.advance; dsimp only; split <;> simp
@[simp] theorem State.advance_tiles (s : State) (dt : Nat) : (s.advance dt).tiles = s.tiles := by
  unfold State.advance; dsimp only; split <;> simp
@[simp] theorem State.advance_kilns (s : State) (dt : Nat) : (s.advance dt).kilns = s.kilns := by
  unfold State.advance; dsimp only; split <;> simp
@[simp] theorem State.advance_beam (s : State) (dt : Nat) : (s.advance dt).beam = s.beam := by
  unfold State.advance; dsimp only; split <;> simp
@[simp] theorem State.advance_eng (s : State) (dt : Nat) : (s.advance dt).eng = s.eng := by
  unfold State.advance; dsimp only; split <;> simp
@[simp] theorem State.advance_slots (s : State) (dt : Nat) : (s.advance dt).slots = s.slots := by
  unfold State.advance; dsimp only; split <;> simp
@[simp] theorem State.advance_cores (s : State) (dt : Nat) : (s.advance dt).cores = s.cores := by
  unfold State.advance; dsimp only; split <;> simp
@[simp] theorem State.advance_cq (s : State) (dt : Nat) : (s.advance dt).cq = s.cq := by
  unfold State.advance; dsimp only; split <;> simp
@[simp] theorem State.advance_pair (s : State) (dt : Nat) : (s.advance dt).pair = s.pair := by
  unfold State.advance; dsimp only; split <;> simp
@[simp] theorem State.advance_pwr (s : State) (dt : Nat) : (s.advance dt).pwr = s.pwr := by
  unfold State.advance; dsimp only; split <;> simp

/-- Time passes by the ticks asked for. -/
@[simp] theorem State.advance_ticks (s : State) (dt : Nat) : (s.advance dt).time.ticks = s.time.ticks + dt := by
  unfold State.advance; dsimp only; split <;> simp

@[simp] theorem State.advance_zero_ticks (s : State) : (s.advance 0).time.ticks = s.time.ticks := by simp

/-- A gate that holds lets the row happen, and one that does not leaves the state. -/
theorem gate_true (s : State) (f : State → State) : gate true s f = .next (f s) := rfl
theorem gate_false (s : State) (f : State → State) : gate false s f = .next s := rfl
theorem gate_of (ok : Bool) (s : State) (f : State → State) (h : ok = true) : gate ok s f = .next (f s) := by subst h; rfl
theorem gate_not (ok : Bool) (s : State) (f : State → State) (h : ok = false) : gate ok s f = .next s := by subst h; rfl
/-- A row answers a next state, whatever its gate. -/
theorem gate_next (ok : Bool) (s : State) (f : State → State) : ∃ t, gate ok s f = .next t := ⟨_, rfl⟩

end Sys2Proof.Machine
end

