-- ==== Sys2Proof/Laws/Ops.lean ====
section
/-! SUPPORT. What the shared operations keep, said once: each of them, from a state reached from `s₀` with the canonical
form and the fuses kept, answers such a state. A meaning built of them keeps both by citing these lemmas. -/

namespace Sys2Proof.Machine

/-- From s to t the canonical form is kept, and the fuses are the same. -/
def State.Keeps (s t : State) : Prop := (s.wf = true → t.wf = true) ∧ SameFuses s t

variable {s₀ s : State}

@[simp] theorem State.keeps_refl : State.Keeps s s := ⟨id, rfl⟩

theorem State.Keeps.trans {t u : State} (h : State.Keeps s t) (k : State.Keeps t u) : State.Keeps s u :=
  ⟨fun w => k.1 (h.1 w), k.2.trans h.2⟩

/-- A state with the same registers, memories and fuses. -/
theorem State.Keeps.same {t : State} (h : State.Keeps s₀ s) (hr : t.regs = s.regs) (hh : t.hbm = s.hbm) (hc : t.csram = s.csram)
    (ho : t.host = s.host) (hf : t.fuse = s.fuse) : State.Keeps s₀ t :=
  ⟨fun w => by have := h.1 w; simpa [State.wf, hr, hh, hc, ho] using this, hf.trans h.2⟩

/-- Stores replaced by canonical stores. -/
theorem State.Keeps.stores {t : State} (h : State.Keeps s₀ s) (hr : swf regReset s.regs = true → swf regReset t.regs = true)
    (hh : Memory.wf s.hbm = true → Memory.wf t.hbm = true) (hc : Memory.wf s.csram = true → Memory.wf t.csram = true)
    (ho : Memory.wf s.host = true → Memory.wf t.host = true) (hf : t.fuse = s.fuse) : State.Keeps s₀ t :=
  ⟨fun w => by
    have := h.1 w
    simp only [State.wf, Bool.and_eq_true] at this ⊢
    exact ⟨⟨⟨hr this.1.1.1, hh this.1.1.2⟩, hc this.1.2⟩, ho this.2⟩, hf.trans h.2⟩

/-- A fold of an operation that keeps them. -/
theorem State.keeps_foldl {α : Type} {f : State → α → State} (hf : ∀ t x, State.Keeps s₀ t → State.Keeps s₀ (f t x)) (l : List α)
    (h : State.Keeps s₀ s) : State.Keeps s₀ (l.foldl f s) := by
  induction l generalizing s with
  | nil => exact h
  | cons x l ih => exact ih (hf s x h)

/-- A fold that carries a result beside the state. -/
theorem State.keeps_foldl_pair {α β : Type} {f : β × State → α → β × State}
    (hf : ∀ b t x, State.Keeps s₀ t → State.Keeps s₀ (f (b, t) x).2) (l : List α) {a : β × State}
    (h : State.Keeps s₀ a.2) : State.Keeps s₀ (l.foldl f a).2 := by
  induction l generalizing a with
  | nil => exact h
  | cons x l ih => exact ih (hf a.1 a.2 x h)

/-- One of two states. -/
theorem State.keeps_ite {c : Prop} [Decidable c] {t u : State} (h : c → State.Keeps s₀ t) (k : ¬c → State.Keeps s₀ u) :
    State.Keeps s₀ (if c then t else u) := by
  split
  · exact h ‹_›
  · exact k ‹_›

/-! ### Registers and device time -/

@[simp] theorem State.keeps_setReg (o : Nat) (v : W32) (h : State.Keeps s₀ s) : State.Keeps s₀ (s.setReg o v) :=
  h.stores (swf_sset o v) id id id rfl
@[simp] theorem State.keeps_setRf (o i n v : Nat) (h : State.Keeps s₀ s) : State.Keeps s₀ (s.setRf o i n v) :=
  State.keeps_setReg _ _ h
@[simp] theorem State.keeps_setRb (o i : Nat) (b : Bool) (h : State.Keeps s₀ s) : State.Keeps s₀ (s.setRb o i b) :=
  State.keeps_setReg _ _ h
@[simp] theorem State.keeps_setReg64 (o v : Nat) (h : State.Keeps s₀ s) : State.Keeps s₀ (s.setReg64 o v) :=
  State.keeps_setReg _ _ (State.keeps_setReg _ _ h)
@[simp] theorem State.keeps_cntF (o i n v : Nat) (h : State.Keeps s₀ s) : State.Keeps s₀ (s.cntF o i n v) :=
  State.keeps_setRf _ _ _ _ h
@[simp] theorem State.keeps_cnt (o n : Nat) (h : State.Keeps s₀ s) : State.Keeps s₀ (s.cnt o n) := State.keeps_cntF _ _ _ _ h
@[simp] theorem State.keeps_cntWrap (o n : Nat) (h : State.Keeps s₀ s) : State.Keeps s₀ (s.cntWrap o n) :=
  State.keeps_setReg _ _ h
@[simp] theorem State.keeps_plainWrite (o : Nat) (v : W32) (h : State.Keeps s₀ s) : State.Keeps s₀ (s.plainWrite o v) := by
  unfold State.plainWrite; split
  · exact State.keeps_setReg _ _ h
  · exact h
@[simp] theorem State.keeps_free (h : State.Keeps s₀ s) : State.Keeps s₀ s.free.2 := h.same rfl rfl rfl rfl rfl
@[simp] theorem State.keeps_publishH (c n : Nat) (h : State.Keeps s₀ s) : State.Keeps s₀ (s.publishH c n) := by
  unfold State.publishH; repeat' split
  · exact h
  · exact h.same rfl rfl rfl rfl rfl
  · exact State.keeps_cnt _ _ h
@[simp] theorem State.keeps_publish (c : Nat) (h : State.Keeps s₀ s) : State.Keeps s₀ (s.publish c) := State.keeps_publishH _ _ h
@[simp] theorem State.keeps_wraps (n : Nat) (h : State.Keeps s₀ s) : State.Keeps s₀ (s.wraps n) := by
  induction n generalizing s with
  | zero => exact h
  | succ n ih => exact ih (State.keeps_publish _ (State.keeps_setRb _ _ _ h))
@[simp] theorem State.keeps_advance (dt : Nat) (h : State.Keeps s₀ s) : State.Keeps s₀ (s.advance dt) := by
  unfold State.advance; dsimp only; split
  · exact State.keeps_wraps _ (h.same rfl rfl rfl rfl rfl)
  · exact h.same rfl rfl rfl rfl rfl

/-! ### Tables of units -/

@[simp] theorem State.keeps_setLane (i v) (h : State.Keeps s₀ s) : State.Keeps s₀ (s.setLane i v) := h.same rfl rfl rfl rfl rfl
@[simp] theorem State.keeps_setSrc (i v) (h : State.Keeps s₀ s) : State.Keeps s₀ (s.setSrc i v) := h.same rfl rfl rfl rfl rfl
@[simp] theorem State.keeps_setRing (i v) (h : State.Keeps s₀ s) : State.Keeps s₀ (s.setRing i v) := h.same rfl rfl rfl rfl rfl
@[simp] theorem State.keeps_setTile (i v) (h : State.Keeps s₀ s) : State.Keeps s₀ (s.setTile i v) := h.same rfl rfl rfl rfl rfl
@[simp] theorem State.keeps_setKiln (i v) (h : State.Keeps s₀ s) : State.Keeps s₀ (s.setKiln i v) := h.same rfl rfl rfl rfl rfl
@[simp] theorem State.keeps_setCore (i v) (h : State.Keeps s₀ s) : State.Keeps s₀ (s.setCore i v) := h.same rfl rfl rfl rfl rfl
@[simp] theorem State.keeps_setLtn (i v) (h : State.Keeps s₀ s) : State.Keeps s₀ (s.setLtn i v) := h.same rfl rfl rfl rfl rfl
@[simp] theorem State.keeps_setSlot (i v) (h : State.Keeps s₀ s) : State.Keeps s₀ (s.setSlot i v) := h.same rfl rfl rfl rfl rfl
@[simp] theorem State.keeps_setBlock (i v) (h : State.Keeps s₀ s) : State.Keeps s₀ (s.setBlock i v) := h.same rfl rfl rfl rfl rfl
@[simp] theorem State.keeps_setGrp (i v) (h : State.Keeps s₀ s) : State.Keeps s₀ (s.setGrp i v) := h.same rfl rfl rfl rfl rfl
@[simp] theorem State.keeps_setQueue (i v) (h : State.Keeps s₀ s) : State.Keeps s₀ (s.setQueue i v) := h.same rfl rfl rfl rfl rfl
@[simp] theorem State.keeps_setRng (i v) (h : State.Keeps s₀ s) : State.Keeps s₀ (s.setRng i v) := h.same rfl rfl rfl rfl rfl
@[simp] theorem State.keeps_setChan (i v) (h : State.Keeps s₀ s) : State.Keeps s₀ (s.setChan i v) := h.same rfl rfl rfl rfl rfl
@[simp] theorem State.keeps_setErr (f) (h : State.Keeps s₀ s) : State.Keeps s₀ (s.setErr f) := h.same rfl rfl rfl rfl rfl
@[simp] theorem State.keeps_setMem (f) (h : State.Keeps s₀ s) : State.Keeps s₀ (s.setMem f) := h.same rfl rfl rfl rfl rfl
@[simp] theorem State.keeps_setPlc (v : PlcSt) (h : State.Keeps s₀ s) : State.Keeps s₀ { s with plc := v } :=
  h.same rfl rfl rfl rfl rfl
@[simp] theorem State.keeps_setQuarter (q v) (h : State.Keeps s₀ s) : State.Keeps s₀ (s.setQuarter q v) := State.keeps_setMem _ h
@[simp] theorem State.keeps_askToken (q r) (h : State.Keeps s₀ s) : State.Keeps s₀ (s.askToken q r) := State.keeps_setQuarter _ _ h

/-- A row behind a gate: what it does is kept, and so is nothing done. -/
theorem gate_keeps {ok : Bool} {s t : State} {f : State → State} (hf : State.Keeps s (f s)) (e : gate ok s f = .next t) :
    State.Keeps s t := by
  unfold gate at e; injection e with e; subst e
  exact State.keeps_ite (fun _ => hf) (fun _ => State.keeps_refl)

/-! ### The log, check bits and activations -/

@[simp] theorem State.keeps_logAt (p e b) (h : State.Keeps s₀ s) : State.Keeps s₀ (s.logAt p e b) := by
  unfold State.logAt; dsimp only; split
  · exact State.keeps_setRb _ _ _ (State.keeps_publish _ (State.keeps_setErr _ h))
  · exact State.keeps_setErr _ h
@[simp] theorem State.keeps_logError (e) (h : State.Keeps s₀ s) : State.Keeps s₀ (s.logError e) := by
  unfold State.logError; dsimp only
  cases newest s.err.log with
  | none => exact State.keeps_logAt _ _ _ h
  | some pn =>
    refine State.keeps_ite (fun _ => State.keeps_setErr _ h) (fun _ => ?_)
    cases freePlace s.err.log s.err.logNext with
    | some p => exact State.keeps_logAt _ _ _ h
    | none =>
      cases (if e.ue then oldest (fun x => !x.ue) s.err.log else none) with
      | some p => exact State.keeps_logAt _ _ _ h
      | none => exact State.keeps_cntF _ _ _ _ h
@[simp] theorem State.keeps_logPop (h : State.Keeps s₀ s) : State.Keeps s₀ s.logPop := by
  unfold State.logPop; split
  · exact State.keeps_setErr _ h
  · exact h
@[simp] theorem State.keeps_upset (u) (h : State.Keeps s₀ s) : State.Keeps s₀ (s.upset u) := by
  unfold State.upset; split
  · exact h
  · exact State.keeps_setErr _ h
@[simp] theorem State.keeps_clean (c u a b) (h : State.Keeps s₀ s) : State.Keeps s₀ (s.clean c u a b) := State.keeps_setErr _ h
@[simp] theorem State.keeps_cleanEn (c u a l) (h : State.Keeps s₀ s) : State.Keeps s₀ (s.cleanEn c u a l) := by
  induction l generalizing s a with
  | nil => exact h
  | cons e t ih => exact ih _ (State.keeps_ite (fun _ => State.keeps_clean _ _ _ _ h) (fun _ => h))
@[simp] theorem State.keeps_meet (a c p u) (h : State.Keeps s₀ s) : State.Keeps s₀ (s.meet a c p u) := by
  have one : ∀ o q, State.Keeps s₀ (if u.cls = 0 then (s.cnt o 1).cnt q 1 else s.cnt o 1) := fun o q =>
    State.keeps_ite (fun _ => State.keeps_cnt _ _ (State.keeps_cnt _ _ h)) (fun _ => State.keeps_cnt _ _ h)
  unfold State.meet; dsimp only; split
  · exact State.keeps_publish _ (State.keeps_logError _ (one _ _))
  · split
    · exact State.keeps_setPlc _ (State.keeps_setErr _ (State.keeps_logError _ (one _ _)))
    · exact State.keeps_setErr _ (State.keeps_logError _ (one _ _))
@[simp] theorem State.keeps_scan (c u a b x y p) (h : State.Keeps s₀ s) : State.Keeps s₀ (s.scan c u a b x y p).2 :=
  State.keeps_foldl (fun _ _ k => State.keeps_meet _ _ _ _ k) _ h
@[simp] theorem State.keeps_activate (a) (h : State.Keeps s₀ s) : State.Keeps s₀ (s.activate a) := by
  unfold State.activate; dsimp only; split
  · exact State.keeps_askToken _ _ (State.keeps_setMem _ h)
  · exact State.keeps_setMem _ h
@[simp] theorem State.keeps_touch (a n) (h : State.Keeps s₀ s) : State.Keeps s₀ (s.touch a n) :=
  State.keeps_ite (fun _ => h) (fun _ => State.keeps_foldl (fun _ _ k => State.keeps_activate _ k) _ h)

/-! ### Memories -/

@[simp] theorem State.keeps_hbm (m : List Host.Cell) (hm : Memory.wf s.hbm = true → Memory.wf m = true) (h : State.Keeps s₀ s) :
    State.Keeps s₀ { s with hbm := m } := h.stores id hm id id rfl
@[simp] theorem State.keeps_csram (m : List Host.Cell) (hm : Memory.wf s.csram = true → Memory.wf m = true) (h : State.Keeps s₀ s) :
    State.Keeps s₀ { s with csram := m } := h.stores id id hm id rfl
@[simp] theorem State.keeps_host (m : List Host.Cell) (hm : Memory.wf s.host = true → Memory.wf m = true) (h : State.Keeps s₀ s) :
    State.Keeps s₀ { s with host := m } := h.stores id id id hm rfl
@[simp] theorem State.keeps_hbmRead (a n x c) (h : State.Keeps s₀ s) : State.Keeps s₀ (s.hbmRead a n x c).2.2 :=
  State.keeps_touch _ _ (State.keeps_scan _ _ _ _ _ _ _ h)
@[simp] theorem State.keeps_unitWrites (h : State.Keeps s₀ s) : State.Keeps s₀ s.unitWrites := by
  unfold State.unitWrites; split
  · exact h
  · exact h.same rfl rfl rfl rfl rfl
@[simp] theorem State.keeps_hostWrites (a b e) (h : State.Keeps s₀ s) : State.Keeps s₀ (s.hostWrites a b e) :=
  h.same rfl rfl rfl rfl rfl
@[simp] theorem State.keeps_hbmPut (a b) (h : State.Keeps s₀ s) : State.Keeps s₀ (s.hbmPut a b) :=
  State.keeps_touch _ _ (State.keeps_hbm _ (Memory.wf_wrBytes _ _) (State.keeps_setErr _ (State.keeps_clean _ _ _ _ h)))
@[simp] theorem State.keeps_hbmWrite (a b) (h : State.Keeps s₀ s) : State.Keeps s₀ (s.hbmWrite a b) :=
  State.keeps_hbmPut _ _ (State.keeps_unitWrites h)
@[simp] theorem State.keeps_hbmLose (l) (h : State.Keeps s₀ s) : State.Keeps s₀ (s.hbmLose l) := by
  unfold State.hbmLose; split
  · exact h
  · dsimp only; split
    · exact h
    · split
      · exact State.keeps_hbm _ (Memory.wf_wrBytes _ _) (State.keeps_free h)
      · exact State.keeps_free h
@[simp] theorem State.keeps_hbmMerge (a b e x) (h : State.Keeps s₀ s) : State.Keeps s₀ (s.hbmMerge a b e x).2 := by
  unfold State.hbmMerge; dsimp only
  refine State.keeps_foldl_pair (fun bad t l k => ?_) _ h
  dsimp only
  have r : State.Keeps s₀ ((t.scan 0 0 l (l + 64) x 0 false).2.touch l 64) := State.keeps_touch _ _ (State.keeps_scan _ _ _ _ _ _ _ k)
  have k2 : State.Keeps s₀ (((t.scan 0 0 l (l + 64) x 0 false).2.touch l 64).setErr fun e =>
    { e with poison := e.poison.filter (· ≠ l) }) := State.keeps_setErr _ r
  split
  · exact k
  · split
    · exact State.keeps_ite (fun _ => State.keeps_hostWrites _ _ _ (State.keeps_hbmPut _ _ k)) (fun _ => State.keeps_hbmWrite _ _ k)
    · split
      · exact State.keeps_touch _ _ (State.keeps_hbm _ (Memory.wf_wrBytesEn _ _ _)
          (State.keeps_ite (fun _ => State.keeps_hostWrites _ _ _ (State.keeps_hbmLose _ k2)) (fun _ => State.keeps_unitWrites k2)))
      · exact r
@[simp] theorem State.keeps_csRead (a n x c) (h : State.Keeps s₀ s) : State.Keeps s₀ (s.csRead a n x c).2.2 :=
  State.keeps_scan _ _ _ _ _ _ _ h
@[simp] theorem State.keeps_csWrite (a b) (h : State.Keeps s₀ s) : State.Keeps s₀ (s.csWrite a b) :=
  State.keeps_csram _ (Memory.wf_wrBytes _ _) (State.keeps_clean _ _ _ _ h)
@[simp] theorem State.keeps_dmWrite (k a v) (h : State.Keeps s₀ s) : State.Keeps s₀ (s.dmWrite k a v) :=
  State.keeps_setCore _ _ (State.keeps_clean _ _ _ _ h)

/-! ### Transactions in the fabric and the line of a transmitter -/

@[simp] theorem State.keeps_setXbr (f) (h : State.Keeps s₀ s) : State.Keeps s₀ (s.setXbr f) := h
@[simp] theorem State.keeps_fabTake (m target) (h : State.Keeps s₀ s) : State.Keeps s₀ (s.fabTake m target) := State.keeps_setXbr _ h
@[simp] theorem State.keeps_fabAsk (r) (h : State.Keeps s₀ s) : State.Keeps s₀ (s.fabAsk r) := State.keeps_setXbr _ h
/-- A transaction at a target that is open to its master is performed at once. -/
theorem State.fabGo_open (r f) (hd : s.dozing = false) (h : s.fabOpen r.master (s.fabAt r.addr).target = true) :
    s.fabGo r f = f (s.fabTake r.master (s.fabAt r.addr).target) := by simp [State.fabGo, hd, h]
/-- One at a target that is not waits for its grant, and nothing else happens. -/
theorem State.fabGo_waits (r f) (hd : s.dozing = false) (h : s.fabOpen r.master (s.fabAt r.addr).target = false) : s.fabGo r f = s.fabAsk r := by
  simp [State.fabGo, hd, h]
theorem State.keeps_fabGo (r f) (hf : ∀ t, State.Keeps s₀ t → State.Keeps s₀ (f t)) (h : State.Keeps s₀ s) :
    State.Keeps s₀ (s.fabGo r f) :=
  State.keeps_ite (fun _ => hf _ h) (fun _ =>
    State.keeps_ite (fun _ => hf _ (State.keeps_fabTake _ _ h)) (fun _ => State.keeps_fabAsk _ h))
theorem State.keeps_fabUnit (r f) (hf : ∀ t, State.Keeps s₀ t → State.Keeps s₀ (f t)) (h : State.Keeps s₀ s) :
    State.Keeps s₀ (s.fabUnit r f) :=
  State.keeps_ite (fun _ => h) (fun _ => State.keeps_fabGo _ _ hf h)
@[simp] theorem State.keeps_lineTo (l bs) (h : State.Keeps s₀ s) : State.Keeps s₀ (s.lineTo l bs) := State.keeps_setLane _ _ h

end Sys2Proof.Machine
end

