-- ==== Sys2Proof/Machine/Lands.lean ====
section
/-! DEFINITION. The package's lands and what each carries, and the rails the board supplies (R363, R364, R380 to R383). No
command reads them: they say which signal stands where, and what the part is given. -/

namespace Sys2Proof.Machine

/-- Supply rails; those of HBM by stack (R363). -/
inductive Rail where
  | vss
  | aux
  | io
  | core
  | sram
  | laneA
  | lane
  | vpp (s : Nat)
  | vddq (s : Nat)
  | vddc (s : Nat)
  deriving DecidableEq, Repr

/-- What the board supplies on a rail: millivolts, tolerance in percent where the manual gives one, and the greatest current in
amperes on HX7240-F and HX7240-C, in tenths (R363). -/
structure Supply where
  mv : Nat
  tol : Option Nat
  maxF : Nat
  maxC : Nat
  deriving DecidableEq, Repr

/-- The supply of a rail; VDD_CORE is at 0.60 V and 5 mV for each step of its setpoint (R363, R365). VSS is the common return. -/
def supply (setpoint : Nat) : Rail → Option Supply
  | .vss => none
  | .aux => some ⟨850, some 3, 80, 80⟩
  | .io => some ⟨1800, some 5, 20, 20⟩
  | .core => some ⟨600 + 5 * min 40 setpoint, some 2, 8500, 4600⟩
  | .sram => some ⟨800, some 3, 600, 320⟩
  | .vpp _ => some ⟨1800, none, 15, 15⟩
  | .vddc _ => some ⟨1050, none, 100, 100⟩
  | .vddq _ => some ⟨750, none, 140, 140⟩
  | .laneA => some ⟨1200, some 3, 120, 60⟩
  | .lane => some ⟨750, some 3, 900, 400⟩

/-- The rails in the order in which they are ramped up, for a part of n stacks (R364). -/
def rampOrder (n : Nat) : List Rail :=
  [.aux, .io] ++ (List.range n).map .vpp ++ (List.range n).map .vddc ++ [.sram, .core]
    ++ (List.range n).map .vddq ++ [.laneA, .lane]

/-- The pairs of the hub field (R382). -/
inductive HubPair where
  | pcieTx (l : Nat)
  | pcieRx (l : Nat)
  | wTx (k : Nat)
  | wRx (k : Nat)
  | tportTx
  | tportRx
  | pcieRefclk
  | laneclk (q : Nat)
  | refinA
  | refinB
  | clkoutA
  | clkoutB
  deriving DecidableEq, Repr

/-- The low-speed pins of the hub field, in the order of its rows 028 to 030 (R382). -/
inductive HubPin where
  | xoIn | ppsinA | ppsinB | ppsout | syncout | porstN | warmrstN | perstN | bootsel | foghornN | foginN | alertN
  | thermTripN | pmbScl | pmbSda | pmbAlertN | qspiSck | qspiCsN | qspiIo0 | qspiIo1 | qspiIo2 | qspiIo3 | tck | tms
  | tdi | tdo | trstN | vsnsP | vsnsN
  deriving DecidableEq, Repr

/-- What a land carries; `neg` is the _N land of a pair. -/
inductive Land where
  | rail (r : Rail)
  | rx (n : Nat) (neg : Bool)
  | tx (n : Nat) (neg : Bool)
  | pair (p : HubPair) (neg : Bool)
  | pin (p : HubPin)
  | rsvd
  deriving DecidableEq, Repr

/-- A land exists at column c and row r (R380). -/
def landExists (c r : Nat) : Bool :=
  decide (1 ≤ c) && decide (c ≤ 120) && decide (1 ≤ r) && decide (r ≤ 120) && (c + r) % 2 == 1
    && !(decide (49 ≤ c) && decide (c ≤ 72) && decide (49 ≤ r) && decide (r ≤ 72))

/-- Micrometres from the package's centre, along columns or rows: a step of 0.75 mm, the first at −44.625 mm. -/
def landPos (n : Nat) : Int := 750 * n - 45375

/-- A place in an edge band: its quadrant, position a, depth d, and the offset a₀ (R381). -/
structure BandPlace where
  q : Nat
  a : Nat
  d : Nat
  a0 : Nat
  deriving DecidableEq, Repr

/-- The band that a column and row lie in (R381). -/
def bandAt (c r : Nat) : Option BandPlace :=
  let mid := fun n => decide (13 ≤ n) && decide (n ≤ 108)
  if r ≤ 12 ∧ mid c then some ⟨0, c - 12, r, 1⟩
  else if 109 ≤ c ∧ mid r then some ⟨1, r - 12, 121 - c, 2⟩
  else if 109 ≤ r ∧ mid c then some ⟨2, 109 - c, 121 - r, 1⟩
  else if c ≤ 12 ∧ mid r then some ⟨3, 109 - r, c, 2⟩
  else none

/-- The land of a band's place: an RX or TX lane of the quadrant, or a rail by its depth (R381). -/
def bandLand (b : BandPlace) : Land :=
  let nth := fun (first step n a : Nat) => ((List.range n).find? (fun i => step * i + first == a))
  let rx := fun (neg : Bool) (a : Nat) => (nth b.a0 4 24 a).map (fun i => Land.rx (24 * b.q + i) neg)
  let tx := fun (neg : Bool) (a : Nat) => (nth (4 + b.a0) 12 8 a).map (fun j => Land.tx (8 * b.q + j) neg)
  let lane :=
    if b.d = 2 then rx false b.a
    else if b.d = 3 then rx true (b.a - 1)
    else if b.d = 6 then tx false b.a
    else if b.d = 7 then tx true (b.a - 1)
    else none
  lane.getD (.rail (if b.d ≤ 8 then .vss else if b.d ≤ 10 then .laneA else .lane))

/-- The pair k of a row of the hub field that holds pairs; RSVD for the one that carries none (R382). -/
def hubPair (r k : Nat) : Option HubPair :=
  if r ≤ 16 then some (.pcieTx (4 * (r - 13) + k))
  else if r ≤ 20 then some (.pcieRx (4 * (r - 17) + k))
  else if r = 22 then some (.wTx k)
  else if r = 23 then some (.wRx k)
  else if r = 24 then [.tportTx, .tportRx, .pcieRefclk, .laneclk 0][k]?
  else if r = 25 then [.laneclk 1, .laneclk 2, .laneclk 3, .refinA][k]?
  else [.refinB, .clkoutA, .clkoutB][k]?

/-- The pins of rows 028, 029 and 030 in order (R382). -/
def hubPins : List HubPin :=
  [.xoIn, .ppsinA, .ppsinB, .ppsout, .syncout, .porstN, .warmrstN, .perstN, .bootsel, .foghornN, .foginN, .alertN,
   .thermTripN, .pmbScl, .pmbSda, .pmbAlertN, .qspiSck, .qspiCsN, .qspiIo0, .qspiIo1, .qspiIo2, .qspiIo3, .tck, .tms,
   .tdi, .tdo, .trstN, .vsnsP, .vsnsN]

/-- Land p of row r of the hub field (R382). -/
def hubLand (r p : Nat) : Land :=
  if r = 21 ∨ r = 27 then .rail .vss
  else if r ≤ 26 then
    if p % 3 = 0 then .rail .vss else ((hubPair r (p / 3)).map (fun x => Land.pair x (p % 3 == 2))).getD .rsvd
  else if r ≤ 30 then ((hubPins[12 * (r - 28) + p]?).map Land.pin).getD .rsvd
  else if p % 2 = 1 then .rail .vss
  else .rail (if r ≤ 39 then .io else .aux)

/-- Steps from the centre lines, so that the nearest on either side is 1: |n − 60.5| + 0.5. -/
def offCentre (n : Nat) : Nat := if n ≤ 60 then 61 - n else n - 60

/-- The HBM stack whose rails an inner land carries: by the side of the package and the half of it (R383). -/
def landStack (c r : Nat) : Nat :=
  let half := fun n => if n ≤ 60 then 0 else 1
  if offCentre r ≤ offCentre c then 2 * (if c ≤ 60 then 3 else 1) + half r
  else 2 * (if r ≤ 60 then 0 else 2) + half c

/-- A land of the inner region (R383). -/
def innerLand (c r : Nat) : Land :=
  let k := max (offCentre c) (offCentre r)
  .rail (if c % 2 = 1 then .vss
    else if k ≤ 28 ∨ 41 ≤ k then .core
    else if k ≤ 32 then .sram
    else if k ≤ 34 then .vpp (landStack c r)
    else if k ≤ 37 then .vddq (landStack c r)
    else .vddc (landStack c r))

/-- What the land at column c and row r carries, by the first region that contains it: a band, the hub field, the inner region,
a corner (R380). -/
def land (c r : Nat) : Option Land :=
  if !landExists c r then none
  else match bandAt c r with
    | some b => some (bandLand b)
    | none =>
      if 49 ≤ c ∧ c ≤ 72 ∧ 13 ≤ r ∧ r ≤ 48 then some (hubLand r ((c - 49 - r % 2) / 2))
      else if 13 ≤ c ∧ c ≤ 108 ∧ 13 ≤ r ∧ r ≤ 108 then some (innerLand c r)
      else some (.rail .vss)

end Sys2Proof.Machine
end

