-- ==== Sys2Proof/Tests/Slice0.lean ====
section
/-! SUPPORT. Tests: an ill-formed command for each check of WellFormed; a state that meets the hypotheses of each statement,
clause by clause; and results the spec gives by hand. Expected values come from spec/, never from the model. -/

namespace Sys2Proof.Tests

set_option Elab.async false

open Sys2Proof Sys2Proof.Machine

/-! ### Small states -/

/-- After reset. -/
abbrev r0 : State := State.reset
/-- Started, with the memories released. -/
def on : State :=
  { r0 with mem := { r0.mem with trained := true, filled := true }, pwr := { r0.pwr with released := true } }
/-- A state with some registers set. -/
def withRegs (s : State) (l : List (Nat × W32)) : State := l.foldl (fun s e => s.setReg e.1 e.2) s
/-- A 64-byte buffer that starts with the bytes given. -/
def bytes64 (l : List Nat) : List Byte := padTo 64 (l.map (BitVec.ofNat 8))
/-- Bytes placed in a memory from an address on. -/
def cells (a : Nat) (l : List Byte) : List Host.Cell := wrBytes [] a l
/-- The command answers a next state of which a test holds. -/
def after (i : Instr) (s : State) (p : State → Bool) : Bool := match exec i s with | .next t => p t | _ => false


/-- Quarter 0 as given. -/
def quarter0 (v : Quarter) : State := { on with mem := { on.mem with quarters := tset (on.quarter 99) [] 0 v } }
def idleQ : Quarter := ⟨none, 0, [], false, false, false⟩
/-- No quarter retrains or sleeps. -/
theorem all_served {s : State} (h : s.mem.quarters = []) (a m : Nat) : s.hbmServes a m = true := by
  simp [State.hbmServes, State.quarter, h, tget, sget, Quarter.serves, Quarter.init]
/-- A transaction of JTAG's waits for a target of the fabric. -/
def busy (s : State) (addr : Nat) : State := { s with xbr := { s.xbr with waiting := [⟨11, addr, true, 1, [0], 0xF⟩] } }

/-! ### Steps, resets, start-up, power, test access -/

theorem wit_StepRunsFrontCommand : ({ r0 with pending := [.porstN, .trstN] } : State).pending = .porstN :: [.trstN] ∧ r0.pending = [] := by
  decide +kernel

theorem wit_EveryStepKeepsCanonicalStores : r0.wf = true ∧ ∃ t, step r0 = .next t := ⟨by decide +kernel, _, rfl⟩

theorem wit_ResetRegisterValues : (0xC : Nat) ≠ 0 ∧ (0xC : Nat) ≠ 8 ∧ (0xC : Nat) ≠ 0x20 ∧ (0xC : Nat) ≠ 0x24 := by decide

/-- Part held in warm reset, memories trained and not filled. -/
def warm : State := { r0 with pwr := { r0.pwr with warmLow := true }, mem := { r0.mem with trained := true } }

theorem wit_ResetsRestoreTheirDomains :
    (on.aux = true ∧ on.pwr.warmLow = false ∧ (regRow 0xB00000).map (·.dom) = some .warm ∧ (regRow 0x500010).map (·.dom) ≠ some .warm) ∧
    (warm.aux = true ∧ warm.pwr.warmLow = true ∧ warm.pwr.tripped = false ∧ warm.pwr.tap.done = false ∧ warm.mem.filled = false ∧
      warm.mem.trained = true) ∧
    (on.nextCmdRing = none ∧ (∀ c < 64, on.dWrites c = false) ∧ on.pair.hold = [] ∧ on.link.rings = [] ∧ on.canBeActive 4 = false) := by
  decide +kernel

/-- Memories trained and not filled. -/
def trained : State := { r0 with mem := { r0.mem with trained := true } }
/-- The boot loader waits for the host. -/
def waiting : State := withRegs on [(0x14, 0x60000000)]
/-- A load is under way. -/
def loading : State := { waiting with pwr := { waiting.pwr with loading := some 0, bootsel := true } }

/-- A flash image: one section, the last 4 bytes of core 7's data memory, and core 7 to start at its last address. -/
def image : List Byte :=
  leBytes 4 0x32375848 ++ leBytes 4 92 ++ [0#8, 0x80#8] ++ leBytes 2 1 ++ List.replicate 18 0 ++ leBytes 2 0x3FFF ++ List.replicate 32 0
    ++ [3#8, 7#8, 0#8, 0#8] ++ leBytes 4 4 ++ leBytes 8 88 ++ leBytes 8 0xFFFC ++ [1#8, 2#8, 3#8, 4#8]
def flashed : State := { loading with pwr := { loading.pwr with flash := cells 0 image } }

theorem wit_StartupReleasesTheMemories_image :
    (flashed.hostUp = true ∧ flashed.pwr.loading.isSome = true ∧ flashed.pwr.bootsel = true ∧ flashed.fuse.verify = false ∧
      flashed.err.upsets = [] ∧ flashed.xbr.waiting = [] ∧ flashed.xbr.granted = []) ∧
    (let f := flashed.pwr.flash
     rdLe f 0 4 = 0x32375848 ∧ rdLe f 8 1 = 0 ∧ rdLe f 4 4 ≤ 16777216 ∧ rdLe f 10 2 = 1 ∧ 64 + 24 * 1 ≤ rdLe f 4 4 ∧ rdLe f 66 2 = 0 ∧
       rdLe f 64 1 = 3 ∧ rdLe f 65 1 = 7 ∧ rdLe f 68 4 = 4 ∧ rdLe f 72 8 % 4 = 0 ∧ rdLe f 80 8 % 4 = 0 ∧
       rdLe f 72 8 + rdLe f 68 4 ≤ rdLe f 4 4 ∧ rdLe f 80 8 + rdLe f 68 4 ≤ 0x10000 ∧ (rdLe f 9 1).testBit 7 = true ∧
       (flashed.core 7).run = 0) := by decide +kernel
/-- The image's section is in place and its core runs (R370, R371). -/
theorem test_boot_image : after (.bootLoadDone 1) flashed (fun t =>
    rdBytes (t.core 7).dmem 0xFFFC 4 == [1, 2, 3, 4] && (t.core 7).run == 1 && (t.core 7).pc == 0x3FFF && t.rf 0x14 29 3 == 4) = true := by
  decide +kernel

theorem wit_StartupReleasesTheMemories :
    (r0.auxUp = true ∧ r0.mem.trained = false ∧ (∀ q ∈ [0, 31], r0.hasQuarter q = true)) ∧
    (trained.auxUp = true ∧ trained.mem.trained = true ∧ trained.mem.filled = false ∧ (∀ n ∈ [0, 255], n < trained.nTiles) ∧
      (∀ n ∈ [31], n < trained.nSlices)) ∧
    (waiting.hostUp = true ∧ bit 0x80000000#32 31 = true ∧ waiting.pwr.released = true ∧ waiting.pwr.bootsel = false ∧
      waiting.rf 0x14 29 3 = 3 ∧ (withRegs on [(0x14, 0xA0000000)]).rf 0x14 29 3 = 5) ∧
    (loading.hostUp = true ∧ loading.pwr.loading.isSome = true ∧ loading.pwr.bootsel = true ∧ rdLe loading.pwr.flash 0 4 ≠ 0x32375848) := by
  decide +kernel
theorem wit_StartupReleasesTheMemories_serves :
    ((∀ a n, loading.hbmServes a n = true) ∧ loading.xbr.waiting = [] ∧ loading.xbr.granted = []) ∧
    (let s : State := { loading with pwr := { loading.pwr with bootsel := false }, mem := (quarter0 { idleQ with holder := some ⟨2, 0, 0⟩ }).mem }
     s.pwr.bootsel = false ∧ s.hbmServes (s.reg64 0x18) (min 64 (s.memEnd - s.reg64 0x18)) = false) :=
  ⟨⟨all_served rfl, rfl, rfl⟩, by decide +kernel⟩

/-- A change of power state under way. -/
def changing (dest final : Nat) : State := { on with pwr := { on.pwr with change := some ⟨dest, final, 0, false⟩ } }

/-- In Idle and in Doze; in Idle with a DMA channel RUNNING; on the way to Doze with every quarter in self-refresh. -/
def idleS : State := withRegs on [(0x100000, 0x10000000)]
def dozeS : State := withRegs on [(0x100000, 0x20000000)]
def asleep : State :=
  { changing 2 2 with mem := { on.mem with quarters := (List.range 32).map (fun q => (q, { on.quarter 99 with selfRef := true })) } }

theorem wit_PowerStatesAndIslandGates_doze :
    (idleS.hostUp = true ∧ idleS.pwr.change = none ∧ idleS.rf 0x100000 28 2 = 1 ∧ fld 0x80000000#32 30 2 = 2 ∧
      (∀ c < 64, idleS.dState c ≠ 1 ∧ idleS.dState c ≠ 2 ∧ idleS.dState c ≠ 3) ∧
      (withRegs idleS [(0x103F004, 0x20000000)]).dState 63 = 1) ∧
    (asleep.hostUp = true ∧ asleep.pwr.change = some ⟨2, 2, 0, false⟩ ∧ asleep.pwr.wake = false ∧ 0 + 1250000 ≤ asleep.time.ticks + 1250000 ∧
      (∀ q < 4 * asleep.nStacks, (asleep.quarter q).selfRef = true) ∧ asleep.cores = [] ∧ asleep.xbr.waiting = [] ∧
      (∀ c < 64, asleep.dState c ≠ 1 ∧ asleep.dState c ≠ 2 ∧ asleep.dState c ≠ 3)) ∧
    (dozeS.hostUp = true ∧ dozeS.rf 0x100000 28 2 = 2 ∧ dozeS.unmapped 0xC20000 = false ∧ runsInDoze 0xC20000 = false ∧ dozeS.pwr.change = none ∧ fld 0#32 30 2 ≠ 2) ∧
    (let s := withRegs (changing 1 1) [(0x100000, 0x20000000)]
     s.pwr.change = some ⟨1, 1, 0, false⟩ ∧ s.rf 0x100000 28 2 = 2 ∧ 0 + 125000 ≤ s.time.ticks + 125000 ∧
       s.rb (0x700000 + 0x10000 * (31 / 4)) (4 + 31 % 4) = false) := by decide +kernel

theorem wit_PowerStatesAndIslandGates :
    (on.hostUp = true ∧ on.pwr.change = none ∧ on.rf 0x100000 28 2 = 0 ∧ fld (0x40000000#32) 30 2 = 1) ∧
    ((changing 1 1).hostUp = true ∧ (changing 1 1).pwr.change = some ⟨1, 1, 0, false⟩ ∧ (changing 1 1).rf 0x100000 28 2 = 0 ∧
      (changing 1 1).idleOk = true ∧ 0 + 6250 ≤ (changing 1 1).time.ticks + 6250) ∧
    ((changing 0 0).pwr.change = some ⟨0, 0, 0, false⟩ ∧ 0 + 31250 ≤ (changing 0 0).time.ticks + 31250) ∧
    (on.auxUp = true ∧ on.pwr.gate + 625000 ≤ on.time.ticks + 625000 ∧ on.hasIsland 496 = true ∧ 0xFFFFFF < 2 ^ 24 ∧
      [(496, 0xFFFFFF)].find? (fun c => c.1 == 496) = some (496, 0xFFFFFF) ∧ on.islandOn 496 = true ∧ 496 ∉ on.pwr.stopped) ∧
    496 ∈ ({ on with pwr := { on.pwr with stopped := [496] } } : State).pwr.stopped ∧
    ((withRegs on [(0x100000, 0x10000000)]).hasIsland 0 = true ∧ (withRegs on [(0x100000, 0x10000000)]).islandOn 0 = false) := by
  decide +kernel

theorem wit_ThermalAndFaultPins :
    (on.aux = true ∧ on.pwr.thermTick + 625000 ≤ on.time.ticks + 625000 ∧ 16 * (on.rf 0x100020 0 8 : Int) ≤ 16 * 255 ∧
      16 * (on.rf 0x100020 8 8 : Int) ≤ 16 * 255) ∧
    (on.up = true ∧ 7 < on.nStacks ∧ 106 < 256 ∧ 105 < 106) ∧ on.hostUp = true ∧ 6250 ≤ 6250 := by decide +kernel

theorem wit_TapInstructions :
    on.aux = true ∧ (0xC00000000000000000000001#96).getLsbD 95 = true ∧ on.fuse.dbgOff = false ∧
    (∀ r ∈ on.xbr.waiting, r.master ≠ 11) ∧ ({ on with fuse := { on.fuse with dbgOff := true } } : State).fuse.dbgOff = true ∧
    (warm.aux = true ∧ warm.pwr.warmLow = true ∧ bit 0x80000000#32 31 = true) ∧ on.pwr.warmLow = false ∧
    ({ warm with pwr := { warm.pwr with tap := { warm.pwr.tap with busy := true } } } : State).pwr.tap.busy = true ∧
      (∀ n ∈ [255], n < warm.nTiles) ∧ 0xFF#8 ∉ [0x00#8, 0x01#8, 0x02#8, 0x20#8, 0x21#8, 0x30#8] := by decide +kernel

/-! ### The host's registers and windows -/

theorem wit_RegisterAccessTypes :
    on.hostUp = true ∧ on.dozing = false ∧ (0x1FFFFFC < 0x2000000 ∧ 0x1FFFFFC % 4 = 0 ∧ on.unmapped 0x1FFFFFC = true) ∧ (0xE : BitVec 4) ≠ 0xF ∧
    on.fabOpen 9 2 = true ∧ (busy on fabRegs).fabOpen 9 2 = false ∧ (busy on fabRegs).dozing = false ∧ on.gradeC = false ∧ 496 < 497 := by decide +kernel

theorem wit_HostWindowsReachMemory :
    (r0.hostUp = true ∧ r0.pwr.released = false ∧ 0x3FFFFFFC + 4 ≤ 2 ^ r0.link.bar4 ∧ 0x2000000 ≤ 0x3FFFFFC ∧ 0x3FFFFFC < 0x4000000) ∧
    (on.hostUp = true ∧ on.pwr.released = true ∧ on.err.upsets = [] ∧ on.err.poison = [] ∧ 0x3FFFFFFC + 4 ≤ 2 ^ on.link.bar4 ∧
      on.reg64 0x1040008 + 0x3FFFFFFC + 4 ≤ on.memEnd ∧ on.hbmServes (on.reg64 0x1040008 + 0x3FFFFFFC) 4 = true ∧ on.dozing = false ∧ 0x23FFFFC + 4 ≤ 0x2400000) ∧
    (7 < 8 ∧ 0xFFFC < 0x10000 ∧ ((on.setCore 7 { Core.init with run := 1 }).core 7).run ≠ 0) ∧ (30 ≤ 39 ∧ 39 ≤ if on.gradeC then 38 else 39) ∧
    (1 ≤ 7 ∧ 7 < 8 ∧ 16 ∈ [1, 2, 4, 8, 16]) ∧
    (on.hbmWas = none ∧ ({ on with mem := { on.mem with was := some (on.time.ticks, []) } } : State).hbmWas = some []) ∧
    (on.fabOpen 9 1 = true ∧ on.fabOpen 9 (3 + 7) = true ∧ (busy on fabSram).fabOpen 9 1 = false) := by decide +kernel

/-! ### Memory maintenance and scrubbing -/


theorem wit_RefreshAndMaintenance :
    (on.up = true ∧ 511 / 64 < on.nStacks ∧ 63 < 64 ∧ (on.quarter (511 / 16)).selfRef = false ∧
      tget 0 on.mem.refAt (64 * 511 + 63) + on.windowOf (511 / 64) * 625000 * 128 / 8192 ≤ 128 * (on.time.ticks + 2442)) ∧
    (7 < on.nStacks ∧ tget 0 on.mem.windowAt 7 + 625000 * on.windowOf 7 ≤ on.time.ticks + 20000000) ∧
    ((withRegs on [(0x70000C + 0x10000 * 7, 8)]).rf (0x70000C + 0x10000 * (511 / 64)) 0 16 ≠ 0 ∧ 5 * 8 ≤ 8 * 5 ∧
      on.mem.pdown.contains 511 = false) ∧
    (bit 0x8#32 3 = true ∧ on.rb (0x700000 + 0x10000 * 7) 3 = false) ∧ (bit 0x80#32 (4 + 3) = true ∧ (on.quarter (4 * 7 + 3)).selfRef = false) ∧
    (on.hasQuarter 0 = true ∧ ((quarter0 { idleQ with queue := [⟨3, 0, 0⟩, ⟨2, 0, 0⟩] }).quarter 0).holder = none ∧
      ((quarter0 { idleQ with queue := [⟨3, 0, 0⟩, ⟨2, 0, 0⟩] }).quarter 0).queue ≠ []) ∧
    (quarter0 { idleQ with holder := some ⟨2, 0, 0⟩ }).holds 0 2 = true ∧ (quarter0 { idleQ with holder := some ⟨1, 0, 0⟩ }).holds 0 1 = true ∧
    (((quarter0 { idleQ with selfRef := true }).quarter 0).selfRef = true ∧ (quarter0 { idleQ with selfRef := true }).wantsSref 0 = false) := by
  decide +kernel

/-- Stack 0 with a pass at its head, its quarter's token held for scrubbing. -/
def scrubbing (p : ScrubPass) : State :=
  let s := quarter0 { idleQ with holder := some ⟨3, 0, 0⟩ }
  { s with mem := { s.mem with scrubs := [(0, [p])] } }
def pass0 : ScrubPass := ⟨.host, 0, 0, 4096, 0, 0, 0, none, 0, none, 0⟩

theorem wit_ScrubPassesAndTheLog :
    (on.up = true ∧ bit 0x80000000#32 31 = true ∧ (withRegs on [(0x700030, 64)]).rb 0x700020 30 = false ∧
      scrubOk 0 ((withRegs on [(0x700030, 64)]).reg64 0x700028) ((withRegs on [(0x700030, 64)]).reg64 0x700030) = true) ∧
    ((scrubbing pass0).scrubs 0 = [pass0] ∧ (scrubbing pass0).holds (devQuarter 0) 3 = true ∧ (scrubbing pass0).err.upsets = []) ∧
    ((scrubbing { pass0 with next := 4096 }).scrubs 0 = [{ pass0 with next := 4096 }] ∧ pass0.start + pass0.len ≤ 4096) ∧ bit 1#32 0 = true := by
  decide +kernel

/-! ### Device time, references, beacons -/

/-- A capture instant of block 9 of source 5. -/
def due84 : CapDue := ⟨0x84, 0, 1, 2, 5, 6, 7, 8, 9⟩
/-- TIM_NS as given. -/
def atNs (s : State) (n : W32) : State := { s with time := { s.time with ns := n } }

theorem wit_DeviceTimeFollowsTheTick :
    r0.running = true ∧ 2 ^ 32 ≤ (atNs r0 0xFFFFFFFF).time.ns.toNat + r0.rf 0x400010 0 8 + (r0.time.frac.toNat + (r0.reg 0x40000C).toNat) / 2 ^ 32 ∧
    r0.time.ns.toNat + r0.rf 0x400010 0 8 + (r0.time.frac.toNat + (r0.reg 0x40000C).toNat) / 2 ^ 32 < 2 ^ 32 ∧
    (withRegs r0 [(0x400000, 0)]).running = false := by decide +kernel

theorem wit_IncrementCommitsTogether : r0.aux = true ∧ r0.running = true := by decide +kernel

theorem wit_ComparesAreJudgedAtArming :
    (r0.auxUp = true ∧ 7 < 8 ∧ bit 0x80000000#32 31 = true ∧ r0.running = true ∧ r0.reg (oCmp 7 + 4) = 0 ∧ r0.reg (oCmp 7) = r0.ns) ∧
    (let s := withRegs r0 [(oCmp 7, 0x7FFFFFFF)]; 1 ≤ s.cmpDist 7 ∧ s.cmpDist 7 < 2 ^ 31) ∧
    (2 ^ 31 ≤ (withRegs r0 [(oCmp 7, 0x80000000)]).cmpDist 7) ∧
    (let s := withRegs r0 [(oCmp 7, 0x80000000), (oCmp 7 + 4, 0x7FFFFFFF)]
     s.reg (oCmp 7 + 4) ≠ 0 ∧ (s.reg (oCmp 7 + 4)).toNat < 2 ^ 31 ∧ 2 ^ 31 ≤ s.cmpDist 7) ∧
    (withRegs r0 [(0x400000, 0)]).running = false ∧
    (let s := withRegs r0 [(oCmp 7, 1), (oCmp 7 + 8, 0x80000000)]; (s.advance 1).cmpDue 7 = true ∧ s.reg (oCmp 7 + 4) = 0) ∧
    (let s := atNs r0 0xFFFFFFFF
     2 ^ 64 ≤ s.time.ns.toNat * 2 ^ 32 + s.time.frac.toNat + 1 * (s.rf 0x400010 0 8 * 2 ^ 32 + (s.reg 0x40000C).toNat)) ∧
    (let s := withRegs r0 [(oCap 15, 0x80)]; s.rf (oCap 15) 0 8 = 0x80 ∧ s.rb (oCap 15) 31 = false) ∧
    (let s := withRegs r0 [(oCap 15, 0x80000080)]; s.rf (oCap 15) 0 8 = 0x80 ∧ s.rb (oCap 15) 31 = true) := by decide +kernel

theorem wit_ComparesAreJudgedAtArming_captures :
    (let s := withRegs { r0 with time := { r0.time with due := [due84] } } [(oCap 0, 0x10050084), (oCap 15, 0x84)]
     s.auxUp = true ∧ (0x84 : Nat) ≠ 0x80 ∧ (0x84 : Nat) ≠ 0x81 ∧ s.time.due.find? (fun x => x.src == 0x84) = some due84 ∧
       s.rf (oCap 0) 0 8 = 0x84 ∧ s.rb (oCap 0) 28 = true ∧ s.rf (oCap 0) 16 12 = due84.srcId ∧ s.rf (oCap 15) 0 8 = 0x84 ∧
       s.rb (oCap 15) 28 = false ∧ s.rf (oCap 7) 0 8 ≠ 0x84) ∧ r0.capNow 0x80 0 = r0.capNow 0x80 0 := by decide +kernel

/-- The time port receives; its lane is UP. -/
def portUp : State := withRegs on [(0x400800, 0x80000000), (0x984004, 0x80000000)]
/-- A frame to a group address. -/
def groupFrame : List Byte := 1 :: List.replicate 59 7
/-- A PTP event message: Sync, version 2. -/
def eventFrame : List Byte := List.replicate 12 7 ++ [0x88, 0xF7, 0x00, 0x02] ++ List.replicate 44 0
/-- A frame is being sent. -/
def portSends : State := { on with time := { on.time with sending := some ⟨groupFrame, false, 0⟩ } }

theorem wit_TimePortMovesFrames :
    (portUp.auxUp = true ∧ portUp.rb 0x400800 31 = true ∧ portUp.laneState .port = 4 ∧ groupFrame.length = 60 ∧
      (groupFrame.headD 0).getLsbD 0 = true ∧ portUp.dozing = false ∧ portUp.rb 0x40080C (portUp.rf 0x40080C 16 4) = false) ∧
    (let s := withRegs portUp [(0x40080C, 1)]; s.rb 0x40080C (s.rf 0x40080C 16 4) = true) ∧
    (bit 0x8000003C#32 31 = true ∧ on.rb 0x400810 30 = false ∧ fld 0x8000003C#32 0 11 = 60 ∧ fld 0x800007CC#32 0 11 = 1996 ∧ on.err.upsets = []) ∧
    portSends.time.sending = some ⟨groupFrame, false, 0⟩ ∧ bit 1#32 0 = true ∧
    (ptpEvent eventFrame).isSome = true ∧ eventFrame.length = 60 ∧ portSends.time.fifo.length < 32 := by decide +kernel

/-- Input n in a state, and the loop in another. -/
def refs (q loop active : Nat) : State := withRegs on [(oRefIn 0, lo32 (q * 2 ^ 29)), (0x500004, lo32 (loop * 2 ^ 29 + active * 2 ^ 26))]

theorem wit_ReferenceInputsAndLoop :
    (on.aux = true ∧ 0 < 5 ∧ (refs 3 0 7).qstate 0 ≠ 0) ∧
    ((refs 1 0 7).qstate 0 = 1 ∧ (refs 1 0 7).canBeActive 0 = true ∧
      tget 0 (refs 1 0 7).ref.gateFrom 0 + 625000000 ≤ (refs 1 0 7).time.ticks + 625000000 ∧ (256 * ((refs 1 0 7).reg 0x500014).toNat < (-2147483648 : Int).natAbs) ∧
      (0 : Int).natAbs ≤ 256 * ((refs 1 0 7).reg 0x500014).toNat ∧ (refs 1 0 7).ref.everQual.contains 0 = false ∧
      (refs 1 0 7).reg 0x500010 ≠ 0) ∧
    (let s := { refs 1 0 7 with ref := { (refs 1 0 7).ref with everQual := [0] } }; s.ref.everQual.contains 0 = true ∧ s.reg 0x500010 ≠ 0) ∧
    ((refs 2 0 7).qstate 0 = 2 ∧ tget 0 (refs 2 0 7).ref.wtrFrom 0 + min 3600 ((refs 2 0 7).reg 0x500010).toNat * 625000000
      ≤ (refs 2 0 7).time.ticks + 3600 * 625000000) ∧
    ((refs 1 2 7).bestCand = none ∧ (refs 1 2 7).ref.selNext ≤ (refs 1 2 7).time.ticks + 625000000 ∧ (refs 1 2 7).refState ≠ 0 ∧
      (refs 1 2 7).refState ≠ 4 ∧ (refs 1 4 7).bestCand = none ∧ (refs 1 4 7).refState = 4) ∧
    ((refs 3 0 7).bestCand = some 0 ∧ (refs 3 0 7).refActive = 7) ∧
    ((refs 3 3 0).bestCand = some 0 ∧ (refs 3 3 0).refActive ≠ 7 ∧ (refs 3 3 0).isCand (refs 3 3 0).refActive = true ∧
      (refs 3 3 0).refRank (refs 3 3 0).refActive ≤ (refs 3 3 0).refRank 0) ∧
    ((refs 3 1 0).refState = 1 ∧ (refs 3 1 0).qstate (refs 3 1 0).refActive = 3 ∧ isPps (refs 3 1 0).refActive = false ∧
      (refs 3 1 0).ref.old.elim false isPps = false) ∧
    (let s := withRegs (refs 3 2 0) [(0x500000, 3)]
     s.refState = 2 ∧ s.qstate s.refActive = 3 ∧ s.ref.since + tenTau (s.rf 0x500000 0 3) ≤ s.time.ticks + tenTau 3) ∧
    ((refs 1 4 7).refState = 4 ∧ (refs 1 4 7).rb 0x500000 30 = false ∧ (refs 1 4 7).ref.holdNext ≤ (refs 1 4 7).time.ticks + 625000000) := by
  decide +kernel

/-- Inputs 0 and 1 candidates of rank 0, their offsets as given, on the fourth input. -/
def two (loop : Nat) (a b : W32) : State :=
  withRegs on [(oRefIn 0, 0x60000000), (oRefIn 1, 0x60000000), (oRefIn 0 + 4, a), (oRefIn 1 + 4, b), (0x500004, lo32 (loop * 2 ^ 29 + 3 * 2 ^ 26))]
theorem wit_ReferenceInputsAndLoop_pairs :
    (let s := two 3 5 6
     s.bestCand = some 0 ∧ s.isCand 1 = true ∧ s.refRank 1 = s.refRank 0 ∧ s.isCand s.refActive = false ∧
       (s.refMeas 0 - s.refMeas 1).natAbs ≤ 256 * (s.reg 0x500018).toNat) ∧
    (let s := two 3 0x7FFFFFFF 0
     s.refState ≠ 0 ∧ 256 * (s.reg 0x500018).toNat < (s.refMeas 0 - s.refMeas 1).natAbs ∧ s.bestCand = some 1 ∧ s.ref.y = 0 ∧ s.ref.disagree = false ∧
       s.ref.selNext ≤ s.time.ticks + 625000000) ∧
    (two 0 0x7FFFFFFF 0).bestCand = some 0 ∧ (two 0 0x7FFFFFFF 0).refState = 0 := by decide +kernel

/-- A REALIGN under way, on the alignment edge SRC. -/
def realigning (src : W32) : State := { withRegs on [(0x500020, src)] with ref := { on.ref with realign := some 0 } }

theorem wit_ReferenceOutputs :
    on.aux = true ∧ on.ref.ageNext ≤ on.time.ticks + 625000000 ∧ on.ref.ppsNext ≤ on.time.ticks + 625000000 ∧ bit 0x80000000#32 31 = true ∧
    ((realigning 0x20).ref.realign = some 0 ∧ 2 ≤ (realigning 0x20).rf 0x500020 4 2 ∧ 0 < (realigning 0x20).time.ticks + 1) ∧
    ((realigning 0x10).rf 0x500020 4 2 < 2 ∧ (realigning 0x10).time.ticks + 687500000 ≤ 0 + 687500000 ∧
      0 + 687500000 ≤ (realigning 0x10).time.ticks + 687500000) := by decide +kernel

/-- Events in flight. -/
def flying (l : List (Nat × Nat)) : State := { on with bcn := { on.bcn with flight := l } }
/-- Kiln 15 integrates under AUTO and has an event pending for its FIRE input. -/
def firing15 : State :=
  { withRegs (on.setKiln 15 { Kiln.init with state := 2 }) [(0xC20F00, 2)] with bcn := { on.bcn with pend := [(79, [0])] } }

theorem wit_BeaconsReachTheirWatchers :
    (on.auxUp = true ∧ (flying [(127, 6)]).bcn.flight[0]? = some (127, 6) ∧ (∀ t < 112, (flying [(127, 6)]).subscribed t 127 = false)) ∧
    (let s := withRegs (flying [(6, 6)]) [(0x200400, 0x80060000), (0x200400 + 4 * 79, 0x80060000), (0x200400 + 4 * 95, 0x80060000),
        (0x200400 + 4 * 111, 0x80060000)]
     s.bcn.flight[0]? = some (6, 6) ∧ s.subscribed 0 6 = true ∧ s.subscribed 79 6 = true ∧ s.subscribed 95 6 = true ∧
       s.subscribed 111 6 = true ∧ (s.pend 79).length < 3 ∧ s.up = true) ∧
    (flying [(0, 7)]).bcn.flight[0]? = some (0, 7) ∧ on.hostUp = true ∧ (withRegs on [(0x200030, 0x8000)]).rb 0x200030 15 = true ∧
    (withRegs on [(0x200030, 0)]).rb 0x200030 15 = false ∧
    ((withRegs on [(0x200020, 1)]).locked (fld 0#32 16 7) = true ∧ on.locked (on.rf (0x200400 + 4 * 111) 16 7) = false ∧
      on.locked (fld 0#32 16 7) = false) ∧
    (firing15.up = true ∧ firing15.standby = false ∧ firing15.sagRoom = true ∧ (firing15.kiln 15).task = none ∧
      firing15.pend (64 + 15) = [0] ∧ firing15.auto 15 = true ∧ (firing15.kiln 15).steady = true) := by decide +kernel

/-! ### Lanes and wedging -/

/-- A lane in a state, enabled, framed, at RATE 0. -/
def laneAt (s : State) (l : LaneId) (st : Nat) : State := withRegs s [(laneBase l, 0x80000000), (laneBase l + 4, lo32 (st * 2 ^ 29))]

theorem wit_LaneControlAndStates :
    on.laneOn (.rx 95) = true ∧ bit 0x7FFFFFFF#32 31 = false ∧ (laneAt on (.rx 95) 4).laneState (.rx 95) = 4 ∧
    (let s := laneAt on (.tx 31) 0
     s.laneOn (.tx 31) = true ∧ s.lnEn (.tx 31) = true ∧ s.lnRate (.tx 31) ≠ 3 ∧ s.laneState (.tx 31) = 0 ∧
       (s.lane (.tx 31)).since + 6250 ≤ s.time.ticks + 6250) ∧
    isTxLane (.rx 95) = false ∧
    (let s := laneAt on (.rx 95) 0
     s.lnEn (.rx 95) = true ∧ s.lnRate (.rx 95) ≠ 3 ∧ s.laneState (.rx 95) = 0 ∧ (s.lane (.rx 95)).since + 6250 ≤ s.time.ticks + 6250) ∧
    (laneAt on (.rx 95) 1).laneState (.rx 95) ≠ 0 ∧
    (let s := laneAt on .port 1
     s.laneOn .port = true ∧ s.laneState .port = 1 ∧ s.lnAlign .port = false ∧ s.lnMode .port = 0 ∧ (s.lane .port).run = 0 ∧
       (List.replicate 64 0b01#2).length = 64 ∧ (∀ h ∈ List.replicate 64 0b01#2, h = 0b01#2 ∨ h = 0b10#2) ∧ (0b11#2 ≠ 0b01#2 ∧ 0b11#2 ≠ 0b10#2)) ∧
    (2 ≤ (laneAt on (.w 3) 2).laneState (.w 3) ∧ (List.replicate 16 0b00#2).length = 16) := by decide +kernel

theorem wit_SlipEyeAndPrbs :
    (on.laneOn (.rx 0) = true ∧ isTxLane (.rx 0) = false ∧ bit 1#32 0 = true ∧ (withRegs on [(0x900000, 0xC0000000)]).lnAlign (.rx 0) = true) ∧
    on.lnAlign (.rx 0) = false ∧ (bit 0x80000000#32 31 = true ∧ on.rb (laneBase (.rx 0) + 32) 30 = false) ∧
    (let s := on.setLane (.rx 0) { Lane.init with eye := some 0 }
     (s.lane (.rx 0)).eye = some 0 ∧
       0 + bitTicks (.rx 0) (s.lnRate (.rx 0)) (2 ^ (24 + s.rf (laneBase (.rx 0) + 32) 24 4)) ≤ s.time.ticks + 1000000) ∧
    (let s := withRegs on [(0x900000, 0x84000000), (0x900004, 0x20000000)]
     s.lnMode (.rx 0) ≠ 0 ∧ s.laneState (.rx 0) = 1 ∧ s.rb (laneBase (.rx 0) + 4) 27 = false ∧ (s.lane (.rx 0)).prbsRun = 0) ∧
    (withRegs on [(0x900000, 0x84000000), (0x900004, 0x28000000)]).rb (laneBase (.rx 0) + 4) 27 = true := by decide +kernel

/-- Lane 0 with block lock, wedging on, entry 0 as it stands after reset. -/
def locked0 : State := withRegs (laneAt on (.rx 0) 2) [(0xA00000, 1)]
/-- Header of a BUOY of source 5: TYPE 3, PAYLOAD_LEN 16. -/
def buoyHdr : List Byte := leBytes 2 (3 * 4096 + 5) ++ List.replicate 14 0#8 ++ leBytes 2 16 ++ List.replicate 14 0#8

theorem wit_FramesAreRecoveredFromBlocks :
    locked0.laneOn (.rx 0) = true ∧ 2 ≤ locked0.laneState (.rx 0) ∧ locked0.laneState (.rx 0) ≤ 4 ∧ locked0.lnFmt (.rx 0) = 0 ∧
    (locked0.lane (.rx 0)).frm = none ∧ locked0.reg 0xA01020 = 0x83010203#32 ∧ locked0.reg 0xA01024 = 0#32 ∧ locked0.rb 0xA00000 0 = true ∧
    buoyHdr.length = 32 ∧ (List.replicate 16 7#8).length = field buoyHdr 16 2 ∧ field buoyHdr 0 2 / 4096 ∈ [1, 2, 3] ∧
    field buoyHdr 2 1 % 8 = 0 ∧ (crc32c (buoyHdr ++ List.replicate 16 7)).toNat < 2 ^ 32 ∧
    (locked0.lane (.rx 0)).fifo.length < 8 ∧ 3 ≠ (crc32c (buoyHdr ++ List.replicate 16 7)).toNat := by decide +kernel
/-- The blocks of a frame. -/
def blocksOf (bytes : List Byte) (crc : Nat) : List Block :=
  [⟨0b10#2, [0xD2#8, 0x5A#8, 0xC3#8, 0x96#8, 0x0F#8, 0xE1#8, 0x78#8, 0x2D#8]⟩]
    ++ (List.range (bytes.length / 8)).map (fun i => ⟨0b01#2, (bytes.drop (8 * i)).take 8⟩)
    ++ [⟨0b10#2, [0xE1#8, 1#8, 2#8, 3#8] ++ leBytes 4 crc⟩]

/-- CRC-32C of "123456789" is 0xE3069283, the check value of the code R64 names. -/
theorem test_crc32c : crc32c ([0x31, 0x32, 0x33, 0x34, 0x35, 0x36, 0x37, 0x38, 0x39].map (BitVec.ofNat 8)) = 0xE3069283#32 := by decide +kernel

/-- Entry 1 with the fields of entry 0, to be validated. -/
def entry1 : State :=
  withRegs on ((List.range 8).map (fun f => (0xA01040 + 4 * f, nativeFd.getD f 0)))

theorem wit_FormatEntriesAreValidated :
    (on.up = true ∧ 0 < 8) ∧
    (1 ≤ 1 ∧ entry1.rb (0xA01020 + 0x40 * 1) 31 = false ∧ bit 0x83010203#32 31 = true) ∧
    (∀ f < 8, 1 ≤ f → f ≠ 2 → f ≠ 6 → 1 ≤ fld (entry1.reg (0xA01040 + 4 * f)) 16 6) ∧
    (withRegs on [(0xA01060, 0x83010203)]).rb (0xA01020 + 0x40 * 1) 31 = true := by decide +kernel

/-- A frame at the head of lane 0's FIFO, as its fields. -/
def frameOf (ty src chan base index len : Nat) (payload : List Byte) : Frame := ⟨ty, true, src, chan, base, index, 0xFFFF, len, payload, 0, 0, 0⟩
def fifo0 (s : State) (f : Frame) : State := s.setLane (.rx 0) { Lane.init with fifo := [f] }
/-- The payload of a HAIL: inputs 0 to 15, channels 65,000 on, 536 of them, SRATE 15 at most. -/
def hailBytes : List Byte := leBytes 2 0 ++ leBytes 2 16 ++ leBytes 2 65000 ++ leBytes 2 536 ++ [15#8] ++ List.replicate 23 0
def wdg (s : State) : State := withRegs s [(0xA00000, 1)]
def hailed : State := wdg (fifo0 on (frameOf 2 4095 0 0 0 32 hailBytes))
/-- Source n PRESENT with inputs 0 to 15 and channels 5 to 8. -/
def present (s : State) (n : Nat) : State := s.setSrc n ⟨1, false, false, 0, 0, 16, 5, 4, 0, 0⟩

theorem wit_SourcesArriveAndDepart :
    (on.rb 0xA00000 0 = false ∧ hailed.rb 0xA00000 0 = true) ∧
    (hailed.up = true ∧ hailed.err.upsets = [] ∧ 0 < hailed.nRx ∧ (hailed.lane (.rx 0)).fifo = [frameOf 2 4095 0 0 0 32 hailBytes] ∧
      field hailBytes 0 2 < 4096 ∧ field hailBytes 0 2 % 16 = 0 ∧ 16 ≤ field hailBytes 2 2 ∧ field hailBytes 2 2 ≤ 4096 ∧
      field hailBytes 2 2 % 16 = 0 ∧ field hailBytes 0 2 + field hailBytes 2 2 ≤ 4096 ∧ 1 ≤ field hailBytes 6 2 ∧
      field hailBytes 4 2 + field hailBytes 6 2 ≤ 65536 ∧ field hailBytes 8 1 < 16 ∧ (hailBytes.drop 9).all (· == 0) = true ∧
      (∀ e ∈ hailed.srcs, e.1 ≠ 4095 → e.2.state ≠ 1)) ∧
    (∃ e ∈ (hailed.setSrc 9 ⟨1, false, false, 0, 0, 1, 65000, 1, 0, 0⟩).srcs, e.1 ≠ 4095 ∧ e.2.state = 1 ∧
      e.2.inFirst = field hailBytes 0 2 ∧ 1 ≤ e.2.inCount ∧ e.2.chFirst = field hailBytes 4 2 ∧ 1 ≤ e.2.chCount) ∧
    (let s := wdg (fifo0 (present on 5) (frameOf 3 5 0 0 0 16 (List.replicate 16 0))); s.rb 0xA00000 0 = true ∧ (s.src 5).state = 1 ∧ s.epochChk = false) ∧
    (let s := withRegs (present on 5) [(0xA00008, 3)]
     (s.src 5).state = 1 ∧ s.rf 0xA00008 0 16 ≠ 0 ∧ (s.src 5).lastTick + 625000 * s.rf 0xA00008 0 16 ≤ s.time.ticks + 1875000) ∧
    bit 0x800000#32 23 = true := by decide +kernel

/-- A small placement in channel 5: kiln 0 of 2 inputs, beam block 0 of 64 inputs, engine 0 of 16 inputs. -/
def kd0 : KilnDesc := ⟨0, 2, 5, 1, 256, false, false, 1000000⟩
def bd0 : BlockDesc := ⟨0, 64, 5, 1, false, 1000000⟩
def ed0 : EngDesc := ⟨5, 1, 0, 16, false, 0, 128, 2, 4, 1000000, [], []⟩
def plan0 : Plan := ⟨1, 64, [(0, kd0)], [(0, bd0)], [(0, ed0)], 0, 0, 0, 0, List.range 64, []⟩
def lay0 : Layout := ⟨1, [0], 0, 65536, 131072, 196608⟩
def kp0 : KilnPlace := ⟨kd0, [0, 1], 128, 1, lay0, 0⟩
def bp0 : BlockPlace := ⟨bd0, List.range 64, 0⟩
def ep0 : EngPlace := ⟨ed0, 0x1000000, 0x100000⟩
def pl0 : Placement :=
  ⟨plan0, 0, [(0, ⟨some 0, 0, 1⟩), (1, ⟨none, 0, 1⟩)], [(0, kp0)], [(0, bp0)], [(0, ep0)], 10, 0, 0, 0, 0, [], 0, 0, []⟩
/-- The placement in effect; kiln 0 PLACED. -/
def placed : State := { on.setKiln 0 { Kiln.init with state := 1, a := { Bank.init with layout := lay0 }, b := { Bank.init with layout := lay0 } }
  with plc := { on.plc with cur := some pl0 } }
/-- A DATA frame of source 5, inputs 0 to 15, channel 5, index 256, all valid, of zeros. -/
def data5 : Frame := { frameOf 1 5 5 0 256 3072 (List.replicate 3072 0) with crc := 1 }
def dataIn : State := wdg (fifo0 (present placed 5) data5)
/-- A slot of channel 5: block b with input blocks 0 to 3 as given. -/
def slot5 (b : Nat) (blocks : List BlkSt) (released : Bool) : Slot := ⟨b, [0, 1, 2, 3], blocks, false, 6250, released, [], [], false⟩
def ring5 (s : State) (base : Nat) (l : List Slot) (rel : Option Nat) : State := s.setRing 5 ⟨some base, l, false, 1000000, 5, rel⟩
def blank4 : List BlkSt := [.blank 32, .blank 32, .blank 32, .blank 32]

theorem wit_DataFramesFillSlots :
    (on.rb 0xA00000 0 = false ∧ dataIn.rb 0xA00000 0 = true ∧ (∀ a m, dataIn.hbmServes a m = true)) ∧
    (let s := wdg (fifo0 placed data5); s.up = true ∧ s.err.upsets = [] ∧ 0 < s.nRx ∧ (s.lane (.rx 0)).fifo = [data5] ∧ data5.ty = 1 ∧ (s.src 5).state = 0) ∧
    ((dataIn.src data5.src).state = 1 ∧ data5.base % 16 = 0 ∧ data5.index % 128 = 0 ∧ (dataIn.src 5).inFirst ≤ data5.base ∧
      data5.base + 16 ≤ (dataIn.src 5).inFirst + (dataIn.src 5).inCount ∧ (dataIn.src 5).chFirst ≤ data5.chan ∧
      data5.chan < (dataIn.src 5).chFirst + (dataIn.src 5).chCount ∧ dataIn.plc.cur = some pl0 ∧
      data5.base / 16 ∈ plan0.inBlocks data5.chan ∧ plan0.mode data5.chan = some (false, 1000000) ∧ data5.len = 3072 ∧
      dataIn.epochBlank = false ∧ (dataIn.ring 5).base = none ∧ (dataIn.ring 5).slots = []) ∧
    (let s := ring5 dataIn 2 [slot5 2 blank4 true] (some 2)
     (s.ring 5).base = some 2 ∧ 2 ≤ data5.index / 128 ∧ s.slotAt 5 2 = some (slot5 2 blank4 true)) ∧
    (let x := slot5 2 [.stored 1 0xFFFF [], .blank 32, .blank 32, .blank 32] false
     let s := ring5 dataIn 2 [x] none
     s.slotAt 5 2 = some x ∧ x.released = false ∧ x.ins.length = x.blocks.length ∧ x.block 0 = .stored 1 0xFFFF [] ∧ (1 : W32) = data5.crc ∧ data5.index / 128 < 2 + ringK pl0.skewUs 1000000) ∧
    (let x := slot5 2 [.stored 9 0xFFFF [], .blank 32, .blank 32, .blank 32] false
     x.block 0 = .stored 9 0xFFFF [] ∧ (9 : W32) ≠ data5.crc) ∧
    (let f := { data5 with index := 896 }
     let x := slot5 2 blank4 true
     let s := ring5 (fifo0 (present placed 5) f) 2 [x] (some 2)
     (s.lane (.rx 0)).fifo = [f] ∧ f.index % 128 = 0 ∧ (s.ring 5).base = some 2 ∧ 2 + ringK pl0.skewUs 1000000 ≤ f.index / 128 ∧
     (s.ring 5).slots = [x] ∧ s.slotAt 5 (f.index / 128) = none) ∧
    (let x : Slot := { slot5 2 [.awaited 5, .blank 32, .blank 32, .blank 32] false with ranges := [[(0, 64)]] }
     let s := { ring5 dataIn 2 [x] none with mem := (quarter0 { idleQ with holder := some ⟨2, 0, 0⟩ }).mem }
     s.slotAt 5 2 = some x ∧ x.ins.length = x.blocks.length ∧ x.ins.findIdx (· == 0) = 0 ∧ s.hbmServes 0 64 = false ∧
       dataIn.hbmServes 0 64 = true) :=
  ⟨⟨by decide +kernel, by decide +kernel, all_served rfl⟩, by decide +kernel, by decide +kernel, by decide +kernel, by decide +kernel,
    by decide +kernel, by decide +kernel, by decide +kernel⟩
/-- A slot two beyond the base of a ring with none open; blocks blanked for copies that differ, and under R77. -/
theorem wit_DataFramesFillSlots_opens :
    (let s := ring5 dataIn 0 [] none
     (s.ring 5).base = some 0 ∧ (∀ y ∈ (s.ring 5).slots, y.blk < 0 + (s.ring 5).slots.length) ∧ 0 + (s.ring 5).slots.length ≤ data5.index / 128 ∧
       data5.index / 128 < 0 + ringK pl0.skewUs 1000000 ∧ s.owner data5.chan (data5.base / 16) = some data5.src ∧ s.mem.quarters = []) ∧
    ([33, 34, 36, 35].all fun r =>
      let x := slot5 2 [.blank r, .blank 32, .blank 32, .blank 32] false
      let s := ring5 dataIn 2 [x] none
      decide (s.slotAt 5 2 = some x ∧ x.ins.contains (data5.base / 16) = true ∧ x.block data5.base = .blank r ∧
        data5.index / 128 < 2 + ringK pl0.skewUs 1000000)) = true := by decide +kernel

theorem wit_SlotsAreReleasedInOrder :
    (let x := slot5 2 [.awaited 5, .blank 32, .blank 32, .blank 32] false
     let s := ring5 placed 2 [x] none
     s.up = true ∧ (s.ring 5).slots.filter (fun y => y.blk == 2) = [x] ∧ x.released = false ∧ x.deadline ≤ s.time.ticks + 6250) ∧
    (let x := slot5 2 blank4 false
     let s := ring5 placed 2 [x] none
     s.nextSlot 5 = some x ∧ x.blk = 2 ∧ (∀ k ∈ x.blocks, k.isAwaited = false) ∧ s.slotServes x = true ∧
       s.heldByPlacement 5 2 = false ∧ s.role ≤ 1 ∧ s.err.upsets = [] ∧ s.pair.kilnFrom = [] ∧ s.pair.blockFrom = []) := by decide +kernel

/-! ### Tiles, kilns, drains, placement -/

/-- A kiln value put in place of kiln 0. -/
def withKiln (s : State) (f : Kiln → Kiln) : State := s.setKiln 0 (f (s.kiln 0))
/-- Kiln 0 OPEN from index 0, with ring 0. -/
def opened : State := withKiln placed fun v => { v with state := 2, rings := [0] }
/-- A block of inputs 0 to 15, all valid: input 0 has the word 0x001, 1 + 3j, input 1 the word 0x080, 5 + j (R25 to R29, R68). -/
def someBlock : BlkSt := .stored 1 0xFFFF ((List.range 128).flatMap (fun _ => [1#8, 0#8, 8#8] ++ List.replicate 21 0))
/-- Block 0 of channel 5 released, to be read by tile 0. -/
def oneSlot (s : State) : State := ring5 s 0 [{ slot5 0 [someBlock, .blank 32, .blank 32, .blank 32] true with readers := [0] }] (some 0)
def chunk0 : Chunk := ⟨0, 0, 0, 5, 0⟩
/-- Tile 0 as given. -/
def tile0 (s : State) (cur : Option Chunk) (full : List ChunkSum) : State := s.setTile 0 ⟨cur, full, (0, 5, 0), 0⟩
def sums0 : List (Nat × E48) := [(0, ⟨5, 0, 128⟩), (1, ⟨-6, 7, 128⟩), (2, ⟨9, 0, 128⟩)]

theorem wit_TilesFormChunks :
    (let s := oneSlot opened
     s.up = true ∧ (s.tile 0).cur = none ∧ (s.tile 0).full.length ≤ 1 ∧ s.nextPair 0 = some (0, kp0, 0, 5, 0, 0) ∧
       (s.kiln 0).holds 0 = false ∧ (∀ b ∈ chunkBlocks 0 kp0.l, s.isReleased 5 b = true)) ∧
    (let s := tile0 (oneSlot opened) (some chunk0) []
     (s.tile 0).cur = some chunk0 ∧ s.plc.cur = some pl0 ∧ s.tileWork 0 = some ⟨some 0, 0, 1⟩ ∧ s.placedKiln 0 = some kp0 ∧
       (s.kiln 0).holds 0 = false) ∧
    (let s := tile0 opened none [⟨chunk0, sums0⟩]
     (s.tile 0).full = [⟨chunk0, sums0⟩] ∧ s.placedKiln 0 = some kp0 ∧ s.err.upsets = [] ∧ s.plc.ceTicks = [] ∧ (sums0.map (·.1)).Nodup ∧
       (s.kiln 0).spanAt 0 (0 / kp0.g * kp0.g) = none) ∧
    (let b : SpanAcc := ⟨0, 1, ⟨3, 4, 128⟩, (false, false, false), false⟩
     let s := tile0 (withKiln opened fun v => { v with acc := [(0, [b])] }) none [⟨chunk0, sums0⟩]
     (s.kiln 0).spanAt 0 (0 / kp0.g * kp0.g) = some b ∧ b.stuck = (false, false, false) ∧ b.sum.re.natAbs + 5 < 2 ^ 47) :=
  ⟨by decide +kernel, by decide +kernel, by decide +kernel, by decide +kernel⟩

/-- The sums of a chunk (R31, R90): of inputs 1 and 2j late 128 samples the autocorrelations are 128 and 512, the cross 128 · 1 ·
conj(2j) = −256j. -/
theorem test_chunk_sums : (oneSlot opened).chunkSums kp0 chunk0 = [(0, ⟨1280, 0, 128⟩), (1, ⟨1024, 1792, 128⟩), (2, ⟨3328, 0, 128⟩)] := by
  decide +kernel

def acc (a b c : E48) : List (Nat × List SpanAcc) :=
  [a, b, c].zipIdx.map (fun e => (e.2, [⟨0, 1, e.1, (false, false, false), false⟩]))
/-- Line 0 has every contribution. -/
def ready : State := withKiln opened fun v => { v with acc := acc ⟨5, 0, 128⟩ ⟨-6, 7, 128⟩ ⟨9, 0, 128⟩ }
/-- The same kiln in K16. -/
def kd16 : KilnDesc := { kd0 with k16 := true }
def kp16 : KilnPlace := { kp0 with desc := kd16 }
def ready16 : State := { ready with plc := { ready.plc with cur := some { pl0 with plan := { plan0 with kilns := [(0, kd16)] }, kilns := [(0, kp16)] } } }

theorem wit_KilnUpdatesAreExact :
    (ready.up = true ∧ ready.placedKiln 0 = some kp0 ∧ (ready.kiln 0).live = true ∧ 0 < kp0.desc.lines ∧ ready.err.upsets = [] ∧
      (ready.kiln 0).lineReady kp0 0 ((ready.kiln 0).lineNext' 0) = true ∧ ready.updBank 0 kp0 0 = some (ready.kiln 0).bank ∧
      ready.lineServes ((ready.kiln 0).bankOf 0) kd0 0 0 = true ∧
      ((ready.kiln 0).bankOf 0).poison.contains 0 = false ∧
      (∀ a ∈ (ready.kiln 0).lineSums kd0 0 0, a.bad = false ∧ a.stuck = (false, false, false)) ∧ kd0.k16 = false ∧
      ((ready.kiln 0).bankOf 0).stuck = []) ∧
    (ready16.placedKiln 0 = some kp16 ∧ (ready16.kiln 0).lineReady kp16 0 0 = true ∧ ready16.updBank 0 kp16 0 = some (ready16.kiln 0).bank ∧
      ready16.lineServes ((ready16.kiln 0).bankOf 0) kd16 0 0 = true ∧
      kd16.k16 = true ∧ 0 < kd16.lines ∧ ((ready16.kiln 0).bankOf 0).touched = [] ∧
      (let x := (ready16.kiln 0).bankOf 0; x.expLine 0 0 + 64 ≤ x.lineAddr 0 0 ∨ x.lineAddr 0 0 + 64 ≤ x.expLine 0 0)) := by decide +kernel

/-- Kiln 0 with all of one integration in its lines, to close at 256. -/
def closing : State := withKiln opened fun v => { v with pend := [(256, none)], lineNext := [(0, 256)] }
/-- Kiln 0 whose other bank drains, with an update past 256 ready. -/
def late : State := withKiln closing fun v => { v with
  drain := some ⟨1, 0, 255, 0, 0, [], 1, [], [], [], [], [], [], [], 0, 0, none⟩
  acc := [(0, [⟨256, 1, E48.zero, (false, false, false), false⟩]), (1, [⟨256, 1, E48.zero, (false, false, false), false⟩]),
    (2, [⟨256, 1, E48.zero, (false, false, false), false⟩])] }

theorem wit_BanksCloseAtBoundaries :
    (closing.up = true ∧ closing.role ≤ 1 ∧ closing.placedKiln 0 = some kp0 ∧ closing.boundary 0 = some 256 ∧ closing.pair.closes = [] ∧
      closing.pair.skips = [] ∧ (closing.kiln 0).live = true ∧ (closing.kiln 0).drain = none ∧ (closing.kiln 0).linesTo kp0.desc 256 = true ∧ kp0.desc.k16 = false ∧
      closing.rb 0x200030 ((32 + 2 * 0) / 8) = true) ∧
    (late.up = true ∧ late.boundary 0 = some 256 ∧ (late.kiln 0).live = true ∧ (late.kiln 0).drain.isSome = true ∧
      (late.kiln 0).overAt ≠ some 256 ∧ (late.kiln 0).endAt.elim false (fun e => e.1 == 256) = false ∧ late.updateReadyAt 0 256 kp0 = true ∧
      late.rb 0xC20000 0 = false ∧ (withRegs late [(0xC20000, 1)]).rb 0xC20000 0 = true) ∧
    (0 < kp0.desc.groups ∧ closing.pair.reported.groups = []) ∧
    (let s := withKiln opened fun v => { v with pend := [(256, none)] }
     s.placedKiln 0 = some kp0 ∧ s.boundary 0 = some 256 ∧ (s.kiln 0).linesTo kp0.desc 256 = false) := by decide +kernel

/-- Ring 0 enabled, FORMAT 0, 2^16 positions from 1 MiB. -/
def withRing (s : State) (r : Nat) (cfg : W32) : State := withRegs s [(0x1100000 + 0x20 * r, 0x100000), (0x1100008 + 0x20 * r, cfg)]
/-- Kiln 0 with its bank draining. -/
def draining (d : Drain) : State := withKiln (withRing opened 0 0x80800000) fun v => { v with drain := some d, state := 3 }
def drain0 : Drain := ⟨1, 7, 255, 0, 0, [], 1, [], [], [], [], [], [], [], 0, 0, none⟩

theorem wit_DrainsEmitRecords :
    (let s := draining drain0
     s.up = true ∧ s.role ≤ 1 ∧ s.foghorn = false ∧ s.pair.hold = [] ∧ s.pair.lost = [] ∧ s.err.upsets = [] ∧ (s.kiln 0).rings = [0] ∧
       (s.kiln 0).drain = some drain0 ∧ s.kilnPlace 0 = some kp0 ∧ drain0.hdrTodo = [] ∧ s.rEn 0 = true ∧ (s.rng 0).lost = [] ∧ 0 < drain0.groups ∧
       s.groupServes 0 0 kp0 drain0 = true ∧
       drain0.done.contains 0 = false ∧ drain0.compTodo = none ∧ 65 + 2 ≤ s.rFree 0 ∧ (s.rng 0).head % s.rSize 0 + 65 ≤ s.rSize 0) ∧
    (let s := draining { drain0 with done := [0], written := [(0, 1)], compTodo := some [0] }
     (s.kiln 0).drain = some { drain0 with done := [0], written := [(0, 1)], compTodo := some [0] } ∧ 2 ≤ s.rFree 0 ∧
       (s.rng 0).head % s.rSize 0 + 2 ≤ s.rSize 0 ∧ (s.kiln 0).state = 3) := by decide +kernel

theorem wit_KilnControlsAndSeeds :
    on.up = true ∧ 15 < 16 ∧ on.standby = false ∧ (on.kiln 15).state ≤ 1 ∧ 2 ≤ (opened.kiln 0).state := by decide +kernel

/-- A placement pending, effective at 256. -/
def pending : State :=
  { withKiln placed fun v => { v with state := 0 } with plc := { placed.plc with cur := none, pend := some { pl0 with effect := 256, blocks := [] } } }
/-- Tile 0 is excluded and its work moves to tile 7. -/
def moving : State := { placed with plc := { placed.plc with moves := [⟨.tile 0, 0, 7, none⟩] } }
/-- Tile 1, the beams', is excluded; slice 0 is, with a re-placement of block 0 into slice 3. -/
def movingB : State := { placed with plc := { placed.plc with moves := [⟨.tile 1, 0, 7, none⟩] } }
def pl3 : Placement := { pl0 with blocks := [(0, { bp0 with slice := 3 })] }
def movingS : State := { placed with plc := { placed.plc with moves := [⟨.slice 0, 0, 0, some pl3⟩] } }

theorem wit_PlacementsTakeEffect :
    (pending.up = true ∧ pending.plc.pend = some { pl0 with effect := 256, blocks := [] } ∧ pending.plc.cur = none ∧ pending.beam.windows = [] ∧
      (pl0.tiles.map (·.1)).Nodup ∧
      (∀ m < 24, blockKept pending.plc.cur { pl0 with effect := 256, blocks := [] } m = true ∨ pending.groupIdle m = true) ∧
      pl0.kilns.any (fun e => e.1 == 0) = true ∧ (pending.kiln 0).state ≤ 1) ∧
    (moving.plc.moves.find? (sameUnit (.tile 0)) = some ⟨.tile 0, 0, 7, none⟩ ∧ moving.plc.cur = some pl0 ∧
      moving.tileWork 0 = some ⟨some 0, 0, 1⟩ ∧ moving.tileAtBoundary 0 0 = true ∧ (∀ e ∈ pl0.tiles, e.1 ≠ 7)) ∧
    (let s := { pending with plc := { pending.plc with cur := some pl0 } }
     (∀ e ∈ pl0.tiles, s.tileAt e.1 256 = true) ∧ (∀ m < 24, blockKept s.plc.cur { pl0 with effect := 256, blocks := [] } m = true ∨ s.groupIdle m = true)) ∧
    (movingB.plc.moves.find? (sameUnit (.tile 1)) = some ⟨.tile 1, 0, 7, none⟩ ∧ movingB.tileWork 1 = some ⟨none, 0, 1⟩ ∧
      movingB.tileAt256 1 = true ∧ 0 + 625000 ≤ movingB.time.ticks + 625000) ∧
    (movingS.plc.moves.find? (sameUnit (.slice 0)) = some ⟨.slice 0, 0, 0, some pl3⟩ ∧ movingS.plc.cur = some pl0 ∧
      movingS.beamsAt256 pl3 = true ∧ movingS.placedBlock 0 = some bp0 ∧
      pl3.blocks.find? (fun e => e.1 == 0) = some (0, { bp0 with slice := 3 }) ∧ movingS.tabsServe pl3 [0] = true) ∧
    pending.tabsServe { pl0 with effect := 256, blocks := [] } [] = true := by decide +kernel

/-! ### Beams and detection -/

/-- Block 0 steered from index 0 with its first delay table of zeros; channel 5's block 0 released for tile 1. -/
def era0 : Era := ⟨0, 0x40000, 0, List.replicate 64 0⟩
def bst0 : BlockSt := { BlockSt.init with steered := true, eras := [era0], tabs := [⟨0, List.replicate 4096 0, [], []⟩] }
def beams : State :=
  ring5 (placed.setBlock 0 bst0) 0 [{ slot5 0 [someBlock, .blank 32, .blank 32, .blank 32] true with readers := [1] }] (some 0)
/-- The same with tile 1 alone, at channel 5. -/
def visiting : State := beams.setTile 1 ⟨none, [], (0, 0, 0), 0⟩
def window0 : Window := ⟨0, 5, 0, [0], List.replicate 8192 (300, -300), List.replicate 64 false, List.replicate 64 true⟩
def closingW : State := { beams.setGrp 0 { DetGrp.init with active := true } with beam := { (beams.setGrp 0 { DetGrp.init with active := true }).beam with windows := [window0] } }

theorem wit_BeamVisitsFillWindows :
    (visiting.up = true ∧ visiting.nextVisit 1 = some (0, 5, 0, 0, 0) ∧ visiting.plc.cur = some pl0 ∧ visiting.tileWork 1 = some ⟨none, 0, 1⟩ ∧
      visiting.placedBlock 0 = some bp0 ∧ visiting.visitReady 0 5 0 bp0 = true ∧ visiting.switchFirst 0 = false ∧ visiting.delayServes 0 0 0 64 0 = true ∧
      visiting.err.upsets = [] ∧ bp0.desc.c3 = false ∧ (Window.open_ 0 5 0).sums.length = 8192 ∧ (visiting.slotAt 5 0).isSome = true) ∧
    (closingW.up = true ∧ closingW.placedBlock 0 = some bp0 ∧ (closingW.block 0).eraAt (128 * window0.blk) = some era0 ∧
      (closingW.grp 0).active = true ∧ closingW.beam.txgPend = [] ∧ (∀ j < 64, closingW.txgBeams j = none)) ∧
    closingW.framesServe 0 = true ∧ closingW.closable 0 (bp0.desc.n / 64) false = some window0 ∧ window0.sums.length = 8192 :=
  ⟨by decide +kernel, by decide +kernel, by decide +kernel, by rfl, List.length_replicate⟩

/-- Block 0 is to evaluate epoch 0; a STEER pending for it in the second. -/
def plD : Placement := { pl0 with delayOff := 0x300000, delaySize := 0x10000, usable := [0] }
def placedD : State := { placed with plc := { placed.plc with cur := some plD } }
def toEval : State := placedD.setBlock 0 { BlockSt.init with steered := true, eras := [era0], nextEval := some 0 }
def toSteer : State := placedD.setBlock 0 { BlockSt.init with nextEval := some 0, pend := some ⟨0, 0x80000, 5, some (List.replicate 64 1), some 9⟩ }

theorem wit_EpochsAreEvaluatedFromTheTable :
    (toEval.up = true ∧ (toEval.block 0).nextEval = some 0 ∧ toEval.placedBlock 0 = some bp0 ∧ toEval.err.upsets = [] ∧
      (toEval.block 0).pend = none ∧ (toEval.block 0).eraAt (0 * toEval.epochLen 0) = some era0 ∧ (toEval.block 0).tab 0 = none ∧
      toEval.plc.cur = some plD ∧ toEval.hbmServes era0.table (2048 * 64) = true ∧
      (∀ r ∈ plD.delayRanges 0 0 0 (512 * 64), toEval.hbmServes r.1 r.2 = true) ∧
      (plD.delayRanges 0 0 0 (512 * 64)).Pairwise (fun a b => a.1 + a.2 ≤ b.1 ∨ b.1 + b.2 ≤ a.1) ∧
      ((plD.delayRanges 0 0 0 (512 * 64)).map (·.2)).sum = 512 * 64) ∧
    ((toSteer.block 0).nextEval = some 0 ∧ (toSteer.block 0).pend = some ⟨0, 0x80000, 5, some (List.replicate 64 1), some 9⟩ ∧
      0 ≤ 0 * toSteer.epochLen 0 ∧ toSteer.hbmServes 0x80000 (2048 * 64) = true) := ⟨by decide +kernel, by decide +kernel⟩

/-- A placement that keeps block 0 cannot take effect while its delay tables cannot be written. -/
def stuckTabs (q : Quarter) : State :=
  let s := ((withKiln placedD fun v => { v with state := 0 }).setBlock 0 bst0).setTile 1 ⟨none, [], (256, 5, 0), 0⟩
  { s with plc := { s.plc with pend := some { plD with effect := 256 } }
           mem := { s.mem with quarters := (List.range 32).map (fun n => (n, q)) } }
theorem wit_PlacementsTakeEffect_tables :
    (let s := stuckTabs { idleQ with holder := some ⟨2, 0, 0⟩ }
     s.plc.cur = some plD ∧ blockKept s.plc.cur { plD with effect := 256 } 0 = true ∧ (∀ e ∈ plD.tiles, s.tileAt e.1 256 = true) ∧
       s.beam.windows = [] ∧ s.tabsServe { plD with effect := 256 } [0] = false) ∧
    (stuckTabs idleQ).tabsServe { plD with effect := 256 } [0] = true := by decide +kernel

/-- A gain switch pending at 0. -/
def switching : State := { visiting with beam := { visiting.beam with switch_ := some (0, none) } }
/-- No placement. -/
theorem wit_GainsAndSettingsAreTaken :
    (switching.up = true ∧ switching.beam.switch_ = some (0, none) ∧ switching.plc.cur = some pl0 ∧ (1, (⟨none, 0, 1⟩ : TileWork)) ∈ pl0.tiles ∧
      switching.nextVisit 1 = some (0, 5, 0, 0, 0) ∧ switching.placedBlock 0 = some bp0 ∧ switching.visitReady 0 5 0 bp0 = true) ∧
    (on.beam.switch_ = none ∧ 1 = b2n (!on.beam.active) ∧ 0 = b2n on.beam.active) ∧
    (on.plc.cur = none ∧ placed.plc.cur = some pl0 ∧ pl0.blocks ≠ []) ∧ (placed.placedBlock 23 = none ∧ (placed.placedBlock 0).isSome = true ∧
      placed.placedBlock (1535 / 64) = none) :=
  ⟨by decide +kernel, by decide +kernel, by decide +kernel, by decide +kernel⟩

/-- TX lane 31 is UP with a frame queued. -/
def txReady : State :=
  let s := laneAt on (.tx 31) 4
  { s with beam := { s.beam with txq := [(31, [[1#8]])] } }
/-- A frame of entry 0 held, its lane TX 31. -/
def heldTx : HoldEntry := ⟨.txg 0, (0, 5), 4128, (List.range 65)⟩
def txHeld : State := { withRegs txReady [(0xD08000, 0x9F000000)] with pair := { txReady.pair with hold := [heldTx] } }

/-- Block 0's window is to close, for entry 63 of beams 0 to 15 on lane TX 31: not UP, UP, and UP with 16 frames queued. -/
def forTx : State := withRegs closingW [(0xD080FC, 0x9F000000)]
def upTx : State := laneAt forTx (.tx 31) 4
def fullTx : State := { upTx with beam := { upTx.beam with txq := [(31, List.replicate 16 [1#8])] } }
theorem wit_TxEntriesAndBeamFrames_queued :
    ([forTx, upTx, fullTx].all fun s => s.up && s.emits && s.pair.hold.isEmpty && s.beam.txgPend.isEmpty && s.txgBeams 63 == some (0, 16) &&
      s.placedBlock 0 == some bp0 && (s.block 0).eraAt (128 * window0.blk) == some era0 && decide (s.rf 0xD080FC 24 5 = 31) &&
      (List.range 63).all (fun i => (s.txgBeams i).isNone)) = true ∧
    forTx.laneState (.tx 31) ≠ 4 ∧ upTx.laneState (.tx 31) = 4 ∧ (tget [] upTx.beam.txq 31).length < 16 ∧ 16 ≤ (tget [] fullTx.beam.txq 31).length ∧
    window0.chan < 2 ^ 16 ∧ 128 * window0.blk < 2 ^ 48 ∧ (0 : Nat) / 64 = 0 := by decide +kernel
theorem wit_TxEntriesAndBeamFrames_closable : forTx.closable 0 (bp0.desc.n / 64) bp0.desc.c3 = some window0 ∧
    fullTx.closable 0 (bp0.desc.n / 64) bp0.desc.c3 = some window0 := ⟨rfl, rfl⟩

theorem wit_TxEntriesAndBeamFrames :
    (on.up = true ∧ on.gradeC = false ∧ (∀ m < 24, on.placedBlock m = none) ∧ bit 0x800005F0#32 31 = true ∧ fld 0x800005F0#32 0 11 % 16 = 0 ∧
      fld 0x800005F0#32 0 11 + 16 ≤ 1536 ∧ (∀ i < 64, on.txgBeams i = none) ∧ 1536 < fld 0x80000600#32 0 11 + 16) ∧
    (placed.txgBlock 63 0x80000000).isSome = true ∧
    (txReady.emits = true ∧ txReady.laneState (.tx 31) = 4 ∧ txReady.lnMode (.tx 31) = 0 ∧ txReady.heldFrame 31 = none ∧ tget [] txReady.beam.txq 31 = [[1#8]] ∧ 31 < txReady.nTx) ∧
    (withRegs txReady [(laneBase (.tx 31), 0x84000000)]).lnMode (.tx 31) ≠ 0 ∧
    (txHeld.heldFrame 31 = some heldTx ∧ txHeld.holdServes heldTx.blocks = true ∧ txHeld.err.upsets = [] ∧ txHeld.lnMode (.tx 31) = 0 ∧
      txHeld.laneState (.tx 31) = 4) :=
  ⟨by decide +kernel, by decide +kernel, by decide +kernel, by decide +kernel, by decide +kernel⟩

/-- Group 0 to restart at index 0, on ring 1 of FORMAT 1. -/
def detRing : State := withRing placed 1 0xC1600000
def restartAs (s : State) (ctl : W32) : State := (withRegs s [(0xD80000, ctl), (0xD80004, 1)]).setGrp 0 { DetGrp.init with
  restarts := [0], chans := [(5, { DetChan.init with wins := [⟨0, [], []⟩] })] }
/-- BOX of 64 samples, D = 64. -/
def restarting : State := restartAs detRing 0x80000040
/-- Group 0 active, coherent settings: one beam window of channel 5 present. -/
def detecting : State := detRing.setGrp 0 { DetGrp.init with
  active := true, resp := 0, len := 4, dec := 4, ring := 1, chans := [(5, { DetChan.init with wins := [⟨0, List.replicate 8192 (3, 4), List.replicate 64 false⟩] })] }

theorem wit_DetectionGroupsRestartAndOutput :
    (restarting.up = true ∧ (restarting.grp 0).restarts = [0] ∧ restarting.olderDone 0 0 = true ∧ restarting.reached 0 0 = true ∧
      restarting.err.upsets = [] ∧ bit (restarting.reg 0xD80000) 31 = true ∧ DetAsked (restarting.reg 0xD80000) = (0, 64, 1) ∧
      restarting.rf 0xD80004 0 15 = 1 ∧ 1 < restarting.nRings ∧ restarting.rDrop 1 = true ∧ restarting.rFmt 1 = 1 ∧
      (restarting.placedBlock 0).isSome = true) ∧
    ((restartAs placed 0x80000040).rFmt 1 ≠ 1 ∧ DetAsked 0x80010001#32 = (0, 65537, 1) ∧ DetAsked 0x80000000#32 = (0, 0, 1) ∧
      DetAsked 0x80400007#32 = (0, 7, 2) ∧ DetAsked 0x88000007#32 = (1, 7, 1) ∧ DetAsked 0xB8000007#32 = (7, 7, 1) ∧
      DetAsked 0x81000000#32 = (0, 8, 4) ∧ (restartAs detRing 0x00000040).rb 0xD80000 31 = false ∧
      ({ restarting with plc := on.plc } : State).placedBlock 0 = none) ∧
    ((detecting.grp 0).active = true ∧ (detecting.grp 0).restarts = [] ∧ 5 ∈ detecting.grpChans 0 ∧
      ((detecting.grp 0).next (tget DetChan.init (detecting.grp 0).chans 5)).2.2 / 128 ≤ 0 ∧ detecting.grpChans 0 = [5] ∧ detecting.emits = true ∧
      detecting.pair.hold = [] ∧ detecting.err.upsets = [] ∧ detecting.rEn 1 = true ∧ detecting.rDrop 1 = true ∧ (detecting.rng 1).lost = [] ∧ 9 ≤ detecting.rFree 1 ∧
      (detecting.rng 1).head % detecting.rSize 1 + 9 ≤ detecting.rSize 1) ∧
    (withRegs detecting [(0x1100028, 0x41600000)]).rEn 1 = false := ⟨by decide +kernel, by decide +kernel, by decide +kernel, by decide +kernel⟩
/-- Causes 1 to 5 of R147, the lowest of several (log 89). -/
theorem test_det_causes :
    ([(detRing, 0x80000040#32, 0), (placed, 0x80000040#32, 1), (detRing, 0x80010001#32, 2), (detRing, 0x80400007#32, 3), (detRing, 0x88000007#32, 4),
      ({ detRing with plc := on.plc }, 0x80000040#32, 5)].all fun (s, c, n) => after (.detGroupRestart 0) (restartAs s c) fun t =>
        t.rf 0xD80200 0 4 == n && t.rb 0xD80200 31 == decide (n = 0)) = true := by decide +kernel

/-! ### Lantern -/

/-- Slot 15 of engine 3 armed, unit 0 of the kind given with H = 10, Lo = −10, w 1 to 5, k = 1; entry of state 0: C0 to 2 with
TRIG, C1 to 3 with TRIG. -/
def unit0 (kind : Nat) (v : LtnUnit) : State :=
  (withRegs placed [(0xE31F18, lo32 (kind * 2 ^ 29 + 2 ^ 16)), (0xE31F30, 10), (0xE31F40, 0xFFFFFFF6), (0xE31F44, 0xFFFFFFFF),
    (0xE31F20, 0x00050001), (0xE31F60, lo32 (2 ^ 31 + 2 * 2 ^ 28 + 2 ^ 27 + 3 * 2 ^ 24))]).setSlot 63 { LtnSlot.init with armed := true, u0 := v }
def sample (x : Int) (loss : Bool) : LtnSample := ⟨false, 0, 4, loss, x, none⟩
/-- A sample that ends a PULSE of width 5, one that ends a RUNT, one that meets SLEW, and one with a loss. -/
def pulse : State := unit0 1 { LtnUnit.init with queue := [sample 10 false], run := some (5, true) }
def runt : State := unit0 2 { LtnUnit.init with queue := [sample (-10) false], run := some (5, false) }
def slew : State := unit0 4 { LtnUnit.init with queue := [sample 11 false], hist := [0] }
def lossy : State := unit0 1 { LtnUnit.init with queue := [sample 10 true], run := some (5, true) }
def waitT : State := (withRegs (unit0 3 LtnUnit.init) [(0xE31F30, 7)])

theorem wit_ConditionsDriveTheSlotTable :
    (pulse.up = true ∧ 3 < pulse.nEng ∧ (pulse.slot 63).armed = true ∧ (pulse.slot 63).u0.queue = [sample 10 false] ∧
      (sample 10 false).restart = false ∧ pulse.unitKind 3 15 0 = 1 ∧ pulse.unitKind 3 15 1 = 0 ∧ (10 : Int) ≤ (pulse.unitPar 3 15 0).hi ∧
      (pulse.slot 63).u0.run = some (5, true) ∧ (pulse.unitPar 3 15 0).wmin ≤ 5 ∧ 5 ≤ (pulse.unitPar 3 15 0).wmax) ∧
    (runt.unitKind 3 15 0 = 2 ∧ (-10 : Int) ≤ (runt.unitPar 3 15 0).lo ∧ (runt.slot 63).u0.run = some (5, false)) ∧
    (slew.unitKind 3 15 0 = 4 ∧ (slew.unitPar 3 15 0).k = 1 ∧ (slew.slot 63).u0.hist[0]? = some 0 ∧ (slew.unitPar 3 15 0).hi < 11 - 0) ∧
    (sample 10 true).loss = true ∧ pulse.role ≤ 1 ∧ (pulse.slot 63).evAt ≠ some (pulse.time.ticks, true) ∧
    (let s := pulse.setSlot 63 { pulse.slot 63 with evAt := some (pulse.time.ticks, true) }; (s.slot 63).evAt = some (s.time.ticks, true)) ∧
    (∀ b : Bool, (waitT.slot 63).evAt ≠ some (waitT.time.ticks + 5, b)) ∧
    (let s := withRegs (pulse.setSlot 63 { pulse.slot 63 with u0 := LtnUnit.init }) [(0xE31F1C, 0x60000000), (0xE31F38, 7)]
     s.unitKind 3 15 1 = 3 ∧ ((s.slot 63).unit 1).met = false ∧ s.timedOut 3 15 0 5 = false ∧ s.stepC0 3 15 = false ∧
       s.unitTimeout 3 15 1 * 5 < 8 * (s.time.ticks + 5 - ((s.slot 63).unit 1).since)) ∧
    (waitT.unitKind 3 15 0 = 3 ∧ ((waitT.slot 63).unit 0).met = false ∧ ((waitT.slot 63).unit 0).queue = [] ∧
      waitT.unitTimeout 3 15 0 * 5 < 8 * (waitT.time.ticks + 5 - ((waitT.slot 63).unit 0).since)) := by decide +kernel

/-- Engine 0 filling buffer 1 from block 0, with block 0 of channel 5 released for it. -/
def eng0 (v : LtnEng) : State :=
  (ring5 placed 0 [{ slot5 0 [.blank 32, .blank 32, .blank 32, .blank 32] true with readers := [1000] }] (some 0)).setLtn 0 v
def filling : State := eng0 { LtnEng.init with state := 1, cur := 1, next := some 0 }
def cap0 : LtnCap := ⟨5, 0, 0, true, none, 0, 0, true, 3, 0, 0, 0, 1, true, false, 0, false⟩
/-- In POST, the next block completing the window of a request at index 5 with N_K = 1. -/
def post : State :=
  let e : EngDesc := { ed0 with nk := 1, prefrac := 0 }
  { eng0 { LtnEng.init with state := 3, cur := 1, next := some 0, cap := some cap0 } with
    plc := { placed.plc with cur := some { pl0 with engines := [(0, ⟨e, 0x1000000, 0x100000⟩)] } } }

theorem wit_EnginesFillAndFreezeBuffers :
    (filling.up = true ∧ filling.role ≤ 1 ∧ filling.placedEng 0 = some ep0 ∧ (filling.ltn 0).next = some 0 ∧
      (filling.engSlots ed0 0).map (·.map (·.1)) = some [5] ∧
      (filling.engSlots ed0 0).elim true (·.any (fun q => filling.beamsDue ed0 q.1 q.2)) = false ∧
      filling.capServes 0 0 ep0 = true ∧ (filling.ltn 0).items = [] ∧ 1 ≤ ed0.nk ∧ (filling.ltn 0).state = 1) ∧
    (post.up = true ∧ (post.placedEng 0).map (·.desc.nk) = some 1 ∧ (post.placedEng 0).elim false (post.capServes 0 0) = true ∧
      (post.placedEng 0).elim false (post.freezeServes 0) = true ∧ (post.ltn 0).items = [] ∧ (post.ltn 0).next = some 0 ∧ (post.ltn 0).state = 3 ∧
      (post.ltn 0).cap = some cap0 ∧ 5 / 128 - 0 + 1 ≤ 0 + 1) := by decide +kernel

/-- Engine 0 with a capture to record on ring 2 of FORMAT 2. -/
def toRecord : State :=
  (withRegs (withRing placed 2 0xC2600000) [(0xE00000, 2)]).setLtn 0 { LtnEng.init with toWrite := [cap0], frozen := [1, 15], state := 1 }

theorem wit_CapturesAreRecordedAndReleased :
    toRecord.up = true ∧ 0 < toRecord.nEng ∧ toRecord.role ≤ 1 ∧ toRecord.placedEng 0 = some ep0 ∧ (toRecord.ltn 0).toWrite = [cap0] ∧
    cap0.known = true ∧ cap0.missed = false ∧ (toRecord.rng 2).lost = [] ∧ toRecord.foghorn = false ∧ toRecord.pair.hold = [] ∧ toRecord.err.upsets = [] ∧
    toRecord.rf 0xE00000 0 15 = 2 ∧ toRecord.rEn 2 = true ∧ 2 ≤ toRecord.rFree 2 ∧
    (toRecord.rng 2).head % toRecord.rSize 2 + 2 ≤ toRecord.rSize 2 ∧ toRecord.rb 0x200030 ((65 + 4 * 0) / 8) = true ∧
    (toRecord.ltn 0).state ≠ 4 ∧ toRecord.standby = false := by decide +kernel

/-! ### Keeper cores -/

/-- Core 7 runs at address 0 with the word given, changed by f. -/
def core7 (w : W32) (f : Core → Core) : State := on.setCore 7 (f { Core.init with run := 1, imem := cells 0 (leBytes 4 w.toNat) })
/-- What `KReady` asks, as a test. -/
def isReady (s : State) (k : Nat) (w : W32) : Bool :=
  s.kUp && decide (k < 8) && (s.core k).run == 1 && (s.core k).load.isNone && (s.core k).cfault.isNone && !(s.core k).stop &&
    !((s.core k).interruptible && (s.core k).irqReady) && (s.core k).word == w && wordOk w && placeOk (s.core k) w && s.err.upsets.isEmpty

theorem ready_of_test {s : State} {k : Nat} {w : W32} (h : isReady s k w = true) : KReady s k w := by
  simp only [isReady, Bool.and_eq_true, decide_eq_true_eq, beq_iff_eq, Option.isNone_iff_eq_none, Bool.not_eq_true', List.isEmpty_iff] at h
  obtain ⟨⟨⟨⟨⟨⟨⟨⟨⟨⟨h1, h2⟩, h3⟩, h4⟩, h5⟩, h6⟩, h7⟩, h8⟩, h9⟩, h10⟩, h11⟩ := h
  exact ⟨h1, h2, h3, h4, h5, h6, h7, h8, h9, h10, h11⟩

theorem all_ready {l : List W32} (h : (l.all fun w => isReady (core7 w id) 7 w) = true) : ∀ w ∈ l, KReady (core7 w id) 7 w :=
  fun w hw => ready_of_test (List.all_eq_true.mp h w hw)

theorem wit_KeeperSumsSetTheirFlags :
    ∀ w ∈ [encR 0x01 15 14 13 0 0, encR 0x02 15 14 13 0 0, encI 0x03 15 14 0x8000, encR 0x10 15 14 0 0 0, encR 0x11 15 14 0 0 0,
      encR 0x0D 0 14 13 0 0, encI 0x0E 0 14 0x8000], KReady (core7 w id) 7 w := all_ready (by decide +kernel)

/-- Sums at the ends of the range (R200): 32767 + 1 gives −32768 with V, or 32767 with SATW; ABS of −32768 under SATW is 32767. -/
theorem test_sums :
    after (.kAdd 7 15 14 13) (core7 (encR 0x01 15 14 13 0 0) fun c => { c with w := (c.w.set 14 0x7FFF).set 13 1 })
      (fun t => (t.core 7).getW 15 == 0x8000 && (t.core 7).st == 0x1A) &&
    after (.kAdd 7 15 14 13) (core7 (encR 0x01 15 14 13 0 0) fun c => { c with w := (c.w.set 14 0x7FFF).set 13 1, st := 0x80 })
      (fun t => (t.core 7).getW 15 == 0x7FFF && (t.core 7).st == 0x98) &&
    after (.kAbs 7 15 14) (core7 (encR 0x11 15 14 0 0 0) fun c => { c with w := c.w.set 14 0x8000, st := 0x80 })
      (fun t => (t.core 7).getW 15 == 0x7FFF) &&
    after (.kSub 7 15 15 15) (core7 (encR 0x02 15 15 15 0 0) fun c => { c with w := c.w.set 15 5 })
      (fun t => (t.core 7).getW 15 == 0 && (t.core 7).st == 5) = true := by decide +kernel

theorem wit_KeeperLogicShiftsAndMoves :
    (∀ w ∈ [encR 0x04 15 14 13 0 0, encR 0x05 15 14 13 0 0, encR 0x06 15 14 13 0 0, encI 0x07 15 14 0xFFFF, encI 0x08 15 14 0xFFFF,
      encI 0x09 15 14 0xFFFF, encShift 0x0A 15 14 (.imm 31), encShift 0x0B 15 14 (.reg 13), encShift 0x0C 15 14 (.imm 0), encI 0x0F 15 0 0xFFFF,
      encR 0x12 15 14 0 0 0, encR 0x13 0 14 0 0 0, 0], KReady (core7 w id) 7 w) ∧
    (∀ j, j < 16 → (j ≤ 0 ↔ (-2 ^ (16 - 1 - j) : Int) ≤ -32768 ∧ (-32768 : Int) < 2 ^ (16 - 1 - j))) ∧ 0 < 16 :=
  ⟨all_ready (by decide +kernel), by decide, by decide⟩

/-- Shifts (R200): −3 by one is −2 (ASR) and 0x7FFE (LSR); by 16 or more 0, or the sign. Headroom (R201): 0 for −32768, 15 for 0 and −1. -/
theorem test_shifts :
    after (.kAsr 7 15 14 (.imm 1)) (core7 (encShift 0x0B 15 14 (.imm 1)) fun c => { c with w := c.w.set 14 0xFFFD }) (fun t => (t.core 7).getW 15 == 0xFFFE) &&
    after (.kLsr 7 15 14 (.imm 1)) (core7 (encShift 0x0C 15 14 (.imm 1)) fun c => { c with w := c.w.set 14 0xFFFD }) (fun t => (t.core 7).getW 15 == 0x7FFE) &&
    after (.kAsr 7 15 14 (.imm 31)) (core7 (encShift 0x0B 15 14 (.imm 31)) fun c => { c with w := c.w.set 14 0x8000 }) (fun t => (t.core 7).getW 15 == 0xFFFF) &&
    after (.kShl 7 15 14 (.imm 16)) (core7 (encShift 0x0A 15 14 (.imm 16)) fun c => { c with w := c.w.set 14 0xFFFF }) (fun t => (t.core 7).getW 15 == 0) &&
    after (.kExp 7 15 14) (core7 (encR 0x12 15 14 0 0 0) fun c => { c with w := c.w.set 14 0xFFFF }) (fun t => (t.core 7).getW 15 == 15) &&
    after (.kExp 7 15 14) (core7 (encR 0x12 15 14 0 0 0) fun c => { c with w := c.w.set 14 0x8000 }) (fun t => (t.core 7).getW 15 == 0 && (t.core 7).st == 1)
      = true := by decide +kernel

theorem wit_KeeperAccumulates :
    (∀ w ∈ [encA 0x14 1 3 0 15 14 0 0 0, encA 0x15 1 3 0 15 14 0 0 0, encA 0x16 1 3 0 15 14 0 0 0, encA 0x19 1 0 0 15 0 23 0 0,
      encA 0x1A 1 0 0 0 0 0x20 0 0, encA 0x1B 1 0 1 0 0 0 0 0, encA 0x1C 1 0 0 0 0 0 0 0, encRnd 15 1 (.imm 39), encRnd 15 1 (.reg 14),
      encA 0x1D 1 0 0 0 0 0 0 15], KReady (core7 w id) 7 w) ∧
    (∀ j, j < 40 → (j ≤ 39 ↔ (-2 ^ (40 - 1 - j) : Int) ≤ -1 ∧ (-1 : Int) < 2 ^ (40 - 1 - j))) ∧ 39 < 40 :=
  ⟨all_ready (by decide +kernel), by decide, by decide⟩

/-- MAC a1 += 2 · (−32768 · −32768) (R202): 2^31. RND rounds half up (R203): (3 + 2)/4 is 1, (−3 + 2)/4 is −1. -/
theorem test_accumulates :
    after (.kMac 7 1 3 15 14) (core7 (encA 0x15 1 3 0 15 14 0 0 0) fun c => { c with w := (c.w.set 14 0x8000).set 15 0x8000 })
      (fun t => (t.core 7).getA 1 == 0x80000000) &&
    after (.kRnd 7 15 1 (.imm 2)) (core7 (encRnd 15 1 (.imm 2)) fun c => { c with a := c.a.set 1 3, aOld := c.aOld.set 1 3 })
      (fun t => (t.core 7).getW 15 == 1) &&
    after (.kRnd 7 15 1 (.imm 2)) (core7 (encRnd 15 1 (.imm 2)) fun c => { c with a := c.a.set 1 (-3), aOld := c.aOld.set 1 (-3) })
      (fun t => (t.core 7).getW 15 == 0xFFFF) = true := by decide +kernel

theorem wit_KeeperPointersStep :
    (∀ w ∈ [encP 0x25 7 0x400000, encM 0x26 0 7 0 0x8000], KReady (core7 w id) 7 w) ∧ Core.init.getL 7 = 0 ∧
    (let c := { Core.init with l := Core.init.l.set 7 5 }
     c.getL 7 ≠ 0 ∧ (c.getL 7).toNat ≤ 2 ^ 3 ∧ ¬ (c.getL 7).toNat ≤ 2 ^ 2) :=
  ⟨all_ready (by decide +kernel), by decide, by decide⟩

theorem wit_KeeperLoadsAndStoresItsOwnMemory :
    (∀ w ∈ [encM 0x20 15 7 0 0x7FFF, encM 0x23 14 7 0 0x7FFE, encM 0x21 15 7 0 0x7FFF, encM 0x22 15 7 0 0x7FFF, encM 0x24 14 7 0 0x7FFE,
      encD 0x17 1 3 7 6 1 5 1], KReady (core7 w id) 7 w) ∧
    (ea Core.init 7 0 0x7FFF).1.toNat < 0x8000 ∧ (ea Core.init 7 0 0x7FFE).1.toNat % 2 = 0 ∧ (Core.init.getP 6).toNat < 0x8000 :=
  ⟨all_ready (by decide +kernel), by decide, by decide, by decide⟩

theorem wit_KeeperControlFlow :
    ∀ w ∈ [encB 0x28 14 0 0x3FFF, encB 0x29 0 0 0x3FFF, encB 0x2A 0 15 0, encB 0x2B 0 15 0x3FFF, encB 0x2C 0 0 0, encK 0x2D 0xFFF, encK 0x2D 0,
      encK 0x2E 0], KReady (core7 w id) 7 w := all_ready (by decide +kernel)

theorem wit_KeeperSpecialRegisters :
    ∀ w ∈ ([0, 1, 2, 3, 4, 5, 6, 7, 8, 9, 10, 11, 12, 13, 16, 23, 24, 31, 32, 39, 40, 47].map (encS 0x30 15))
      ++ ([0, 1, 2, 3, 4, 5, 6, 8, 9, 10, 11, 12, 13, 16, 23, 24, 31, 32, 39, 40, 47].map (encS 0x31 15)), KReady (core7 w id) 7 w := all_ready (by decide +kernel)

theorem wit_KeeperTrapsInterruptsAndRuns :
    (let s := core7 0xFC000000 id
     s.kUp = true ∧ (s.core 7).run = 1 ∧ (s.core 7).load = none ∧ (s.core 7).stop = false ∧ s.err.upsets = [] ∧ (s.core 7).cfault = none ∧
       ((s.core 7).interruptible && (s.core 7).irqReady) = false ∧ opOf (s.core 7).word ≠ 0x3C ∧ wordOk (s.core 7).word = false) ∧
    ([encM 0x20 15 7 0 0, encM 0x21 15 7 0 0, encM 0x22 15 7 0 0].all fun w => [0x8000, 0x1FFFFF, 0x400000, 0xBFFFFF, 0xC00000, 0xFFFFFF].all fun p =>
      isReady (core7 w fun c => { c with p := c.p.set 7 p }) 7 w && (ea { Core.init with p := Core.init.p.set 7 p } 7 0 0).1 == p) = true ∧
    ((core7 0 fun c => { c with cfault := some (255, 0x3FFF) }).core 7).cfault = some (255, 0x3FFF) ∧
    (let c := (core7 0 fun c => { c with ie := 1, im := 0x80, ip := 0x80 }).core 7
     c.cfault = none ∧ c.after = none ∧ c.rpt = false ∧ c.ie.getLsbD 0 = true ∧ c.ip &&& c.im ≠ 0) ∧
    (on.core 7).run = 0 ∧ (core7 0 id).queue 7 = [] ∧ r0.pwr.released = false ∧ ((core7 0 id).core 7).behind = false ∧
    ((core7 0 fun c => { c with run := 2 }).core 7).run = 2 := by decide +kernel

/-- A fabric request of core 7 waiting or granted. -/
def req (write : Bool) (addr : Nat) : FabReq := ⟨7, addr, write, 1, if write then [0xAABBCCDD] else [], 0b0101⟩
def onFabric (w g : List FabReq) (f : Core → Core) : State := { core7 0 f with xbr := { on.xbr with waiting := w, granted := g } }
def load7 : LoadPend := ⟨2 ^ 32 + 8, 1, false, 1, 15, 7, 9, 0, none, false, 0, 0, 0⟩
/-- Core 7 ready for the word with p7 as given, with and without a store outstanding. -/
def readyAt (w : W32) (p : W24) : Bool :=
  [(false, false), (true, false), (true, true)].all fun x =>
    isReady (core7 w fun c => { c with p := c.p.set 7 p, store := x.1, behind := x.2 }) 7 w &&
      (ea { Core.init with p := Core.init.p.set 7 p } 7 0 0).1 == p

theorem wit_FabricCarriesKeeperAccesses :
    ([0x200000, 0x3FFFFE, 0xC00000, 0xFFFFFF].all fun p => [encM 0x24 14 7 0 0, encM 0x23 14 7 0 0].all (readyAt · p)) = true ∧
    ([0x200000, 0x200001, 0x3FFFFE, 0x3FFFFF].all fun p =>
      [encM 0x20 14 7 0 0, encM 0x21 14 7 0 0, encM 0x22 14 7 0 0].all (readyAt · p)) = true ∧
    (let r := req false (2 ^ 33 + 0xFFFFFC); let s := onFabric [r] [] id
     s.xbr.waiting = [r] ∧ s.xbr.granted = [] ∧ r.master = 7 ∧ 2 ^ 33 ≤ r.addr) ∧
    (let r := req false (2 ^ 33 + 0xA00004); let l := { load7 with long := true }
     let s := onFabric [] [r] fun c => { c with run := 3, load := some l }
     s.xbr.granted = [r] ∧ (s.core 7).load = some l ∧ (s.core 7).run = 3 ∧ (s.core 7).stop = false ∧ r.write = false) ∧
    (let r := req true (2 ^ 33 + 0xF00000); (onFabric [] [r] id).xbr.granted = [r] ∧ r.write = true ∧ 0xF00000 / 0x100000 = 15) ∧
    (let r := { req true (2 ^ 33 + 0xA00004) with be := 15 }; (onFabric [] [r] id).xbr.granted = [r] ∧ r.be = 15) ∧
    (onFabric [req false (2 ^ 33 - 4)] [] id).xbr.waiting = [req false (2 ^ 33 - 4)] ∧ 2 ^ 32 ≤ 2 ^ 33 - 4 ∧
    (let s := onFabric [] [req false (2 ^ 32 + 8)] fun c => { c with run := 3, load := some load7 }
     s.xbr.granted = [req false (2 ^ 32 + 8)] ∧ (s.core 7).load = some load7 ∧ (s.core 7).run = 3 ∧ (s.core 7).stop = false ∧ load7.half < 2 ∧ 8 < 0x400000) ∧
    (onFabric [] [req true (2 ^ 32 + 0x3FFFFC)] id).xbr.granted = [req true (2 ^ 32 + 0x3FFFFC)] ∧ 0x3FFFFC < 0x400000 ∧ 0x3FFFFC % 4 = 0 := by
  decide +kernel

/-! ### Conduct -/

/-- A queue entry with SW = 1, STATUS at word 0x20, of the operation and stage given; the rest of its block after STATUS. -/
def entry (cop stage : Nat) (block : List W16) : QEntry := ⟨cop, 5, 0x10, 0x8020 :: block, stage, false, 0, [], [], [], []⟩
/-- One whose instruction has no block: its operand. -/
def bare (cop stage : Nat) (imm : W16) : QEntry := ⟨cop, 5, 0x10, [imm], stage, false, 0, [], [], [], []⟩
def queued (s : State) (e : QEntry) : State := s.setQueue 0 [e]
def isHead (s : State) (e : QEntry) : Bool :=
  s.up && decide (s.qHead 0 = some e) && !e.store && s.err.upsets.isEmpty
theorem head_of_test {s : State} {e : QEntry} (h : isHead s e = true) : QHead s 0 e e.cop e.stage := by
  simp only [isHead, Bool.and_eq_true, decide_eq_true_eq, Bool.not_eq_true', List.isEmpty_iff] at h
  obtain ⟨⟨⟨h1, h2⟩, h3⟩, h4⟩ := h
  exact ⟨h1, by decide, h2, rfl, rfl, h3, h4⟩
def isAt (s : State) (k : Nat) (w : W32) : Bool :=
  s.kUp && decide (k < 8) && (s.core k).run == 1 && (s.core k).load.isNone && (s.core k).cfault.isNone && !(s.core k).stop &&
    !((s.core k).interruptible && (s.core k).irqReady) && (s.core k).word == w && placeOk (s.core k) w && s.err.upsets.isEmpty
theorem at_of_test {s : State} {k : Nat} {w : W32} (h : isAt s k w = true) : KAt s k w := by
  simp only [isAt, Bool.and_eq_true, decide_eq_true_eq, beq_iff_eq, Option.isNone_iff_eq_none, Bool.not_eq_true', List.isEmpty_iff] at h
  obtain ⟨⟨⟨⟨⟨⟨⟨⟨⟨h1, h2⟩, h3⟩, h4⟩, h5⟩, h6⟩, h7⟩, h8⟩, h9⟩, h10⟩ := h
  exact ⟨h1, h2, h3, h4, h5, h6, h7, h8, h9, h10⟩

/-- The encodings the manual works out: MAC a0, w4, w2, FR is 0x5590_8000 (R198), OPEN [p0+#6] 0xF020_0006 and FENCE.KILN #0
0xF110_0000 (R219). -/
theorem test_encodings : encA 0x15 0 3 0 4 2 0 0 0 = 0x55908000#32 ∧ encC 0x02 0 6 = 0xF0200006#32 ∧ encC 0x11 0 0 = 0xF1100000#32 := by decide

/-- The last block that fits: 9 words of an OPEN from word 0x7FF7 on. -/
theorem wit_ConductIsQueuedAndDispatched :
    (KAt (core7 (encC 2 7 0x7FF7) id) 7 (encC 2 7 0x7FF7) ∧ KAt (core7 (encC 0x1F 0 0) id) 7 (encC 0x1F 0 0) ∧
      KAt (core7 (encC 0x11 0 15) id) 7 (encC 0x11 0 15) ∧ KAt (core7 (encC 2 7 0x7FF8) id) 7 (encC 2 7 0x7FF8)) ∧
    ((core7 0 id).standby = false ∧ ((core7 0 id).queue 7).length < 64 ∧ copWords 2 = some 9 ∧ 0x7FF7 + 9 ≤ 0x8000 ∧ 0x8000 < 0x7FF8 + 9 ∧
      copWords 0x11 = some 0 ∧ 64 ≤ (((core7 0 id).setQueue 7 (List.replicate 64 (bare 0x10 0 0))).queue 7).length) ∧
    (QHead (queued on (entry 2 0 [])) 0 (entry 2 0 []) 2 0 ∧ isBarrier 2 = false ∧ on.rf 0x100000 28 2 ≠ 1 ∧
      (withRegs on [(0x100000, 0x10000000)]).rf 0x100000 28 2 = 1 ∧ (withRegs on [(0x100000, 0x10000000)]).pwr.change = none) :=
  ⟨⟨at_of_test (by decide +kernel), at_of_test (by decide +kernel), at_of_test (by decide +kernel), at_of_test (by decide +kernel)⟩,
   by decide +kernel, head_of_test (by decide +kernel), by decide +kernel⟩

/-- WAITT to a target, dispatched at device time 0; WAITB on channel 127 for 8 ns. -/
def waitt (stage target_lo target_hi : W16) : QEntry := entry 9 stage.toNat [0, target_lo, target_hi]
def waitb (stage : Nat) : QEntry := entry 0x0A stage [0, 127, 8, 0]

/-- Device time stands, a compare is enabled, and a WAITT waits: at its target, behind it, and for it. -/
theorem wit_ComparesAreJudgedAtArming_run :
    ([waitt 2 0 0, waitt 2 0 0x8000, waitt 2 3 0].all fun e =>
      let s := withRegs (queued on e) [(0x400000, 0), (oCmp 7 + 8, 0x80000000)]
      s.auxUp && !s.running && s.rb (oCmp 7 + 8) 31 && !s.rb (oCmp 6 + 8) 31 && s.waiting 0 0x09 == some e && (s.waiting 1 0x09).isNone) = true ∧
    (lo32 ((waitt 2 0 0).words 2 2)).toNat = 0 ∧ 2 ^ 31 ≤ (lo32 ((waitt 2 0 0x8000).words 2 2)).toNat ∧
    (lo32 ((waitt 2 3 0).words 2 2)).toNat = 3 := by decide +kernel
/-- A WAITB, a DMA channel and a capture wait for channel 127. -/
theorem wit_BeaconsReachTheirWatchers_waits :
    (let s := withRegs (queued (flying [(127, 6)]) (waitb 2)) [(oCap 15, 127)]
     s.bcn.flight[0]? = some (127, 6) ∧ s.waiting 0 0x0A = some (waitb 2) ∧ (waitb 2).word 2 = 127 ∧ s.rf (oCap 15) 0 8 = 127 ∧ s.link.chans = []) ∧
    (let s := (flying [(127, 6)]).setChan 63 { DmaChan.init with wait := some 127 }
     s.link.chans.filter (fun e => e.1 == 63) = [(63, s.chan 63)] ∧ (s.chan 63).wait = some 127) := by decide +kernel

theorem wit_BarriersHoldAndEnd :
    (QHead (queued on (waitt 0 0 0)) 0 (waitt 0 0 0) 9 0 ∧ QHead (queued on (waitt 0 0 0x8000)) 0 (waitt 0 0 0x8000) 9 0 ∧
      QHead (queued on (waitt 0 0xFFFF 0x7FFF)) 0 (waitt 0 0xFFFF 0x7FFF) 9 0 ∧ QHead (queued on (waitt 2 3 0)) 0 (waitt 2 3 0) 9 2 ∧
      QHead (queued on (waitb 0)) 0 (waitb 0) 0x0A 0 ∧ QHead (queued on (waitb 2)) 0 (waitb 2) 0x0A 2 ∧
      QHead (queued on (bare 0x10 0 0)) 0 (bare 0x10 0 0) 0x10 0 ∧ QHead (queued on (bare 0x11 0 15)) 0 (bare 0x11 0 15) 0x11 0 ∧
      QHead (queued on (bare 0x11 0 16)) 0 (bare 0x11 0 16) 0x11 0 ∧ QHead (queued on (bare 0x12 0 0)) 0 (bare 0x12 0 0) 0x12 0 ∧
      QHead (queued on (bare 0x12 2 0)) 0 (bare 0x12 2 0) 0x12 2 ∧ QHead (queued on (bare 0x0B 1 127)) 0 (bare 0x0B 1 127) 0x0B 1 ∧
      QHead (queued on (bare 0x0B 1 119)) 0 (bare 0x0B 1 119) 0x0B 1 ∧ QHead (queued (flying [(127, 6)]) (waitb 2)) 0 (waitb 2) 0x0A 2) ∧
    ((waitb 2).word 2 = 127 ∧ (queued (flying [(127, 6)]) (waitb 2)).bcn.flight[0]? = some (127, 6)) ∧
    (on.running = true ∧ (lo32 ((waitt 0 0 0).words 2 2) - on.ns).toNat = 0 ∧ 2 ^ 31 ≤ (lo32 ((waitt 0 0 0x8000).words 2 2) - on.ns).toNat ∧
      (lo32 ((waitt 0 0xFFFF 0x7FFF).words 2 2) - on.ns).toNat < 2 ^ 31 ∧ ((on.advance 2).ns - lo32 ((waitt 2 3 0).words 2 2)).toNat < 2 ^ 31 ∧
      5 * (waitb 2).words 3 2 ≤ 8 * (on.time.ticks + 5 - (waitb 2).since) ∧ on.cq.ops = [] ∧
      on.owed = [] ∧ (∀ i ∈ (bare 0x12 2 0).follows, on.following 0 i = false) ∧
      (let s := { on with cq := { on.cq with ops := [⟨4, 0, 5, 3, 0x8020, [15]⟩] } }; ∃ o ∈ s.cq.ops, o.keeper = 0 ∧ (bare 0x11 2 15).word 0 ∈ o.kilns) ∧
      Owed.post 3 0 ∈ ({ on with link := { on.link with rings := [(3, { RingDyn.init with owed := [.post 3 0] })] } } : State).owed ∧
      3 ∈ ({ bare 0x12 2 0 with posts := [3] } : QEntry).posts ∧
      ({ on with pair := { on.pair with follow := [(0, [⟨8, 3, []⟩])] } } : State).following 0 8 = true) :=
  ⟨⟨head_of_test (by decide +kernel), head_of_test (by decide +kernel), head_of_test (by decide +kernel), head_of_test (by decide +kernel),
    head_of_test (by decide +kernel), head_of_test (by decide +kernel), head_of_test (by decide +kernel), head_of_test (by decide +kernel),
    head_of_test (by decide +kernel), head_of_test (by decide +kernel), head_of_test (by decide +kernel), head_of_test (by decide +kernel),
    head_of_test (by decide +kernel), head_of_test (by decide +kernel)⟩, by decide +kernel, by decide +kernel⟩

/-- Kiln 0 PLACED with ring 0 fit to serve it; OPEN at 256 on ring 0. -/
def forOpen : State := withRing placed 0 0x80800000
def openE (stage flags : W16) : QEntry := entry 2 stage.toNat [flags, 0, 0, 0, 256, 0, 0, 0]
/-- FIRE and SHUT at 512, or NEXT; kiln 0 OPEN with AUTO = 0. -/
def fireE (cop : Nat) (flags : W16) : QEntry := entry cop 1 [flags, 0, 512, 0, 0, 0]
def byHand : State := withRegs opened [(0xC20000, 0)]

theorem wit_ConductActsOnKilns :
    (QHead (queued forOpen (openE 1 0)) 0 (openE 1 0) 2 1 ∧ QHead (queued forOpen (openE 3 1)) 0 (openE 3 1) 2 3 ∧
      QHead (queued byHand (fireE 3 0)) 0 (fireE 3 0) 3 1 ∧ QHead (queued byHand (fireE 4 0)) 0 (fireE 4 0) 4 1) ∧
    (forOpen.role ≤ 1 ∧ (openE 1 0).word 2 ≤ 15 ∧ (openE 1 0).word 1 ≤ 1 ∧ 0 < forOpen.kilnG 0 ∧ (forOpen.kiln 0).state = 1 ∧
      (openE 1 0).word 4 ≤ 4 ∧ (0 < forOpen.nRings ∧ forOpen.rFmt 0 = 0 ∧ 1024 ≤ forOpen.rSize 0 ∧
      (∀ i < 16, i ≠ 0 → 2 ≤ (forOpen.kiln i).state → 0 ∉ (forOpen.kiln i).rings)) ∧ forOpen.lastReleased (forOpen.kilnChans 0) = none ∧
      (openE 1 0).flag 0 = false ∧ 256 % forOpen.kilnG 0 = 0) ∧
    (let s := ring5 forOpen 4 [] (some 3)
     (openE 3 1).flag 0 = true ∧ s.followLog 0 = [] ∧ s.lastReleased (s.kilnChans 0) = some 3 ∧ 512 % s.kilnG 0 = 0 ∧ max (128 * (3 + 1 + 0)) 0 ≤ 512 ∧
       512 < max (128 * (3 + 1 + 0)) 0 + s.kilnG 0) ∧
    ((byHand.kiln 0).state = 2 ∧ (byHand.kiln 0).endAt = none ∧ byHand.auto 0 = false ∧ (byHand.kiln 0).pend.length < 4 ∧
      (fireE 3 0).flag 0 = false ∧ 512 % byHand.kilnG 0 = 0 ∧ (byHand.kiln 0).busyTo + 1 ≤ 512 ∧ opened.auto 0 = true) :=
  ⟨⟨head_of_test (by decide +kernel), head_of_test (by decide +kernel), head_of_test (by decide +kernel), head_of_test (by decide +kernel)⟩,
   by decide +kernel, by decide +kernel, by decide +kernel⟩

/-- STEER of block 0 with SHIFTS; GLAZE of the last gain, and KEEP with no block; ARM and DISARM of slot 15 of engine 0. -/
def steerE : QEntry := entry 5 1 [2, 0, 0, 0x1000, 0, 0, 0, 5, 0, 0, 0x400, 0, 0, 0x8000, 0]
def glazeE (flags : W16) : QEntry := entry 6 1 [flags, 0, 0, 0x100, 0, 4095, 1, 0x400, 0, 0]
def armE (cop : Nat) : QEntry := entry cop 1 [0, 0x0F00]
/-- Engine 0 on ring 2 of FORMAT 2, unit 0 of its slot 15 a TIMEOUT of 7 ns; block 0's epoch is 1,024 samples. -/
def forArm : State := withRegs (withRing placed 2 0xC2600000) [(0xE00000, 2), (0xE01F18, 0x60000000), (0xE01F30, 7)]

theorem wit_ConductActsOnBeamsAndSlots :
    (QHead (queued placed steerE) 0 steerE 5 1 ∧ QHead (queued placed (glazeE 8)) 0 (glazeE 8) 6 1 ∧ QHead (queued placed (glazeE 0)) 0 (glazeE 0) 6 1 ∧
      QHead (queued on (glazeE 8)) 0 (glazeE 8) 6 1 ∧ QHead (queued forArm (armE 7)) 0 (armE 7) 7 1 ∧ QHead (queued forArm (armE 8)) 0 (armE 8) 8 1) ∧
    (placed.role ≤ 1 ∧ placed.placedBlock 0 = some bp0 ∧ steerE.word 2 = 0 ∧ (placed.block 0).pend = none ∧ steerE.word 1 ≤ 3 ∧ steerE.words 4 4 % 64 = 0 ∧
      steerE.words 4 4 + 2048 * bp0.desc.n ≤ placed.memEnd ∧ steerE.flag 1 = true ∧ steerE.words 14 2 % 2 = 0 ∧ steerE.words 14 2 + 128 ≤ 0x400000 ∧
      steerE.flag 0 = false ∧ steerE.words 11 3 = 1024 ∧ 1024 % placed.epochLen 0 = 0 ∧ (placed.block 0).begun * placed.epochLen 0 ≤ 1024) ∧
    (placed.beam.switch_ = none ∧ (glazeE 8).word 3 = 0 ∧ (∀ o ∈ placed.cq.ops, o.id ≠ placed.cq.nextOp) ∧ (glazeE 8).word 1 = 8 ∧ (glazeE 0).word 1 = 0 ∧
      placed.noBlocks = false ∧ on.noBlocks = true ∧ (glazeE 8).flag 0 = false ∧ (glazeE 8).words 8 3 = 1024 ∧ 1024 % 256 = 0 ∧ placed.visitedTo ≤ 1024 ∧
      on.visitedTo ≤ 1024 ∧ 1 ≤ (glazeE 0).word 7 ∧ (glazeE 0).word 6 + (glazeE 0).word 7 ≤ 4096 ∧ (glazeE 0).words 4 2 % 4 = 0 ∧
      (glazeE 0).words 4 2 + 4 * (glazeE 0).word 7 ≤ 0x400000) ∧
    ((armE 7).word 2 = 0 + 256 * 15 ∧ (armE 7).word 1 = 0 ∧ 0 < forArm.nEng ∧ (forArm.slot 15).armed = false ∧ forArm.placedEng 0 = some ep0 ∧
      forArm.rf 0xE00000 0 15 = 2 ∧ 2 < forArm.nRings ∧ forArm.rEn 2 = true ∧ forArm.rDrop 2 = true ∧ forArm.rFmt 2 = 2 ∧
      freeBuffer ep0.desc (forArm.ltn 0).frozen (forArm.ltn 0).cur = some 0 ∧ (forArm.setSlot 15 { LtnSlot.init with armed := true } |>.slot 15).armed = true) :=
  ⟨⟨head_of_test (by decide +kernel), head_of_test (by decide +kernel), head_of_test (by decide +kernel), head_of_test (by decide +kernel),
    head_of_test (by decide +kernel), head_of_test (by decide +kernel)⟩, by decide +kernel, by decide +kernel, by decide +kernel⟩
theorem wit_ConductActsOnBeamsAndSlots_arm : forArm.condBad 0 15 = false := by decide +kernel

/-- PLACE of the plan at 0 with its record at 0x4000; POST of 64 bytes at 0x3FFFC0 to ring 3; SCRUB of the last line of stack 7. -/
def placeE : QEntry := entry 1 1 [0, 0, 0, 0x4000, 0]
def planIn (p : Plan) : State := { on with csram := cells 0 p.bytes }
def goodPlan : Plan := { plan0 with blocks := [], engines := [] }
def badPlan : Plan := { goodPlan with kilns := [(0, { kd0 with n := 65 })] }
def postE : QEntry := entry 0x0C 1 [0, 3, 1, 0xFFC0, 0x3F, 7, 0]
def postRing : State := withRegs (withRing on 3 0xC3600000) [(0x1060000, 0x80000000)]
def scrubE : QEntry := entry 0x0D 1 [0, 7, 0, 0xFFC0, 0xFFFF, 0x5F, 0, 64, 0, 0, 0, 0, 0]
def toPost : State := { postRing with cq := { on.cq with posts := [⟨4, 0, 3, 1, 7, false, List.replicate 48 9, none, none⟩], ops := [⟨4, 0, 5, 0x0C, 0x8020, []⟩] } }

theorem wit_ConductReachesPlacerHostAndScrubber :
    (QHead (queued (planIn goodPlan) placeE) 0 placeE 1 1 ∧ QHead (queued (planIn badPlan) placeE) 0 placeE 1 1 ∧
      QHead (queued postRing postE) 0 postE 0x0C 1 ∧ QHead (queued on postE) 0 postE 0x0C 1 ∧ QHead (queued on scrubE) 0 scrubE 0x0D 1) ∧
    (postE.word 1 = 0 ∧ postE.word 2 < postRing.nRings ∧ 1 ≤ postE.word 3 ∧ postE.word 3 ≤ 64 ∧ postE.words 4 2 % 64 = 0 ∧
      postE.words 4 2 + 64 * postE.word 3 ≤ 0x400000 ∧ postRing.rEn 3 = true ∧ postRing.rFmt 3 = 3 ∧
      postRing.rb (0x1060000 + 0x10 * postRing.rOwner 3) 31 = true ∧ on.rEn 3 = false) ∧
    (toPost.up = true ∧ toPost.cq.posts = [⟨4, 0, 3, 1, 7, false, List.replicate 48 9, none, none⟩] ∧ (toPost.rng 3).lost = [] ∧ (0 : Nat) < 8 ∧ (List.replicate 48 (9 : Byte)).length + 16 = 64 * 1 ∧
      toPost.foghorn = false ∧ toPost.pair.hold = [] ∧ toPost.err.upsets = [] ∧ toPost.rEn 3 = true ∧ 1 ≤ toPost.rFree 3 ∧
      (toPost.rng 3).head % toPost.rSize 3 + 1 ≤ toPost.rSize 3 ∧ toPost.cq.ops = [⟨4, 0, 5, 0x0C, 0x8020, []⟩]) ∧
    (scrubE.word 1 = 0 ∧ scrubE.word 2 = 7 ∧ 7 < on.nStacks ∧ scrubE.word 3 = 0 ∧ scrubE.words 4 4 % 64 = 0 ∧ scrubE.words 8 4 % 64 = 0 ∧
      0 < scrubE.words 8 4 ∧ 7 * 51539607552 ≤ scrubE.words 4 4 ∧ scrubE.words 4 4 + scrubE.words 8 4 ≤ 8 * 51539607552 ∧
      scrubE.words 12 2 % 64 = 0 ∧ scrubE.words 12 2 + 64 ≤ 0x400000) :=
  ⟨⟨head_of_test (by decide +kernel), head_of_test (by decide +kernel), head_of_test (by decide +kernel), head_of_test (by decide +kernel),
    head_of_test (by decide +kernel)⟩, by decide +kernel, by decide +kernel, by decide +kernel⟩
def placeGo (s : State) : Bool :=
  let p := Plan.parse (rdBytes s.csram 0 (s.planLen 0))
  !s.placeAddrBad 0 0x4000 && (match s.placeJudge placeE p false with | .go _ => true | _ => false)
def placeOutcome (s : State) : Option Nat := match (Plan.parse (rdBytes s.csram 0 (s.planLen 0))).place (s.placeEnv (Plan.parse (rdBytes s.csram 0 (s.planLen 0)))) with
  | .ok _ => none | .error r => some r.reason
theorem wit_ConductReachesPlacerHostAndScrubber_place :
    (placeGo (planIn goodPlan) && placeGo (planIn badPlan)) = true ∧ placeOutcome (planIn goodPlan) = none ∧
    (placeOutcome (planIn badPlan)).elim 9 id < 8 ∧ (planIn goodPlan).placeNow = true := by decide +kernel

/-! ### Commands, rings, channels -/

/-- A 64-byte record with the numbers of the size given at the places given. -/
def recOf (l : List (Nat × Nat × Nat)) : List Byte := wrBytesList (List.replicate 64 0) l
where wrBytesList (b : List Byte) : List (Nat × Nat × Nat) → List Byte
  | [] => b
  | (o, n, v) :: r => wrBytesList (b.take o ++ leBytes n v ++ b.drop (o + n)) r
/-- COMMAND ring 7 of context 0 with this command, of tag 9 with a response on ring 5, waiting at position 0 (4 KiB of commands from 1 MiB). -/
def cmdOf (op : Nat) (l : List (Nat × Nat × Nat)) : List Byte := recOf ([(0, 1, op), (1, 1, 1), (2, 2, 5), (4, 4, 9)] ++ l)
def cmdIn (s : State) (b : List Byte) : State :=
  let s := withRegs s [(0x11000E0, 0x100000), (0x11000E8, 0x85600000), (0x11000F0, 1)]
  { s with host := wrBytes s.host 0x100000 b }
def nextIs (s : State) (r op : Nat) (b : List Byte) : Bool :=
  s.cmdsServed && s.nextCmdRing == some r && b == s.cmdBytes r && field b 0 1 == op && s.rOwner r == 0 && !cmdStray b && s.cmdServes b && s.err.upsets.isEmpty
theorem next_of_test {s : State} {r op : Nat} {b : List Byte} (h : nextIs s r op b = true) : CmdNext s r op b := by
  simp only [nextIs, Bool.and_eq_true, beq_iff_eq, Bool.not_eq_true', List.isEmpty_iff] at h
  obtain ⟨⟨⟨⟨⟨⟨⟨h1, h2⟩, h3⟩, h4⟩, h5⟩, h6⟩, h7⟩, h8⟩ := h
  exact ⟨h1, h2, h3, h4, h5, h6, h7, h8⟩

/-- LOAD and READ of the last 8 bytes of core 7's data memory; START_KEEPER of core 7 at its last address. -/
def moveB (op space core len host dev : Nat) : List Byte := cmdOf op [(8, 1, space), (9, 1, core), (12, 4, len), (16, 8, host), (24, 8, dev)]
def loadB : List Byte := moveB 1 3 7 8 0x200000 0xFFF8
def readB : List Byte := moveB 2 3 7 8 0x200000 0xFFF8
def loadH : List Byte := moveB 1 0 0 8 0x200000 412316860408
def startB : List Byte := cmdOf 3 [(8, 1, 7), (9, 1, 1), (10, 2, 0x3FFF)]
def stopB : List Byte := cmdOf 4 [(8, 1, 7)]
def attachB (c : Nat) : List Byte := cmdOf 5 [(8, 2, c), (16, 8, 0x7000)]
def detachB : List Byte := recOf [(0, 1, 6), (8, 2, 1023)]
def badSetupB : List Byte := cmdOf 7 [(8, 2, 32767), (16, 4, 0x5000), (24, 4, 0xC2580000), (28, 4, 0x03FF0000)]
def setupB : List Byte := cmdOf 7 [(8, 2, 32767), (16, 4, 0x5000), (24, 4, 0xC2600000), (28, 4, 0x03FF0000)]
/-- RING_SETUP with EN = 0: LOG2SIZE 11; LOG2SIZE 30 and format 6. -/
def offBadB : List Byte := cmdOf 7 [(8, 2, 32767), (24, 4, 0x00580000)]
def offB : List Byte := cmdOf 7 [(8, 2, 32767), (16, 4, 0x5000), (24, 4, 0x06F00000), (28, 4, 0x03FF0000)]
def queryB : List Byte := cmdOf 8 [(8, 2, 32767)]
def att (s : State) (x : Nat) : State := withRegs s [(0x1060000 + 0x10 * x, 0x80000000)]
/-- Ring 32767 is enabled already. -/
def onSetup : State := withRegs (cmdIn (att on 1023) setupB) [(0x11FFFE8, 0x82600000)]
/-- Contexts 0 to 2 attached, 3 the lowest free one. -/
def three : State := att (att (att on 0) 1) 2

theorem wit_CommandsAreCarriedOut :
    (CmdNext (cmdIn on loadB) 7 1 loadB ∧ CmdNext (cmdIn on loadH) 7 1 loadH ∧ CmdNext (cmdIn on readB) 7 2 readB ∧
      CmdNext (cmdIn on startB) 7 3 startB ∧ CmdNext (cmdIn (core7 0 id) stopB) 7 4 stopB ∧ CmdNext (cmdIn three (attachB 0xFFFF)) 7 5 (attachB 0xFFFF) ∧
      CmdNext (cmdIn three (attachB 1023)) 7 5 (attachB 1023) ∧ CmdNext (cmdIn (att on 1023) detachB) 7 6 detachB ∧
      CmdNext (cmdIn (att on 1023) setupB) 7 7 setupB ∧ CmdNext (cmdIn on badSetupB) 7 7 badSetupB ∧ CmdNext onSetup 7 7 setupB ∧ CmdNext (cmdIn on setupB) 7 7 setupB ∧ CmdNext (cmdIn on queryB) 7 8 queryB) :=
  ⟨next_of_test (by decide +kernel), next_of_test (by decide +kernel), next_of_test (by decide +kernel), next_of_test (by decide +kernel),
   next_of_test (by decide +kernel), next_of_test (by decide +kernel), next_of_test (by decide +kernel), next_of_test (by decide +kernel),
   next_of_test (by decide +kernel), next_of_test (by decide +kernel), next_of_test (by decide +kernel), next_of_test (by decide +kernel),
   next_of_test (by decide +kernel)⟩
theorem wit_CommandsAreCarriedOut_operands :
    (field loadB 8 1 = 3 ∧ field loadB 9 1 ≤ 7 ∧ field loadB 24 8 + field loadB 12 4 ≤ 0x10000 ∧ field loadH 24 8 + field loadH 12 4 ≤ on.memEnd) ∧
    (field startB 8 1 ≤ 7 ∧ field startB 9 1 = 1 ∧ field startB 10 2 ≤ 0x3FFF ∧ (on.core 7).run = 0 ∧ on.fuse.verify = false ∧
      (let v := (core7 0 id).core (field stopB 8 1); v.run = 1 ∧ v.after = none ∧ v.rpt = false ∧ v.load = none)) ∧
    (field (attachB 0xFFFF) 8 2 = 0xFFFF ∧ (∀ y < 3, three.rb (0x1060000 + 0x10 * y) 31 = true) ∧ three.rb (0x1060000 + 0x10 * 3) 31 = false ∧
      field (attachB 1023) 8 2 = 1023 ∧ three.rb (0x1060000 + 0x10 * 1023) 31 = false ∧ (att on 1023).rb (0x1060000 + 0x10 * 1023) 31 = true) ∧
    (let cfg := lo32 (field setupB 24 4)
     let own := lo32 (field setupB 28 4)
     field setupB 8 2 < on.nRings ∧ cfg &&& 0x1007FFFF#32 = 0 ∧ own &&& 0xFC00F800#32 = 0 ∧ on.rEn 32767 = false ∧ bit cfg 31 = true ∧
       fld cfg 24 4 = 2 ∧ fld cfg 19 5 = 12 ∧ fld own 16 10 = 1023 ∧
       field setupB 16 4 % 4096 = 0 ∧ onSetup.rEn 32767 = true ∧ onSetup.rb (0x1060000 + 0x10 * 1023) 31 = true ∧
       on.rb (0x1060000 + 0x10 * 1023) 31 = false ∧ fld (lo32 (field badSetupB 24 4)) 19 5 = 11 ∧ field badSetupB 16 4 % 4096 = 0) ∧
    field detachB 1 1 = 0 := by decide +kernel
/-- The fabric is open to the command unit, and not: JTAG waits for the same target. A unit wrote at this tick. -/
theorem wit_CommandsAreCarriedOut_fabric :
    ([loadB, readB].all fun b =>
      let s := cmdIn on b
      let t := busy s (s.moveReq 7 true).addr
      s.fabOpen 8 (3 + 7) && !t.fabOpen 8 (3 + 7) && t.xbr.waiting.all (fun q => q.master != 8) && nextIs t 7 (field b 0 1) b) = true ∧
    (let s : State := { on with mem := { on.mem with was := some (on.time.ticks, []) } }
     field loadH 8 1 = 0 ∧ s.hbmWas = some []) := by decide +kernel
theorem wit_CommandsAreCarriedOut_disabled :
    CmdNext (cmdIn on offBadB) 7 7 offBadB ∧ CmdNext (cmdIn on offB) 7 7 offB ∧ (cmdIn on offB).rEn 32767 = false ∧
    (let cfg := lo32 (field offBadB 24 4); bit cfg 31 = false ∧ fld cfg 19 5 < 12) ∧
    (let cfg := lo32 (field offB 24 4); let own := lo32 (field offB 28 4)
     bit cfg 31 = false ∧ 12 ≤ fld cfg 19 5 ∧ fld cfg 19 5 ≤ 30 ∧ fld cfg 24 4 ≤ 6 ∧ field offB 8 2 < (cmdIn on offB).nRings ∧
       cfg &&& 0x1007FFFF#32 = 0 ∧ own &&& 0xFC00F800#32 = 0 ∧ field offB 16 4 % 4096 = 0) :=
  ⟨next_of_test (by decide +kernel), next_of_test (by decide +kernel), by decide +kernel, by decide +kernel, by decide +kernel⟩
/-- A command of context 5; a command done, with no response, and with one for ring 8. -/
def foreign : State := withRegs (cmdIn on loadB) [(0x11000EC, 0x50000), (0x11000E8, 0x85600000)]
def done9 (resp : Bool) : CmdDone := ⟨8, 0, resp, 8, 9, List.replicate 48 1, none, 0⟩
def answered (resp : Bool) : State :=
  { withRegs (cmdIn on queryB) [(0x1100100, 0x300000), (0x1100108, 0x84600000)] with link := { on.link with cmds := [(7, done9 resp)] } }
theorem wit_CommandsAreCarriedOut_responses :
    (foreign.cmdsServed = true ∧ foreign.nextCmdRing = some 7 ∧ field (foreign.cmdBytes 7) 0 1 = 1 ∧ foreign.rOwner 7 ≠ 0 ∧ foreign.cmdServes (foreign.cmdBytes 7) = true ∧ foreign.err.upsets = []) ∧
    ((answered false).cmdsServed = true ∧ (answered false).link.cmds = [(7, done9 false)] ∧ (done9 false).detach = none ∧ (answered false).err.upsets = []) ∧
    (let s := answered true
     8 ≠ 7 ∧ 8 < s.nRings ∧ s.rEn 8 = true ∧ s.rFmt 8 = 4 ∧ s.rOwner 8 = (done9 true).owner ∧ 1 ≤ s.rFree 8 ∧ 0 < s.rSize 8 ∧ (s.rng 8).lost = [] ∧ (done9 true).result.length = 48) ∧
    (let s := withRegs (answered true) [(0x1100108, 0)]; s.respRing (done9 true).owner 8 = false ∧ (s.rng 8).lost = [] ∧ (done9 true).respRing = 8) := by
  decide +kernel

/-- Ring 32767 of context 1023, with CONS 2^32 − 1 and the written-back PROD and the placed one as given. -/
def lastRing (cfg prod : W32) (head : Nat) : State :=
  (withRegs on [(0x11FFFE0, 0x100000), (0x11FFFE8, cfg), (0x11FFFEC, 0x03FF0005), (0x11FFFF0, prod), (0x11FFFF4, 0xFFFFFFFF), (0x11FFFF8, 4),
    (0x1063FF0, 0x80000000), (0x1063FF4, 0x9000)]).setRng 32767 ⟨head, 0, 1, 0, [], [], []⟩

theorem wit_RingsMoveTheirIndices :
    (let s := lastRing 0xC2600000 1 5
     s.err.upsets = [] ∧ s.pair.hold = [] ∧ on.nRings ≤ (0x8000#64).toNat % 2 ^ 32 ∧ 0x7FE000 < 0x800000 ∧ s.hostUp = true ∧ 32767 < s.nRings ∧ s.rEn 32767 = true ∧ s.rOwner 32767 = 0x7FE000 / 0x2000 ∧ s.rFmt 32767 ≠ 5 ∧
      ((s.reg 0x11FFFF0).toNat + 2 ^ 32 - (s.reg 0x11FFFF4).toNat) % 2 ^ 32 = 2 ∧ (1 + 2 ^ 32 - (s.reg 0x11FFFF4).toNat) % 2 ^ 32 = 2 ∧
      (2 + 2 ^ 32 - (s.reg 0x11FFFF4).toNat) % 2 ^ 32 = 3) ∧
    (let s := lastRing 0x85600000 1 (2 ^ 32 - 1)
     s.rFmt 32767 = 5 ∧ s.rSize 32767 = 64 ∧ (63 + 2 ^ 32 - (s.rng 32767).head) % 2 ^ 32 ≤ s.rSize 32767 ∧
       s.rSize 32767 < (64 + 2 ^ 32 - (s.rng 32767).head) % 2 ^ 32) ∧
    on.rEn 0 = false ∧ (lastRing 0xC2600000 1 5).rOwner 32767 ≠ 0 ∧
    ((lastRing 0xC2600000 1 5).rb (0x1060000 + 0x10 * 1023) 31 = true ∧ bit 0x80000000#32 31 = true ∧ bit 0#32 31 = false ∧
      bit 0xC2600000#32 31 = true ∧ on.rb (0x1060000 + 0x10 * on.rOwner 0) 31 = false ∧ (att on 0).rb (0x1060000 + 0x10 * (att on 0).rOwner 0) 31 = true) ∧
    (let s := lastRing 0xC2600000 1 5
     (s.rng 32767).head < 2 ^ 32 ∧ (s.reg (0x1100000 + 0x20 * 32767 + (if s.rFmt 32767 = 5 then 0x14 else 0x10))).toNat ≠ (s.rng 32767).head ∧
       s.rIe 32767 = false) ∧
    (let s := withRegs (lastRing 0xE2600000 1 5) [(0x11FFFF8, 0x10000)]
     s.rIe 32767 = true ∧ s.rf (0x1100018 + 0x20 * 32767) 16 16 = 1 ∧ (s.rng 32767).unsent = 1) ∧
    (let s := withRegs (lastRing 0xE2600000 1 5) [(0x11FFFF8, 4)]
     s.rIe 32767 = true ∧ s.rf (0x1100018 + 0x20 * 32767) 0 16 ≠ 0 ∧ (s.rng 32767).unsent ≠ 0 ∧
       (s.rng 32767).firstTick + 625 * s.rf (0x1100018 + 0x20 * 32767) 0 16 ≤ s.time.ticks + 2500) := by decide +kernel
theorem wit_RingsMoveTheirIndices_timeouts :
    (on.up = true ∧ (withRegs on [(0x103F004, 0x20000000)]).dActive 63 = true) ∧ CmdNext (cmdIn on loadB) 7 1 loadB ∧
      on.moveBad (MoveCmd.parse loadB) = false ∧ on.loadState (MoveCmd.parse loadB) = false :=
  ⟨by decide +kernel, next_of_test (by decide +kernel), by decide +kernel, by decide +kernel⟩

/-- Channel 63 in a state, with a transfer of `len` bytes from src to dst under flags; its shadow of 12 bytes of memory to host. -/
def chan63 (st : Nat) (src dst len : Nat) (flags : W32) : State :=
  withRegs on [(0x103F004, lo32 (st * 2 ^ 29)), (0x103F010, 64), (0x103F018, 0x5000), (0x103F020, 12), (0x103F024, 4),
    (0x103F030, lo32 src), (0x103F038, lo32 dst), (0x103F040, lo32 len), (0x103F044, flags)]
/-- Channel 63 running the program at the last instruction of the control SRAM. -/
def prog63 (b : List Byte) (ctr : List Nat) : State :=
  let s := (withRegs (chan63 1 0 0 0 0) [(0x103F000, 0x20000000), (0x103F05C, 0x3FFFE0)]).setChan 63 { DmaChan.init with prog := true, ctr := ctr }
  { s with csram := cells 0x3FFFE0 b }
def inst (l : List (Nat × Nat × Nat)) : List Byte := (recOf l).take 32
/-- Channel 63 moving `len` bytes of HBM from 64 into ring 9 (4,096 bytes, format 6), PROD − CONS as given. -/
def ringMove (len : Nat) (used : W32) : State :=
  withRegs (chan63 1 64 9 len 2) [(0x1100120, 0x300000), (0x1100128, 0x86600000), (0x1100130, used)] |>.setRng 9 { RingDyn.init with head := used.toNat }
/-- What a burst asks of channel 63 in `s`. -/
def burstOk (s : State) (unit : Nat) : Bool :=
  let left := (s.reg 0x103F040).toNat
  s.dActive 63 && s.devServes 63 && decide (0 < left ∧ left % unit = 0 ∧ s.reg64 0x103F030 % unit = 0 ∧ s.memEnd ≤ 2 ^ 39)

theorem wit_ChannelsMoveTheirTransfers_bursts :
    ([(0, 1), (0x10, 2), (0x20, 4), (0x30, 8), (0x40, 4)].all fun x =>
      burstOk (chan63 1 (2 ^ 39 + 0x3FFFF0) 0x5FF8 16 x.1) x.2 && burstOk (chan63 2 0x5FF8 64 16 (x.1 ||| 1)) x.2 &&
      burstOk (chan63 1 0x5FF0 (2 ^ 39) 16 (x.1 ||| 1)) x.2 && decide (0x5FF8 % x.2 = 0)) = true ∧
    2 ^ 39 + 0x3FFFF0 + 16 ≤ 2 ^ 39 + 0x400000 ∧ 8 = min 16 (4096 - 0x5FF8 % 4096) ∧ 16 = min 16 (4096 - 0x5FF0 % 4096) ∧
    (chan63 2 0x5FF8 64 16 1).dState 63 = 2 ∧
    (let s := ringMove 128 0
     burstOk s 1 = true ∧ s.dState 63 = 1 ∧ 9 < s.nRings ∧ s.rEn 9 = true ∧ s.rFmt 9 = 6 ∧ (s.rng 9).lost = [] ∧ s.reg64 0x103F038 % 2 ^ 15 = 9 ∧
       64 + 128 ≤ s.memEnd ∧ 128 = min 128 (4096 - (s.rBase 9 + (s.rng 9).head % s.rSize 9 * 64) % 4096) ∧ 2 ≤ s.rFree 9) ∧
    (let s := ringMove 128 63
     burstOk s 1 = true ∧ s.rFree 9 = 1 ∧ 64 = min 128 (4096 - (s.rBase 9 + (s.rng 9).head % s.rSize 9 * 64) % 4096)) ∧
    (let s := ringMove 128 64
     burstOk s 1 = true ∧ s.rFree 9 = 0 ∧ 128 = min 128 (4096 - (s.rBase 9 + (s.rng 9).head % s.rSize 9 * 64) % 4096)) ∧
    on.fabOpen 10 1 = true := by decide +kernel

theorem wit_ChannelsMoveTheirTransfers :
    (let s := chan63 0 0 0 0 0
     s.hostUp = true ∧ bit 1#32 0 = true ∧ s.rb 0x103F000 29 = false ∧ s.dState 63 = 0 ∧
       s.descBad (s.reg64 0x103F010) (s.reg64 0x103F018) (s.reg 0x103F020).toNat (s.reg 0x103F024 &&& 0xFF) = false ∧ on.reg 0x103F020 = 0 ∧
       on.dState 63 = 0) ∧
    ((chan63 1 0 0 8 0).dState 63 = 1 ∧ (chan63 2 0 0 8 0).dState 63 = 2 ∧ (chan63 4 0 0 8 0).dState 63 = 4 ∧ (chan63 2 0 0 8 0).dActive 63 = true ∧
      bit ((chan63 1 0 0 8 1).reg 0x103F044) 0 = true ∧ (withRegs on [(0x103F000, 0x20000000)]).rb 0x103F000 29 = true) ∧
    (let s := chan63 1 8 0x5FFC 12 0
     s.dState 63 = 1 ∧ s.devServes 63 = true ∧ s.dWrites 63 = true ∧ on.dWrites 63 = false ∧ (s.chan 63).prog = false ∧ 4 = min 12 (4096 - 0x5FFC % 4096) ∧ 8 + 12 ≤ s.memEnd ∧ 4 < 12 ∧ s.memEnd ≤ 2 ^ 39) ∧
    (8 = min 8 (4096 - 0x5FF8 % 4096) ∧ bit 1#32 2 = false ∧ bit 1#32 3 = false ∧ bit 1#32 7 = false) ∧
    (let s := prog63 (inst [(0, 1, 2), (1, 1, 3), (4, 4, 5)]) [0, 0, 0, 1]
     s.dState 63 = 1 ∧ (s.chan 63).prog = true ∧ (s.chan 63).moving = false ∧ (s.chan 63).ctr.length = 4 ∧ (s.chan 63).ctr.getD 3 0 = 1 ∧
       field (rdBytes s.csram (s.reg 0x103F05C).toNat 32) 0 1 = 2 ∧ field (rdBytes s.csram (s.reg 0x103F05C).toNat 32) 1 1 = 3) ∧
    (let s := prog63 (inst [(0, 1, 1), (1, 1, 1), (4, 4, 8), (8, 8, 0x5000), (16, 8, 64)]) [0, 0, 0, 0]
     let b := rdBytes s.csram (s.reg 0x103F05C).toNat 32
     field b 0 1 = 1 ∧ s.descBad (field b 8 8) (field b 16 8) (field b 4 4) (lo32 (field b 1 1)) = false) := by decide +kernel

/-! ### The pair -/

/-- In a pair in a role, lane 3 UP, own claim and the partner's as given. -/
def inPair (role own other : Nat) : State :=
  withRegs (laneAt on (.w 3) 4) [(0x600000, 0x80000000), (0x600004, lo32 (role * 2 ^ 29)), (0x600008, lo32 (own * 65536 + other))]
/-- The same, having heard the partner on lane 3 at 0. -/
def hearing (role : Nat) : State :=
  let s := inPair role 7 6
  { s with pair := { s.pair with present := true, hbTick := [(3, 0)] } }
def good (seq : Nat) : WFrame := ⟨3, true, seq⟩
def bad : WFrame := ⟨3, false, 0⟩
def standby0 : State := hearing 4

theorem wit_PairRolesFollowHeartbeats :
    (on.hostUp = true ∧ bit 0xC0000000#32 29 = false ∧ on.paired = false ∧ on.role = 0 ∧ bit 0xC0000000#32 31 = true ∧ (inPair 1 7 6).paired = true ∧
      bit 0#32 31 = false ∧ (inPair 1 7 6).cq.posts = [] ∧ bit 0xA0000000#32 29 = true ∧ bit 0xA0000000#32 31 = true ∧ bit 0xA0000000#32 30 = false) ∧
    ((inPair 4 0 65535).role = 4 ∧ (inPair 4 0 65535).asm_ = [] ∧ (inPair 4 0 65535).pair.follow = [] ∧ (inPair 4 0 65535).kilns = [] ∧
      (inPair 4 0 65535).pair.hold = [] ∧ (inPair 4 0 65535).plc.cur = none ∧ (inPair 4 0 65535).eng = [] ∧ (inPair 3 0 0).role ≤ 3) ∧
    (3 ∈ (inPair 2 7 6).wUp ∧ tget 0 (inPair 2 7 6).pair.hbSent 3 + 625 ≤ (inPair 2 7 6).time.ticks + 625) ∧
    ((inPair 1 7 6).hears (good 0) = true ∧ (inPair 1 7 6).hears bad = true ∧ (inPair 1 7 6).pair.replay = [] ∧ (inPair 1 7 6).fogged = false ∧
      (inPair 1 7 6).rb 0x600004 22 = false ∧ (inPair 2 7 6).beam.txq = [] ∧ (inPair 2 7 6).queuedServe = true ∧
      (inPair 2 7 6).pair.startsAnew 1 0 = true ∧ { (inPair 2 7 6).pair with heard := 3 }.startsAnew 4 0 = false ∧
      { (inPair 2 7 6).pair with heard := 4, txSeq := 9 }.startsAnew 3 0 = true ∧ (7 + 65536 - 6) % 65536 = 1 ∧ (7 + 65536 - 8) % 65536 = 65535 ∧ (7 + 65536 - 7) % 65536 = 0 ∧
      (7 + 65536 - 32776) % 65536 = 32767 ∧ (7 + 65536 - 32774) % 65536 = 32769) ∧
    ((hearing 2).heardLanes = (8 : BitVec 4).toNat ∧ (hearing 2).rf 0x600004 25 4 ≠ (8 : BitVec 4).toNat) ∧
    ((hearing 2).pair.present = true ∧ (hearing 2).pair.lastHb + 3125 ≤ (hearing 2).time.ticks + 3125 ∧ (hearing 2).role = 2 ∧ (hearing 4).role = 4) ∧
    ((withRegs (inPair 2 7 6) [(0x600000, 0xC0000000)]).role = 2 ∧ (withRegs (inPair 2 7 6) [(0x600000, 0xC0000000)]).rb 0x600000 30 = true ∧
      (withRegs (inPair 2 7 6) [(0x600000, 0xC0000000)]).paired = true) ∧
    ((inPair 2 7 6).pair.repSent + 625 ≤ (inPair 2 7 6).time.ticks + 625 ∧ (inPair 2 7 6).wUp ≠ []) := by decide +kernel

/-- Kiln 15 OPEN in a standby; the entry of FIRE 9 in core 7's follow log. -/
def openThere : State := (hearing 4).setKiln 15 { Kiln.init with state := 2 }
def followed : State := let s := openThere; { s with pair := { s.pair with follow := [(7, [⟨8, 6, []⟩, ⟨9, 3, []⟩])] } }
/-- FIRE of kiln 15 at boundary 512, issue 9 of core 7. -/
def fireItem : ConductItem := ⟨7, 9, 3, [0, 0, 15, 0, 0, 0, 0], 512, [], [], [], 0, []⟩
/-- A record of POST of core 2 held for ring 4 at position 11 of the stream. -/
def heldPost : HoldEntry := ⟨.ring 4, (11, 0), 64, [2]⟩
def holding (l : List HoldEntry) : State :=
  let s := hearing 4
  { s with pair := { s.pair with hold := l }, hbm := cells (0x5FF0000000 + 128) (recOf [(0, 2, 0x30 + 256 * 2), (14, 1, 1)]) }
/-- A snapshot of no plan; one of a plan that does not place. -/
def snap0 : Snapshot := ⟨[], [], [], [], List.replicate 4096 5, List.replicate 4096 6, true, none, [], [], [], []⟩
def snap1 : Snapshot := { snap0 with plan := badPlan.bytes }
def snapUnfit : Bool :=
  let s := ((hearing 3).loadSnap { snap1 with plan := [] }).setRole 4
  match (Plan.parse snap1.plan).place (s.itemEnv (Plan.parse snap1.plan) snap1.spans snap1.keys) with | .error _ => true | _ => false

theorem wit_StandbyFollowsTheSaggar :
    (standby0.up = true ∧ standby0.paired = true ∧ (good 5).seq < 2 ^ 32 ∧ standby0.pair.txSeq < 2 ^ 32 ∧ standby0.hears (good 1) = true ∧ standby0.hears bad = true ∧ 2 ≤ standby0.role ∧ (good 1).seq = (standby0.pair.rxSeq + 1) % 2 ^ 32 ∧
      standby0.pair.rxSeq < 2 ^ 32 ∧ (good 0).seq ≠ (standby0.pair.rxSeq + 1) % 2 ^ 32 ∧ (good 5).seq ≠ (standby0.pair.rxSeq + 1) % 2 ^ 32) ∧
    (followed.role = 4 ∧ followed.pair.unfit = false ∧ followed.hears (good 1) = true ∧ fireItem.cop = 3 ∧ fireItem.keeper < 8 ∧
      (fireItem.block.getD 2 0).toNat = 15 ∧ (followed.followLog fireItem.keeper).any (fun e => e.issue == fireItem.issue) = true ∧
      (followed.kiln 15).live = true) ∧
    ((holding [heldPost]).pair.hold = [heldPost] ∧ heldPost.stream = .ring 4 ∧ heldPost.pos.1 = 11 ∧ field ((holding [heldPost]).heldBytes heldPost) 0 2 = 0x30 + 256 * 2 ∧
      field ((holding [heldPost]).heldBytes heldPost) 14 1 = 1 ∧ heldPost.blocks.Nodup ∧ heldPost.len = 64 * heldPost.blocks.length ∧
      (List.replicate 48 (7 : Byte)).length + 16 = heldPost.len ∧ standby0.pair.hold = []) ∧
    ((hearing 2).role = 2 ∧ (hearing 3).role = 3 ∧ (hearing 2).hears (good 1) = true ∧ (hearing 3).hears (good 1) = true ∧ (hearing 3).err.upsets = []) ∧
    (standby0.cq.posts = [] ∧ standby0.kilns = [] ∧ (holding [heldPost, { heldPost with stream := .ring 5 }]).pair.hold.length < 2 ^ 32) := by decide +kernel
theorem wit_StandbyFollowsTheSaggar_snapshot : snap0.plan = [] ∧ snap0.gains0.length = 4096 ∧ snap0.gains1.length = 4096 :=
  ⟨rfl, List.length_replicate, List.length_replicate⟩

/-! ### An ill-formed command for each check -/

theorem test_wf_offsets : ([Instr.registerWrite 2 0 0, .registerWrite 0x4000000 0 0, .rcRegisterRead ⟨1, 8⟩, .rcRegisterRead ⟨2, 3⟩, .glzSettingWrite 0x4000000 0,
    .memoryWindowWrite 0x1FFFFFC 0 0, .memoryWindowWrite 0x2000002 0 0, .memoryWindowWrite 0x4000000 0 0, .doorbell 0x800000 8 0].all (fun i => !i.wf)) = true := by
  decide
theorem test_wf_lanes : ([Instr.lnCtlWrite (.rx 96) 0, .lnCtleWrite (.tx 32) 0, .laneSignalDetect (.w 4) 0, .txLaneUp 32 0, .dataFrame 96, .hailFrame 96,
    .buoyFrame 96, .rxFrameReceived (.rx 96) [], .prbsLock (.w 4) [], .eyeStart (.tx 32) 0, .txBeamFrameSent 32, .glzTxgEnable 64 0].all (fun i => !i.wf)) = true := by
  decide
theorem test_wf_units : ([Instr.islFreqGateEnd 0 [(497, 0)], .islFreqGateEnd 0 [(0, 2 ^ 24)], .srcTimeout 4096 0, .srcForget 4096 0, .fmtValidate 8 0, .slotDeadline 65536 0 0,
    .slotRelease 65536 none, .tileChunkStart 256, .kilnUpdate 16 0 none, .excludedWorkMove (.tile 256) 0, .excludedWorkMove (.slice 32) 0, .kilnBankClose 16 0 0,
    .klnCtlWrite 16 0, .klnFireTask 16, .beamVisitStart 256 none, .beamWindowClose 24 none, .glzGainWrite 2 0 0, .glzGainWrite 0 4096 0].all (fun i => !i.wf)) = true := by decide
theorem test_wf_detection : ([Instr.detGroupRestart 24, .detectOutput 24 0, .detectOutput 0 65536, .ltnStreamSample 4 0, .ltnStreamSample 0 16, .ltnTimeout 0 0 2 0,
    .ltnBlockWrite 4, .ltnEngDeadRead 4].all (fun i => !i.wf)) = true := by decide
theorem test_wf_cores : ([Instr.kNop 8, .kLd 8 0 0 0 0 none, .conductIssue 8 0 0 0 none, .place 8 none, .halt 8, .keeperStart 8].all (fun i => !i.wf)) = true := by decide
theorem test_wf_host : ([Instr.bar4Read (2 ^ 39) 1 none, .bar4Write 0 [0] [] 0 none, .bar4Resize 29, .bar4Resize 40, .cmdLoad 32768 none, .postRecordWrite 32768,
    .ctxCtlWrite 1024 0, .ringEnableWrite 32768 0, .hostCompletionTimeout (.dma 64), .hostCompletionTimeout (.command 32768), .dmaAbort 64,
    .hostLinkTraining 8 1 ⟨false, false⟩, .hostLinkTraining 1 17 ⟨false, false⟩].all (fun i => !i.wf)) = true := by decide
theorem test_wf_memory_and_pair : ([Instr.refreshInterval 512 0 0 0, .refreshInterval 0 64 0 0, .refreshWindowEnd 8 0, .hbmPowerDown 512 0, .memSrefRequest 8 0,
    .maintTokenGrant 32, .scrubDone 8, .timCmpArm 8 0 0, .timCmpArm 0 3 0, .timCapture 256, .refActivityLost 5, .bcnTaskWrite 112 0, .fabricGrant 12 0,
    .heartbeatSend 4 0, .heartbeat ⟨4, true, 0⟩ 0 0 0 0 0 false, .heartbeat ⟨0, true, 0⟩ 0 5 0 0 0 false, .report ⟨4, true, 0⟩ ⟨[], [], []⟩,
    .loss ⟨0, true, 0⟩ 65536 0 [] false, .join ⟨4, true, 0⟩ 0, .fillDone 0 [256] [], .bistDone [] [32], .thermSensorRead 0 [1, 2, 3, 4, 5, 6],
    .neighbourRefreshDone 32, .hbmTrainingDone 0 [(512, 1)] [], .hbmTrainingDone 0 [] [(256, 1)]].all (fun i => !i.wf)) = true := by decide

/-! ### The manual's worked examples -/

/-- One component of a K16 line over its first six updates: values and draws of the table of 02_number_formats.md. -/
theorem test_k16_updates : fitExp [5000000] 31 0 = 8 ∧ k16Round 8 (200 <<< 56) 5000000 = (19531, false) ∧ k16Round 8 (91 <<< 56) (4999936 - 4999000) = (4, false) ∧
    k16Round 8 (181 <<< 56) (1024 + 23) = (4, false) ∧ k16Round 8 (9 <<< 56) (1024 + 23) = (5, false) ∧ fitDown [5] 8 = 0 := by decide +kernel

/-- An entry of the invented digitiser family (03_lanes_and_ingest.md), and the header it decodes. -/
def family : Framing :=
  { fmt := 1, fds := [0x010C0000, 0x01080010, 0, 0x01100040, 0x010C0050, 0x01300060, 0x01100090, 0x011000A0], ctl := 0x84102030, opt := 7, bytes := [],
    hdrLeft := 0, payLeft := 0, ns := 0, sub := 0 }
def familyHdr : List Byte :=
  (List.replicate 2 0 ++ [0x10] ++ List.replicate 5 0 ++ [0x04, 0xB4, 0x02, 0x00, 0x00, 0x00, 0x00, 0x22, 0x55, 0x10] ++ List.replicate 22 0).map (BitVec.ofNat 8)
theorem test_foreign_header : fmtOk family.fds family.ctl = true ∧
    (let f := decodeFrame family familyHdr [] 0; f.ty = 1 ∧ f.chan = 1204 ∧ f.base = 512 ∧ f.index = 288000000) := by decide +kernel

/-- Baseline (512, 700) of channel 1,204 of the Orlend kiln, and the sixteen bytes of its word (05_firing_and_products.md). -/
theorem test_orlend_word :
    (let d : KilnDesc := ⟨0, 2048, 0, 4096, 96000, false, false, 96000⟩
     d.baselines = 2098176 ∧ d.word 1204 512 700 = 2527121852 ∧ d.words = 8594128896 ∧ d.groups = 33570816 ∧ d.bankBytes = 137506062336) ∧
    E48.ofBytes ([0x7C, 0x38, 0, 0, 0, 0, 0x30, 0xF3, 0xFF, 0xFF, 0xFF, 0xFF, 0x80, 0x76, 1, 0].map (BitVec.ofNat 8)) = ⟨14460, -3280, 95872⟩ := by decide +kernel

/-- The weight of input 512 in channel 1,204 (06_beams_and_detection.md). -/
theorem test_glaze_weight : glazeWeight 8192 4096 336789504000 (2 ^ 40) = (-64, -32) := by decide +kernel

/-- The circular pointer of R199: l = 48, m = 5, from offset 2 to 7, and from 47 to 4. -/
def circ (p : W24) : Core := { Core.init with p := Core.init.p.set 0 p, m := Core.init.m.set 0 5, l := Core.init.l.set 0 48 }
theorem test_circular_pointer : (ea (circ 0x1042) 0 2 0).2 = 0x1047 ∧ (ea (circ 0x106F) 0 2 0).2 = 0x1044 := by decide +kernel

/-- The maser fails: a step of −3,250 ps reads 0xFFFFF34E (13_time_and_references.md). -/
theorem test_reference_step : after (.refSwitchDone 38750 (-3250)) (withRegs on [(0x500004, 0x20000000), (0x500100, 0x60000000)])
    (fun t => t.reg 0x50000C == 0xFFFFF34E#32 && t.rf 0x500004 29 3 == 2) = true := by decide +kernel

/-- The lands that R383's table works out. -/
theorem test_lands : land 41 118 = some (.rail .vss) ∧ land 88 119 = some (.rx 53 false) ∧ land 87 118 = some (.rx 53 true) ∧
    land 57 18 = some (.pair (.pcieRx 5) false) ∧ land 59 18 = some (.pair (.pcieRx 5) true) ∧
    land 69 28 = some (.pin .foginN) ∧ land 30 45 = some (.rail .sram) ∧ land 100 65 = some (.rail (.vddc 3)) := by
  decide +kernel
/-- R380: 6,912 lands. -/
theorem test_land_count :
    ((List.range 121).map fun r => ((List.range 121).filter (fun c => landExists c r)).length).sum = 6912 := by decide +kernel

end Sys2Proof.Tests
end

section
/-! SUPPORT. What every step keeps: the canonical form of the register file and the memories, and the fuses. Each function of the model
that answers a state has its lemma here, in the order of the model: from a state that keeps them, it answers one that keeps them. The
proof follows the function, its steps one by one and its branches, by the lemmas of the functions it is made of. -/

namespace Sys2Proof.Machine

open State

variable {s₀ s : State} {α β γ δ : Type}

/-- An outcome whose next state, where it answers one, keeps what `s₀` has. -/
def KeepsNext (s₀ : State) (o : Host.Outcome State Fault Refusal) : Prop := ∀ t, o = .next t → Keeps s₀ t

/-- An optional result that, where there is one, holds at `π` a state that keeps what `s₀` has. -/
def KeepsOf (s₀ : State) (π : α → State) (o : Option α) : Prop := ∀ x, o = some x → Keeps s₀ (π x)

/-- An optional state that keeps, where there is one, what `s₀` has. -/
abbrev KeepsSome (s₀ : State) (o : Option State) : Prop := KeepsOf s₀ id o

theorem keepsNext_next (h : Keeps s₀ s) : KeepsNext s₀ (.next s) := fun t e => by
  injection e with e; exact e ▸ h

theorem keepsNext_ite {c : Prop} [Decidable c] {o p : Host.Outcome State Fault Refusal} (h : c → KeepsNext s₀ o)
    (k : ¬c → KeepsNext s₀ p) : KeepsNext s₀ (if c then o else p) := by
  split
  · exact h ‹_›
  · exact k ‹_›

theorem keepsNext_gate {ok : Bool} {f : State → State} (hf : Keeps s₀ (f s)) (h : Keeps s₀ s) :
    KeepsNext s₀ (gate ok s f) :=
  keepsNext_next (keeps_ite (fun _ => hf) fun _ => h)

theorem State.keeps_dozeAcc (h : Keeps s₀ s) : Keeps s₀ s.dozeAcc := keeps_setRb _ _ _ h

theorem keepsNext_writeGate {ok : Bool} {f : State → State} (hf : Keeps s₀ (f s)) (h : Keeps s₀ s) :
    KeepsNext s₀ (writeGate ok s f) :=
  keepsNext_next (keeps_ite (fun _ => keeps_ite (fun _ => hf) fun _ =>
    keeps_ite (fun _ => keeps_dozeAcc h) fun _ => h) fun _ => h)

theorem State.keeps_by_ {o : Host.Outcome State Fault Refusal} (ho : KeepsNext s₀ o) (h : Keeps s₀ s) :
    Keeps s₀ (s.by_ o) := by
  unfold State.by_; split
  · exact ho _ rfl
  · exact h

section
variable {π : α → State} {ρ : β → State} {o p : Option α}

theorem keepsOf_some {x : α} (h : Keeps s₀ (π x)) : KeepsOf s₀ π (some x) := fun y e => by
  injection e with e; exact e ▸ h

theorem keepsOf_none : KeepsOf s₀ π none := fun _ e => nomatch e

theorem keepsOf_ite {c : Prop} [Decidable c] (h : c → KeepsOf s₀ π o) (k : ¬c → KeepsOf s₀ π p) :
    KeepsOf s₀ π (if c then o else p) := by
  split
  · exact h ‹_›
  · exact k ‹_›

theorem keepsOf_bind {f : α → Option β} (ho : KeepsOf s₀ π o) (hf : ∀ x, Keeps s₀ (π x) → KeepsOf s₀ ρ (f x)) :
    KeepsOf s₀ ρ (o.bind f) := fun y e => by
  obtain ⟨x, ex, ey⟩ := Option.bind_eq_some_iff.1 e
  exact hf x (ho x ex) y ey

theorem keepsOf_map {f : α → β} (ho : KeepsOf s₀ π o) (hf : ∀ x, Keeps s₀ (π x) → Keeps s₀ (ρ (f x))) :
    KeepsOf s₀ ρ (o.map f) := fun y e => by
  obtain ⟨x, ex, rfl⟩ := Option.map_eq_some_iff.1 e
  exact hf x (ho x ex)

end

theorem keepsSome_some (h : Keeps s₀ s) : KeepsSome s₀ (some s) := keepsOf_some h
theorem keepsSome_none : KeepsSome s₀ none := keepsOf_none
theorem keepsSome_ite {c : Prop} [Decidable c] {o p : Option State} (h : c → KeepsSome s₀ o) (k : ¬c → KeepsSome s₀ p) :
    KeepsSome s₀ (if c then o else p) := keepsOf_ite h k

theorem State.keeps_elim {o : Option α} {t : State} {f : α → State} (ht : Keeps s₀ t) (hf : ∀ x, Keeps s₀ (f x)) :
    Keeps s₀ (o.elim t f) := by
  cases o with
  | none => exact ht
  | some x => exact hf x

theorem State.keeps_getD {o : Option State} (ho : KeepsSome s₀ o) (h : Keeps s₀ s) : Keeps s₀ (o.getD s) := by
  cases o with
  | none => exact h
  | some t => exact ho t rfl

/-- A fold that carries two results beside the state. -/
theorem State.keeps_foldl_pair₂ {f : β × γ × State → α → β × γ × State}
    (hf : ∀ b c t x, Keeps s₀ t → Keeps s₀ (f (b, c, t) x).2.2) (l : List α) {a : β × γ × State}
    (h : Keeps s₀ a.2.2) : Keeps s₀ (l.foldl f a).2.2 := by
  induction l generalizing a with
  | nil => exact h
  | cons x l ih => exact ih (hf a.1 a.2.1 a.2.2 x h)

/-- The state beside a result. -/
theorem State.Keeps.of_snd {p : α × State} {a : α} {t : State} (k : Keeps s₀ p.2) (e : p = (a, t)) : Keeps s₀ t := by
  subst e; exact k
theorem State.Keeps.of_snd₂ {p : α × β × State} {a : α} {b : β} {t : State} (k : Keeps s₀ p.2.2) (e : p = (a, b, t)) :
    Keeps s₀ t := by
  subst e; exact k
theorem State.Keeps.of_snd₃ {p : α × β × γ × State} {a : α} {b : β} {c : γ} {t : State} (k : Keeps s₀ p.2.2.2)
    (e : p = (a, b, c, t)) : Keeps s₀ t := by
  subst e; exact k

/-- Fields replaced that are neither the register file nor a memory nor the fuses. -/
theorem State.keeps_with {pending freeCtr link err mem time ref bcn xbr lanes srcs asm_ plc tiles kilns beam eng slots cores cq pair pwr}
    (h : Keeps s₀ s) : Keeps s₀
      ⟨pending, s.fuse, freeCtr, s.regs, s.hbm, s.csram, s.host, link, err, mem, time, ref, bcn, xbr, lanes, srcs, asm_, plc, tiles,
        kilns, beam, eng, slots, cores, cq, pair, pwr⟩ := h

/-! ### Ops -/

theorem State.keeps_setPwr (f : PwrSt → PwrSt) (h : Keeps s₀ s) : Keeps s₀ (s.setPwr f) := keeps_with h

/-! ### Ecc -/

theorem State.keeps_freshLines (a n : Nat) (h : Keeps s₀ s) : Keeps s₀ (s.freshLines a n) :=
  keeps_setErr _ (keeps_clean _ _ _ _ h)
/-- A merge met in a context of its own, as that of a DMA channel. -/
theorem State.keeps_hbmMerge_ctx (a : Nat) (b : List Byte) (en : List Bool) (access ctx : Nat) (h : Keeps s₀ s) :
    Keeps s₀ (s.hbmMerge a b en access ctx).2 := by
  unfold State.hbmMerge
  refine keeps_foldl_pair (fun _ t l k => ?_) _ h
  have read : Keeps s₀ ((t.scan 0 0 l (l + 64) access ctx false).2.touch l 64) := keeps_touch _ _ (keeps_scan _ _ _ _ _ _ _ k)
  dsimp only
  split
  · exact k
  · split
    · exact keeps_ite (fun _ => keeps_hostWrites _ _ _ (keeps_hbmPut _ _ k)) (fun _ => keeps_hbmWrite _ _ k)
    · split
      · exact keeps_touch _ _ (keeps_hbm _ (Memory.wf_wrBytesEn _ _ _) (keeps_ite
          (fun _ => keeps_hostWrites _ _ _ (keeps_hbmLose _ (keeps_setErr _ read))) (fun _ => keeps_unitWrites (keeps_setErr _ read))))
      · exact read

/-! ### Rings -/

theorem State.keeps_msix (v : Nat) (h : Keeps s₀ s) : Keeps s₀ (s.msix v) :=
  keeps_ite (fun _ => keeps_setRb _ _ _ h) (fun _ => keeps_with h)
theorem State.keeps_msixMask (v : Nat) (x : W32) (h : Keeps s₀ s) : Keeps s₀ (s.msixMask v x) := by
  unfold State.msixMask
  extract_lets t
  have k : Keeps s₀ t := keeps_setReg _ _ h
  exact keeps_ite (fun _ => keeps_msix _ (keeps_setRb _ _ _ k)) (fun _ => k)
theorem State.keeps_rWrite (r pos : Nat) (b : List Byte) (h : Keeps s₀ s) : Keeps s₀ (s.rWrite r pos b) :=
  keeps_host _ (fun w => Memory.wf_wrBytes _ _ (Memory.wf_wrBytes _ _ w)) h
theorem State.keeps_rCount (r : Nat) (h : Keeps s₀ s) : Keeps s₀ (s.rCount r) := keeps_setRng _ _ h
theorem State.keeps_rDropped (r : Nat) (h : Keeps s₀ s) : Keeps s₀ (s.rDropped r) := keeps_rCount _ (keeps_cnt _ _ h)
theorem State.keeps_rWait (r : Nat) (who : Offerer) (len : Nat) (h : Keeps s₀ s) : Keeps s₀ (s.rWait r who len) :=
  keeps_setRng _ _ h
theorem State.keeps_rServed (r : Nat) (who : Offerer) (h : Keeps s₀ s) : Keeps s₀ (s.rServed r who) := keeps_setRng _ _ h
theorem State.keeps_rOwe (r : Nat) (o : Owed) (h : Keeps s₀ s) : Keeps s₀ (s.rOwe r o) :=
  keeps_ite (fun _ => h) (fun _ => keeps_setRng _ _ h)
theorem State.keeps_holdWrite (l : List Nat) (b : List Byte) (h : Keeps s₀ s) : Keeps s₀ (s.holdWrite l b) := by
  induction l generalizing s b with
  | nil => exact h
  | cons a l ih => exact ih _ (keeps_hbmWrite _ _ h)
theorem State.keeps_heldRead (e : HoldEntry) (h : Keeps s₀ s) : Keeps s₀ (s.heldRead e).2 :=
  keeps_foldl (fun _ _ k => keeps_hbmRead _ _ _ _ k) _ h
theorem State.keeps_dropHeld (e : HoldEntry) (h : Keeps s₀ s) : Keeps s₀ (s.dropHeld e) := keeps_with h
theorem State.keeps_heldOut (r rseq : Nat) (emitted : Bool) (h : Keeps s₀ s) : Keeps s₀ (s.heldOut r rseq emitted) :=
  keeps_with (keeps_ite (fun _ => keeps_foldl (fun _ _ k => keeps_rOwe _ _ k) _ h) (fun _ => h))
theorem State.keeps_hold (stream : Stream) (pos : Nat × Nat) (bytes : List Byte) (covered : Bool) (h : Keeps s₀ s) :
    Keeps s₀ (s.hold stream pos bytes covered) :=
  keeps_ite (fun _ => keeps_cnt _ _ h) (fun _ => keeps_ite (fun _ => keeps_with (keeps_holdWrite _ _ h))
    (fun _ => keeps_with (keeps_cnt _ _ h)))
theorem State.keeps_goneOff (r : Nat) (who : Offerer) (h : Keeps s₀ s) : Keeps s₀ (s.goneOff r who) := by
  unfold State.goneOff
  split
  · extract_lets
    split
    · exact keeps_ite (fun _ => keeps_cnt _ _ h) (fun _ => keeps_rDropped _ (keeps_setKiln _ _ h))
    · exact keeps_rDropped _ h
  · exact keeps_rDropped _ h
theorem State.keeps_ringOff (r : Nat) (h : Keeps s₀ s) : Keeps s₀ (s.ringOff r) :=
  keeps_setRb _ _ _ (keeps_setRng _ _ (keeps_foldl (fun _ _ k1 => keeps_dropHeld _ (keeps_heldOut _ _ _ k1)) _
    (keeps_cnt _ _ (keeps_foldl (fun _ _ k2 => keeps_goneOff _ _ k2) _ h))))
theorem State.keeps_rLook (r : Nat) (h : Keeps s₀ s) : Keeps s₀ (s.rLook r) := by
  unfold State.rLook
  split
  rename_i t e
  have k : Keeps s₀ t := (keeps_scan _ _ _ _ _ _ _ h).of_snd e
  exact keeps_ite (fun _ => k) (fun _ => keeps_ringOff _ k)
theorem State.keeps_rPut (r rseq : Nat) (b : List Byte) (h : Keeps s₀ s) : Keeps s₀ (s.rPut r rseq b) := by
  unfold State.rPut
  extract_lets _ _ t
  have k : Keeps s₀ t := keeps_setRng _ _ (keeps_rWrite _ _ _ h)
  exact keeps_ite (fun _ => keeps_with k) (fun _ => k)
theorem State.keeps_emitHeld (r : Nat) (l : List HoldEntry) (h : Keeps s₀ s) : Keeps s₀ (s.emitHeld r l) := by
  induction l generalizing s with
  | nil => exact h
  | cons e l ih =>
    exact keeps_ite
      (fun _ => keeps_ite (fun _ => ih (keeps_heldOut _ _ _ (keeps_rPut _ _ _ (keeps_dropHeld _ (keeps_heldRead _ h))))) fun _ => h)
      (fun _ => keeps_ite (fun _ => ih (keeps_heldOut _ _ _ (keeps_cnt _ _ (keeps_dropHeld _ h)))) fun _ => h)
theorem State.keeps_flushHeld (r : Nat) (h : Keeps s₀ s) : Keeps s₀ (s.flushHeld r) := keeps_emitHeld _ _ (keeps_rLook _ h)
theorem State.keeps_offerAs (r : Nat) (who : Offerer) (pairStream store : Bool) (len extra : Nat) (mk : Nat → Nat → List Byte)
    (h : Keeps s₀ s) : Keeps s₀ (s.offerAs r who pairStream store len extra mk).2 := by
  unfold State.offerAs
  extract_lets t1 t2
  have k1 : Keeps s₀ t1 := keeps_rLook _ h
  have k2 : Keeps s₀ t2 := keeps_ite (fun _ => keeps_flushHeld _ k1) (fun _ => k1)
  split
  · exact keeps_rServed _ _ k1
  · split
    · exact keeps_rWait _ _ _ k2
    · split
      · split
        · split
          · exact keeps_rDropped _ k2
          · exact k2
        · split
          · exact k2
          · split
            · exact keeps_rCount _ (keeps_hold _ _ _ _ k2)
            · exact keeps_rCount _ k2
      · split
        · exact keeps_rDropped _ k2
        · split
          · exact keeps_rServed _ _ (keeps_rCount _ (keeps_rPut _ _ _ k2))
          · split
            · exact keeps_rDropped _ k2
            · exact keeps_rWait _ _ _ k2
theorem State.keeps_offer (r : Nat) (who : Offerer) (pairStream : Bool) (len : Nat) (mk : Nat → Nat → List Byte)
    (h : Keeps s₀ s) : Keeps s₀ (s.offer r who pairStream len mk).2 :=
  keeps_offerAs _ _ _ _ _ _ _ h
theorem State.keeps_ringOn (r : Nat) (h : Keeps s₀ s) : Keeps s₀ (s.ringOn r) :=
  keeps_setRng _ _ (keeps_setRb _ _ _ (keeps_setRb _ _ _ (keeps_with h)))
theorem State.keeps_ringCfg (r : Nat) (v : W32) (h : Keeps s₀ s) : Keeps s₀ (s.ringCfg r v) := by
  unfold State.ringCfg
  refine keeps_ite (fun _ => keeps_ite (fun _ => h) (fun _ => keeps_setReg _ _ (keeps_ringOff _ h))) (fun _ => ?_)
  extract_lets t
  have k : Keeps s₀ t := keeps_setReg _ _ h
  exact keeps_ite (fun _ => k) (fun _ => keeps_ite (fun _ => keeps_setRb _ _ _ k) (fun _ => keeps_ringOn _ k))
theorem State.keeps_ringWrite (r w : Nat) (v : W32) (h : Keeps s₀ s) : Keeps s₀ (s.ringWrite r w v) := by
  unfold State.ringWrite
  extract_lets t
  have k : Keeps s₀ t := keeps_clean _ _ _ _ h
  split
  · exact keeps_ringCfg _ _ k
  · exact keeps_ite (fun _ => keeps_setRf _ _ _ _ k) (fun _ => keeps_plainWrite _ _ k)
  · exact keeps_plainWrite _ _ k
  · exact keeps_ite (fun _ => k) (fun _ => keeps_plainWrite _ _ k)
theorem State.keeps_attach (c : Nat) (h : Keeps s₀ s) : Keeps s₀ (s.attach c) := keeps_setRb _ _ _ h
theorem State.keeps_detach (c : Nat) (h : Keeps s₀ s) : Keeps s₀ (s.detach c) :=
  keeps_setRb _ _ _ (keeps_foldl (fun _ _ k => keeps_setRf _ _ _ _ (keeps_ringOff _ k)) _ h)
theorem State.keeps_writeback (r : Nat) (h : Keeps s₀ s) : Keeps s₀ (s.writeback r) :=
  keeps_host _ (Memory.wf_wrBytes _ _) (keeps_setRng _ _ (keeps_setReg _ _ h))
theorem State.keeps_ringIrq (r : Nat) (h : Keeps s₀ s) : Keeps s₀ (s.ringIrq r) := keeps_msix _ (keeps_setRng _ _ h)
theorem State.keeps_countIrq (r : Nat) (h : Keeps s₀ s) : Keeps s₀ (s.countIrq r) :=
  keeps_ite (fun _ => keeps_ringIrq _ h) (fun _ => h)
theorem State.keeps_ringDoorbell (c : Nat) (v : W64) (h : Keeps s₀ s) : Keeps s₀ (s.ringDoorbell c v) := by
  unfold State.ringDoorbell
  extract_lets _ t1
  have k1 : Keeps s₀ t1 := keeps_ite (fun _ => keeps_rLook _ h) (fun _ => h)
  split
  · extract_lets t2
    have k2 : Keeps s₀ t2 := keeps_setReg _ _ k1
    exact keeps_ite (fun _ => keeps_flushHeld _ k2) (fun _ => k2)
  · exact keeps_cnt _ _ k1
theorem keepsNext_execDoorbell (off len : Nat) (val : W64) (h : Keeps s₀ s) : KeepsNext s₀ (execDoorbell off len val s) :=
  keepsNext_gate (keeps_ringDoorbell _ _ h) h
theorem keepsNext_execRingEnableWrite (r : Nat) (v : W32) (h : Keeps s₀ s) : KeepsNext s₀ (execRingEnableWrite r v s) :=
  keepsNext_gate (keeps_ringWrite _ _ _ h) h
theorem keepsNext_execCtxCtlWrite (c : Nat) (v : W32) (h : Keeps s₀ s) : KeepsNext s₀ (execCtxCtlWrite c v s) :=
  keepsNext_gate (keeps_ite (fun _ => keeps_attach _ h) (fun _ => keeps_ite (fun _ => keeps_detach _ h) (fun _ => h))) h
theorem keepsNext_execIndexWriteback (r : Nat) (h : Keeps s₀ s) : KeepsNext s₀ (execIndexWriteback r s) := by
  unfold execIndexWriteback
  refine keepsNext_gate ?_ h
  extract_lets t
  have k : Keeps s₀ t := keeps_rLook _ h
  exact keeps_ite (fun _ => keeps_countIrq _ (keeps_writeback _ k)) (fun _ => k)
theorem keepsNext_execMsixTimer (r dt : Nat) (h : Keeps s₀ s) : KeepsNext s₀ (execMsixTimer r dt s) := by
  unfold execMsixTimer
  extract_lets
  refine keepsNext_gate ?_ h
  extract_lets t
  have k : Keeps s₀ t := keeps_rLook _ (keeps_advance _ h)
  exact keeps_ite (fun _ => keeps_ringIrq _ (keeps_writeback _ k)) (fun _ => k)

/-! ### Host -/

theorem State.keeps_early (h : Keeps s₀ s) : Keeps s₀ s.early := keeps_setRb _ _ _ h
theorem State.keeps_answer (b : List Byte) (poison : Bool) (h : Keeps s₀ s) : Keeps s₀ (s.answer b poison) := keeps_with h
theorem State.keeps_bar4Rd (a n : Nat) (h : Keeps s₀ s) : Keeps s₀ (s.bar4Rd a n) := by
  unfold State.bar4Rd
  extract_lets
  split
  rename_i e
  exact keeps_answer _ _ ((keeps_hbmRead _ _ _ _ h).of_snd₂ e)
theorem State.keeps_bar4Wr (a : Nat) (b : List Byte) (en : List Bool) (h : Keeps s₀ s) : Keeps s₀ (s.bar4Wr a b en) :=
  keeps_hbmMerge _ _ _ _ h
theorem keepsNext_execBar4Read (off len : Nat) (up : Option Upset) (h : Keeps s₀ s) :
    KeepsNext s₀ (execBar4Read off len up s) := by
  unfold execBar4Read
  refine keepsNext_gate ?_ h
  extract_lets t
  have k : Keeps s₀ t := keeps_upset _ h
  exact keeps_ite (fun _ => keeps_answer _ _ (keeps_early k)) (fun _ => keeps_bar4Rd _ _ k)
theorem keepsNext_execBar4Write (off : Nat) (bytes : List Byte) (en : List Bool) (poisoned : Bool) (up : Option Upset)
    (h : Keeps s₀ s) : KeepsNext s₀ (execBar4Write off bytes en poisoned up s) := by
  unfold execBar4Write
  refine keepsNext_gate ?_ h
  extract_lets t
  have k : Keeps s₀ t := keeps_upset _ h
  exact keeps_ite (fun _ => keeps_early k) (fun _ => keeps_ite (fun _ => k) (fun _ => keeps_bar4Wr _ _ _ k))
theorem keepsNext_execBar4Resize (log2 : Nat) (h : Keeps s₀ s) : KeepsNext s₀ (execBar4Resize log2 s) :=
  keepsNext_gate (keeps_setReg64 _ _ (keeps_with h)) h
theorem State.keeps_winWrite (off : Nat) (v : W32) (h : Keeps s₀ s) : Keeps s₀ (s.winWrite off v) :=
  keeps_ite (fun _ => (keeps_setReg _ _ h)) (fun _ => h)
theorem State.keeps_sramRd (at_ : SramAt) (n access : Nat) (h : Keeps s₀ s) : Keeps s₀ (s.sramRd at_ n access).2.2 := by
  unfold State.sramRd
  split
  · exact keeps_csRead _ _ _ _ h
  · split
    rename_i e
    exact (keeps_scan _ _ _ _ _ _ _ h).of_snd e
  · split
    rename_i e
    exact (keeps_scan _ _ _ _ _ _ _ h).of_snd e
@[simp] theorem State.cleanEn_csram (c u a : Nat) (l : List Bool) : (s.cleanEn c u a l).csram = s.csram := by
  induction l generalizing s a with
  | nil => rfl
  | cons e l ih =>
    refine (ih _).trans ?_
    split <;> rfl

theorem State.keeps_sramWr (at_ : SramAt) (loader : Bool) (b : List Byte) (en : List Bool) (h : Keeps s₀ s) :
    Keeps s₀ (s.sramWr at_ loader b en) := by
  unfold State.sramWr
  split
  · exact keeps_csram _ (by simpa using Memory.wf_wrBytesEn _ b en) (keeps_cleanEn _ _ _ _ h)
  · exact keeps_ite (fun _ => h) (fun _ => keeps_setCore _ _ (keeps_cleanEn _ _ _ _ h))
  · exact keeps_setCore _ _ (keeps_cleanEn _ _ _ _ h)
theorem keepsNext_execMemoryWindowWrite (off : Nat) (val : W32) (be : BitVec 4) (h : Keeps s₀ s) :
    KeepsNext s₀ (execMemoryWindowWrite off val be s) := by
  unfold execMemoryWindowWrite
  refine keepsNext_gate (keeps_ite (fun _ => keeps_early h) (fun _ => keeps_ite (fun _ => keeps_dozeAcc h) (fun _ => ?_))) h
  split
  · exact keeps_fabGo _ _ (fun _ k => keeps_sramWr _ _ _ _ k) h
  · exact h
theorem keepsNext_execHostLinkTraining (rate width : Nat) (mode : LinkMode) (h : Keeps s₀ s) :
    KeepsNext s₀ (execHostLinkTraining rate width mode s) :=
  keepsNext_gate (keeps_setRb _ _ _ (keeps_setRb _ _ _ (keeps_setRf _ _ _ _ (keeps_setRf _ _ _ _ h)))) h

/-! ### Dma -/

theorem State.keeps_setD (c st : Nat) (h : Keeps s₀ s) : Keeps s₀ (s.setD c st) := keeps_setRf _ _ _ _ h
theorem State.keeps_writeSrec (c cause : Nat) (armed : Bool) (h : Keeps s₀ s) : Keeps s₀ (s.writeSrec c cause armed) :=
  keeps_ite (fun _ => h) (fun _ => keeps_host _ (Memory.wf_wrBytes _ _) h)
theorem State.keeps_dStop (c cause : Nat) (h : Keeps s₀ s) : Keeps s₀ (s.dStop c cause) := by
  unfold State.dStop
  extract_lets _ _ t
  have k : Keeps s₀ t := keeps_writeSrec _ _ _ (keeps_setRf _ _ _ _ (keeps_setD _ _ h))
  exact keeps_publish _ (keeps_msix _ (keeps_setChan _ _ (keeps_ite (fun _ => keeps_rServed _ _ k) (fun _ => k))))
theorem State.keeps_dStart (c src dst len : Nat) (flags : W32) (h : Keeps s₀ s) : Keeps s₀ (s.dStart c src dst len flags) := by
  unfold State.dStart
  extract_lets _ _ _ _ t1 t2
  have k1 : Keeps s₀ t1 := keeps_setChan _ _ (keeps_setD _ _
    (keeps_setReg _ _ (keeps_setReg _ _ (keeps_setReg _ _ (keeps_setReg64 _ _
    (keeps_setReg64 _ _ (keeps_ite (fun _ => keeps_rLook _ h) (fun _ => h))))))))
  have k2 : Keeps s₀ t2 := keeps_ite (fun _ => keeps_rServed _ _ k1) (fun _ => k1)
  exact keeps_ite (fun _ => keeps_dStop _ _ k2) (fun _ => k2)
theorem State.keeps_dShadow (c : Nat) (h : Keeps s₀ s) : Keeps s₀ (s.dShadow c) := keeps_dStart _ _ _ _ _ h
theorem State.keeps_dComplete (c : Nat) (h : Keeps s₀ s) : Keeps s₀ (s.dComplete c) := by
  unfold State.dComplete
  extract_lets _ _ _ t1 t2 t3 t4
  have k1 : Keeps s₀ t1 := keeps_setReg _ _ (keeps_setRb _ _ _ (keeps_setChan _ _ h))
  have k2 : Keeps s₀ t2 := keeps_ite (fun _ => keeps_writeSrec _ _ _ k1) (fun _ => k1)
  have k3 : Keeps s₀ t3 := keeps_ite (fun _ => keeps_msix _ k2) (fun _ => k2)
  have k4 : Keeps s₀ t4 := keeps_ite (fun _ => keeps_publish _ k3) (fun _ => k3)
  exact keeps_ite (fun _ => keeps_setReg _ _ k4) (fun _ => keeps_ite (fun _ => keeps_dShadow _ k4) (fun _ => keeps_setD _ _ k4))
theorem State.keeps_devRead (c a n : Nat) (h : Keeps s₀ s) : Keeps s₀ (s.devRead c a n).2 := by
  unfold State.devRead
  split
  · exact keeps_csRead _ _ _ _ h
  · exact keeps_hbmRead _ _ _ _ h
theorem State.keeps_devWrite (c a : Nat) (b : List Byte) (h : Keeps s₀ s) : Keeps s₀ (s.devWrite c a b) :=
  keeps_ite (fun _ => keeps_csWrite _ _ h) (fun _ => keeps_hbmMerge_ctx _ _ _ _ _ h)
theorem State.keeps_dAdvance (c n : Nat) (h : Keeps s₀ s) : Keeps s₀ (s.dAdvance c n) := by
  unfold State.dAdvance
  extract_lets _ t
  have k : Keeps s₀ t := keeps_setReg64 _ _ h
  exact keeps_setChan _ _ (keeps_setReg _ _ (keeps_ite (fun _ => k) (fun _ => keeps_setReg64 _ _ k)))
theorem State.keeps_dMove (c n : Nat) (h : Keeps s₀ s) : Keeps s₀ (s.dMove c n) := by
  unfold State.dMove
  extract_lets
  refine keeps_ite (fun _ => h) (fun _ => keeps_ite (fun _ => keeps_dAdvance _ _ (keeps_devWrite _ _ _ h)) (fun _ => ?_))
  split
  rename_i t e
  have k : Keeps s₀ t := (keeps_devRead _ _ _ h).of_snd e
  extract_lets
  exact keeps_ite (fun _ => keeps_dAdvance _ _ (keeps_rServed _ _ (keeps_rPut _ _ _ k)))
    (fun _ => keeps_dAdvance _ _ (keeps_host _ (Memory.wf_wrBytes _ _) k))
theorem State.keeps_dBurstDone (c : Nat) (h : Keeps s₀ s) : Keeps s₀ (s.dBurstDone c) := by
  unfold State.dBurstDone
  extract_lets _ _ _ _ t1 t2
  have k1 : Keeps s₀ t1 := keeps_dMove _ _ h
  have k2 : Keeps s₀ t2 := keeps_dMove _ _ h
  refine keeps_ite (fun _ => ?_) (fun _ => keeps_ite (fun _ => keeps_dStop _ _ k2)
    (fun _ => keeps_ite (fun _ => keeps_dComplete _ k2) (fun _ => k2)))
  split
  rename_i t3 e
  have k3 : Keeps s₀ t3 := by
    refine Keeps.of_snd ?_ e
    split
    · exact keeps_scan _ _ _ _ _ _ _ k1
    · exact keeps_scan _ _ _ _ _ _ _ k1
  exact keeps_dStop _ _ k3
theorem State.keeps_dFetch (c : Nat) (h : Keeps s₀ s) : Keeps s₀ (s.dFetch c).2.2 := keeps_csRead _ _ _ _ h
theorem State.keeps_dNext (c : Nat) (h : Keeps s₀ s) : Keeps s₀ (s.dNext c) := keeps_setReg _ _ h
theorem keepsNext_execDmaShadowGo (c : Nat) (v : W32) (h : Keeps s₀ s) : KeepsNext s₀ (execDmaShadowGo c v s) := by
  unfold execDmaShadowGo
  refine keepsNext_gate ?_ h
  split
  · exact keeps_dShadow _ h
  · exact keeps_setD _ _ h
  · exact keeps_setRb _ _ _ h
theorem keepsNext_execDmaAbort (c : Nat) (h : Keeps s₀ s) : KeepsNext s₀ (execDmaAbort c s) :=
  keepsNext_gate (keeps_ite (fun _ => keeps_setD _ _ (keeps_setChan _ _ h)) (fun _ => keeps_dStop _ _ h)) h
theorem State.keeps_freeMask (n : Nat) (h : Keeps s₀ s) : Keeps s₀ (s.freeMask n).2 := keeps_with h
theorem State.keeps_dKill (c : Nat) (h : Keeps s₀ s) : Keeps s₀ (s.dKill c) := by
  unfold State.dKill
  extract_lets _ _ _ t1
  have k1 : Keeps s₀ t1 := by
    refine keeps_ite (fun _ => ?_) (fun _ => h)
    split
    rename_i e
    split
    rename_i e1
    exact keeps_host _ (Memory.wf_wrBytesEn _ _ _) ((keeps_freeMask _ ((keeps_devRead _ _ _ h).of_snd e)).of_snd e1)
  split
  rename_i e2
  split
  rename_i e3
  extract_lets _ t2
  have k2 : Keeps s₀ t2 := keeps_setReg _ _ (keeps_setReg _ _
    (keeps_setRf _ _ _ _ (keeps_setD _ _ ((keeps_free ((keeps_free k1).of_snd e2)).of_snd e3))))
  exact keeps_setChan _ _ (keeps_ite (fun _ => keeps_rServed _ _ k2) (fun _ => k2))
theorem keepsNext_execDmaKill (c : Nat) (h : Keeps s₀ s) : KeepsNext s₀ (execDmaKill c s) := keepsNext_gate (keeps_dKill _ h) h
theorem keepsNext_execDmaProgStart (c : Nat) (h : Keeps s₀ s) : KeepsNext s₀ (execDmaProgStart c s) := by
  unfold execDmaProgStart
  refine keepsNext_gate ?_ h
  extract_lets
  exact keeps_setD _ _ (keeps_setReg _ _ (keeps_setReg _ _ (keeps_setChan _ _ (keeps_setReg _ _ h))))
theorem keepsNext_execDmaBurstComplete (c : Nat) (up : Option Upset) (h : Keeps s₀ s) :
    KeepsNext s₀ (execDmaBurstComplete c up s) := by
  unfold execDmaBurstComplete
  refine keepsNext_gate ?_ h
  extract_lets t1 _ t2
  have k1 : Keeps s₀ t1 := keeps_upset _ h
  have k2 : Keeps s₀ t2 := keeps_rLook _ k1
  exact keeps_ite (fun _ => keeps_ite (fun _ => keeps_dStop _ _ k2)
    (fun _ => keeps_ite (fun _ => keeps_dBurstDone _ k2) (fun _ => keeps_ite (fun _ => keeps_dStop _ _ k2)
    (fun _ => keeps_rWait _ _ _ k2)))) (fun _ => keeps_dBurstDone _ k1)
theorem State.keeps_dOp (c o : Nat) (b : List Byte) (h : Keeps s₀ s) : Keeps s₀ (s.dOp c o b) := by
  unfold State.dOp
  split
  · exact keeps_dStop _ _ h
  · extract_lets
    exact keeps_dStart _ _ _ _ _ (keeps_setChan _ _ h)
  · extract_lets _ _ _ _ _ _ t
    have k : Keeps s₀ t := keeps_setChan _ _ h
    exact keeps_ite (fun _ => keeps_dStop _ _ h) (fun _ => keeps_ite (fun _ => keeps_dNext _ k)
      (fun _ => keeps_ite (fun _ => keeps_dStop _ _ k) (fun _ => keeps_setReg _ _ k)))
  · exact keeps_setD _ _ (keeps_setChan _ _ h)
  · extract_lets
    exact keeps_dNext _ (keeps_ite (fun _ => keeps_publish _ h) (fun _ => h))
  · exact keeps_dStop _ _ h
theorem State.keeps_dFetched (c : Nat) (h : Keeps s₀ s) : Keeps s₀ (s.dFetched c) := by
  unfold State.dFetched
  split
  rename_i t e
  have k : Keeps s₀ t := (keeps_dFetch _ h).of_snd₂ e
  exact keeps_ite (fun _ => keeps_dStop _ _ k) (fun _ => keeps_dOp _ _ _ k)
theorem State.keeps_dInstr (c op : Nat) (h : Keeps s₀ s) : Keeps s₀ (s.dInstr c op) := by
  unfold State.dInstr
  split
  extract_lets
  exact keeps_ite (fun _ => keeps_fabUnit _ _ (fun _ k => keeps_dFetched _ k) h) (fun _ => h)
theorem keepsNext_dmaRow (c op : Nat) (h : Keeps s₀ s) : KeepsNext s₀ (dmaRow c op s) := keepsNext_gate (keeps_dInstr _ _ h) h
theorem keepsNext_execDmaEnd (c : Nat) (h : Keeps s₀ s) : KeepsNext s₀ (execDmaEnd c s) := keepsNext_dmaRow _ _ h
theorem keepsNext_execDmaMove (c : Nat) (h : Keeps s₀ s) : KeepsNext s₀ (execDmaMove c s) := keepsNext_dmaRow _ _ h
theorem keepsNext_execDmaLoop (c : Nat) (h : Keeps s₀ s) : KeepsNext s₀ (execDmaLoop c s) := keepsNext_dmaRow _ _ h
theorem keepsNext_execDmaWait (c : Nat) (h : Keeps s₀ s) : KeepsNext s₀ (execDmaWait c s) := keepsNext_dmaRow _ _ h
theorem keepsNext_execDmaSignal (c : Nat) (h : Keeps s₀ s) : KeepsNext s₀ (execDmaSignal c s) := keepsNext_dmaRow _ _ h
theorem State.keeps_dmaEvent (ch : Nat) (h : Keeps s₀ s) : Keeps s₀ (s.dmaEvent ch) :=
  keeps_foldl (fun _ _ k => keeps_dNext _ (keeps_setD _ _ (keeps_setChan _ _ k))) _ h
theorem State.keeps_dmaHostError (c : Nat) (h : Keeps s₀ s) : Keeps s₀ (s.dmaHostError c) :=
  keeps_ite (fun _ => keeps_dStop _ _ h) (fun _ => h)

/-! ### Time -/

theorem State.keeps_cmpJudge (i n : Nat) (h : Keeps s₀ s) : Keeps s₀ (State.cmpJudge i n s) := by
  induction n generalizing s with
  | zero => exact h
  | succ n ih =>
    have fired := keeps_setRb (oCmp i + 8) 0 true (keeps_publish i h)
    have missed := keeps_setRb (oCmp i + 8) 1 true h
    exact keeps_ite
      (fun _ => keeps_ite (fun _ => keeps_setRb _ _ _ fired) fun _ => ih (keeps_setReg _ _ fired))
      (fun _ => keeps_ite (fun _ => h) fun _ => keeps_ite (fun _ => keeps_setRb _ _ _ missed) fun _ => keeps_setReg _ _ missed)
theorem State.keeps_cmpFire (i : Nat) (h : Keeps s₀ s) : Keeps s₀ (s.cmpFire i) := by
  unfold State.cmpFire
  extract_lets t
  have k : Keeps s₀ t := keeps_setRb _ _ _ (keeps_publish _ h)
  exact keeps_ite (fun _ => keeps_setRb _ _ _ k) (fun _ => keeps_cmpJudge _ _ (keeps_setReg _ _ k))
theorem State.keeps_cmpArm (i : Nat) (h : Keeps s₀ s) : Keeps s₀ (s.cmpArm i) :=
  keeps_ite (fun _ => keeps_cmpJudge _ _ h) (fun _ => h)
theorem State.keeps_cmpWrite (i word : Nat) (v : W32) (h : Keeps s₀ s) : Keeps s₀ (s.cmpWrite i word v) := by
  unfold State.cmpWrite
  extract_lets t
  have k : Keeps s₀ t := keeps_plainWrite _ _ h
  exact keeps_ite (fun _ => keeps_cmpArm _ k) (fun _ => k)
theorem State.keeps_rejudgeCmps (h : Keeps s₀ s) : Keeps s₀ s.rejudgeCmps :=
  keeps_foldl (fun _ _ k => keeps_ite (fun _ => keeps_cmpJudge _ _ k) (fun _ => k)) _ h
theorem State.keeps_incFrac (v : W32) (h : Keeps s₀ s) : Keeps s₀ (s.incFrac v) := keeps_with h
theorem State.keeps_incCommit (v : W32) (h : Keeps s₀ s) : Keeps s₀ (s.incCommit v) := keeps_setReg _ _ (keeps_setReg _ _ h)
theorem State.keeps_nsWrite (v : W32) (h : Keeps s₀ s) : Keeps s₀ (s.nsWrite v) :=
  keeps_ite (fun _ => h) (fun _ => keeps_with h)
theorem State.keeps_capInstant (d : CapDue) (h : Keeps s₀ s) : Keeps s₀ (s.capInstant d) :=
  keeps_ite (fun _ => keeps_with h) (fun _ => h)
theorem State.keeps_capStore (d : CapDue) (j : Nat) (h : Keeps s₀ s) : Keeps s₀ (s.capStore d j) := by
  unfold State.capStore
  refine keeps_ite (fun _ => h) (fun _ => keeps_ite (fun _ => keeps_cntF _ _ _ _ h) (fun _ => ?_))
  extract_lets
  exact keeps_publishH _ _ (keeps_setReg _ _ (keeps_setReg _ _
    (keeps_setReg _ _ (keeps_setReg _ _ (keeps_setReg _ _ (keeps_setReg _ _
    (keeps_setReg _ _ (keeps_setReg _ _ (keeps_setRb _ _ _ h)))))))))
theorem State.keeps_capCtlWrite (j : Nat) (v : W32) (h : Keeps s₀ s) : Keeps s₀ (s.capCtlWrite j v) := by
  unfold State.capCtlWrite
  extract_lets t
  have k : Keeps s₀ t := keeps_plainWrite _ _ h
  exact keeps_ite (fun _ => keeps_setRf _ _ _ _ k) (fun _ => k)
theorem State.keeps_capture (src : Nat) (h : Keeps s₀ s) : Keeps s₀ (s.capture src) := by
  unfold State.capture
  refine keeps_ite (fun _ => keeps_foldl (fun _ _ k1 => keeps_capStore _ _ k1) _ h) (fun _ => ?_)
  split
  · exact h
  · extract_lets
    exact keeps_foldl (fun _ _ k2 => keeps_capStore _ _ k2) _ (keeps_with h)
theorem State.keeps_tsAdd (e : TsEntry) (h : Keeps s₀ s) : Keeps s₀ (s.tsAdd e) :=
  keeps_ite (fun _ => keeps_publish _ (keeps_with h)) (fun _ => keeps_cntF _ _ _ _ h)
theorem State.keeps_tportRx (f : List Byte) (fcsOk lane4 : Bool) (h : Keeps s₀ s) : Keeps s₀ (s.tportRx f fcsOk lane4) := by
  unfold State.tportRx
  refine keeps_ite (fun _ => h) (fun _ => keeps_ite (fun _ => keeps_cnt _ _ h) (fun _ => keeps_ite (fun _ => h) (fun _ => ?_)))
  extract_lets
  refine keeps_ite (fun _ => keeps_cnt _ _ h) (fun _ => ?_)
  split
  extract_lets _ _ _ t
  have k : Keeps s₀ t := keeps_cnt _ _ (keeps_publish _ (keeps_setRf _ _ _ _ (keeps_setRb _ _ _ (keeps_csWrite _ _ h))))
  split
  · exact keeps_tsAdd _ k
  · exact k
theorem State.keeps_tportTx (v : W32) (h : Keeps s₀ s) : Keeps s₀ (s.tportTx v) := by
  unfold State.tportTx
  extract_lets _ t
  have k : Keeps s₀ t := keeps_plainWrite _ _ h
  refine keeps_ite (fun _ => k) (fun _ => ?_)
  split
  rename_i e
  extract_lets
  exact keeps_with (keeps_setRb _ _ _ ((keeps_csRead _ _ _ _ k).of_snd₂ e))
theorem State.keeps_tportDone (x : TxPort) (at_ : W32 × Nat) (h : Keeps s₀ s) : Keeps s₀ (s.tportDone x at_) := by
  unfold State.tportDone
  extract_lets _ _ t
  have k : Keeps s₀ t := keeps_with (keeps_setRb _ _ _ h)
  split
  · exact keeps_tsAdd _ k
  · exact k
theorem State.keeps_tsPop (v : W32) (h : Keeps s₀ s) : Keeps s₀ (s.tsPop v) := keeps_ite (fun _ => keeps_with h) (fun _ => h)
theorem keepsNext_execTimWrap (dt : Nat) (h : Keeps s₀ s) : KeepsNext s₀ (execTimWrap dt s) :=
  keepsNext_gate (keeps_advance _ h) h
theorem keepsNext_execTimIncFracWrite (v : W32) (h : Keeps s₀ s) : KeepsNext s₀ (execTimIncFracWrite v s) :=
  keepsNext_gate (keeps_incFrac _ h) h
theorem keepsNext_execTimIncCommit (v : W32) (h : Keeps s₀ s) : KeepsNext s₀ (execTimIncCommit v s) :=
  keepsNext_gate (keeps_incCommit _ h) h
theorem keepsNext_execTimCmpArm (i word : Nat) (v : W32) (h : Keeps s₀ s) : KeepsNext s₀ (execTimCmpArm i word v s) :=
  keepsNext_gate (keeps_cmpWrite _ _ _ h) h
theorem keepsNext_execTimCmpFire (i dt : Nat) (h : Keeps s₀ s) : KeepsNext s₀ (execTimCmpFire i dt s) :=
  keepsNext_gate (keeps_cmpFire _ (keeps_advance _ h)) h
theorem keepsNext_execTimCapture (src : Nat) (h : Keeps s₀ s) : KeepsNext s₀ (execTimCapture src s) :=
  keepsNext_gate (keeps_capture _ h) h
theorem keepsNext_execTportFrameRx (frame : List Byte) (fcsOk lane4 : Bool) (h : Keeps s₀ s) :
    KeepsNext s₀ (execTportFrameRx frame fcsOk lane4 s) :=
  keepsNext_gate (keeps_tportRx _ _ _ h) h
theorem keepsNext_execTportTxGo (v : W32) (h : Keeps s₀ s) : KeepsNext s₀ (execTportTxGo v s) :=
  keepsNext_gate (keeps_tportTx _ h) h
theorem keepsNext_execTportTxDone (at_ : TxTimes) (lane4 : Bool) (h : Keeps s₀ s) :
    KeepsNext s₀ (execTportTxDone at_ lane4 s) := by
  unfold execTportTxDone
  refine keepsNext_gate ?_ h
  split
  · extract_lets
    exact keeps_tportDone _ _ (keeps_advance _ (keeps_advance _ h))
  · exact h
theorem keepsNext_execTimTsPop (v : W32) (h : Keeps s₀ s) : KeepsNext s₀ (execTimTsPop v s) :=
  keepsNext_gate (keeps_tsPop _ h) h

/-! ### Line -/

theorem State.keeps_startLine (l : LaneId) (h : Keeps s₀ s) : Keeps s₀ (s.startLine l) := keeps_setLane _ _ h

/-! ### Waoth -/

theorem State.keeps_wFrame (m : WMsg) (seq : Option Nat) (i : Nat) (h : Keeps s₀ s) : Keeps s₀ (s.wFrame m seq i).2 :=
  keeps_with h
theorem State.keeps_setPair (f : PairSt → PairSt) (h : Keeps s₀ s) : Keeps s₀ (s.setPair f) := keeps_with h
theorem State.keeps_wPutOn (f : WSent) (n : Nat) (h : Keeps s₀ s) : Keeps s₀ (s.wPutOn f n) :=
  keeps_setPair _ (keeps_lineTo _ _ h)
theorem State.keeps_wPut (f : WSent) (h : Keeps s₀ s) : Keeps s₀ (s.wPut f) := by
  unfold State.wPut
  split
  · exact keeps_setPair _ (keeps_wPutOn _ _ h)
  · exact h
theorem State.keeps_putSeq (m : WMsg) (h : Keeps s₀ s) : Keeps s₀ (s.putSeq m) := by
  unfold State.putSeq
  extract_lets t
  have k1 : Keeps s₀ t := by
    refine keeps_foldl (fun _ _ k2 => ?_) _ h
    split
    rename_i e
    exact keeps_wPut _ (keeps_setPair _ ((keeps_wFrame _ _ _ k2).of_snd e))
  exact keeps_ite (fun _ => keeps_cnt _ _ k1) (fun _ => k1)
theorem State.keeps_sendSeq (m : WMsg) (h : Keeps s₀ s) : Keeps s₀ (s.sendSeq m) :=
  keeps_ite (fun _ => keeps_putSeq _ h) (fun _ => keeps_setPair _ h)
theorem State.keeps_sendLate (h : Keeps s₀ s) : Keeps s₀ s.sendLate :=
  keeps_foldl (fun _ _ k => keeps_sendSeq _ k) _ (keeps_setPair _ h)
theorem State.keeps_decide_ (d : Decision) (h : Keeps s₀ s) : Keeps s₀ (s.decide_ d) :=
  keeps_ite (fun _ => keeps_sendSeq _ h) (fun _ => h)
theorem State.keeps_sendConduct (i : ConductItem) (h : Keeps s₀ s) : Keeps s₀ (s.sendConduct i) :=
  keeps_ite (fun _ => keeps_sendSeq _ h) (fun _ => h)
theorem State.keeps_kilnReach (k x : Nat) (h : Keeps s₀ s) : Keeps s₀ (s.kilnReach k x) :=
  keeps_ite (fun _ => keeps_setRb _ _ _ (keeps_setPair _ h)) (fun _ => h)
theorem State.keeps_blockReach (m x : Nat) (h : Keeps s₀ s) : Keeps s₀ (s.blockReach m x) :=
  keeps_ite (fun _ => keeps_setRb _ _ _ (keeps_setPair _ h)) (fun _ => h)
theorem State.keeps_engReach (e : Nat) (h : Keeps s₀ s) : Keeps s₀ (s.engReach e) :=
  keeps_ite (fun _ => keeps_setRb _ _ _ (keeps_setPair _ h)) (fun _ => keeps_setPair _ h)

/-! ### Cq -/

theorem State.keeps_kCnt (k j n : Nat) (h : Keeps s₀ s) : Keeps s₀ (s.kCnt k j n) := keeps_cnt _ _ h
theorem State.keeps_cqCnt (k j : Nat) (h : Keeps s₀ s) : Keeps s₀ (s.cqCnt k j) := keeps_cnt _ _ h
theorem State.keeps_setCq (f : CqSt → CqSt) (h : Keeps s₀ s) : Keeps s₀ (s.setCq f) := keeps_with h
theorem State.keeps_qStatus (k : Nat) (st : W16) (outcome detail : Nat) (h : Keeps s₀ s) :
    Keeps s₀ (s.qStatus k st outcome detail) :=
  keeps_ite (fun _ => keeps_dmWrite _ _ _ h) (fun _ => h)
theorem State.keeps_opDone (id outcome detail : Nat) (h : Keeps s₀ s) : Keeps s₀ (s.opDone id outcome detail) := by
  unfold State.opDone
  split
  · exact keeps_cqCnt _ _ (keeps_qStatus _ _ _ _ (keeps_setCq _ h))
  · exact h
theorem State.keeps_opDone? (id : Option Nat) (outcome : Nat) (h : Keeps s₀ s) : Keeps s₀ (s.opDone? id outcome) :=
  keeps_elim h (fun _ => keeps_opDone _ _ _ h)
theorem State.keeps_mapQueues (f : Nat → QEntry → QEntry) (h : Keeps s₀ s) : Keeps s₀ (s.mapQueues f) := keeps_setCq _ h
theorem State.keeps_opFiring (id : Option Nat) (k seq : Nat) (h : Keeps s₀ s) : Keeps s₀ (s.opFiring id k seq) := by
  unfold State.opFiring
  split
  · exact keeps_mapQueues _ h
  · exact h
theorem State.keeps_opFired (id : Option Nat) (k seq : Nat) (h : Keeps s₀ s) : Keeps s₀ (s.opFired id k seq) :=
  keeps_opDone? _ _ (keeps_opFiring _ _ _ h)
theorem State.keeps_itemsFired (k b seq : Nat) (h : Keeps s₀ s) : Keeps s₀ (s.itemsFired k b seq) :=
  keeps_mapQueues _ (keeps_setKiln _ _ h)
theorem State.keeps_qSetHead (k : Nat) (e : QEntry) (h : Keeps s₀ s) : Keeps s₀ (s.qSetHead k e) := keeps_setQueue _ _ h
theorem State.keeps_qPop (k : Nat) (h : Keeps s₀ s) : Keeps s₀ (s.qPop k) := keeps_setQueue _ _ h
theorem State.keeps_qCancel (k : Nat) (h : Keeps s₀ s) : Keeps s₀ (s.qCancel k) :=
  keeps_foldl (fun _ _ k1 => keeps_cqCnt _ _ (keeps_qStatus _ _ _ _ k1)) _ (keeps_setQueue _ _ h)
theorem State.keeps_qFault (k : Nat) (e : QEntry) (cause : Nat) (h : Keeps s₀ s) : Keeps s₀ (s.qFault k e cause) :=
  keeps_setCore _ _ (keeps_qCancel _ (keeps_cqCnt _ _ (keeps_qStatus _ _ _ _ (keeps_qPop _ h))))
theorem State.keeps_qAccept (k : Nat) (e : QEntry) (kilns : List Nat) (h : Keeps s₀ s) : Keeps s₀ (s.qAccept k e kilns) :=
  keeps_setCq _ (keeps_qPop _ h)
theorem State.keeps_qFinish (k : Nat) (e : QEntry) (outcome detail : Nat) (h : Keeps s₀ s) :
    Keeps s₀ (s.qFinish k e outcome detail) :=
  keeps_cqCnt _ _ (keeps_qStatus _ _ _ _ (keeps_qPop _ h))
theorem State.keeps_qWait (k : Nat) (e : QEntry) (h : Keeps s₀ s) : Keeps s₀ (s.qWait k e) := keeps_qSetHead _ _ h
theorem State.keeps_waittJudge (k : Nat) (e : QEntry) (h : Keeps s₀ s) : Keeps s₀ (s.waittJudge k e) :=
  keeps_ite (fun _ => keeps_qWait _ _ h) (fun _ => keeps_ite (fun _ => keeps_qFinish _ _ _ _ h)
    (fun _ => keeps_ite (fun _ => keeps_qFinish _ _ _ _ h) (fun _ => keeps_qWait _ _ h)))
theorem State.keeps_rejudgeWaitts (h : Keeps s₀ s) : Keeps s₀ s.rejudgeWaitts := by
  unfold State.rejudgeWaitts
  refine keeps_foldl (fun _ _ k => ?_) _ h
  split
  · exact keeps_waittJudge _ _ k
  · exact k
theorem State.keeps_waitbEvent (c : Nat) (h : Keeps s₀ s) : Keeps s₀ (s.waitbEvent c) := by
  unfold State.waitbEvent
  refine keeps_foldl (fun _ _ k => ?_) _ h
  split
  · exact keeps_ite (fun _ => keeps_qFinish _ _ _ _ k) (fun _ => k)
  · exact k
theorem keepsNext_execTimRunWrite (v : W32) (h : Keeps s₀ s) : KeepsNext s₀ (execTimRunWrite v s) := by
  unfold execTimRunWrite
  refine keepsNext_gate ?_ h
  extract_lets _ t
  have k : Keeps s₀ t := keeps_plainWrite _ _ h
  exact keeps_ite (fun _ => keeps_rejudgeWaitts (keeps_rejudgeCmps k)) (fun _ => k)

/-! ### KeeperSys -/

theorem State.keeps_kSpell (k : Nat) (j : Option Nat) (h : Keeps s₀ s) : Keeps s₀ (s.kSpell k j) := by
  unfold State.kSpell
  extract_lets _ t
  have k1 : Keeps s₀ t := keeps_kCnt _ _ _ h
  exact keeps_elim k1 (fun _ => keeps_kCnt _ _ _ k1)
theorem State.keeps_kResume (k : Nat) (j : Option Nat) (h : Keeps s₀ s) : Keeps s₀ (s.kResume k j) :=
  keeps_kSpell _ _ (keeps_setCore _ _ h)
theorem State.keeps_kLook (k : Nat) (h : Keeps s₀ s) : Keeps s₀ (s.kLook k) :=
  keeps_ite (fun _ => keeps_setCore _ _ (keeps_kSpell _ _ h)) (fun _ => h)
theorem State.keeps_kWake (k : Nat) (h : Keeps s₀ s) : Keeps s₀ (s.kWake k) :=
  keeps_ite (fun _ => keeps_kResume _ _ h) (fun _ => keeps_ite (fun _ => keeps_kResume _ _ h) (fun _ => h))
theorem State.keeps_kHalt (k why : Nat) (h : Keeps s₀ s) : Keeps s₀ (s.kHalt k why) := keeps_setCore _ _ (keeps_kWake _ h)
theorem State.keeps_kSettle (k : Nat) (h : Keeps s₀ s) : Keeps s₀ (s.kSettle k) :=
  keeps_ite (fun _ => keeps_qCancel _ (keeps_kHalt _ _ h)) (fun _ => h)
theorem State.keeps_kTrap (k cause sub : Nat) (h : Keeps s₀ s) : Keeps s₀ (s.kTrap k cause sub) := by
  unfold State.kTrap
  extract_lets _ _ _ t
  have k1 : Keeps s₀ t := keeps_kCnt _ _ _ (keeps_setReg _ _ (keeps_kWake _ h))
  exact keeps_ite (fun _ => keeps_publish _ (keeps_kHalt _ _ k1))
    (fun _ => keeps_ite (fun _ => keeps_publish _ (keeps_kHalt _ _ k1))
    (fun _ => keeps_kSettle _ (keeps_kCnt _ _ _ (keeps_setCore _ _ k1))))
theorem State.keeps_kCfault (k cause : Nat) (addr : BitVec 14) (h : Keeps s₀ s) : Keeps s₀ (s.kCfault k cause addr) :=
  keeps_kTrap _ _ _ (keeps_setCore _ _ (keeps_setReg _ _ h))
theorem State.keeps_setIp (k : Nat) (b : Byte) (h : Keeps s₀ s) : Keeps s₀ (s.setIp k b) := by
  unfold State.setIp
  extract_lets _ t
  have k1 : Keeps s₀ t := keeps_setCore _ _ h
  exact keeps_ite (fun _ => keeps_kWake _ k1) (fun _ => k1)
theorem State.keeps_kInterrupt (k : Nat) (h : Keeps s₀ s) : Keeps s₀ (s.kInterrupt k) :=
  keeps_kCnt _ _ _ (keeps_kCnt _ _ _ (keeps_setCore _ _ (keeps_kWake _ h)))
theorem State.keeps_kFetch (k : Nat) (h : Keeps s₀ s) : Keeps s₀ (s.kFetch k).2 := by
  unfold State.kFetch
  extract_lets
  split
  rename_i e
  exact (keeps_scan _ _ _ _ _ _ _ h).of_snd e
theorem State.keeps_kCount (k : Nat) (h : Keeps s₀ s) : Keeps s₀ (s.kCount k) := keeps_kCnt _ _ _ (keeps_kCnt _ _ _ h)
theorem State.keeps_fabPost (r : FabReq) (h : Keeps s₀ s) : Keeps s₀ (s.fabPost r) := keeps_with h
theorem State.keeps_kApply (k : Nat) (old : Core) (a : KRes) (h : Keeps s₀ s) : Keeps s₀ (s.kApply k old a) := by
  unfold State.kApply
  split
  · exact keeps_kSettle _ (keeps_setCore _ _ (keeps_kCount _ h))
  · exact keeps_setCore _ _ (keeps_kCount _ h)
  · exact keeps_setCore _ _ (keeps_kCount _ h)
  · extract_lets
    exact keeps_kSettle _ (keeps_setCore _ _ (keeps_kCount _ h))
  · exact keeps_kTrap _ _ _ (keeps_setCore _ _ h)
  · extract_lets
    exact keeps_fabPost _ (keeps_setCore _ _ h)
  · extract_lets
    exact keeps_kSettle _ (keeps_fabPost _ (keeps_setCore _ _ (keeps_kCount _ h)))
theorem State.keeps_kBehind (k : Nat) (h : Keeps s₀ s) : Keeps s₀ (s.kBehind k) :=
  keeps_ite (fun _ => h) (fun _ => keeps_setCore _ _ h)
theorem State.keeps_kIssue (k : Nat) (w : W32) (f : Core → KRes) (h : Keeps s₀ s) : Keeps s₀ (s.kIssue k w f) := by
  unfold State.kIssue
  split
  rename_i e
  extract_lets t
  have k1 : Keeps s₀ t := keeps_kWake _ ((keeps_kFetch _ h).of_snd e)
  exact keeps_ite (fun _ => h) (fun _ => keeps_ite (fun _ => keeps_kTrap _ _ _ k1)
    (fun _ => keeps_ite (fun _ => keeps_kTrap _ _ _ k1) (fun _ => keeps_ite (fun _ => keeps_kBehind _ h)
    (fun _ => keeps_kApply _ _ _ k1))))
theorem keepsNext_kRow (k : Nat) (f : State → State) (hf : ∀ t, Keeps s₀ t → Keeps s₀ (f t)) (h : Keeps s₀ s) :
    KeepsNext s₀ (kRow k s f) :=
  keepsNext_gate (hf _ h) h
/-- A row of an instruction that issues and does nothing else. -/
theorem keepsNext_kIssueRow (k : Nat) (w : W32) (f : Core → KRes) (h : Keeps s₀ s) :
    KeepsNext s₀ (kRow k s fun s => s.kIssue k w f) :=
  keepsNext_kRow _ _ (fun _ k => keeps_kIssue _ _ _ k) h
theorem State.keeps_dmMeet (k : Nat) (as : List Nat) (h : Keeps s₀ s) : Keeps s₀ (s.dmMeet k as) :=
  keeps_foldl (fun _ _ k1 => keeps_scan _ _ _ _ _ _ _ k1) _ h
theorem State.keeps_kLoad (k : Nat) (w : W32) (up : Option Upset) (as : Core → List Nat) (f : (Nat → Bool) → Core → KRes)
    (h : Keeps s₀ s) : Keeps s₀ (s.kLoad k w up as f) := by
  unfold State.kLoad
  extract_lets t
  have k1 : Keeps s₀ t := keeps_upset _ h
  exact keeps_ite (fun _ => keeps_kIssue _ _ _ (keeps_dmMeet _ _ k1)) (fun _ => keeps_kIssue _ _ _ k1)
theorem State.keeps_kStore (k : Nat) (w : W32) (as : Core → List Nat) (f : Core → KRes) (h : Keeps s₀ s) :
    Keeps s₀ (s.kStore k w as f) := by
  unfold State.kStore
  extract_lets _ t
  have k1 : Keeps s₀ t := keeps_kIssue _ _ _ h
  exact keeps_ite (fun _ => keeps_foldl (fun _ _ k2 => keeps_clean _ _ _ _ k2) _ k1) (fun _ => k1)
theorem keepsNext_execKDmac (k : Nat) (a : BitVec 1) (ty : BitVec 2) (n pi : BitVec 3) (ci : BitVec 1) (pj : BitVec 3)
    (cj : BitVec 1) (h : Keeps s₀ s) : KeepsNext s₀ (execKDmac k a ty n pi ci pj cj s) :=
  keepsNext_kRow _ _ (fun _ k1 => keeps_kLoad _ _ _ _ _ k1) h
theorem keepsNext_execKLd (k : Nat) (d : BitVec 4) (p mode : BitVec 3) (imm : W16) (up : Option Upset) (h : Keeps s₀ s) :
    KeepsNext s₀ (execKLd k d p mode imm up s) :=
  keepsNext_kRow _ _ (fun _ k1 => keeps_kLoad _ _ _ _ _ k1) h
theorem keepsNext_execKSt (k : Nat) (x : BitVec 4) (p mode : BitVec 3) (imm : W16) (h : Keeps s₀ s) :
    KeepsNext s₀ (execKSt k x p mode imm s) :=
  keepsNext_kRow _ _ (fun _ k1 => keeps_kStore _ _ _ _ k1) h
theorem keepsNext_execKStx (k : Nat) (x : BitVec 4) (p mode : BitVec 3) (imm : W16) (h : Keeps s₀ s) :
    KeepsNext s₀ (execKStx k x p mode imm s) :=
  keepsNext_kRow _ _ (fun _ k1 => keeps_kStore _ _ _ _ k1) h
theorem keepsNext_execKLdl (k : Nat) (d : BitVec 4) (p mode : BitVec 3) (imm : W16) (up : Option Upset) (h : Keeps s₀ s) :
    KeepsNext s₀ (execKLdl k d p mode imm up s) :=
  keepsNext_kRow _ _ (fun _ k1 => keeps_kLoad _ _ _ _ _ k1) h
theorem keepsNext_execKStl (k : Nat) (x : BitVec 4) (p mode : BitVec 3) (imm : W16) (h : Keeps s₀ s) :
    KeepsNext s₀ (execKStl k x p mode imm s) :=
  keepsNext_kRow _ _ (fun _ k1 => keeps_kStore _ _ _ _ k1) h
theorem State.keeps_kStart (k : Nat) (entry : BitVec 14) (h : Keeps s₀ s) : Keeps s₀ (s.kStart k entry) :=
  keeps_ite (fun _ => h) (fun _ => keeps_setCq _ (keeps_setCore _ _ h))
theorem State.keeps_kStop (k : Nat) (h : Keeps s₀ s) : Keeps s₀ (s.kStop k) :=
  keeps_ite (fun _ => h) (fun _ => keeps_kSettle _ (keeps_setCore _ _ h))
theorem keepsNext_execIllegalInstruction (k : Nat) (h : Keeps s₀ s) : KeepsNext s₀ (execIllegalInstruction k s) := by
  unfold execIllegalInstruction
  refine keepsNext_kRow _ _ (fun _ k1 => ?_) h
  split
  rename_i t e
  have k2 : Keeps s₀ t := (keeps_kFetch _ k1).of_snd e
  extract_lets
  exact keeps_ite (fun _ => keeps_kTrap _ _ _ k2) (fun _ => keeps_ite (fun _ => keeps_kTrap _ _ _ k2) (fun _ => k1))
theorem keepsNext_execTrapConduct (k : Nat) (h : Keeps s₀ s) : KeepsNext s₀ (execTrapConduct k s) := by
  unfold execTrapConduct
  extract_lets
  refine keepsNext_gate ?_ h
  split
  · exact keeps_kCfault _ _ _ h
  · exact h
theorem keepsNext_execInterruptEntry (k : Nat) (h : Keeps s₀ s) : KeepsNext s₀ (execInterruptEntry k s) := by
  unfold execInterruptEntry
  extract_lets
  exact keepsNext_gate (keeps_kInterrupt _ h) h
theorem keepsNext_execKeeperStart (k : Nat) (h : Keeps s₀ s) : KeepsNext s₀ (execKeeperStart k s) :=
  keepsNext_writeGate (keeps_kStart _ _ h) h
theorem keepsNext_execKeeperStop (k : Nat) (h : Keeps s₀ s) : KeepsNext s₀ (execKeeperStop k s) :=
  keepsNext_writeGate (keeps_kStop _ h) h
theorem keepsNext_execKprIrqSet (k : Nat) (v : W32) (h : Keeps s₀ s) : KeepsNext s₀ (execKprIrqSet k v s) :=
  keepsNext_writeGate (keeps_setIp _ _ h) h

/-! ### Ref -/

theorem State.keeps_setRef (f : RefSt → RefSt) (h : Keeps s₀ s) : Keeps s₀ (s.setRef f) := keeps_with h
theorem State.keeps_setQ (n q : Nat) (h : Keeps s₀ s) : Keeps s₀ (s.setQ n q) :=
  keeps_ite (fun _ => h) (fun _ => keeps_setRef _ (keeps_publish _ (keeps_setRf _ _ _ _ h)))
theorem State.keeps_readTemp (sensor : BitVec 16) (h : Keeps s₀ s) : Keeps s₀ (s.readTemp sensor) := keeps_setRf _ _ _ _ h
theorem State.keeps_enterHoldover (h : Keeps s₀ s) : Keeps s₀ s.enterHoldover :=
  keeps_publish _ (keeps_setRf _ _ _ _ (keeps_setRf _ _ _ _ (keeps_setReg _ _ (keeps_setRef _ h))))
theorem State.keeps_enterSwitching (n : Nat) (h : Keeps s₀ s) : Keeps s₀ (s.enterSwitching n) :=
  keeps_publish _ (keeps_setRf _ _ _ _ (keeps_setRf _ _ _ _ (keeps_setRef _ h)))
theorem State.keeps_checkAgree (cands : List Nat) (h : Keeps s₀ s) : Keeps s₀ (s.checkAgree cands) := by
  unfold State.checkAgree
  extract_lets _ _ t1 t2
  have k1 : Keeps s₀ t1 := keeps_setRef _ h
  have k2 : Keeps s₀ t2 := keeps_setRb _ _ _ k1
  exact keeps_ite (fun _ => keeps_ite (fun _ => k2) (fun _ => keeps_publish _ k2)) (fun _ => k1)
theorem State.keeps_refSelectRule (h : Keeps s₀ s) : Keeps s₀ s.refSelectRule := by
  unfold State.refSelectRule
  extract_lets t
  have k : Keeps s₀ t := keeps_checkAgree _ h
  split
  · exact keeps_ite (fun _ => k) (fun _ => keeps_enterHoldover k)
  · exact keeps_ite (fun _ => keeps_enterSwitching _ k) (fun _ => keeps_ite (fun _ => keeps_enterSwitching _ k) (fun _ => k))
theorem State.keeps_inputLost (n : Nat) (h : Keeps s₀ s) : Keeps s₀ (s.inputLost n) := by
  unfold State.inputLost
  extract_lets t
  have k : Keeps s₀ t := keeps_setRef _ h
  exact keeps_ite (fun _ => k) (fun _ => keeps_setQ _ _ k)
theorem keepsNext_execRefActivityLost (n : Nat) (h : Keeps s₀ s) : KeepsNext s₀ (execRefActivityLost n s) :=
  keepsNext_gate (keeps_inputLost _ h) h
theorem State.keeps_rxclkLost (l : Nat) (h : Keeps s₀ s) : Keeps s₀ (s.rxclkLost l) :=
  keeps_ite (fun _ => keeps_inputLost _ h) (fun _ => h)
theorem State.keeps_followY (n : Nat) (meas : Int) (h : Keeps s₀ s) : Keeps s₀ (s.followY n meas) := by
  unfold State.followY
  refine keeps_ite (fun _ => h) (fun _ => keeps_ite (fun _ => keeps_setRef _ h) (fun _ => keeps_ite (fun _ => ?_) (fun _ => h)))
  split
  rename_i e
  exact keeps_setRef _ ((keeps_free h).of_snd e)
theorem State.keeps_qualify (n : Nat) (h : Keeps s₀ s) : Keeps s₀ (s.qualify n) := keeps_setQ _ _ (keeps_setRef _ h)
theorem keepsNext_execRefGateEnd (n dt : Nat) (meas : Int) (h : Keeps s₀ s) : KeepsNext s₀ (execRefGateEnd n dt meas s) := by
  unfold execRefGateEnd
  refine keepsNext_gate ?_ h
  extract_lets _ _ _ _ t
  have k : Keeps s₀ t := keeps_followY _ _ (keeps_setRef _ (keeps_setReg _ _ (keeps_setRef _ (keeps_advance _ h))))
  exact keeps_ite (fun _ => keeps_setQ _ _ k) (fun _ => keeps_ite
    (fun _ => keeps_ite (fun _ => keeps_qualify _ k) (fun _ => keeps_setQ _ _ (keeps_setRef _ k))) (fun _ => k))
theorem keepsNext_execRefWtrExpiry (n dt : Nat) (h : Keeps s₀ s) : KeepsNext s₀ (execRefWtrExpiry n dt s) :=
  keepsNext_gate (keeps_qualify _ (keeps_advance _ h)) h
theorem keepsNext_execRefSelect (dt : Nat) (h : Keeps s₀ s) : KeepsNext s₀ (execRefSelect dt s) := by
  unfold execRefSelect
  refine keepsNext_gate ?_ h
  extract_lets
  exact keeps_refSelectRule (keeps_setRef _ (keeps_advance _ h))
theorem State.keeps_countStep (ps : Int) (h : Keeps s₀ s) : Keeps s₀ (s.countStep ps) := keeps_with h
theorem keepsNext_execRefSwitchDone (dt : Nat) (step : Int) (h : Keeps s₀ s) : KeepsNext s₀ (execRefSwitchDone dt step s) := by
  unfold execRefSwitchDone
  refine keepsNext_gate ?_ h
  extract_lets _ _ _ _ t
  have k : Keeps s₀ t := keeps_setReg _ _ (keeps_advance _ h)
  exact keeps_setRef _ (keeps_setRf _ _ _ _ (keeps_countStep _
    (keeps_publish _ (keeps_ite (fun _ => keeps_setRb _ _ _ k) (fun _ => k)))))
theorem keepsNext_execRefLocked (dt : Nat) (h : Keeps s₀ s) : KeepsNext s₀ (execRefLocked dt s) := by
  unfold execRefLocked
  extract_lets
  refine keepsNext_gate ?_ h
  extract_lets
  exact keeps_setRef _ (keeps_setRf _ _ _ _ (keeps_advance _ h))
theorem keepsNext_execRefHoldoverUpdate (dt : Nat) (temp : BitVec 16) (h : Keeps s₀ s) :
    KeepsNext s₀ (execRefHoldoverUpdate dt temp s) := by
  unfold execRefHoldoverUpdate
  refine keepsNext_gate ?_ h
  extract_lets
  exact keeps_setRef _ (keeps_readTemp _ (keeps_advance _ h))
theorem keepsNext_execRefAgeTick (x : TempTick) (h : Keeps s₀ s) : KeepsNext s₀ (execRefAgeTick x s) := by
  unfold execRefAgeTick
  refine keepsNext_gate ?_ h
  extract_lets _ t1 t2
  have k1 : Keeps s₀ t1 := keeps_setRef _ (keeps_cntWrap _ _ (keeps_advance _ h))
  have k2 : Keeps s₀ t2 := keeps_ite (fun _ => k1) (fun _ => keeps_readTemp _ k1)
  exact keeps_ite (fun _ => keeps_setRef _ k2) (fun _ => k2)
theorem keepsNext_execPpsoutPulse (dt : Nat) (h : Keeps s₀ s) : KeepsNext s₀ (execPpsoutPulse dt s) := by
  unfold execPpsoutPulse
  refine keepsNext_gate ?_ h
  extract_lets _ t
  have k : Keeps s₀ t := keeps_capInstant _ (keeps_advance _ h)
  exact keeps_setRef _ (keeps_ite (fun _ => keeps_capInstant _ k) (fun _ => k))
theorem keepsNext_execRefRealign (v : W32) (h : Keeps s₀ s) : KeepsNext s₀ (execRefRealign v s) :=
  keepsNext_gate (keeps_setRef _ h) h
theorem keepsNext_execRefRealignAlign (dt : Nat) (h : Keeps s₀ s) : KeepsNext s₀ (execRefRealignAlign dt s) := by
  unfold execRefRealignAlign
  refine keepsNext_gate ?_ h
  extract_lets
  exact keeps_setRef _ (keeps_advance _ h)
theorem keepsNext_execRefRealignTimeout (dt : Nat) (h : Keeps s₀ s) : KeepsNext s₀ (execRefRealignTimeout dt s) :=
  keepsNext_gate (keeps_setRb _ _ _ (keeps_setRef _ (keeps_advance _ h))) h

/-! ### Lanes -/

theorem State.keeps_lnCnt (l : LaneId) (k n : Nat) (h : Keeps s₀ s) : Keeps s₀ (s.lnCnt l k n) :=
  keeps_ite (fun _ => h) (fun _ => keeps_cnt _ _ h)
theorem State.keeps_wdgCnt (k : Nat) (h : Keeps s₀ s) : Keeps s₀ (s.wdgCnt k) := keeps_cnt _ _ h
theorem State.keeps_frameCnt (l : LaneId) (k : Nat) (h : Keeps s₀ s) : Keeps s₀ (s.frameCnt l k) := by
  unfold State.frameCnt
  split
  · exact keeps_ite (fun _ => keeps_cnt _ _ h) (fun _ => h)
  · exact keeps_ite (fun _ => keeps_lnCnt _ _ _ h) (fun _ => h)
  · exact keeps_lnCnt _ _ _ h
theorem keepsNext_laneWrite (l : LaneId) (ok : Bool) (f : State → State) (hf : ∀ t, Keeps s₀ t → Keeps s₀ (f t))
    (h : Keeps s₀ s) : KeepsNext s₀ (laneWrite l ok s f) := by
  unfold laneWrite
  split
  · exact keepsNext_writeGate (hf _ h) h
  · exact keepsNext_writeGate (hf _ h) h
  · exact keepsNext_gate (hf _ h) h
  · exact keepsNext_gate (hf _ h) h
theorem State.keeps_txDrop (n : Nat) (h : Keeps s₀ s) : Keeps s₀ (s.txDrop n) := keeps_with (keeps_cnt _ _ h)
theorem State.keeps_toState (l : LaneId) (st : Nat) (h : Keeps s₀ s) : Keeps s₀ (s.toState l st) := by
  unfold State.toState
  extract_lets _ _ t1 t2
  have k1 : Keeps s₀ t1 := keeps_setRf _ _ _ _ (keeps_ite (fun _ => keeps_startLine _ h) (fun _ => h))
  have k2 : Keeps s₀ t2 := keeps_setRb _ _ _ k1
  refine keeps_ite (fun _ => ?_) (fun _ => k1)
  split
  · exact keeps_publish _ k2
  · exact keeps_txDrop _ k2
  · exact k2
theorem State.keeps_frameFailed (l : LaneId) (h : Keeps s₀ s) : Keeps s₀ (s.frameFailed l) := by
  unfold State.frameFailed
  extract_lets _ t
  have k : Keeps s₀ t := keeps_setLane _ _ h
  exact keeps_ite (fun _ => keeps_toState _ _ k) (fun _ => keeps_ite
    (fun _ => keeps_ite (fun _ => keeps_setLane _ _ k) (fun _ => keeps_toState _ _ k)) (fun _ => k))
theorem State.keeps_abandon (l : LaneId) (h : Keeps s₀ s) : Keeps s₀ (s.abandon l) := keeps_frameFailed _ (keeps_frameCnt _ _ h)
theorem State.keeps_toSignal (l : LaneId) (h : Keeps s₀ s) : Keeps s₀ (s.toSignal l) :=
  keeps_toState _ _ (keeps_setLane _ _ (keeps_ite (fun _ => keeps_frameCnt _ _ h) (fun _ => h)))
theorem State.keeps_toDown (l : LaneId) (lost : Bool) (h : Keeps s₀ s) : Keeps s₀ (s.toDown l lost) := by
  unfold State.toDown
  extract_lets _ _ t
  have k : Keeps s₀ t := keeps_toState _ _ (keeps_setLane _ _ (keeps_ite (fun _ => keeps_frameCnt _ _ h) (fun _ => h)))
  split
  · exact keeps_rxclkLost _ k
  · exact k
theorem State.keeps_prbsClear (l : LaneId) (h : Keeps s₀ s) : Keeps s₀ (s.prbsClear l) :=
  keeps_setRb _ _ _ (keeps_setLane _ _ h)
theorem State.keeps_hdrCnt (l : LaneId) (v : Lane) (h : Keeps s₀ s) : Keeps s₀ (s.hdrCnt l v) :=
  keeps_setReg _ _ (keeps_setLane _ _ h)
theorem State.keeps_slip (l : LaneId) (h : Keeps s₀ s) : Keeps s₀ (s.slip l) := keeps_hdrCnt _ _ h
theorem State.keeps_header (l : LaneId) (h1 : BitVec 2) (h : Keeps s₀ s) : Keeps s₀ (s.header l h1) := by
  unfold State.header
  extract_lets _ _ _ t1 _ t2
  have k1 : Keeps s₀ t1 := keeps_hdrCnt _ _ h
  have k2 : Keeps s₀ t2 := keeps_lnCnt _ _ _ k1
  exact keeps_ite (fun _ => h) (fun _ => keeps_ite (fun _ => keeps_ite (fun _ => keeps_setLane _ _ k1)
    (fun _ => keeps_ite (fun _ => keeps_slip _ k1) (fun _ => keeps_ite (fun _ => keeps_setLane _ _ k1)
    (fun _ => keeps_toState _ _ (keeps_setLane _ _ k1)))))
    (fun _ => keeps_ite (fun _ => k1) (fun _ => keeps_ite (fun _ => keeps_toSignal _ k2)
    (fun _ => keeps_ite (fun _ => keeps_abandon _ k2) (fun _ => k2)))))
theorem State.keeps_headers (l : LaneId) (b : List (BitVec 2)) (h : Keeps s₀ s) : Keeps s₀ (s.headers l b) := by
  induction b generalizing s with
  | nil => exact h
  | cons x b ih => exact keeps_ite (fun _ => ih (keeps_header _ _ h)) fun _ => keeps_header _ _ h
theorem State.keeps_fmtLook (e : Nat) (h : Keeps s₀ s) : Keeps s₀ (s.fmtLook e) := by
  unfold State.fmtLook
  refine keeps_ite (fun _ => h) (fun _ => ?_)
  split
  rename_i t e1
  have k : Keeps s₀ t := (keeps_scan _ _ _ _ _ _ _ h).of_snd e1
  exact keeps_ite (fun _ => k) (fun _ => keeps_setRb _ _ _ k)
theorem State.keeps_openFrame (l : LaneId) (f : Framing) (h : Keeps s₀ s) : Keeps s₀ (s.openFrame l f) := by
  unfold State.openFrame
  extract_lets _ t
  have k : Keeps s₀ t := keeps_setLane _ _ h
  exact keeps_ite (fun _ => keeps_toState _ _ k) (fun _ => k)
theorem State.keeps_lampIn (l : LaneId) (h : Keeps s₀ s) : Keeps s₀ (s.lampIn l) := by
  unfold State.lampIn
  refine keeps_ite (fun _ => keeps_openFrame _ _ h) (fun _ => ?_)
  extract_lets _ t1 _ t2
  have k1 : Keeps s₀ t1 := keeps_fmtLook _ h
  have k2 : Keeps s₀ t2 := keeps_setLane _ _ k1
  exact keeps_ite (fun _ => keeps_ite (fun _ => keeps_wdgCnt _ k2) (fun _ => k2)) (fun _ => keeps_openFrame _ _ k1)
theorem State.keeps_deliver (l : LaneId) (f : Frame) (h : Keeps s₀ s) : Keeps s₀ (s.deliver l f) := by
  unfold State.deliver
  refine keeps_ite (fun _ => h) (fun _ => ?_)
  extract_lets _ t
  have k : Keeps s₀ t := keeps_lnCnt _ _ _ h
  exact keeps_ite (fun _ => keeps_lnCnt _ _ _ h) (fun _ => keeps_ite (fun _ => keeps_wdgCnt _ k)
    (fun _ => keeps_ite (fun _ => keeps_wdgCnt _ k) (fun _ => keeps_setLane _ _ k)))
theorem State.keeps_frameEnd (l : LaneId) (f : Framing) (b : Block) (h : Keeps s₀ s) : Keeps s₀ (s.frameEnd l f b) := by
  unfold State.frameEnd
  extract_lets _ _ t1 t2
  have k1 : Keeps s₀ t1 := keeps_setLane _ _ h
  have k2 : Keeps s₀ t2 := keeps_ite (fun _ => keeps_toState _ _ k1) (fun _ => k1)
  exact keeps_ite (fun _ => keeps_frameFailed _ (keeps_frameCnt _ _ h))
    (fun _ => keeps_ite (fun _ => k2) (fun _ => keeps_deliver _ _ k2))
theorem State.keeps_frameData (l : LaneId) (f : Framing) (b : Block) (h : Keeps s₀ s) : Keeps s₀ (s.frameData l f b) :=
  keeps_ite (fun _ => keeps_ite (fun _ => keeps_abandon _ h) (fun _ => keeps_setLane _ _ h))
    (fun _ => keeps_ite (fun _ => keeps_setLane _ _ h) (fun _ => keeps_setLane _ _ h))
theorem State.keeps_blockIn (l : LaneId) (b : Block) (h : Keeps s₀ s) : Keeps s₀ (s.blockIn l b) := by
  unfold State.blockIn
  extract_lets _ t
  have k : Keeps s₀ t := keeps_abandon _ h
  split
  · exact keeps_ite (fun _ => keeps_lampIn _ h) (fun _ => keeps_ite (fun _ => h)
      (fun _ => keeps_ite (fun _ => keeps_setLane _ _ h) (fun _ => keeps_lnCnt _ _ _ h)))
  · extract_lets
    exact keeps_ite (fun _ => keeps_frameData _ _ _ h) (fun _ => keeps_ite (fun _ => keeps_frameEnd _ _ _ h)
      (fun _ => keeps_ite (fun _ => keeps_lampIn _ k) (fun _ => k)))
theorem State.keeps_blocksIn (l : LaneId) (bs : List Block) (h : Keeps s₀ s) : Keeps s₀ (s.blocksIn l bs) := by
  unfold State.blocksIn
  refine keeps_foldl (fun _ _ k1 => ?_) _ h
  extract_lets t
  have k2 : Keeps s₀ t := keeps_header _ _ k1
  exact keeps_ite (fun _ => keeps_blockIn _ _ k2) (fun _ => k2)
theorem State.keeps_waothFrame (n : Nat) (good : Bool) (h : Keeps s₀ s) : Keeps s₀ (s.waothFrame n good) := by
  unfold State.waothFrame
  extract_lets _ t1 _ t2
  have k1 : Keeps s₀ t1 := keeps_ite (fun _ => keeps_toState _ _ h) (fun _ => h)
  have k2 : Keeps s₀ t2 := keeps_setLane _ _ k1
  exact keeps_ite (fun _ => keeps_frameFailed _ (keeps_ite (fun _ => keeps_cnt _ _ k1) (fun _ => k1)))
    (fun _ => keeps_ite (fun _ => keeps_toState _ _ k2) (fun _ => k2))
theorem State.keeps_newLine (l : LaneId) (old new : W32) (h : Keeps s₀ s) : Keeps s₀ (s.newLine l old new) := by
  unfold State.newLine
  extract_lets t
  have k : Keeps s₀ t := keeps_ite (fun _ => keeps_startLine _ h) (fun _ => h)
  refine keeps_ite (fun _ => k) (fun _ => ?_)
  split
  rename_i e
  exact keeps_setLane _ _ ((keeps_free k).of_snd e)
theorem State.keeps_lnCtl (l : LaneId) (v : W32) (h : Keeps s₀ s) : Keeps s₀ (s.lnCtl l v) := by
  unfold State.lnCtl
  extract_lets _ _ _ _ _ t1 t2
  have k1 : Keeps s₀ t1 := keeps_setRb _ _ _ (keeps_newLine _ _ _
    (keeps_plainWrite _ _ (keeps_ite (fun _ => keeps_lineTo _ _ h) (fun _ => h))))
  have k2 : Keeps s₀ t2 := keeps_ite (fun _ => keeps_prbsClear _ k1) (fun _ => k1)
  exact keeps_ite (fun _ => keeps_toDown _ _ k2) (fun _ => keeps_ite (fun _ => keeps_toDown _ _ k2)
    (fun _ => keeps_ite (fun _ => keeps_toState _ _ k2) (fun _ => k2)))
theorem keepsNext_execLnCtlWrite (l : LaneId) (v : W32) (h : Keeps s₀ s) : KeepsNext s₀ (execLnCtlWrite l v s) :=
  keepsNext_laneWrite _ _ _ (fun _ k => keeps_lnCtl _ _ k) h
theorem State.keeps_lnCtle (l : LaneId) (v : W32) (h : Keeps s₀ s) : Keeps s₀ (s.lnCtle l v) := keeps_setReg _ _ h
theorem keepsNext_execLnCtleWrite (l : LaneId) (v : W32) (h : Keeps s₀ s) : KeepsNext s₀ (execLnCtleWrite l v s) :=
  keepsNext_laneWrite _ _ _ (fun _ k => keeps_lnCtle _ _ k) h
theorem keepsNext_execLaneSignalDetect (l : LaneId) (dt : Nat) (h : Keeps s₀ s) : KeepsNext s₀ (execLaneSignalDetect l dt s) :=
  keepsNext_gate (keeps_toState _ _ (keeps_advance _ h)) h
theorem keepsNext_execLaneLossOfSignal (l : LaneId) (dt : Nat) (h : Keeps s₀ s) : KeepsNext s₀ (execLaneLossOfSignal l dt s) :=
  keepsNext_gate (keeps_toDown _ _ (keeps_prbsClear _ (keeps_advance _ h))) h
theorem keepsNext_execLaneBlockLock (l : LaneId) (hdrs : List (BitVec 2)) (h : Keeps s₀ s) :
    KeepsNext s₀ (execLaneBlockLock l hdrs s) :=
  keepsNext_gate (keeps_headers _ _ h) h
theorem keepsNext_execLaneBlockLockLost (l : LaneId) (hdrs : List (BitVec 2)) (h : Keeps s₀ s) :
    KeepsNext s₀ (execLaneBlockLockLost l hdrs s) :=
  keepsNext_gate (keeps_foldl (fun _ _ k => keeps_ite (fun _ => keeps_header _ _ k) (fun _ => k)) _ h) h
theorem keepsNext_execTxLaneUp (n dt : Nat) (h : Keeps s₀ s) : KeepsNext s₀ (execTxLaneUp n dt s) :=
  keepsNext_gate (keeps_toState _ _ (keeps_advance _ h)) h
theorem State.keeps_lnSlip (l : LaneId) (v : W32) (h : Keeps s₀ s) : Keeps s₀ (s.lnSlip l v) := by
  unfold State.lnSlip
  refine keeps_ite (fun _ => h) (fun _ => ?_)
  extract_lets t
  have k : Keeps s₀ t := keeps_setRb _ _ _ (keeps_slip _ h)
  exact keeps_ite (fun _ => keeps_toSignal _ k) (fun _ => k)
theorem keepsNext_execLnSlip (l : LaneId) (v : W32) (h : Keeps s₀ s) : KeepsNext s₀ (execLnSlip l v s) :=
  keepsNext_laneWrite _ _ _ (fun _ k => keeps_lnSlip _ _ k) h
theorem State.keeps_eyeCtl (l : LaneId) (v : W32) (h : Keeps s₀ s) : Keeps s₀ (s.eyeCtl l v) := by
  unfold State.eyeCtl
  extract_lets t
  have k : Keeps s₀ t := keeps_plainWrite _ _ h
  exact keeps_ite (fun _ => keeps_setLane _ _ (keeps_setRb _ _ _ k)) (fun _ => k)
theorem keepsNext_execEyeStart (l : LaneId) (v : W32) (h : Keeps s₀ s) : KeepsNext s₀ (execEyeStart l v s) :=
  keepsNext_laneWrite _ _ _ (fun _ k => keeps_eyeCtl _ _ k) h
theorem keepsNext_execEyeMeasureDone (l : LaneId) (dt mism : Nat) (h : Keeps s₀ s) :
    KeepsNext s₀ (execEyeMeasureDone l dt mism s) := by
  unfold execEyeMeasureDone
  split
  · refine keepsNext_gate ?_ h
    extract_lets
    exact keeps_setReg _ _ (keeps_setRb _ _ _ (keeps_setLane _ _ (keeps_advance _ h)))
  · exact keepsNext_next h
theorem State.keeps_prbsBit (l : LaneId) (err : Bool) (h : Keeps s₀ s) : Keeps s₀ (s.prbsBit l err) :=
  keeps_ite (fun _ => keeps_ite (fun _ => keeps_lnCnt _ _ _ h) (fun _ => h))
    (fun _ => keeps_ite (fun _ => keeps_setLane _ _ h) (fun _ => keeps_ite (fun _ => keeps_setLane _ _ h)
    (fun _ => keeps_setRb _ _ _ (keeps_setLane _ _ h))))
theorem keepsNext_execPrbsLock (l : LaneId) (errs : List Bool) (h : Keeps s₀ s) : KeepsNext s₀ (execPrbsLock l errs s) :=
  keepsNext_gate (keeps_foldl (fun _ _ k => keeps_prbsBit _ _ k) _ h) h
theorem keepsNext_execRxFrameReceived (l : LaneId) (blocks : List Block) (h : Keeps s₀ s) :
    KeepsNext s₀ (execRxFrameReceived l blocks s) :=
  keepsNext_gate (keeps_blocksIn _ _ h) h
theorem State.keeps_fmtCtl (e : Nat) (v : W32) (h : Keeps s₀ s) : Keeps s₀ (s.fmtCtl e v) := by
  unfold State.fmtCtl
  extract_lets _ t
  have k : Keeps s₀ t := keeps_clean _ _ _ _ h
  exact keeps_ite (fun _ => h) (fun _ => keeps_ite (fun _ => keeps_ite (fun _ => h)
    (fun _ => keeps_setRb _ _ _ (keeps_clean _ _ _ _ h))) (fun _ => keeps_ite (fun _ => keeps_setReg _ _ k)
    (fun _ => keeps_ite (fun _ => keeps_setReg _ _ k) (fun _ => keeps_setReg _ _ k))))
theorem keepsNext_execFmtValidate (e : Nat) (v : W32) (h : Keeps s₀ s) : KeepsNext s₀ (execFmtValidate e v s) :=
  keepsNext_writeGate (keeps_fmtCtl _ _ h) h

/-! ### Work -/

theorem State.keeps_freeSlots (c : Nat) (h : Keeps s₀ s) : Keeps s₀ (s.freeSlots c) := by
  unfold State.freeSlots
  extract_lets
  split
  · exact h
  · split
    exact keeps_setRing _ _ h
theorem State.keeps_consume (reader c lo hi : Nat) (h : Keeps s₀ s) : Keeps s₀ (s.consume reader c lo hi) :=
  keeps_freeSlots _ (keeps_setRing _ _ h)
theorem State.keeps_unread (reader : Nat) (f : Nat → Nat → Bool) (h : Keeps s₀ s) : Keeps s₀ (s.unread reader f) := by
  unfold State.unread
  refine keeps_foldl (fun _ _ k => ?_) _ h
  extract_lets
  exact keeps_freeSlots _ (keeps_setRing _ _ k)
theorem State.keeps_refreshReaders (h : Keeps s₀ s) : Keeps s₀ s.refreshReaders := by
  unfold State.refreshReaders
  refine keeps_foldl (fun _ _ k => ?_) _ h
  extract_lets
  exact keeps_freeSlots _ (keeps_setRing _ _ k)

/-! ### Wedging -/

theorem State.keeps_countBlanks (l : List BlkSt) (h : Keeps s₀ s) : Keeps s₀ (s.countBlanks l) := by
  unfold State.countBlanks
  refine keeps_foldl (fun _ _ k => ?_) _ h
  split
  · exact keeps_wdgCnt _ k
  · exact k
theorem State.keeps_setBlk (c b ib : Nat) (v : BlkSt) (h : Keeps s₀ s) : Keeps s₀ (s.setBlk c b ib v) := keeps_setRing _ _ h
theorem State.keeps_blankAwaited (code : Nat) (f : Nat → Nat → Nat → Bool) (h : Keeps s₀ s) :
    Keeps s₀ (s.blankAwaited code f) := by
  unfold State.blankAwaited
  refine keeps_foldl (fun _ _ k => ?_) _ h
  extract_lets
  exact keeps_cnt _ _ (keeps_setRing _ _ k)
theorem State.keeps_blankOwned (src code : Nat) (h : Keeps s₀ s) : Keeps s₀ (s.blankOwned src code) := keeps_blankAwaited _ _ h
theorem State.keeps_depart (n st : Nat) (h : Keeps s₀ s) : Keeps s₀ (s.depart n st) :=
  keeps_ite (fun _ => keeps_blankOwned _ _ (keeps_publish _ (keeps_setSrc _ _ h))) (fun _ => h)
theorem State.keeps_forget (n : Nat) (h : Keeps s₀ s) : Keeps s₀ (s.forget n) := keeps_setSrc _ _ (keeps_depart _ _ h)
theorem State.keeps_srcLook (n : Nat) (h : Keeps s₀ s) : Keeps s₀ (s.srcLook n) := by
  unfold State.srcLook
  split
  rename_i t e
  have k : Keeps s₀ t := (keeps_scan _ _ _ _ _ _ _ h).of_snd e
  exact keeps_ite (fun _ => k) (fun _ => keeps_forget _ (keeps_clean _ _ _ _ k))
theorem State.keeps_srcLookAll (h : Keeps s₀ s) : Keeps s₀ s.srcLookAll := keeps_foldl (fun _ _ k => keeps_srcLook _ k) _ h
theorem State.keeps_openTo (c b : Nat) (p : Placement) (h : Keeps s₀ s) : Keeps s₀ (s.openTo c b p) := by
  unfold State.openTo
  extract_lets t
  have k1 : Keeps s₀ t := keeps_srcLookAll h
  split
  · exact k1
  · extract_lets
    exact keeps_setRing _ _ (keeps_foldl (fun _ _ k2 => keeps_countBlanks _ k2) _ k1)
theorem State.keeps_attribute_ (n : Nat) (ns : W32) (h : Keeps s₀ s) : Keeps s₀ (s.attribute_ n ns) := keeps_setSrc _ _ h
theorem State.keeps_hailIn (f : Frame) (h : Keeps s₀ s) : Keeps s₀ (s.hailIn f) := by
  unfold State.hailIn
  extract_lets _ t1
  have k1 : Keeps s₀ t1 := keeps_attribute_ _ _ (keeps_srcLookAll h)
  split
  · exact keeps_wdgCnt _ k1
  · refine keeps_ite (fun _ => keeps_publish _ (keeps_setSrc _ _ (keeps_wdgCnt _ k1))) (fun _ => ?_)
    extract_lets t2
    have k2 : Keeps s₀ t2 := keeps_setSrc _ _ k1
    exact keeps_ite (fun _ => k2) (fun _ => keeps_publish _ k2)
theorem State.keeps_epochSet (n : Nat) (bad : Bool) (h : Keeps s₀ s) : Keeps s₀ (s.epochSet n bad) := by
  unfold State.epochSet
  extract_lets _ t1 t2
  have k1 : Keeps s₀ t1 := keeps_setSrc _ _ h
  have k2 : Keeps s₀ t2 := keeps_publish _ k1
  exact keeps_ite (fun _ => keeps_ite (fun _ => keeps_blankOwned _ _ k2) (fun _ => k2)) (fun _ => k1)
theorem State.keeps_fromSource (f : Frame) (k : State → State) (hf : ∀ t, Keeps s₀ t → Keeps s₀ (k t)) (h : Keeps s₀ s) :
    Keeps s₀ (s.fromSource f k) := by
  unfold State.fromSource
  extract_lets t1 _ t2
  have k1 : Keeps s₀ t1 := keeps_srcLook _ h
  have k2 : Keeps s₀ t2 := keeps_attribute_ _ _ k1
  exact keeps_ite (fun _ => keeps_wdgCnt _ k1) (fun _ => keeps_ite (fun _ => keeps_wdgCnt _ k2) (fun _ => hf _ k2))
theorem State.keeps_buoyIn (f : Frame) (h : Keeps s₀ s) : Keeps s₀ (s.buoyIn f) := by
  unfold State.buoyIn
  refine keeps_fromSource _ _ (fun _ k1 => ?_) h
  extract_lets t
  have k2 : Keeps s₀ t := keeps_wdgCnt _ k1
  exact keeps_capInstant _ (keeps_ite (fun _ => keeps_epochSet _ _ k2) (fun _ => k2))
theorem State.keeps_storeBlk (c b ib : Nat) (v : BlkSt) (h : Keeps s₀ s) : Keeps s₀ (s.storeBlk c b ib v) :=
  keeps_foldl (fun _ _ k => keeps_touch _ _ (keeps_freshLines _ _ k)) _ (keeps_setBlk _ _ _ _ h)
theorem State.keeps_dataStore (p : Placement) (f : Frame) (c b ib : Nat) (h : Keeps s₀ s) :
    Keeps s₀ (s.dataStore p f c b ib) := by
  unfold State.dataStore
  extract_lets _ _ _ t1 t2 t3
  have k1 : Keeps s₀ t1 := keeps_setRing _ _ h
  have k2 : Keeps s₀ t2 := keeps_ite (fun _ => keeps_wdgCnt _ k1) (fun _ => keeps_wdgCnt _ k1)
  have k3 : Keeps s₀ t3 := keeps_openTo _ _ _ k1
  split
  · refine keeps_ite (fun _ => keeps_wdgCnt _ k1) (fun _ => keeps_ite (fun _ => k2) (fun _ => ?_))
    split
    · exact keeps_wdgCnt _ (keeps_storeBlk _ _ _ _ k1)
    · exact keeps_ite (fun _ => keeps_wdgCnt _ k1) (fun _ => keeps_wdgCnt _ (keeps_wdgCnt _ (keeps_setBlk _ _ _ _ k1)))
    · exact keeps_ite (fun _ => keeps_wdgCnt _ k1) (fun _ => keeps_ite (fun _ => keeps_wdgCnt _ k1)
        (fun _ => keeps_wdgCnt _ k1))
  · refine keeps_ite (fun _ => keeps_wdgCnt _ k1) (fun _ => keeps_ite (fun _ => k2) (fun _ => ?_))
    split
    · exact keeps_wdgCnt _ (keeps_storeBlk _ _ _ _ k3)
    · exact keeps_wdgCnt _ k3
theorem State.keeps_dataIn (f : Frame) (h : Keeps s₀ s) : Keeps s₀ (s.dataIn f) := by
  unfold State.dataIn
  refine keeps_fromSource _ _ (fun _ k => ?_) h
  extract_lets
  refine keeps_ite (fun _ => keeps_wdgCnt _ k) (fun _ => keeps_ite (fun _ => keeps_wdgCnt _ k) (fun _ => ?_))
  split
  · exact keeps_wdgCnt _ k
  · exact keeps_ite (fun _ => keeps_wdgCnt _ k) (fun _ => keeps_ite (fun _ => keeps_wdgCnt _ k)
      (fun _ => keeps_ite (fun _ => keeps_wdgCnt _ k) (fun _ => keeps_dataStore _ _ _ _ _ k)))
theorem State.keeps_takeFrame (n ty : Nat) (k : State → Frame → State) (hf : ∀ t x1, Keeps s₀ t → Keeps s₀ (k t x1))
    (h : Keeps s₀ s) : Keeps s₀ (s.takeFrame n ty k) := by
  unfold State.takeFrame
  extract_lets
  split
  · refine keeps_ite (fun _ => h) (fun _ => ?_)
    extract_lets t1
    have k1 : Keeps s₀ t1 := keeps_setLane _ _ h
    exact keeps_ite (fun _ => hf _ _ k1) (fun _ => k1)
  · exact h
theorem State.keeps_mapBlks (c b : Nat) (f : Nat → BlkSt → BlkSt) (h : Keeps s₀ s) : Keeps s₀ (s.mapBlks c b f) :=
  keeps_setRing _ _ h
theorem State.keeps_slotMark (c b : Nat) (h : Keeps s₀ s) : Keeps s₀ (s.slotMark c b) := keeps_setRing _ _ h
theorem State.keeps_readSlot (c : Nat) (x : Slot) (h : Keeps s₀ s) : Keeps s₀ (s.readSlot c x) := by
  unfold State.readSlot
  refine keeps_ite (fun _ => h) (fun _ => keeps_foldl (fun _ _ k1 => ?_) _ (keeps_slotMark _ _ h))
  split
  · split
    rename_i t e1
    have k2 : Keeps s₀ t := by
      refine Keeps.of_snd (keeps_foldl_pair (fun _ _ _ k3 => ?_) _ k1) e1
      split
      rename_i e2
      exact keeps_touch _ _ ((keeps_scan _ _ _ _ _ _ _ k3).of_snd e2)
    exact keeps_ite (fun _ => keeps_wdgCnt _ (keeps_setBlk _ _ _ _ k2)) (fun _ => k2)
  · exact k1
theorem State.keeps_slotLost (c : Nat) (x : Slot) (h : Keeps s₀ s) : Keeps s₀ (s.slotLost c x) :=
  keeps_cnt _ _ (keeps_mapBlks _ _ _ h)
theorem State.keeps_slotUpset (c : Nat) (x : Slot) (up : Option Upset) (h : Keeps s₀ s) : Keeps s₀ (s.slotUpset c x up) := by
  unfold State.slotUpset
  extract_lets t1
  have k1 : Keeps s₀ t1 := keeps_upset _ h
  split
  · refine keeps_ite (fun _ => ?_) (fun _ => k1)
    split
    rename_i t2 e
    have k2 : Keeps s₀ t2 := (keeps_scan _ _ _ _ _ _ _ k1).of_snd e
    exact keeps_ite (fun _ => k2) (fun _ => keeps_slotLost _ _ k2)
  · exact k1
theorem State.keeps_sendLoss (c : Nat) (x : Slot) (h : Keeps s₀ s) : Keeps s₀ (s.sendLoss c x) := by
  unfold State.sendLoss
  refine keeps_ite (fun _ => h) (fun _ => ?_)
  extract_lets
  exact keeps_sendSeq _ (keeps_setPair _ h)
theorem State.keeps_pairBlank (c : Nat) (x : Slot) (m : List Nat) (h : Keeps s₀ s) : Keeps s₀ (s.pairBlank c x m) :=
  keeps_cnt _ _ (keeps_mapBlks _ _ _ h)
theorem State.keeps_lossToKilns (c : Nat) (x : Slot) (h : Keeps s₀ s) : Keeps s₀ (s.lossToKilns c x) := by
  unfold State.lossToKilns
  split
  · exact h
  · refine keeps_foldl (fun _ _ k => ?_) _ h
    split
    extract_lets
    exact keeps_ite (fun _ => keeps_setKiln _ _ k) (fun _ => k)
theorem State.keeps_releaseSlot (c b : Nat) (h : Keeps s₀ s) : Keeps s₀ (s.releaseSlot c b) := by
  unfold State.releaseSlot
  extract_lets _ _ _ t
  have k : Keeps s₀ t := keeps_setRing _ _ h
  exact keeps_freeSlots _ (keeps_setPair _ (keeps_elim k (fun _ => keeps_lossToKilns _ _ k)))
theorem keepsNext_execDataFrame (n : Nat) (h : Keeps s₀ s) : KeepsNext s₀ (execDataFrame n s) := by
  unfold execDataFrame
  refine keepsNext_gate (keeps_takeFrame _ _ _ (fun _ _ k => ?_) h) h
  extract_lets
  exact keeps_ite (fun _ => (keeps_dataIn _ k)) (fun _ => h)
theorem keepsNext_execHailFrame (n : Nat) (h : Keeps s₀ s) : KeepsNext s₀ (execHailFrame n s) :=
  keepsNext_gate (keeps_takeFrame _ _ _ (fun _ _ k => keeps_hailIn _ k) h) h
theorem keepsNext_execBuoyFrame (n : Nat) (h : Keeps s₀ s) : KeepsNext s₀ (execBuoyFrame n s) :=
  keepsNext_gate (keeps_takeFrame _ _ _ (fun _ _ k => keeps_buoyIn _ k) h) h
theorem keepsNext_execSrcTimeout (src dt : Nat) (h : Keeps s₀ s) : KeepsNext s₀ (execSrcTimeout src dt s) := by
  unfold execSrcTimeout
  extract_lets
  refine keepsNext_gate ?_ h
  extract_lets
  exact keeps_depart _ _ (keeps_srcLook _ (keeps_advance _ h))
theorem State.keeps_srcWrite (src : Nat) (v : W32) (h : Keeps s₀ s) : Keeps s₀ (s.srcWrite src v) := by
  unfold State.srcWrite
  extract_lets _ t
  have k : Keeps s₀ t := keeps_ite (fun _ => keeps_setSrc _ _ h) (fun _ => h)
  exact keeps_ite (fun _ => keeps_forget _ k) (fun _ => k)
theorem keepsNext_execSrcForget (src : Nat) (v : W32) (h : Keeps s₀ s) : KeepsNext s₀ (execSrcForget src v s) :=
  keepsNext_writeGate (keeps_srcWrite _ _ h) h
theorem keepsNext_execSrcTimeoutWrite (v : W32) (h : Keeps s₀ s) : KeepsNext s₀ (execSrcTimeoutWrite v s) :=
  keepsNext_writeGate (keeps_plainWrite _ _ h) h
theorem keepsNext_execSlotDeadline (chan b dt : Nat) (h : Keeps s₀ s) : KeepsNext s₀ (execSlotDeadline chan b dt s) := by
  unfold execSlotDeadline
  split
  · exact keepsNext_gate (keeps_blankAwaited _ _ (keeps_advance _ h)) h
  · exact keepsNext_next h

/-! ### Exclude -/

theorem State.keeps_updPlc (f : PlcSt → PlcSt) (h : Keeps s₀ s) : Keeps s₀ (s.setPlc f) := keeps_setPlc _ h
theorem State.keeps_degraded (h : Keeps s₀ s) : Keeps s₀ s.degraded := keeps_setRb _ _ _ h
theorem State.keeps_setLayout (k : Nat) (l : Layout) (h : Keeps s₀ s) : Keeps s₀ (s.setLayout k l) := keeps_updPlc _ h
theorem State.keeps_tileMove (t since : Nat) (p : Placement) (h : Keeps s₀ s) : Keeps s₀ (s.tileMove t since p) := by
  unfold State.tileMove
  extract_lets
  split
  · exact keeps_updPlc _ h
  · exact keeps_degraded h
theorem State.keeps_redest (t : Nat) (h : Keeps s₀ s) : Keeps s₀ (s.redest t) := by
  unfold State.redest
  split
  · exact h
  · extract_lets
    refine keeps_foldl (fun _ _ k => ?_) _ (keeps_updPlc _ h)
    split
    · exact keeps_tileMove _ _ _ k
    · exact k
theorem State.keeps_planMove (u : ExclUnit) (h : Keeps s₀ s) : Keeps s₀ (s.planMove u) := by
  unfold State.planMove
  split
  · exact h
  · split
    · exact keeps_ite (fun _ => h) (fun _ => keeps_tileMove _ _ _ h)
    · split
      · exact keeps_degraded h
      · extract_lets
        refine keeps_foldl (fun _ _ k => ?_) _ (keeps_updPlc _ h)
        extract_lets
        exact keeps_ite (fun _ => keeps_setKiln _ _ k) (fun _ => keeps_setLayout _ _ k)
theorem State.keeps_exclude (u : ExclUnit) (h : Keeps s₀ s) : Keeps s₀ (s.exclude u) := by
  unfold State.exclude
  split
  · exact keeps_ite (fun _ => h) (fun _ => keeps_redest _ (keeps_planMove _ (keeps_publish _ (keeps_setRb _ _ _ h))))
  · exact keeps_ite (fun _ => h) (fun _ => keeps_planMove _ (keeps_publish _ (keeps_setRb _ _ _ h)))
theorem State.keeps_excludeCheck (h : Keeps s₀ s) : Keeps s₀ s.excludeCheck :=
  keeps_ite (fun _ => h) (fun _ => keeps_foldl (fun _ _ k => keeps_ite (fun _ => keeps_exclude _ k) (fun _ => k)) _ h)
theorem State.keeps_planMoves (h : Keeps s₀ s) : Keeps s₀ s.planMoves := by
  unfold State.planMoves
  split
  · exact h
  · extract_lets t
    have k1 : Keeps s₀ t := keeps_foldl (fun _ _ k2 => keeps_planMove _ k2) _ h
    split
    · exact keeps_planMove _ k1
    · exact k1

/-! ### Kiln -/

theorem State.keeps_stallNow (t : Nat) (h : Keeps s₀ s) : Keeps s₀ (s.stallNow t) :=
  keeps_ite (fun _ => keeps_setTile _ _ (keeps_cnt _ _ h)) (fun _ => h)
theorem keepsNext_execTileChunkStart (t : Nat) (h : Keeps s₀ s) : KeepsNext s₀ (execTileChunkStart t s) := by
  unfold execTileChunkStart
  extract_lets
  split
  · refine keepsNext_gate ?_ h
    extract_lets
    exact keeps_setTile _ _ h
  · exact keepsNext_next h
theorem State.keeps_chunkEnd (t : Nat) (h1 : Chunk) (p : Placement) (w : TileWork) (kp : KilnPlace) (h : Keeps s₀ s) :
    Keeps s₀ (s.chunkEnd t h1 p w kp) := by
  unfold State.chunkEnd
  extract_lets _ _ _ t1 t2
  have k1 : Keeps s₀ t1 := keeps_setTile _ _ h
  have k2 : Keeps s₀ t2 := keeps_ite (fun _ => keeps_cnt _ _ k1) (fun _ => k1)
  exact keeps_ite (fun _ => keeps_consume _ _ _ _ k2) (fun _ => k2)
theorem keepsNext_execChunkEnd (t : Nat) (h : Keeps s₀ s) : KeepsNext s₀ (execChunkEnd t s) := by
  unfold execChunkEnd
  split
  · split
    · exact keepsNext_gate (keeps_chunkEnd _ _ _ _ _ h) h
    · exact keepsNext_next h
  · exact keepsNext_next h
theorem State.keeps_beginBank (k b first : Nat) (h : Keeps s₀ s) : Keeps s₀ (s.beginBank k b first) := by
  unfold State.beginBank
  extract_lets _ _ t
  have k1 : Keeps s₀ t := keeps_setKiln _ _ h
  exact keeps_ite (fun _ => keeps_setLayout _ _ k1) (fun _ => k1)
theorem State.keeps_shelfScan (k : Nat) (p : KilnPlace) (x : Bank) (ws : List Nat) (ctx : Nat) (h : Keeps s₀ s) :
    Keeps s₀ (s.shelfScan k p x ws ctx).2 := by
  unfold State.shelfScan
  split
  · exact h
  · extract_lets
    refine keeps_foldl_pair (fun _ _ _ k1 => ?_) _ h
    extract_lets
    split
    rename_i e
    exact keeps_clean _ _ _ _ ((keeps_scan _ _ _ _ _ _ _ k1).of_snd e)
theorem State.keeps_chunkDrained (t : Nat) (h1 : ChunkSum) (rest : List ChunkSum) (kp : KilnPlace) (h : Keeps s₀ s) :
    Keeps s₀ (s.chunkDrained t h1 rest kp) := by
  unfold State.chunkDrained
  extract_lets
  split
  rename_i e
  extract_lets
  exact keeps_excludeCheck (keeps_cnt _ _ (keeps_setTile _ _
    (keeps_stallNow _ (keeps_setKiln _ _ ((keeps_shelfScan _ _ _ _ _
    (keeps_clean _ _ _ _ (keeps_foldl (fun _ _ k => keeps_meet _ _ _ _ k) _ h))).of_snd e)))))
theorem keepsNext_execChunkDrained (t : Nat) (up : Option Upset) (h : Keeps s₀ s) : KeepsNext s₀ (execChunkDrained t up s) := by
  unfold execChunkDrained
  split
  · split
    · exact keepsNext_gate (keeps_chunkDrained _ _ _ _ (keeps_upset _ h)) h
    · exact keepsNext_next h
  · exact keepsNext_next h
theorem State.keeps_freeBytes (n : Nat) (h : Keeps s₀ s) : Keeps s₀ (s.freeBytes n).2 := by
  induction n generalizing s with
  | zero => exact h
  | succ n ih => exact ih (keeps_free h)
theorem State.keeps_poisonAt (a : Nat) (h : Keeps s₀ s) : Keeps s₀ (s.poisonAt a) := by
  unfold State.poisonAt
  split
  rename_i e
  exact keeps_setErr _ (keeps_hbmWrite _ _ ((keeps_freeBytes _ h).of_snd e))
theorem State.keeps_poisonLines (k b : Nat) (ns : List Nat) (h : Keeps s₀ s) : Keeps s₀ (s.poisonLines k b ns) :=
  keeps_setKiln _ _ (keeps_foldl (fun _ _ k1 => keeps_poisonAt _ k1) _ h)
theorem State.keeps_touchLine (k b n : Nat) (sat : Bool) (stuck : List Nat) (h : Keeps s₀ s) :
    Keeps s₀ (s.touchLine k b n sat stuck) :=
  keeps_setKiln _ _ h
theorem State.keeps_setFit (k b n e fit : Nat) (h : Keeps s₀ s) : Keeps s₀ (s.setFit k b n e fit) := keeps_setKiln _ _ h
theorem State.keeps_openFits (k b : Nat) (ns : List Nat) (h : Keeps s₀ s) : Keeps s₀ (s.openFits k b ns) := by
  unfold State.openFits
  refine keeps_foldl (fun _ _ k1 => ?_) _ h
  split
  rename_i e
  exact keeps_setFit _ _ _ _ _ ((keeps_free k1).of_snd e)
theorem State.keeps_updE48 (k b n ctx : Nat) (lost : Bool) (a : List SpanAcc) (h : Keeps s₀ s) :
    Keeps s₀ (s.updE48 k b n ctx lost a) := by
  unfold State.updE48
  extract_lets
  split
  rename_i t e
  have k1 : Keeps s₀ t := by
    refine Keeps.of_snd ?_ e
    split
    · exact keeps_scan _ _ _ _ _ _ _ h
    · exact h
  refine keeps_ite (fun _ => keeps_poisonLines _ _ _ k1) (fun _ => ?_)
  extract_lets
  exact keeps_touchLine _ _ _ _ _ (keeps_hbmWrite _ _ (keeps_ite (fun _ => keeps_touch _ _ k1) (fun _ => k1)))
theorem State.keeps_updK16 (k b n first g ctx : Nat) (lost : Bool) (a : List SpanAcc) (h : Keeps s₀ s) :
    Keeps s₀ (s.updK16 k b n first g ctx lost a) := by
  unfold State.updK16
  extract_lets
  split
  rename_i t1 e
  have k1 : Keeps s₀ t1 := by
    refine Keeps.of_snd ?_ e
    split
    · exact keeps_scan _ _ _ _ _ _ _ h
    · exact h
  refine keeps_ite (fun _ => keeps_openFits _ _ _ (keeps_poisonLines _ _ _ k1)) (fun _ => ?_)
  extract_lets t2
  have k2 : Keeps s₀ t2 := keeps_ite (fun _ => keeps_touch _ _ k1) (fun _ => k1)
  split
  rename_i t3 e1
  have k3 : Keeps s₀ t3 := by
    refine Keeps.of_snd ?_ e1
    split
    · exact keeps_scan _ _ _ _ _ _ _ k2
    · exact k2
  extract_lets
  refine keeps_ite (fun _ => ?_) (fun _ => keeps_setFit _ _ _ _ _
    (keeps_touchLine _ _ _ _ _ (keeps_hbmWrite _ _ (keeps_hbmWrite _ _
    (keeps_ite (fun _ => keeps_touch _ _ k3) (fun _ => k3))))))
  split
  rename_i e2
  exact keeps_openFits _ _ _ (keeps_poisonLines _ _ _ (keeps_hbmWrite _ _ ((keeps_free k3).of_snd e2)))
theorem State.keeps_updDone (k : Nat) (p : KilnPlace) (n x : Nat) (h : Keeps s₀ s) : Keeps s₀ (s.updDone k p n x) :=
  keeps_setKiln _ _ h
theorem State.keeps_shelfLost (p : KilnPlace) (slice ctx : Nat) (up : Option Upset) (h : Keeps s₀ s) :
    Keeps s₀ (s.shelfLost p slice ctx up).2 := by
  unfold State.shelfLost
  split
  · split
    · split
      rename_i e
      exact keeps_clean _ _ _ _ ((keeps_scan _ _ _ _ _ _ _ h).of_snd e)
    · exact h
  · exact h
theorem State.keeps_kilnUpdate (k n x b : Nat) (p : KilnPlace) (up : Option Upset) (h : Keeps s₀ s) :
    Keeps s₀ (s.kilnUpdate k n x b p up) := by
  unfold State.kilnUpdate
  extract_lets
  split
  rename_i e
  split
  rename_i t1 e1
  have k1 : Keeps s₀ t1 := (keeps_shelfScan _ _ _ _ _ ((keeps_shelfLost _ _ _ _
    (keeps_upset _ (keeps_elim h (fun _ => keeps_beginBank _ _ _ h)))).of_snd e)).of_snd e1
  extract_lets _ t2
  have k2 : Keeps s₀ t2 := keeps_cnt _ _ k1
  exact keeps_excludeCheck (keeps_updDone _ _ _ _ (keeps_ite (fun _ => keeps_touch _ _ k1)
    (fun _ => keeps_ite (fun _ => keeps_updK16 _ _ _ _ _ _ _ _ k2) (fun _ => keeps_updE48 _ _ _ _ _ _ k2))))
theorem keepsNext_execKilnUpdate (k line : Nat) (up : Option Upset) (h : Keeps s₀ s) :
    KeepsNext s₀ (execKilnUpdate k line up s) := by
  unfold execKilnUpdate
  split
  · extract_lets
    split
    · exact keepsNext_gate (keeps_kilnUpdate _ _ _ _ _ _ h) h
    · exact keepsNext_next h
  · exact keepsNext_next h
theorem keepsNext_execKlnCtlWrite (k : Nat) (v : W32) (h : Keeps s₀ s) : KeepsNext s₀ (execKlnCtlWrite k v s) := by
  unfold execKlnCtlWrite
  refine keepsNext_writeGate (keeps_ite (fun _ => h) (fun _ => ?_)) h
  extract_lets t
  have k1 : Keeps s₀ t := keeps_setRb _ _ _ h
  exact keeps_ite (fun _ => keeps_setRb _ _ _ k1) (fun _ => k1)
theorem keepsNext_execKlnSeedWrite (k : Nat) (hi : Bool) (v : W32) (h : Keeps s₀ s) :
    KeepsNext s₀ (execKlnSeedWrite k hi v s) :=
  keepsNext_writeGate (keeps_ite (fun _ => keeps_setReg _ _ h) (fun _ => h)) h

/-! ### Firing -/

theorem State.keeps_offerFiring (k r : Nat) (who : Offerer) (store : Bool) (len extra : Nat) (mk : Nat → Nat → List Byte)
    (h : Keeps s₀ s) : Keeps s₀ (s.offerFiring k r who store len extra mk).2 := by
  unfold State.offerFiring
  split
  · exact keeps_rCount _ (keeps_cnt _ _ h)
  · exact keeps_offerAs _ _ _ _ _ _ _ h
theorem State.keeps_afterReport (r : Nat) (h : Keeps s₀ s) : Keeps s₀ (s.afterReport r) := by
  unfold State.afterReport
  split
  · exact keeps_ite (fun _ => keeps_setRng _ _ h) (fun _ => h)
  · exact h
theorem State.keeps_offerHeader (k i : Nat) (h : Keeps s₀ s) : Keeps s₀ (s.offerHeader k i) := by
  unfold State.offerHeader
  extract_lets
  split
  · exact h
  · extract_lets
    split
    rename_i t1 e
    have k1 : Keeps s₀ t1 := (keeps_offerFiring _ _ _ _ _ _ _ (keeps_setRng _ _ h)).of_snd e
    extract_lets t2
    have k2 : Keeps s₀ t2 := keeps_ite (fun _ => keeps_setRng _ _ k1) (fun _ => k1)
    split
    · exact k2
    · exact keeps_setKiln _ _ (keeps_ite (fun _ => keeps_afterReport _ k2) (fun _ => k2))
theorem State.keeps_retryHeaders (k : Nat) (h : Keeps s₀ s) : Keeps s₀ (s.retryHeaders k) :=
  keeps_foldl (fun _ _ k1 => keeps_offerHeader _ _ k1) _ h
theorem State.keeps_rekey (k : Nat) (h : Keeps s₀ s) : Keeps s₀ (s.rekey k) := keeps_cntF _ _ _ _ (keeps_setKiln _ _ h)
theorem State.keeps_skewClose (k b maxAct totAct banks : Nat) (h : Keeps s₀ s) :
    Keeps s₀ (s.skewClose k b maxAct totAct banks) := by
  unfold State.skewClose
  extract_lets _ t
  have k1 : Keeps s₀ t := keeps_setRf _ _ _ _ h
  exact keeps_ite (fun _ => keeps_rekey _ (keeps_setPair _ (keeps_setRf _ _ _ _ k1)))
    (fun _ => keeps_ite (fun _ => keeps_setRf _ _ _ _ k1) (fun _ => keeps_ite
    (fun _ => keeps_decide_ _ (keeps_rekey _ (keeps_setRf _ _ _ _ k1))) (fun _ => keeps_setRf _ _ _ _ k1)))
theorem State.keeps_reportGroups (k : Nat) (h : Keeps s₀ s) : Keeps s₀ (s.reportGroups k) := by
  unfold State.reportGroups
  extract_lets
  split
  · exact h
  · extract_lets
    exact keeps_setPair _ (keeps_setKiln _ _ h)
theorem State.keeps_stallTiles (k : Nat) (h : Keeps s₀ s) : Keeps s₀ (s.stallTiles k) := by
  unfold State.stallTiles
  refine keeps_foldl (fun _ _ k1 => ?_) _ h
  extract_lets
  exact keeps_ite (fun _ => k1) (fun _ => keeps_setTile _ _ k1)
theorem State.keeps_unstallTiles (k : Nat) (h : Keeps s₀ s) : Keeps s₀ (s.unstallTiles k) :=
  keeps_foldl (fun _ _ k1 => keeps_stallNow _ k1) _ h
theorem State.keeps_drainDone (k : Nat) (h : Keeps s₀ s) : Keeps s₀ (s.drainDone k) := by
  unfold State.drainDone
  extract_lets _ _ _ t1 t2
  have k1 : Keeps s₀ t1 := keeps_setPair _ (keeps_ite (fun _ => keeps_unstallTiles _ h) (fun _ => h))
  have k2 : Keeps s₀ t2 := keeps_setKiln _ _ k1
  exact keeps_ite (fun _ => keeps_updPlc _ (keeps_opDone? _ _
    (keeps_ite (fun _ => k2) (fun _ => keeps_elim k2 (fun _ => keeps_setLayout _ _ k2))))) (fun _ => keeps_setKiln _ _ k1)
theorem State.keeps_startDrain (k : Nat) (h : Keeps s₀ s) : Keeps s₀ (s.startDrain k) := by
  unfold State.startDrain
  extract_lets t
  have k1 : Keeps s₀ t := keeps_reportGroups _ h
  exact keeps_ite (fun _ => keeps_drainDone _ (keeps_foldl (fun _ _ k2 => keeps_afterReport _ k2) _ k1))
    (fun _ => keeps_retryHeaders _ k1)
theorem State.keeps_skipBoundary (k b : Nat) (h : Keeps s₀ s) : Keeps s₀ (s.skipBoundary k b) :=
  keeps_decide_ _ (keeps_cnt _ _ (keeps_opDone? _ _ (keeps_setKiln _ _ h)))
theorem State.keeps_takeSkip (k : Nat) (h : Keeps s₀ s) : Keeps s₀ (s.takeSkip k) := by
  unfold State.takeSkip
  split
  · exact keeps_ite (fun _ => keeps_skipBoundary _ _ (keeps_setPair _ h)) (fun _ => h)
  · exact h
theorem State.keeps_takeSkips (k : Nat) (h : Keeps s₀ s) : Keeps s₀ (s.takeSkips k) :=
  keeps_foldl (fun _ _ k1 => keeps_takeSkip _ k1) _ h
theorem State.keeps_bankClose (k b maxAct totAct : Nat) (p : KilnPlace) (h : Keeps s₀ s) :
    Keeps s₀ (s.bankClose k b maxAct totAct p) := by
  unfold State.bankClose
  extract_lets
  split
  extract_lets _ _ _ _ _ t1 _ t2
  have k1 : Keeps s₀ t1 := keeps_decide_ _ (keeps_skewClose _ _ _ _ _
    (keeps_setPair _ (keeps_publishH _ _ (keeps_setRb _ _ _
    (keeps_setReg _ _ (keeps_setKiln _ _ (keeps_ite (fun _ => h) (fun _ => keeps_beginBank _ _ _ h))))))))
  have k2 : Keeps s₀ t2 := keeps_startDrain _ (keeps_takeSkips _
    (keeps_itemsFired _ _ _ (keeps_opFired _ _ _ (keeps_ite (fun _ => keeps_opFiring _ _ _ k1) (fun _ => k1)))))
  exact keeps_kilnReach _ _ (keeps_ite (fun _ => keeps_refreshReaders k2) (fun _ => k2))
theorem keepsNext_execKilnBankClose (k maxAct totAct : Nat) (h : Keeps s₀ s) :
    KeepsNext s₀ (execKilnBankClose k maxAct totAct s) := by
  unfold execKilnBankClose
  split
  · exact keepsNext_gate (keeps_bankClose _ _ _ _ _ h) h
  · exact keepsNext_next h
theorem State.keeps_overrunShown (k : Nat) (h : Keeps s₀ s) : Keeps s₀ (s.overrunShown k) :=
  keeps_cnt _ _ (keeps_publishH _ _ (keeps_setRb _ _ _ h))
theorem keepsNext_execFireOverrun (k : Nat) (h : Keeps s₀ s) : KeepsNext s₀ (execFireOverrun k s) := by
  unfold execFireOverrun
  split
  · extract_lets
    refine keepsNext_gate ?_ h
    extract_lets t
    have k1 : Keeps s₀ t := keeps_decide_ _ (keeps_overrunShown _ h)
    exact keeps_ite (fun _ => keeps_skipBoundary _ _ k1) (fun _ => keeps_stallTiles _ (keeps_setKiln _ _ k1))
  · exact keepsNext_next h
theorem State.keeps_readGroup (k b g : Nat) (p : KilnPlace) (x : Bank) (h : Keeps s₀ s) :
    Keeps s₀ (s.readGroup k b g p x).2.2.2 := by
  unfold State.readGroup
  extract_lets
  split
  rename_i t1 e
  have k1 : Keeps s₀ t1 := (keeps_hbmRead _ _ _ _ h).of_snd₂ e
  split
  rename_i t2 e1
  have k2 : Keeps s₀ t2 := by
    refine Keeps.of_snd₂ ?_ e1
    split
    · exact keeps_hbmRead _ _ _ _ k1
    · exact k1
  extract_lets
  split
  rename_i e2
  extract_lets
  exact (keeps_freeBytes _ k2).of_snd e2
theorem State.keeps_lineRecord (k g : Nat) (p : KilnPlace) (d : Drain) (h : Keeps s₀ s) : Keeps s₀ (s.lineRecord k g p d) := by
  unfold State.lineRecord
  extract_lets
  split
  rename_i e
  extract_lets
  split
  rename_i e1
  extract_lets _ _ _ t
  have k1 : Keeps s₀ t := keeps_setKiln _ _ ((keeps_offerFiring _ _ _ _ _ _ _ ((keeps_readGroup _ _ _ _ _ h).of_snd₃ e)).of_snd
    e1)
  exact keeps_ite (fun _ => keeps_setPair _ k1) (fun _ => k1)
theorem keepsNext_execFiringLineRecordWrite (k g : Nat) (up : Option Upset) (h : Keeps s₀ s) :
    KeepsNext s₀ (execFiringLineRecordWrite k g up s) := by
  unfold execFiringLineRecordWrite
  split
  · refine keepsNext_gate ?_ h
    extract_lets _ _ _ _ _ t
    have k1 : Keeps s₀ t := keeps_rLook _ (keeps_retryHeaders _ h)
    split
    · exact k1
    · exact keeps_ite (fun _ => k1) (fun _ => keeps_ite (fun _ => keeps_ite (fun _ => keeps_rWait _ _ _ k1) (fun _ => k1))
        (fun _ => keeps_ite (fun _ => k1) (fun _ => keeps_lineRecord _ _ _ _ (keeps_upset _ k1))))
  · exact keepsNext_next h
theorem State.keeps_offerCompletion (k i : Nat) (h : Keeps s₀ s) : Keeps s₀ (s.offerCompletion k i) := by
  unfold State.offerCompletion
  extract_lets
  split
  · exact h
  · split
    rename_i t1 e
    have k1 : Keeps s₀ t1 := (keeps_offerFiring _ _ _ _ _ _ _ h).of_snd e
    extract_lets t2
    have k2 : Keeps s₀ t2 := keeps_ite (fun _ => keeps_rOwe _ _ k1) (fun _ => k1)
    split
    · exact k2
    · exact keeps_setKiln _ _ k2
theorem keepsNext_execFiringCompletionWrite (k : Nat) (h : Keeps s₀ s) : KeepsNext s₀ (execFiringCompletionWrite k s) := by
  unfold execFiringCompletionWrite
  split
  · refine keepsNext_gate ?_ h
    extract_lets t1 t2
    have k1 : Keeps s₀ t1 := keeps_retryHeaders _ h
    have k2 : Keeps s₀ t2 := keeps_ite (fun _ => keeps_foldl (fun _ _ k3 => keeps_offerCompletion _ _ k3) _ k1) (fun _ => k1)
    exact keeps_ite (fun _ => keeps_drainDone _ k2) (fun _ => k2)
  · exact keepsNext_next h

/-! ### Beams -/

theorem State.keeps_setBeam (f : BeamSt → BeamSt) (h : Keeps s₀ s) : Keeps s₀ (s.setBeam f) := keeps_with h
theorem keepsNext_execGlazeSwitch (h : Keeps s₀ s) : KeepsNext s₀ (execGlazeSwitch s) := by
  unfold execGlazeSwitch
  split
  · refine keepsNext_gate ?_ h
    extract_lets
    exact keeps_opDone? _ _ (keeps_setBeam _ h)
  · exact keepsNext_next h
theorem keepsNext_execGlzGainWrite (bank i : Nat) (v : W32) (h : Keeps s₀ s) : KeepsNext s₀ (execGlzGainWrite bank i v s) :=
  keepsNext_writeGate (keeps_ite (fun _ => keeps_setReg _ _ (keeps_clean _ _ _ _ h)) (fun _ => h)) h
theorem State.keeps_loseEntries (m e : Nat) (ids : List Nat) (h : Keeps s₀ s) : Keeps s₀ (s.loseEntries m e ids) := by
  unfold State.loseEntries
  extract_lets
  split
  · exact h
  · extract_lets
    exact keeps_setBlock _ _ h
theorem State.keeps_delayWrite (m e : Nat) (taus : List Nat) (h : Keeps s₀ s) : Keeps s₀ (s.delayWrite m e taus) :=
  keeps_foldl_pair (fun _ _ _ k => keeps_hbmWrite _ _ k) _ h
theorem State.keeps_delayRead (m e P n x : Nat) (h : Keeps s₀ s) : Keeps s₀ (s.delayRead m e P n x) := by
  unfold State.delayRead
  -- The ranges stand opaque, so that no check of the match on the fold's result runs the fold.
  obtain ⟨ranges, hr⟩ : ∃ f, f = Placement.pairRanges := ⟨_, rfl⟩
  rw [← hr]
  split
  · split
    next t eq =>
      have k : Keeps s₀ t := (keeps_foldl_pair₂ (fun _ _ _ _ k => keeps_hbmRead _ _ _ _ k) _ h).of_snd₂ eq
      extract_lets
      exact keeps_loseEntries _ _ _ (keeps_setBlock _ _ (keeps_setErr _ k))
  · exact h
theorem State.keeps_gainsRead (bank : Nat) (inputs : List Nat) (h : Keeps s₀ s) : Keeps s₀ (s.gainsRead bank inputs) := by
  unfold State.gainsRead
  refine keeps_ite (fun _ => h) (fun _ => keeps_foldl (fun _ _ k1 => keeps_ite (fun _ => k1) (fun _ => ?_)) _ h)
  split
  rename_i t e
  have k2 : Keeps s₀ t := (keeps_scan _ _ _ _ _ _ _ k1).of_snd e
  exact keeps_ite (fun _ => k2) (fun _ => keeps_setBeam _ k2)
theorem State.keeps_delaysUsed (m e P n : Nat) (h : Keeps s₀ s) : Keeps s₀ (s.delaysUsed m e P n) := by
  unfold State.delaysUsed
  refine keeps_foldl (fun _ _ k1 => ?_) _ h
  split
  rename_i t e1
  have k2 : Keeps s₀ t := (keeps_scan _ _ _ _ _ _ _ k1).of_snd e1
  exact keeps_ite (fun _ => k2) (fun _ => keeps_loseEntries _ _ _ (keeps_clean _ _ _ _ k2))
theorem State.keeps_visitUpset (t m e P bank n : Nat) (inputs : List Nat) (up : Option Upset) (h : Keeps s₀ s) :
    Keeps s₀ (s.visitUpset t m e P bank n inputs up) := by
  unfold State.visitUpset
  extract_lets t1
  have k : Keeps s₀ t1 := by
    unfold t1
    split
    · exact keeps_ite (fun _ => keeps_excludeCheck (keeps_scan _ _ _ _ _ _ _ (keeps_upset _ h))) (fun _ => keeps_upset _ h)
    · exact h
  exact keeps_delaysUsed _ _ _ _ (keeps_gainsRead _ _ k)
theorem State.keeps_contribute (m P c b : Nat) (p : BlockPlace) (wts : List (List (Option (Int × Int)))) (h : Keeps s₀ s) :
    Keeps s₀ (s.contribute m P c b p wts) := by
  unfold State.contribute
  split
  · exact h
  · extract_lets
    exact keeps_setBeam _ h
theorem State.keeps_visit (t x c i m P : Nat) (p : BlockPlace) (pl : Placement) (w : TileWork) (up : Option Upset)
    (h : Keeps s₀ s) : Keeps s₀ (s.visit t x c i m P p pl w up) := by
  unfold State.visit
  extract_lets _ _ _ _ _ _ t1 _ _ _ t2
  have k1 : Keeps s₀ t1 := keeps_foldl (fun _ _ k2 => keeps_contribute _ _ _ _ _ _ k2) _
    (keeps_visitUpset _ _ _ _ _ _ _ _ (keeps_ite (fun _ => keeps_delayRead _ _ _ _ _ h) (fun _ => h)))
  have k3 : Keeps s₀ t2 := keeps_setTile _ _ (keeps_ite (fun _ => keeps_setBlock _ _ k1) (fun _ => k1))
  exact keeps_ite (fun _ => k3) (fun _ => keeps_consume _ _ _ _ k3)
theorem keepsNext_execBeamVisitStart (t : Nat) (up : Option Upset) (h : Keeps s₀ s) :
    KeepsNext s₀ (execBeamVisitStart t up s) := by
  unfold execBeamVisitStart
  split
  · split
    · exact keepsNext_gate (keeps_visit _ _ _ _ _ _ _ _ _ _ (keeps_cnt _ _ h)) h
    · exact keepsNext_next h
  · exact keepsNext_next h
theorem State.keeps_evalTable (a n : Nat) (d : Int) (h : Keeps s₀ s) : Keeps s₀ (s.evalTable a n d).2.2 := by
  unfold State.evalTable
  split
  rename_i e
  extract_lets
  exact (keeps_hbmRead _ _ _ _ h).of_snd₂ e
theorem State.keeps_steerEffect (m : Nat) (h : Keeps s₀ s) : Keeps s₀ (s.steerEffect m) := by
  unfold State.steerEffect
  extract_lets
  split
  · exact h
  · extract_lets
    exact keeps_opDone? _ _ (keeps_setGrp _ _ (keeps_setReg64 _ _
      (keeps_foldl (fun _ _ k => keeps_setReg _ _ k) _ (keeps_setBlock _ _ h))))
theorem keepsNext_execGlazeEpochEvalStart (m : Nat) (up : Option Upset) (h : Keeps s₀ s) :
    KeepsNext s₀ (execGlazeEpochEvalStart m up s) := by
  unfold execGlazeEpochEvalStart
  split
  · extract_lets
    refine keepsNext_gate ?_ h
    extract_lets t
    have k : Keeps s₀ t := keeps_ite (fun _ => keeps_steerEffect _ h) (fun _ => h)
    split
    · exact keeps_setBlock _ _ k
    · split
      rename_i e
      extract_lets
      exact keeps_blockReach _ _ (keeps_setBlock _ _ (keeps_delayWrite _ _ _
        ((keeps_evalTable _ _ _ (keeps_upset _ k)).of_snd₂ e)))
  · exact keepsNext_next h
theorem State.keeps_txgSet (j : Nat) (v : W32) (h : Keeps s₀ s) : Keeps s₀ (s.txgSet j v) :=
  keeps_ite (fun _ => keeps_setReg _ _ h) (fun _ => keeps_ite (fun _ => keeps_setReg _ _ h) (fun _ => keeps_setReg _ _ h))
theorem keepsNext_execGlzTxgEnable (j : Nat) (v : W32) (h : Keeps s₀ s) : KeepsNext s₀ (execGlzTxgEnable j v s) :=
  keepsNext_writeGate (keeps_ite (fun _ => keeps_setBeam _ h) (fun _ => keeps_txgSet _ _ h)) h
theorem State.keeps_txgTake (m : Nat) (h : Keeps s₀ s) : Keeps s₀ (s.txgTake m) :=
  keeps_foldl (fun _ _ k => keeps_ite (fun _ => keeps_txgSet _ _ (keeps_setBeam _ k)) (fun _ => k)) _ h
theorem State.keeps_holdQueued (h : Keeps s₀ s) : Keeps s₀ s.holdQueued := by
  unfold State.holdQueued
  refine keeps_ite (fun _ => h) (fun _ => keeps_foldl (fun _ _ k => keeps_elim k (fun _ => ?_)) _ (keeps_setBeam _ h))
  extract_lets
  exact keeps_hold _ _ _ _ k
theorem State.keeps_frameReady (j lane blk chan : Nat) (f : List Byte) (h : Keeps s₀ s) :
    Keeps s₀ (s.frameReady j lane blk chan f) := by
  unfold State.frameReady
  refine keeps_ite (fun _ => keeps_hold _ _ _ _ h) (fun _ => keeps_ite (fun _ => ?_) (fun _ => ?_))
  · extract_lets
    exact keeps_hold _ _ _ _ (keeps_holdQueued h)
  · extract_lets
    exact keeps_ite (fun _ => keeps_cnt _ _ h) (fun _ => keeps_setBeam _ h)
theorem State.keeps_txFrames (w : Window) (any_ : List Bool) (sam : Nat → Nat → Int × Int) (h : Keeps s₀ s) :
    Keeps s₀ (s.txFrames w any_ sam) := by
  unfold State.txFrames
  refine keeps_foldl (fun _ _ k => ?_) _ h
  split
  · exact k
  · refine keeps_ite (fun _ => k) (fun _ => ?_)
    extract_lets
    exact keeps_frameReady _ _ _ _ _ k
theorem State.keeps_handDet (w : Window) (d : DetWin) (h : Keeps s₀ s) : Keeps s₀ (s.handDet w d) := by
  unfold State.handDet
  extract_lets _ _ t
  have k : Keeps s₀ t := keeps_ite (fun _ => keeps_setGrp _ _ h) (fun _ => h)
  exact keeps_ite (fun _ => keeps_setBeam _ k) (fun _ => k)
theorem State.keeps_windowClose (w : Window) (slice : Nat) (up : Option Upset) (h : Keeps s₀ s) :
    Keeps s₀ (s.windowClose w slice up) := by
  unfold State.windowClose
  extract_lets
  split
  · exact keeps_setBeam _ h
  · split
    rename_i t1 e1
    have k1 : Keeps s₀ t1 := by
      refine Keeps.of_snd ?_ e1
      split
      · split
        · split
          rename_i e2
          exact keeps_excludeCheck (keeps_clean _ _ _ _ ((keeps_scan _ _ _ _ _ _ _ (keeps_upset _ h)).of_snd e2))
        · exact keeps_upset _ h
      · exact h
    extract_lets t2 _ _ _ _ t3
    have k2 : Keeps s₀ t2 := keeps_setBeam _ k1
    have k3 : Keeps s₀ t3 := by
      refine keeps_foldl (fun _ _ k4 => ?_) _ (keeps_ite (fun _ => k2) (fun _ => keeps_txgTake _ (keeps_setBlock _ _ k2)))
      extract_lets
      exact keeps_cnt _ _ (keeps_cnt _ _ k4)
    exact keeps_handDet _ _ (keeps_txFrames _ _ _ k3)
theorem keepsNext_execBeamWindowClose (m : Nat) (up : Option Upset) (h : Keeps s₀ s) :
    KeepsNext s₀ (execBeamWindowClose m up s) := by
  unfold execBeamWindowClose
  split
  · split
    · exact keepsNext_gate (keeps_windowClose _ _ _ h) h
    · exact keepsNext_next h
  · exact keepsNext_next h
theorem keepsNext_execGlzSettingWrite (off : Nat) (v : W32) (h : Keeps s₀ s) : KeepsNext s₀ (execGlzSettingWrite off v s) := by
  unfold execGlzSettingWrite
  extract_lets
  exact keepsNext_writeGate (keeps_ite (fun _ => h) (fun _ => keeps_plainWrite _ _ h)) h
theorem State.keeps_sendFrame (n : Nat) (f : List Byte) (h : Keeps s₀ s) : Keeps s₀ (s.sendFrame n f) := by
  unfold State.sendFrame
  extract_lets _ t
  have k : Keeps s₀ t := keeps_cnt _ _ (keeps_setBeam _ (keeps_lineTo _ _ h))
  split
  · exact keeps_setPair _ k
  · exact k
theorem keepsNext_execTxBeamFrameSent (n : Nat) (h : Keeps s₀ s) : KeepsNext s₀ (execTxBeamFrameSent n s) := by
  unfold execTxBeamFrameSent
  refine keepsNext_gate ?_ h
  split
  · refine keeps_ite (fun _ => ?_) (fun _ => h)
    split
    rename_i e
    exact keeps_sendFrame _ _ (keeps_dropHeld _ ((keeps_heldRead _ h).of_snd e))
  · exact keeps_sendFrame _ _ (keeps_setBeam _ h)
  · exact h

/-! ### Detect -/

theorem State.keeps_pushSamples (g : Nat) (f : W32 → Option LtnSample) (h : Keeps s₀ s) : Keeps s₀ (s.pushSamples g f) := by
  unfold State.pushSamples
  refine keeps_foldl (fun _ _ k1 => ?_) _ h
  extract_lets
  refine keeps_ite (fun _ => k1) (fun _ => keeps_foldl (fun _ _ k2 => ?_) _ k1)
  extract_lets
  refine keeps_ite (fun _ => k2) (fun _ => ?_)
  split
  · exact keeps_setSlot _ _ k2
  · exact k2
theorem State.keeps_detRestart (g nr : Nat) (rest : List Nat) (h : Keeps s₀ s) : Keeps s₀ (s.detRestart g nr rest) := by
  unfold State.detRestart
  extract_lets
  split
  extract_lets
  exact keeps_pushSamples _ _ (keeps_setReg _ _ (keeps_setGrp _ _ h))
theorem keepsNext_execDetGroupRestart (g : Nat) (h : Keeps s₀ s) : KeepsNext s₀ (execDetGroupRestart g s) := by
  unfold execDetGroupRestart
  split
  · exact keepsNext_gate (keeps_detRestart _ _ _ (keeps_rLook _ h)) h
  · exact keepsNext_next h
theorem State.keeps_redEntries (v : DetGrp) (g : Nat) (mx mn : Option (Nat × Int)) (h : Keeps s₀ s) :
    Keeps s₀ (s.redEntries v g mx mn).2.2 := by
  unfold State.redEntries
  split
  · exact h
  · split
    rename_i e1
    split
    rename_i e2
    exact (keeps_free ((keeps_free h).of_snd e1)).of_snd e2
theorem State.keeps_detOutput (g chan : Nat) (coarse : Bool) (n last : Nat) (h : Keeps s₀ s) :
    Keeps s₀ (s.detOutput g chan coarse n last) := by
  unfold State.detOutput
  extract_lets
  split
  split
  rename_i e1
  extract_lets
  split
  rename_i t1 e2
  have k1 : Keeps s₀ t1 := (keeps_offer _ _ _ _ _ ((keeps_redEntries _ _ _ _ h).of_snd₂ e1)).of_snd e2
  refine keeps_ite (fun _ => k1) (fun _ => ?_)
  extract_lets _ t2
  have k2 : Keeps s₀ t2 := keeps_setGrp _ _ (keeps_foldl (fun _ _ k3 => keeps_cnt _ _ k3) _ k1)
  exact keeps_ite (fun _ => k2) (fun _ => keeps_pushSamples _ _ k2)
theorem keepsNext_execDetectOutput (g chan : Nat) (h : Keeps s₀ s) : KeepsNext s₀ (execDetectOutput g chan s) := by
  unfold execDetectOutput
  extract_lets
  split
  exact keepsNext_gate (keeps_detOutput _ _ _ _ _ h) h

/-! ### Lantern -/

theorem State.keeps_engFill (e b next : Nat) (d : EngDesc) (h : Keeps s₀ s) : Keeps s₀ (s.engFill e b next d) := by
  unfold State.engFill
  extract_lets
  split
  · exact keeps_setLtn _ _ h
  · exact keeps_unread _ _ (keeps_publish _ (keeps_cnt _ _ (keeps_setLtn _ _ h)))
theorem State.keeps_engIdle (e : Nat) (h : Keeps s₀ s) : Keeps s₀ (s.engIdle e) := by
  unfold State.engIdle
  extract_lets
  exact keeps_unread _ _ (keeps_setLtn _ _ h)
theorem State.keeps_engRest (e : Nat) (h : Keeps s₀ s) : Keeps s₀ (s.engRest e) :=
  keeps_ite (fun _ => h) (fun _ => keeps_ite (fun _ => keeps_decide_ _ (keeps_engIdle _ h)) (fun _ => h))
theorem State.keeps_hbmOpen (a n access ctx : Nat) (h : Keeps s₀ s) : Keeps s₀ (s.hbmOpen a n access ctx).2 := by
  unfold State.hbmOpen
  split
  rename_i t e
  have k : Keeps s₀ t := (keeps_hbmRead _ _ _ _ h).of_snd₂ e
  split
  · exact k
  · split
    rename_i e1
    exact (keeps_freeBytes _ k).of_snd e1
theorem State.keeps_statsRead (p : EngPlace) (b : Nat) (h : Keeps s₀ s) : Keeps s₀ (s.statsRead p b).2 := by
  unfold State.statsRead
  extract_lets
  refine keeps_foldl_pair (fun _ _ _ k => ?_) _ h
  extract_lets
  split
  rename_i e
  split
  rename_i e1
  exact (keeps_hbmOpen _ _ _ _ ((keeps_hbmOpen _ _ _ _ k).of_snd e)).of_snd e1
theorem State.keeps_engFreeze (e : Nat) (p : EngPlace) (c : LtnCap) (next : Nat) (h : Keeps s₀ s) :
    Keeps s₀ (s.engFreeze e p c next) := by
  unfold State.engFreeze
  extract_lets
  split
  rename_i e1
  split
  extract_lets
  exact keeps_engRest _ (keeps_engFill _ _ _ _ (keeps_decide_ _
    (keeps_setLtn _ _ (keeps_cnt _ _ (keeps_hbmWrite _ _ ((keeps_statsRead _ _ h).of_snd e1))))))
theorem State.keeps_engAccept (e i u : Nat) (xe : Bool) (t : Nat) (beam : Option Nat) (value : Int) (ns : W32) (h : Keeps s₀ s)
    : Keeps s₀ (s.engAccept e i u xe t beam value ns) :=
  keeps_publish _ (keeps_setLtn _ _ h)
theorem State.keeps_engWhole (e : Nat) (p : EngPlace) (h : Keeps s₀ s) : Keeps s₀ (s.engWhole e p) := by
  unfold State.engWhole
  extract_lets
  split
  · exact keeps_ite (fun _ => keeps_engFreeze _ _ _ _ h) (fun _ => h)
  · exact h
theorem State.keeps_engRequest (e i u : Nat) (xe : Bool) (t : Nat) (beam : Option Nat) (value : Int) (h : Keeps s₀ s) :
    Keeps s₀ (s.engRequest e i u xe t beam value) := by
  unfold State.engRequest
  extract_lets
  split
  · exact h
  · refine keeps_ite (fun _ => h) (fun _ => keeps_ite (fun _ => ?_)
      (fun _ => keeps_ite (fun _ => keeps_cnt _ _ h) (fun _ => keeps_ite (fun _ => h)
      (fun _ => keeps_cnt _ _ (keeps_setLtn _ _ h)))))
    extract_lets
    exact keeps_ite (fun _ => keeps_engWhole _ _ (keeps_decide_ _ (keeps_engAccept _ _ _ _ _ _ _ _ h)))
      (fun _ => keeps_cnt _ _ h)
theorem State.keeps_slotEvent (e i ev last : Nat) (out : Bool) (beam : Option Nat) (value : Int) (h : Keeps s₀ s) :
    Keeps s₀ (s.slotEvent e i ev last out beam value) := by
  unfold State.slotEvent
  extract_lets _ _ _ t
  have k : Keeps s₀ t := keeps_setSlot _ _ h
  exact keeps_ite (fun _ => keeps_engRequest _ _ _ _ _ _ _ (keeps_cnt _ _ k)) (fun _ => k)
theorem State.keeps_sampleVal (x : Option LtnSample) (h : Keeps s₀ s) : Keeps s₀ (s.sampleVal x).2 := by
  unfold State.sampleVal
  split
  · exact h
  · split
    rename_i e
    exact (keeps_free h).of_snd e
theorem keepsNext_execLtnStreamSample (e i : Nat) (h : Keeps s₀ s) : KeepsNext s₀ (execLtnStreamSample e i s) := by
  unfold execLtnStreamSample
  extract_lets
  split
  · exact keepsNext_next h
  · extract_lets ev
    refine keepsNext_gate ?_ h
    extract_lets t
    have k : Keeps s₀ t := keeps_setSlot _ _ h
    refine keeps_ite (fun _ => k) (fun _ => ?_)
    clear_value ev
    split
    · extract_lets
      split
      rename_i e1
      exact keeps_slotEvent _ _ _ _ _ _ _ ((keeps_sampleVal _ k).of_snd e1)
    · exact k
theorem State.keeps_timeoutBeam (e i u : Nat) (h : Keeps s₀ s) : Keeps s₀ (s.timeoutBeam e i u).2 := by
  unfold State.timeoutBeam
  extract_lets
  split
  · exact h
  · split
    · exact h
    · split
      rename_i e1
      exact (keeps_free h).of_snd e1
theorem keepsNext_execLtnTimeout (e i u dt : Nat) (h : Keeps s₀ s) : KeepsNext s₀ (execLtnTimeout e i u dt s) := by
  unfold execLtnTimeout
  extract_lets
  refine keepsNext_gate ?_ h
  extract_lets _ t
  have k : Keeps s₀ t := keeps_setSlot _ _ (keeps_advance _ h)
  refine keeps_ite (fun _ => k) (fun _ => ?_)
  split
  rename_i e1
  split
  rename_i e2
  exact keeps_slotEvent _ _ _ _ _ _ _ ((keeps_timeoutBeam _ _ _ ((keeps_sampleVal _ k).of_snd e1)).of_snd e2)
theorem State.keeps_engRelease (e mask : Nat) (h : Keeps s₀ s) : Keeps s₀ (s.engRelease e mask) := by
  unfold State.engRelease
  extract_lets _ t
  have k : Keeps s₀ t := keeps_setLtn _ _ h
  split
  · exact keeps_ite (fun _ => keeps_engRest _ (keeps_engFill _ _ _ _ k)) (fun _ => k)
  · exact k
theorem State.keeps_engItem (d : Decision) (h : Keeps s₀ s) : Keeps s₀ (s.engItem d) := by
  unfold State.engItem
  split
  · exact keeps_engAccept _ _ _ _ _ _ _ _ (keeps_setLtn _ _ h)
  · extract_lets _ t
    have k : Keeps s₀ t := keeps_setLtn _ _ h
    exact keeps_elim k (fun _ => keeps_engWhole _ _ k)
  · exact keeps_engIdle _ h
  · exact keeps_engRelease _ _ h
  · exact h
theorem State.keeps_engBegin (e : Nat) (h : Keeps s₀ s) : Keeps s₀ (s.engBegin e) := by
  unfold State.engBegin
  split
  · exact keeps_ite (fun _ => keeps_engFill _ _ _ _ (keeps_setLtn _ _ h)) (fun _ => h)
  · exact h
theorem State.keeps_engItemsFrom (e : Nat) (l : List EngItem) (h : Keeps s₀ s) : Keeps s₀ (s.engItemsFrom e l) := by
  induction l generalizing s with
  | nil => exact keeps_setLtn _ _ h
  | cons d l ih =>
    refine keeps_ite (fun _ => keeps_setLtn _ _ h) fun _ => ih ?_
    split
    · exact keeps_engItem _ h
    · exact keeps_engBegin _ h
theorem State.keeps_engItems (e : Nat) (h : Keeps s₀ s) : Keeps s₀ (s.engItems e) :=
  keeps_ite (fun _ => h) (fun _ => keeps_engItemsFrom _ _ h)
theorem State.keeps_dropCaps (h : Keeps s₀ s) : Keeps s₀ s.dropCaps := keeps_setBeam _ h
theorem State.keeps_engWrite (e k : Nat) (p : EngPlace) (xs : List (Nat × Slot)) (h : Keeps s₀ s) :
    Keeps s₀ (s.engWrite e k p xs) := by
  unfold State.engWrite
  extract_lets _ _ _ _ t
  have k1 : Keeps s₀ t := keeps_engReach _ (keeps_foldl (fun _ _ k2 => keeps_consume _ _ _ _ k2) _
    (keeps_dropCaps (keeps_setLtn _ _ (keeps_foldl (fun _ _ k3 => keeps_hbmWrite _ _ k3) _ h))))
  refine keeps_ite (fun _ => ?_) (fun _ => keeps_engItems _ (keeps_engWhole _ _ k1))
  split
  · extract_lets
    exact keeps_setLtn _ _ k1
  · exact keeps_setLtn _ _ k1
theorem keepsNext_execLtnBlockWrite (e : Nat) (h : Keeps s₀ s) : KeepsNext s₀ (execLtnBlockWrite e s) := by
  unfold execLtnBlockWrite
  split
  · extract_lets
    split
    · exact keepsNext_gate (keeps_ite (fun _ => keeps_engItems _ (keeps_engWhole _ _ h)) (fun _ => keeps_engWrite _ _ _ _ h)) h
    · refine keepsNext_gate ?_ h
      extract_lets
      exact keeps_unread _ _ (keeps_setLtn _ _ h)
  · exact keepsNext_next h
theorem keepsNext_execLtnCaptureRecord (e : Nat) (h : Keeps s₀ s) : KeepsNext s₀ (execLtnCaptureRecord e s) := by
  unfold execLtnCaptureRecord
  split
  · refine keepsNext_gate ?_ h
    extract_lets
    split
    rename_i t e1
    have k : Keeps s₀ t := by
      refine Keeps.of_snd ?_ e1
      split
      · exact (keeps_rCount _ (keeps_ite (fun _ => keeps_cnt _ _ h) (fun _ => h)))
      · exact keeps_offer _ _ _ _ _ h
    exact keeps_ite (fun _ => k) (fun _ => keeps_engRest _ (keeps_publish _ (keeps_setLtn _ _ k)))
  · exact keepsNext_next h
theorem keepsNext_execLtnBufferRelease (e : Nat) (v : W32) (h : Keeps s₀ s) : KeepsNext s₀ (execLtnBufferRelease e v s) :=
  keepsNext_writeGate (keeps_ite (fun _ => h) (fun _ => keeps_decide_ _ (keeps_engRelease _ _ h))) h

/-! ### Placement -/

theorem State.keeps_ringsAcross (old : Option Placement) (new : Placement) (h : Keeps s₀ s) :
    Keeps s₀ (s.ringsAcross old new) :=
  keeps_foldl (fun _ _ k => keeps_setRing _ _ k) _ h
theorem State.keeps_kilnAcross (old : Option Placement) (new : Placement) (k : Nat) (h : Keeps s₀ s) :
    Keeps s₀ (s.kilnAcross old new k) := by
  unfold State.kilnAcross
  extract_lets
  split
  · exact keeps_ite (fun _ => keeps_setReg _ _ (keeps_setReg _ _ (keeps_setKiln _ _ h))) (fun _ => h)
  · refine keeps_ite (fun _ => keeps_setKiln _ _ h) (fun _ => keeps_ite (fun _ => ?_) (fun _ => h))
    split
    · exact keeps_updPlc _ (keeps_setKiln _ _ h)
    · exact h
theorem State.keeps_newReady (i : Nat) (placed : Bool) (h : Keeps s₀ s) : Keeps s₀ (s.newReady i placed) :=
  keeps_ite (fun _ => keeps_setRb _ _ _ (keeps_setPair _ h)) (fun _ => h)
theorem State.keeps_blockAcross (old : Option Placement) (new : Placement) (x m : Nat) (h : Keeps s₀ s) :
    Keeps s₀ (s.blockAcross old new x m) := by
  unfold State.blockAcross
  refine keeps_ite (fun _ => ?_) (fun _ => ?_)
  · extract_lets
    exact keeps_ite (fun _ => keeps_setGrp _ _ h) (fun _ => h)
  · extract_lets
    exact keeps_opDone? _ _ (keeps_newReady _ _ (keeps_setReg64 _ _
      (keeps_setRb _ _ _ (keeps_setGrp _ _ (keeps_setBlock _ _ h)))))
theorem State.keeps_engAcross (old : Option Placement) (new : Placement) (e : Nat) (h : Keeps s₀ s) :
    Keeps s₀ (s.engAcross old new e) :=
  keeps_ite (fun _ => h) (fun _ => keeps_foldl (fun _ _ k => keeps_setSlot _ _ k) _ (keeps_newReady _ _ (keeps_setLtn _ _ h)))
theorem State.keeps_looseEnds (new : Placement) (h : Keeps s₀ s) : Keeps s₀ (s.looseEnds new) := by
  unfold State.looseEnds
  extract_lets t
  have k1 : Keeps s₀ t := keeps_foldl (fun _ _ k2 => keeps_ite (fun _ => keeps_txgSet _ _ (keeps_setBeam _ k2)) (fun _ => k2)) _
    h
  split
  · exact keeps_ite (fun _ => keeps_opDone? _ _ (keeps_setBeam _ k1)) (fun _ => k1)
  · exact k1
theorem State.keeps_tabsWrite (ms : List Nat) (h : Keeps s₀ s) : Keeps s₀ (s.tabsWrite ms) :=
  keeps_foldl (fun _ _ k1 => keeps_foldl (fun _ _ k2 => keeps_delayWrite _ _ _ k2) _ k1) _ h
theorem State.keeps_placeEffect (new : Placement) (x : Nat) (h : Keeps s₀ s) : Keeps s₀ (s.placeEffect new x) :=
  keeps_planMoves (keeps_refreshReaders (keeps_looseEnds _
    (keeps_foldl (fun _ _ k1 => keeps_setTile _ _ k1) _ (keeps_with
    (keeps_foldl (fun _ _ k2 => keeps_engAcross _ _ _ k2) _
    (keeps_tabsWrite _ (keeps_foldl (fun _ _ k3 => keeps_blockAcross _ _ _ _ k3) _
    (keeps_updPlc _ (keeps_foldl (fun _ _ k4 => keeps_kilnAcross _ _ _ k4) _
    (keeps_ringsAcross _ _ (keeps_foldl (fun _ _ k5 => keeps_stallNow _ k5) _ h)))))))))))
theorem keepsNext_execPlacementEffect (h : Keeps s₀ s) : KeepsNext s₀ (execPlacementEffect s) := by
  unfold execPlacementEffect
  split
  · exact keepsNext_gate (keeps_placeEffect _ _ h) h
  · exact keepsNext_next h
theorem State.keeps_moveTile (t u : Nat) (h : Keeps s₀ s) : Keeps s₀ (s.moveTile t u) := by
  unfold State.moveTile
  extract_lets
  refine keeps_foldl (fun _ _ k => ?_) _ (keeps_setTile _ _ (keeps_setTile _ _ (keeps_updPlc _ (keeps_stallNow _ h))))
  extract_lets
  exact keeps_setRing _ _ k
theorem State.keeps_moveSlice (r : Placement) (h : Keeps s₀ s) : Keeps s₀ (s.moveSlice r) :=
  keeps_tabsWrite _ (keeps_updPlc _ h)
theorem keepsNext_execExcludedWorkMove (u : ExclUnit) (dt : Nat) (h : Keeps s₀ s) :
    KeepsNext s₀ (execExcludedWorkMove u dt s) := by
  unfold execExcludedWorkMove
  split
  · exact keepsNext_next h
  · extract_lets
    split
    · split
      · exact keepsNext_gate (keeps_updPlc _ (keeps_moveTile _ _ (keeps_advance _ h))) h
      · exact keepsNext_gate (keeps_updPlc _ (keeps_moveTile _ _ (keeps_advance _ h))) h
      · exact keepsNext_gate (keeps_updPlc _ (keeps_advance _ h)) h
    · exact keepsNext_gate (keeps_updPlc _ (keeps_moveSlice _ (keeps_advance _ h))) h
    · exact keepsNext_gate (keeps_updPlc _ (keeps_advance _ h)) h

/-! ### Product -/

theorem State.keeps_tilesFrom (ts : List Nat) (x : Nat) (h : Keeps s₀ s) : Keeps s₀ (s.tilesFrom ts x) := by
  unfold State.tilesFrom
  refine keeps_foldl (fun _ _ k => ?_) _ h
  extract_lets
  exact keeps_ite (fun _ => keeps_setTile _ _ k) (fun _ => k)
theorem State.keeps_openApply (k x : Nat) (rings : List Nat) (seed : W64) (h : Keeps s₀ s) :
    Keeps s₀ (s.openApply k x rings seed) :=
  keeps_tilesFrom _ _ (keeps_setReg _ _ (keeps_beginBank _ _ _ (keeps_setKiln _ _ h)))
theorem State.keeps_fireApply (k x hop : Nat) (op : Option Nat) (h : Keeps s₀ s) : Keeps s₀ (s.fireApply k x hop op) :=
  keeps_setKiln _ _ h
theorem State.keeps_shutApply (k x : Nat) (op : Option Nat) (h : Keeps s₀ s) : Keeps s₀ (s.shutApply k x op) :=
  keeps_refreshReaders (keeps_setKiln _ _ h)
theorem State.keeps_shutIdle (k : Nat) (h : Keeps s₀ s) : Keeps s₀ (s.shutIdle k) := keeps_setKiln _ _ h
theorem State.keeps_steerApply (m x : Nat) (e : QEntry) (shifts : Option (List W32)) (op : Option Nat) (h : Keeps s₀ s) :
    Keeps s₀ (s.steerApply m x e shifts op) :=
  keeps_setBlock _ _ (keeps_ite (fun _ => h) (fun _ => keeps_tilesFrom _ _ h))
theorem State.keeps_fillBank (b : Nat) (ws : List W32) (h : Keeps s₀ s) : Keeps s₀ (s.fillBank b ws) :=
  keeps_foldl (fun _ _ k => keeps_setReg _ _ k) _ (keeps_clean _ _ _ _ h)
theorem State.keeps_glazeApply (x : Nat) (words : Option (List W32)) (op : Option Nat) (h : Keeps s₀ s) :
    Keeps s₀ (s.glazeApply x words op) := by
  unfold State.glazeApply
  extract_lets t
  have k : Keeps s₀ t := keeps_elim h (fun _ => keeps_fillBank _ _ h)
  exact keeps_ite (fun _ => keeps_opDone? _ _ (keeps_setBeam _ k)) (fun _ => keeps_setBeam _ k)
theorem State.keeps_armSlot (e i : Nat) (h : Keeps s₀ s) : Keeps s₀ (s.armSlot e i) := by
  unfold State.armSlot
  extract_lets
  split
  rename_i e1
  exact keeps_setSlot _ _ ((keeps_free h).of_snd e1)
theorem State.keeps_armApply (e i : Nat) (h : Keeps s₀ s) : Keeps s₀ (s.armApply e i) := by
  unfold State.armApply
  extract_lets t
  have k : Keeps s₀ t := keeps_armSlot _ _ h
  exact keeps_ite (fun _ => keeps_engBegin _ k) (fun _ => keeps_setLtn _ _ k)
theorem State.keeps_disarmApply (e i : Nat) (h : Keeps s₀ s) : Keeps s₀ (s.disarmApply e i) :=
  keeps_engRest _ (keeps_setSlot _ _ h)
theorem State.keeps_placeTake (p : Placement) (h : Keeps s₀ s) : Keeps s₀ (s.placeTake p) :=
  keeps_ite (fun _ => keeps_placeEffect _ _ h) (fun _ => keeps_updPlc _ h)

/-! ### Beacon -/

theorem State.keeps_setPend (t : Nat) (l : List Nat) (h : Keeps s₀ s) : Keeps s₀ (s.setPend t l) := keeps_with h
theorem State.keeps_leaveDoze (h : Keeps s₀ s) : Keeps s₀ s.leaveDoze := keeps_setRb _ _ _ (keeps_with h)
theorem State.keeps_wakeEvent (h : Keeps s₀ s) : Keeps s₀ s.wakeEvent := by
  unfold State.wakeEvent
  split
  · exact keeps_ite (fun _ => keeps_with h) (fun _ => h)
  · exact keeps_ite (fun _ => keeps_leaveDoze h) (fun _ => h)
theorem State.keeps_taskTake (t : Nat) (h : Keeps s₀ s) : Keeps s₀ (s.taskTake t) :=
  keeps_ite (fun _ => keeps_ite (fun _ => keeps_setIp _ _ (keeps_setPend _ _ h)) (fun _ => h))
    (fun _ => keeps_ite (fun _ => keeps_setRb _ _ _ (keeps_setPend _ _ h))
    (fun _ => keeps_ite (fun _ => keeps_setRb _ _ _ (keeps_setPend _ _ h)) (fun _ => h)))
theorem State.keeps_taskAdmit (t h1 : Nat) (h : Keeps s₀ s) : Keeps s₀ (s.taskAdmit t h1) := by
  unfold State.taskAdmit
  extract_lets _ _ _ _ t1 t2
  have k1 : Keeps s₀ t1 := keeps_with (keeps_setPend _ _ h)
  have k2 : Keeps s₀ t2 := keeps_ite (fun _ => keeps_ite (fun _ => keeps_setRb _ _ _ k1) (fun _ => k1))
    (fun _ => keeps_cntF _ _ _ _ h)
  exact keeps_taskTake _ (keeps_ite (fun _ => keeps_wakeEvent k2) (fun _ => k2))
theorem State.keeps_deliverEvent (c h1 : Nat) (h : Keeps s₀ s) : Keeps s₀ (s.deliverEvent c h1) :=
  keeps_capInstant _ (keeps_dmaEvent _ (keeps_waitbEvent _
    (keeps_foldl (fun _ _ k => keeps_ite (fun _ => keeps_taskAdmit _ _ k) (fun _ => k)) _
    (keeps_setReg _ _ (keeps_setRb _ _ _ h)))))
theorem keepsNext_execBeaconDelivery (i : Nat) (h : Keeps s₀ s) : KeepsNext s₀ (execBeaconDelivery i s) := by
  unfold execBeaconDelivery
  split
  · refine keepsNext_gate ?_ h
    extract_lets _ t
    have k : Keeps s₀ t := keeps_with h
    exact keeps_ite (fun _ => keeps_setRb _ _ _ k) (fun _ => keeps_deliverEvent _ _ k)
  · exact keepsNext_next h
theorem keepsNext_execBcnPub (v : W32) (h : Keeps s₀ s) : KeepsNext s₀ (execBcnPub v s) :=
  keepsNext_gate (keeps_foldl (fun _ _ k => keeps_publish _ k) _ h) h
theorem State.keeps_taskWrite (t : Nat) (v : W32) (h : Keeps s₀ s) : Keeps s₀ (s.taskWrite t v) := by
  unfold State.taskWrite
  refine keeps_ite (fun _ => h) (fun _ => ?_)
  extract_lets t1
  have k : Keeps s₀ t1 := keeps_plainWrite _ _ h
  exact keeps_ite (fun _ => k) (fun _ => keeps_setPend _ _ k)
theorem keepsNext_execBcnTaskWrite (t : Nat) (v : W32) (h : Keeps s₀ s) : KeepsNext s₀ (execBcnTaskWrite t v s) :=
  keepsNext_gate (keeps_taskWrite _ _ h) h
theorem State.keeps_taskFire (k hop margin : Nat) (h : Keeps s₀ s) : Keeps s₀ (s.taskFire k hop margin) := by
  unfold State.taskFire
  split
  · exact keeps_setRf _ _ _ _ (keeps_setKiln _ _ h)
  · exact keeps_setKiln _ _ h
  · exact keeps_sendConduct _ (keeps_fireApply _ _ _ _ (keeps_setKiln _ _ h))
theorem keepsNext_execKlnFireTask (k : Nat) (h : Keeps s₀ s) : KeepsNext s₀ (execKlnFireTask k s) := by
  unfold execKlnFireTask
  refine keepsNext_gate ?_ h
  split
  · exact keeps_ite (fun _ => keeps_setKiln _ _ h) (fun _ => keeps_taskFire _ _ _ h)
  · extract_lets t
    have k1 : Keeps s₀ t := keeps_setPend _ _ h
    exact keeps_ite (fun _ => k1) (fun _ => keeps_taskFire _ _ _ k1)
  · exact h

/-! ### Mem -/

theorem State.keeps_stopIsland (n : Nat) (h : Keeps s₀ s) : Keeps s₀ (s.stopIsland n) := by
  unfold State.stopIsland
  refine keeps_ite (fun _ => ?_) (fun _ => h)
  extract_lets t
  have k : Keeps s₀ t := keeps_setPwr _ h
  exact keeps_ite (fun _ => keeps_setRb _ _ _ k) (fun _ => k)
theorem State.keeps_stopIslands (h : Keeps s₀ s) : Keeps s₀ s.stopIslands := keeps_foldl (fun _ _ k => keeps_stopIsland _ k) _ h
theorem State.keeps_startChange (dest final : Nat) (fromRun : optParam Bool false) (h : Keeps s₀ s) :
    Keeps s₀ (s.startChange dest final fromRun) :=
  keeps_setRb _ _ _ (keeps_setPwr _ h)
theorem State.keeps_endChange (h : Keeps s₀ s) : Keeps s₀ s.endChange := keeps_setRb _ _ _ (keeps_setPwr _ h)
theorem State.keeps_freeToken (q : Nat) (h : Keeps s₀ s) : Keeps s₀ (s.freeToken q) := keeps_setQuarter _ _ h
theorem State.keeps_setScrubs (st : Nat) (l : List ScrubPass) (h : Keeps s₀ s) : Keeps s₀ (s.setScrubs st l) := keeps_setMem _ h
theorem State.keeps_askStep (st : Nat) (h : Keeps s₀ s) : Keeps s₀ (s.askStep st) := by
  unfold State.askStep
  split
  · exact keeps_ite (fun _ => keeps_askToken _ _ h) (fun _ => h)
  · exact h
theorem State.keeps_askScrub (by_ : ScrubBy) (st start len : Nat) (h : Keeps s₀ s) :
    Keeps s₀ (s.askScrub by_ st start len) := by
  unfold State.askScrub
  extract_lets _ t
  have k : Keeps s₀ t := keeps_setScrubs _ _ h
  exact keeps_ite (fun _ => keeps_askStep _ k) (fun _ => k)
theorem State.keeps_srefAsk (q : Nat) (h : Keeps s₀ s) : Keeps s₀ (s.srefAsk q) :=
  keeps_ite (fun _ => keeps_ite (fun _ => h) (fun _ => keeps_askToken _ _ h)) (fun _ => keeps_setQuarter _ _ h)
theorem State.keeps_memCmd (st : Nat) (v : W32) (h : Keeps s₀ s) : Keeps s₀ (s.memCmd st v) := by
  unfold State.memCmd
  extract_lets
  refine keeps_foldl (fun _ _ k => ?_) _ (keeps_plainWrite _ _ h)
  extract_lets
  exact keeps_srefAsk _ (keeps_ite (fun _ => keeps_askToken _ _ k) (fun _ => k))
theorem State.keeps_scrubCtl (st : Nat) (v : W32) (h : Keeps s₀ s) : Keeps s₀ (s.scrubCtl st v) := by
  unfold State.scrubCtl
  extract_lets t
  have k : Keeps s₀ t := keeps_plainWrite _ _ h
  exact keeps_ite (fun _ => keeps_askScrub _ _ _ _ (keeps_setRb _ _ _ k)) (fun _ => k)
theorem State.keeps_startWork (q : Nat) (r : MaintReq) (h : Keeps s₀ s) : Keeps s₀ (s.startWork q r) := by
  unfold State.startWork
  refine keeps_ite (fun _ => keeps_stopIsland _ (keeps_setRb _ _ _ (keeps_setQuarter _ _ h)))
    (fun _ => keeps_ite (fun _ => ?_) (fun _ => h))
  split
  · exact keeps_setScrubs _ _ h
  · exact h
theorem State.keeps_grantToken (q : Nat) (h : Keeps s₀ s) : Keeps s₀ (s.grantToken q) := by
  unfold State.grantToken
  extract_lets
  split
  · exact h
  · extract_lets
    exact keeps_startWork _ _ (keeps_setQuarter _ _ h)
theorem keepsNext_execRefreshInterval (p bank issued dt : Nat) (h : Keeps s₀ s) :
    KeepsNext s₀ (execRefreshInterval p bank issued dt s) := by
  unfold execRefreshInterval
  refine keepsNext_gate ?_ h
  extract_lets _ _ _ _ _ _ _ _ _ t
  have k : Keeps s₀ t := keeps_setMem _ (keeps_setMem _ (keeps_setMem _ (keeps_advance _ h)))
  exact keeps_ite (fun _ => keeps_cnt _ _ (keeps_setMem _ k)) (fun _ => keeps_setMem _ k)
theorem keepsNext_execRefreshWindowEnd (st dt : Nat) (h : Keeps s₀ s) : KeepsNext s₀ (execRefreshWindowEnd st dt s) := by
  unfold execRefreshWindowEnd
  refine keepsNext_gate ?_ h
  extract_lets
  exact keeps_setMem _ (keeps_advance _ h)
theorem keepsNext_execHbmPowerDown (p dt : Nat) (h : Keeps s₀ s) : KeepsNext s₀ (execHbmPowerDown p dt s) := by
  unfold execHbmPowerDown
  extract_lets
  exact keepsNext_gate (keeps_setMem _ (keeps_advance _ h)) h
theorem keepsNext_execMemSrefRequest (st : Nat) (v : W32) (h : Keeps s₀ s) : KeepsNext s₀ (execMemSrefRequest st v s) :=
  keepsNext_writeGate (keeps_memCmd _ _ h) h
theorem keepsNext_execMemRetrainRequest (st : Nat) (v : W32) (h : Keeps s₀ s) : KeepsNext s₀ (execMemRetrainRequest st v s) :=
  keepsNext_writeGate (keeps_memCmd _ _ h) h
theorem keepsNext_execMaintTokenGrant (q : Nat) (h : Keeps s₀ s) : KeepsNext s₀ (execMaintTokenGrant q s) :=
  keepsNext_gate (keeps_grantToken _ h) h
theorem keepsNext_execRetrainDone (q dt : Nat) (ok : Bool) (h : Keeps s₀ s) : KeepsNext s₀ (execRetrainDone q dt ok s) := by
  unfold execRetrainDone
  refine keepsNext_gate ?_ h
  extract_lets t
  have k : Keeps s₀ t := keeps_freeToken _ (keeps_setRb _ _ _ (keeps_advance _ h))
  refine keeps_ite (fun _ => k) (fun _ => ?_)
  split
  rename_i e
  split
  rename_i e1
  exact keeps_logError _ ((keeps_free ((keeps_free (keeps_setRb _ _ _ k)).of_snd e)).of_snd e1)
theorem keepsNext_execSelfRefreshExit (q dt : Nat) (h : Keeps s₀ s) : KeepsNext s₀ (execSelfRefreshExit q dt s) := by
  unfold execSelfRefreshExit
  refine keepsNext_gate ?_ h
  extract_lets
  exact keeps_setRb _ _ _ (keeps_setQuarter _ _ (keeps_setMem _ (keeps_advance _ h)))
theorem keepsNext_execNeighbourRefreshDone (q : Nat) (h : Keeps s₀ s) : KeepsNext s₀ (execNeighbourRefreshDone q s) :=
  keepsNext_gate (keeps_freeToken _ (keeps_cnt _ _ h)) h
theorem keepsNext_execScrubGo (st : Nat) (v : W32) (h : Keeps s₀ s) : KeepsNext s₀ (execScrubGo st v s) :=
  keepsNext_writeGate (keeps_scrubCtl _ _ h) h
theorem State.keeps_scrubStep (p : ScrubPass) (t : List ScrubPass) (h : Keeps s₀ s) : Keeps s₀ (s.scrubStep p t) := by
  unfold State.scrubStep
  extract_lets
  split
  rename_i e
  extract_lets
  exact keeps_setScrubs _ _ (keeps_touch _ _ ((keeps_scan _ _ _ _ _ _ _ h).of_snd e))
theorem keepsNext_execScrubStepDone (st dt : Nat) (up : Option Upset) (h : Keeps s₀ s) :
    KeepsNext s₀ (execScrubStepDone st dt up s) := by
  unfold execScrubStepDone
  refine keepsNext_gate ?_ h
  extract_lets t
  have k : Keeps s₀ t := keeps_upset _ (keeps_advance _ h)
  split
  · exact keeps_askStep _ (keeps_freeToken _ (keeps_scrubStep _ _ k))
  · exact k
theorem keepsNext_execEccLogPop (v : W32) (h : Keeps s₀ s) : KeepsNext s₀ (execEccLogPop v s) :=
  keepsNext_writeGate (keeps_logPop h) h

/-! ### Conduct -/

theorem State.keeps_setFollow (k : Nat) (l : List FollowEntry) (h : Keeps s₀ s) : Keeps s₀ (s.setFollow k l) :=
  keeps_setPair _ h
theorem State.keeps_kStall (k : Nat) (h : Keeps s₀ s) : Keeps s₀ (s.kStall k) :=
  keeps_ite (fun _ => keeps_setCore _ _ h) (fun _ => h)
theorem State.keeps_kEnqueue (k cop : Nat) (block : List W16) (h : Keeps s₀ s) : Keeps s₀ (s.kEnqueue k cop block) :=
  keeps_kApply _ _ _ (keeps_cqCnt _ _ (keeps_setCq _ (keeps_setQueue _ _ (keeps_kWake _ h))))
theorem State.keeps_kBlock (k a n : Nat) (h : Keeps s₀ s) : Keeps s₀ (s.kBlock k a n).2.2 := by
  unfold State.kBlock
  split
  rename_i e
  exact (keeps_scan _ _ _ _ _ _ _ h).of_snd e
theorem State.keeps_kConduct (k : Nat) (cop : BitVec 6) (p : BitVec 3) (imm : W16) (h : Keeps s₀ s) :
    Keeps s₀ (s.kConduct k cop p imm) := by
  unfold State.kConduct
  split
  rename_i t1 e
  have k1 : Keeps s₀ t1 := (keeps_kFetch _ h).of_snd e
  extract_lets
  refine keeps_ite (fun _ => h) (fun _ => keeps_ite (fun _ => keeps_kTrap _ _ _ k1)
    (fun _ => keeps_ite (fun _ => keeps_kTrap _ _ _ k1) (fun _ => ?_)))
  split
  · exact keeps_ite (fun _ => keeps_kStall _ k1) (fun _ => keeps_kEnqueue _ _ _ k1)
  · refine keeps_ite (fun _ => keeps_kTrap _ _ _ k1) (fun _ => keeps_ite (fun _ => keeps_kStall _ k1) (fun _ => ?_))
    split
    rename_i t2 e1
    have k2 : Keeps s₀ t2 := (keeps_kBlock _ _ _ k1).of_snd₂ e1
    exact keeps_ite (fun _ => keeps_kTrap _ _ _ k2) (fun _ => keeps_kEnqueue _ _ _ k2)
  · exact h
theorem keepsNext_execConductIssue (k : Nat) (cop : BitVec 6) (p : BitVec 3) (imm : W16) (up : Option Upset) (h : Keeps s₀ s) :
    KeepsNext s₀ (execConductIssue k cop p imm up s) :=
  keepsNext_gate (keeps_kConduct _ _ _ _ (keeps_upset _ h)) h
theorem keepsNext_execHalt (k : Nat) (h : Keeps s₀ s) : KeepsNext s₀ (execHalt k s) := by
  unfold execHalt
  refine keepsNext_gate ?_ h
  split
  rename_i t e
  have k1 : Keeps s₀ t := (keeps_kFetch _ h).of_snd e
  extract_lets
  exact keeps_ite (fun _ => h) (fun _ => keeps_ite (fun _ => keeps_kTrap _ _ _ k1)
    (fun _ => keeps_ite (fun _ => keeps_kTrap _ _ _ k1) (fun _ => keeps_kHalt _ _ (keeps_kApply _ _ _ (keeps_kWake _ k1)))))
theorem keepsNext_execConductDispatch (k : Nat) (h : Keeps s₀ s) : KeepsNext s₀ (execConductDispatch k s) := by
  unfold execConductDispatch
  split
  · exact keepsNext_gate (keeps_ite (fun _ => keeps_ite (fun _ => h) (fun _ => keeps_startChange _ _ _ h))
      (fun _ => keeps_qSetHead _ _ h)) h
  · exact keepsNext_next h
theorem State.keeps_followed (k : Nat) (e : QEntry) (h : Keeps s₀ s) : Keeps s₀ (s.followed k e) :=
  keeps_ite (fun _ => keeps_qFinish _ _ _ _ (keeps_setPair _ h))
    (fun _ => keeps_ite (fun _ => h) (fun _ => keeps_qFinish _ _ _ _ (keeps_setFollow _ _ h)))
theorem State.keeps_settle (k : Nat) (e : QEntry) (v : Verdict) (f : Nat → State) (hf : ∀ x, Keeps s₀ (f x)) (h : Keeps s₀ s) :
    Keeps s₀ (s.settle k e v f) := by
  unfold State.settle
  split
  · exact keeps_qFault _ _ _ h
  · exact keeps_qSetHead _ _ h
  · exact hf _
theorem State.keeps_lookAt (rs : List Nat) (h : Keeps s₀ s) : Keeps s₀ (s.lookAt rs) :=
  keeps_foldl (fun _ _ k => keeps_rLook _ k) _ h
theorem State.keeps_acceptOpen (k : Nat) (e : QEntry) (h : Keeps s₀ s) : Keeps s₀ (s.acceptOpen k e) := by
  unfold State.acceptOpen
  extract_lets t
  have k1 : Keeps s₀ t := keeps_lookAt _ h
  exact keeps_settle _ _ _ _ (fun _ => keeps_sendConduct _ (keeps_openApply _ _ _ _ (keeps_qFinish _ _ _ _ k1))) k1
theorem State.keeps_acceptFire (k : Nat) (e : QEntry) (h : Keeps s₀ s) : Keeps s₀ (s.acceptFire k e) :=
  keeps_settle _ _ _ _ (fun _ => keeps_sendConduct _ (keeps_fireApply _ _ _ _ (keeps_qAccept _ _ _ h))) h
theorem State.keeps_acceptShut (k : Nat) (e : QEntry) (h : Keeps s₀ s) : Keeps s₀ (s.acceptShut k e) :=
  keeps_settle _ _ _ _ (fun _ => keeps_ite (fun _ => keeps_sendConduct _ (keeps_shutIdle _ (keeps_qFinish _ _ _ _ h)))
    (fun _ => keeps_sendConduct _ (keeps_shutApply _ _ _ (keeps_qAccept _ _ _ h)))) h
theorem State.keeps_srcRead (a n : Nat) (v : Verdict) (h : Keeps s₀ s) : Keeps s₀ (s.srcRead a n v).2 := by
  unfold State.srcRead
  split
  · exact keeps_csRead _ _ _ _ h
  · exact keeps_csRead _ _ _ _ h
  · exact h
theorem State.keeps_acceptSteer (k : Nat) (e : QEntry) (h : Keeps s₀ s) : Keeps s₀ (s.acceptSteer k e) := by
  unfold State.acceptSteer
  extract_lets _ _ _ rd t
  have k1 : Keeps s₀ t := by
    unfold t
    unfold rd
    split
    · exact keeps_srcRead _ _ _ h
    · exact h
  refine keeps_settle _ _ _ _ (fun _ => keeps_sendConduct _ (keeps_steerApply _ _ _ _ _ (keeps_qAccept _ _ _ k1))) ?_
  unfold rd
  split
  · exact keeps_srcRead _ _ _ h
  · exact h
theorem State.keeps_acceptGlaze (k : Nat) (e : QEntry) (h : Keeps s₀ s) : Keeps s₀ (s.acceptGlaze k e) := by
  unfold State.acceptGlaze
  extract_lets _ _ _ _ _ rd t
  have k1 : Keeps s₀ t := by
    unfold t
    unfold rd
    split
    · exact h
    · exact keeps_srcRead _ _ _ h
  refine keeps_settle _ _ _ _ (fun _ => keeps_sendConduct _ (keeps_glazeApply _ _ _ (keeps_qAccept _ _ _ k1))) ?_
  unfold rd
  split
  · exact h
  · exact keeps_srcRead _ _ _ h
theorem State.keeps_acceptArm (k : Nat) (e : QEntry) (h : Keeps s₀ s) : Keeps s₀ (s.acceptArm k e) := by
  unfold State.acceptArm
  extract_lets t
  have k1 : Keeps s₀ t := keeps_lookAt _ h
  exact keeps_settle _ _ _ _ (fun _ => keeps_sendConduct _ (keeps_armApply _ _ (keeps_qFinish _ _ _ _ k1))) k1
theorem State.keeps_acceptPlace (k : Nat) (e : QEntry) (h : Keeps s₀ s) : Keeps s₀ (s.acceptPlace k e) := by
  unfold State.acceptPlace
  extract_lets _ _ rd _ t
  have k1 : Keeps s₀ t := by
    unfold t
    unfold rd
    split
    · exact h
    · exact keeps_csRead _ _ _ _ h
  refine keeps_settle _ _ _ _ (fun _ => ?_) ?_
  · split
    · exact keeps_qFinish _ _ _ _ (keeps_setRf _ _ _ _ (keeps_csWrite _ _ k1))
    · extract_lets
      exact keeps_sendConduct _ (keeps_placeTake _ (keeps_qFinish _ _ _ _ (keeps_setRf _ _ _ _ (keeps_csWrite _ _ k1))))
  · unfold rd
    split
    · exact h
    · exact keeps_csRead _ _ _ _ h
theorem keepsNext_prodRow (k cop : Nat) (f : State → QEntry → State) (hf : ∀ t x1, Keeps s₀ t → Keeps s₀ (f t x1))
    (h : Keeps s₀ s) : KeepsNext s₀ (prodRow k cop s f) := by
  unfold prodRow
  split
  · exact keepsNext_gate (keeps_ite (fun _ => keeps_followed _ _ h) (fun _ => hf _ _ h)) h
  · exact keepsNext_next h
theorem keepsNext_execPlace (k : Nat) (up : Option Upset) (h : Keeps s₀ s) : KeepsNext s₀ (execPlace k up s) :=
  keepsNext_prodRow _ _ _ (fun _ _ k1 => keeps_acceptPlace _ _ (keeps_upset _ k1)) h
theorem keepsNext_execOpenKiln (k : Nat) (h : Keeps s₀ s) : KeepsNext s₀ (execOpenKiln k s) :=
  keepsNext_prodRow _ _ _ (fun _ _ k1 => keeps_acceptOpen _ _ k1) h
theorem keepsNext_execFire (k : Nat) (h : Keeps s₀ s) : KeepsNext s₀ (execFire k s) :=
  keepsNext_prodRow _ _ _ (fun _ _ k1 => keeps_acceptFire _ _ k1) h
theorem keepsNext_execShut (k : Nat) (h : Keeps s₀ s) : KeepsNext s₀ (execShut k s) :=
  keepsNext_prodRow _ _ _ (fun _ _ k1 => keeps_acceptShut _ _ k1) h
theorem keepsNext_execSteer (k : Nat) (up : Option Upset) (h : Keeps s₀ s) : KeepsNext s₀ (execSteer k up s) :=
  keepsNext_prodRow _ _ _ (fun _ _ k1 => keeps_acceptSteer _ _ (keeps_upset _ k1)) h
theorem keepsNext_execGlaze (k : Nat) (up : Option Upset) (h : Keeps s₀ s) : KeepsNext s₀ (execGlaze k up s) :=
  keepsNext_prodRow _ _ _ (fun _ _ k1 => keeps_acceptGlaze _ _ (keeps_upset _ k1)) h
theorem keepsNext_execArm (k : Nat) (h : Keeps s₀ s) : KeepsNext s₀ (execArm k s) :=
  keepsNext_prodRow _ _ _ (fun _ _ k1 => keeps_acceptArm _ _ k1) h
theorem keepsNext_execDisarm (k : Nat) (h : Keeps s₀ s) : KeepsNext s₀ (execDisarm k s) := by
  unfold execDisarm
  split
  · exact keepsNext_gate (keeps_settle _ _ _ _ (fun _ => keeps_disarmApply _ _ (keeps_qFinish _ _ _ _ h)) h) h
  · exact keepsNext_next h
theorem keepsNext_execSignal (k : Nat) (h : Keeps s₀ s) : KeepsNext s₀ (execSignal k s) := by
  unfold execSignal
  split
  · exact keepsNext_gate (keeps_ite (fun _ => keeps_publish _ (keeps_qFinish _ _ _ _ h)) (fun _ => keeps_qFault _ _ _ h)) h
  · exact keepsNext_next h
theorem State.keeps_acceptPost (k : Nat) (e : QEntry) (h : Keeps s₀ s) : Keeps s₀ (s.acceptPost k e) := by
  unfold State.acceptPost
  extract_lets _ _ t1 _ _ _ _ _ _ _ t2
  have k1 : Keeps s₀ t1 := keeps_lookAt _ h
  have k2 : Keeps s₀ t2 := keeps_setCq _ (keeps_qAccept _ _ _ (keeps_srcRead _ _ _ k1))
  exact keeps_settle _ _ _ _ (fun _ => keeps_ite (fun _ => keeps_sendSeq _ k2) (fun _ => k2)) (keeps_srcRead _ _ _ k1)
theorem keepsNext_execPost (k : Nat) (up : Option Upset) (h : Keeps s₀ s) : KeepsNext s₀ (execPost k up s) := by
  unfold execPost
  split
  · exact keepsNext_gate (keeps_acceptPost _ _ (keeps_upset _ h)) h
  · exact keepsNext_next h
theorem State.keeps_setPost (op : Nat) (f : PostRec → Option PostRec) (h : Keeps s₀ s) : Keeps s₀ (s.setPost op f) :=
  keeps_setCq _ h
theorem State.keeps_writePost (x : PostRec) (h : Keeps s₀ s) : Keeps s₀ (s.writePost x) := by
  unfold State.writePost
  extract_lets
  split
  rename_i t1 e
  have k1 : Keeps s₀ t1 := (keeps_offer _ _ _ _ _ h).of_snd e
  split
  · exact k1
  · exact keeps_opDone _ _ _ (keeps_setPost _ _ k1)
  · extract_lets t2
    have k2 : Keeps s₀ t2 := keeps_setPair _ k1
    exact keeps_ite (fun _ => keeps_setPost _ _ k2) (fun _ => keeps_opDone _ _ _ (keeps_rOwe _ _ (keeps_setPost _ _ k2)))
theorem State.keeps_endHeldPost (x : PostRec) (h : Keeps s₀ s) : Keeps s₀ (s.endHeldPost x) := by
  unfold State.endHeldPost
  split
  · exact h
  · exact keeps_opDone _ _ _ (keeps_setPost _ _ h)
theorem State.keeps_endHeldPosts (h : Keeps s₀ s) : Keeps s₀ s.endHeldPosts :=
  keeps_foldl (fun _ _ k => keeps_endHeldPost _ k) _ h
theorem keepsNext_execPostRecordWrite (r : Nat) (h : Keeps s₀ s) : KeepsNext s₀ (execPostRecordWrite r s) := by
  unfold execPostRecordWrite
  split
  · exact keepsNext_gate (keeps_ite (fun _ => keeps_writePost _ h)
      (fun _ => keeps_endHeldPosts (keeps_ite (fun _ => keeps_flushHeld _ h) (fun _ => h)))) h
  · exact keepsNext_next h
theorem keepsNext_execScrub (k : Nat) (h : Keeps s₀ s) : KeepsNext s₀ (execScrub k s) := by
  unfold execScrub
  split
  · exact keepsNext_gate (keeps_settle _ _ _ _ (fun _ => keeps_askScrub _ _ _ _ (keeps_qAccept _ _ _ h)) h) h
  · exact keepsNext_next h
theorem State.keeps_scrubSummary (p : ScrubPass) (h : Keeps s₀ s) : Keeps s₀ (s.scrubSummary p) := by
  unfold State.scrubSummary
  split
  · exact keeps_opDone _ _ _ (keeps_csWrite _ _ h)
  · extract_lets
    exact keeps_setRb _ _ _ (keeps_foldl (fun _ _ k => keeps_setReg _ _ k) _ h)
theorem keepsNext_execScrubDone (st : Nat) (h : Keeps s₀ s) : KeepsNext s₀ (execScrubDone st s) := by
  unfold execScrubDone
  split
  · exact keepsNext_gate (keeps_askStep _ (keeps_publish _ (keeps_scrubSummary _ (keeps_setScrubs _ _ h)))) h
  · exact keepsNext_next h
theorem keepsNext_barRow (k cop : Nat) (f : State → QEntry → State) (hf : ∀ t x1, Keeps s₀ t → Keeps s₀ (f t x1))
    (h : Keeps s₀ s) : KeepsNext s₀ (barRow k cop s f) := by
  unfold barRow
  split
  · exact keepsNext_gate (hf _ _ h) h
  · exact keepsNext_next h
theorem State.keeps_rangeOr (k : Nat) (e : QEntry) (bad : Bool) (f : State → State) (hf : ∀ t, Keeps s₀ t → Keeps s₀ (f t))
    (h : Keeps s₀ s) : Keeps s₀ (s.rangeOr k e bad f) :=
  keeps_ite (fun _ => keeps_qFault _ _ _ h) (fun _ => hf _ h)
theorem keepsNext_execWaitt (k : Nat) (h : Keeps s₀ s) : KeepsNext s₀ (execWaitt k s) :=
  keepsNext_barRow _ _ _ (fun _ _ k1 => keeps_rangeOr _ _ _ _ (fun _ k2 => keeps_waittJudge _ _ k2) k1) h
theorem keepsNext_execWaitb (k : Nat) (h : Keeps s₀ s) : KeepsNext s₀ (execWaitb k s) :=
  keepsNext_barRow _ _ _ (fun _ _ k1 => keeps_rangeOr _ _ _ _ (fun _ k2 => keeps_qWait _ _ k2) k1) h
theorem keepsNext_execWaittDone (k dt : Nat) (h : Keeps s₀ s) : KeepsNext s₀ (execWaittDone k dt s) := by
  unfold execWaittDone
  extract_lets
  split
  · exact keepsNext_gate (keeps_qFinish _ _ _ _ (keeps_advance _ h)) h
  · exact keepsNext_next h
theorem keepsNext_execWaitbTimeout (k dt : Nat) (h : Keeps s₀ s) : KeepsNext s₀ (execWaitbTimeout k dt s) := by
  unfold execWaitbTimeout
  split
  · exact keepsNext_gate (keeps_qFinish _ _ _ _ (keeps_advance _ h)) h
  · exact keepsNext_next h
theorem keepsNext_execFenceAll (k : Nat) (h : Keeps s₀ s) : KeepsNext s₀ (execFenceAll k s) :=
  keepsNext_barRow _ _ _ (fun _ _ k1 => keeps_qWait _ _ k1) h
theorem keepsNext_execFenceKiln (k : Nat) (h : Keeps s₀ s) : KeepsNext s₀ (execFenceKiln k s) :=
  keepsNext_barRow _ _ _ (fun _ _ k1 => keeps_rangeOr _ _ _ _ (fun _ k2 => keeps_qWait _ _ k2) k1) h
theorem keepsNext_execFenceHost (k : Nat) (h : Keeps s₀ s) : KeepsNext s₀ (execFenceHost k s) :=
  keepsNext_barRow _ _ _ (fun _ _ k1 => keeps_qWait _ _ k1) h
theorem keepsNext_execFenceComplete (k : Nat) (h : Keeps s₀ s) : KeepsNext s₀ (execFenceComplete k s) := by
  unfold execFenceComplete
  split
  · exact keepsNext_gate (keeps_qFinish _ _ _ _ h) h
  · exact keepsNext_next h

/-! ### Release -/

theorem State.keeps_joinKiln (k : Nat) (p : KilnPlace) (h : Keeps s₀ s) : Keeps s₀ (s.joinKiln k p) := by
  unfold State.joinKiln
  extract_lets
  refine keeps_ite (fun _ => h) (fun _ => ?_)
  split
  · exact h
  · extract_lets
    exact keeps_setPair _ (keeps_setKiln _ _ h)
theorem State.keeps_joinGroup (g nr x : Nat) (h : Keeps s₀ s) : Keeps s₀ (s.joinGroup g nr x) := by
  unfold State.joinGroup
  extract_lets t
  have k : Keeps s₀ t := keeps_detRestart _ _ _ h
  exact keeps_ite (fun _ => k) (fun _ => keeps_setGrp _ _ k)
theorem State.keeps_joinBlock (m : Nat) (p : BlockPlace) (h : Keeps s₀ s) : Keeps s₀ (s.joinBlock m p) := by
  unfold State.joinBlock
  extract_lets
  refine keeps_ite (fun _ => h) (fun _ => ?_)
  split
  · exact h
  · extract_lets
    exact keeps_joinGroup _ _ _ (keeps_setPair _ (keeps_setBlock _ _ h))
theorem State.keeps_joinUnits (h : Keeps s₀ s) : Keeps s₀ s.joinUnits := by
  unfold State.joinUnits
  split
  · exact h
  · refine keeps_ite (fun _ => h) (fun _ => ?_)
    extract_lets
    exact keeps_foldl (fun _ _ k1 => keeps_joinBlock _ _ k1) _ (keeps_foldl (fun _ _ k2 => keeps_joinKiln _ _ k2) _ h)
theorem State.keeps_missFrames (c blk : Nat) (h : Keeps s₀ s) : Keeps s₀ (s.missFrames c blk) := by
  unfold State.missFrames
  refine keeps_foldl (fun _ _ k => keeps_ite (fun _ => ?_) (fun _ => k)) _ h
  extract_lets
  exact keeps_ite (fun _ => keeps_setPair _ k) (fun _ => keeps_cnt _ _ k)
theorem State.keeps_releaseJoin (c blk : Nat) (h : Keeps s₀ s) : Keeps s₀ (s.releaseJoin c blk) :=
  keeps_joinUnits (keeps_missFrames _ _ (keeps_releaseSlot _ _ h))
theorem State.keeps_slotRelease (c : Nat) (x : Slot) (h : Keeps s₀ s) : Keeps s₀ (s.slotRelease c x) := by
  unfold State.slotRelease
  extract_lets t
  have k : Keeps s₀ t := keeps_sendLoss _ _ h
  refine keeps_ite (fun _ => ?_) (fun _ => keeps_releaseJoin _ _ k)
  split
  · exact k
  · exact keeps_releaseJoin _ _ (keeps_pairBlank _ _ _ k)
theorem State.keeps_slotTake (c : Nat) (x : Slot) (h : Keeps s₀ s) : Keeps s₀ (s.slotTake c x) := by
  unfold State.slotTake
  extract_lets t
  have k : Keeps s₀ t := keeps_readSlot _ _ h
  exact keeps_elim k (fun _ => keeps_slotRelease _ _ k)
theorem keepsNext_execSlotRelease (chan : Nat) (up : Option Upset) (h : Keeps s₀ s) :
    KeepsNext s₀ (execSlotRelease chan up s) := by
  unfold execSlotRelease
  split
  · refine keepsNext_gate ?_ h
    extract_lets t
    have k : Keeps s₀ t := keeps_slotUpset _ _ _ h
    split
    · exact keeps_ite (fun _ => k) (fun _ => keeps_slotTake _ _ k)
    · exact k
  · exact keepsNext_next h

/-! ### Pair -/

theorem State.keeps_setRole (r : Nat) (h : Keeps s₀ s) : Keeps s₀ (s.setRole r) :=
  keeps_ite (fun _ => h) (fun _ => keeps_publish _ (keeps_setRf _ _ _ _ h))
theorem State.keeps_hearRole (role ack : Nat) (h : Keeps s₀ s) : Keeps s₀ (s.hearRole role ack) := keeps_setPair _ h
theorem State.keeps_dropWaits (h : Keeps s₀ s) : Keeps s₀ s.dropWaits := keeps_foldl (fun _ _ k => keeps_setRng _ _ k) _ h
theorem State.keeps_dropCovered (h : Keeps s₀ s) : Keeps s₀ s.dropCovered :=
  keeps_ite (fun _ => h) (fun _ => keeps_setBeam _ (keeps_cnt _ _ h))
theorem State.keeps_setReady (kiln block eng : Nat → Bool) (h : Keeps s₀ s) : Keeps s₀ (s.setReady kiln block eng) :=
  keeps_setReg _ _ (keeps_setReg _ _ h)
theorem State.keeps_standDown (h : Keeps s₀ s) : Keeps s₀ s.standDown :=
  keeps_holdQueued (keeps_dropWaits (keeps_setRole _ (keeps_setPair _ (keeps_setReady _ _ _ h))))
theorem State.keeps_chooseRole (claim : Nat) (h : Keeps s₀ s) : Keeps s₀ (s.chooseRole claim) :=
  keeps_ite (fun _ => keeps_ite (fun _ => keeps_setRole _ h)
    (fun _ => keeps_ite (fun _ => keeps_sendSeq _ (keeps_setRole _ (keeps_setPair _ h)))
    (fun _ => keeps_ite (fun _ => keeps_publish _ (keeps_setRb _ _ _ h)) (fun _ => h))))
    (fun _ => keeps_ite (fun _ => keeps_standDown h) (fun _ => h))
theorem State.keepsSome_takeVerdict (v : Verdict) (f : Nat → State) (hf : ∀ x, Keeps s₀ (f x)) (h : Keeps s₀ s) :
    KeepsSome s₀ (s.takeVerdict v f) := by
  unfold State.takeVerdict
  split
  · exact keepsSome_some (keeps_cnt _ _ (hf _))
  · exact keepsSome_some (keeps_cnt _ _ (keeps_cnt _ _ h))
  · exact keepsSome_none
theorem State.keepsSome_takePlace (e : QEntry) (h : Keeps s₀ s) : KeepsSome s₀ (s.takePlace e) := by
  unfold State.takePlace
  extract_lets _ rd _ t
  have k : Keeps s₀ t := by
    unfold t
    unfold rd
    split
    · exact h
    · exact keeps_csRead _ _ _ _ h
  refine keepsSome_takeVerdict _ _ (fun _ => ?_) ?_
  · split
    · exact keeps_setRf _ _ _ _ (keeps_csWrite _ _ k)
    · exact keeps_placeTake _ (keeps_setRf _ _ _ _ (keeps_csWrite _ _ k))
  · unfold rd
    split
    · exact h
    · exact keeps_csRead _ _ _ _ h
theorem State.keepsSome_takeSteer (e : QEntry) (h : Keeps s₀ s) : KeepsSome s₀ (s.takeSteer e) := by
  unfold State.takeSteer
  extract_lets _ _ rd
  refine keepsSome_takeVerdict _ _ (fun _ => keeps_steerApply _ _ _ _ _ ?_) ?_
  · unfold rd
    split
    · exact keeps_srcRead _ _ _ h
    · exact h
  · unfold rd
    split
    · exact keeps_srcRead _ _ _ h
    · exact h
theorem State.keepsSome_takeGlaze (e : QEntry) (h : Keeps s₀ s) : KeepsSome s₀ (s.takeGlaze e) := by
  unfold State.takeGlaze
  extract_lets _ _ _ _ rd
  refine keepsSome_takeVerdict _ _ (fun _ => keeps_glazeApply _ _ _ ?_) ?_
  · unfold rd
    split
    · exact h
    · exact keeps_srcRead _ _ _ h
  · unfold rd
    split
    · exact h
    · exact keeps_srcRead _ _ _ h
theorem State.keeps_followBoundary (k b kp issue : Nat) (h : Keeps s₀ s) : Keeps s₀ (s.followBoundary k b kp issue) :=
  keeps_ite (fun _ => h) (fun _ => keeps_setKiln _ _ h)
theorem State.keepsSome_takeEntry (kp : Nat) (e : QEntry) (h : Keeps s₀ s) : KeepsSome s₀ (s.takeEntry kp e) := by
  unfold State.takeEntry
  extract_lets
  split
  · exact keepsSome_takePlace _ h
  · exact keepsSome_takeVerdict _ _ (fun _ => keeps_openApply _ _ _ _ h) h
  · exact keepsSome_takeVerdict _ _ (fun _ => keeps_followBoundary _ _ _ _ (keeps_fireApply _ _ _ _ h)) h
  · exact keepsSome_takeVerdict _ _ (fun _ => keeps_ite (fun _ => keeps_shutIdle _ h)
      (fun _ => keeps_followBoundary _ _ _ _ (keeps_shutApply _ _ _ h))) h
  · exact keepsSome_takeSteer _ h
  · exact keepsSome_takeGlaze _ h
  · exact keepsSome_takeVerdict _ _ (fun _ => keeps_armApply _ _ h) h
theorem State.keeps_takeLog (k n : Nat) (h : Keeps s₀ s) : Keeps s₀ (s.takeLog k n) := by
  induction n generalizing s with
  | zero => exact h
  | succ n ih =>
    unfold State.takeLog
    split
    · exact h
    · split
      next e => exact ih (keeps_setFollow _ _ (keepsSome_takeEntry _ _ h _ e))
      · exact h
theorem State.keeps_takeLogs (h : Keeps s₀ s) : Keeps s₀ s.takeLogs := keeps_foldl (fun _ _ k => keeps_takeLog _ _ k) _ h
theorem keepsNext_execNextResolve (k : Nat) (up : Option Upset) (h : Keeps s₀ s) : KeepsNext s₀ (execNextResolve k up s) := by
  unfold execNextResolve
  refine keepsNext_ite (fun _ => keepsNext_gate (keeps_takeLog _ _ h) h) (fun _ => ?_)
  split
  · refine keepsNext_gate (keeps_ite (fun _ => keeps_followed _ _ h) (fun _ => ?_)) h
    split
    · exact keeps_acceptOpen _ _ h
    · exact keeps_acceptFire _ _ h
    · exact keeps_acceptShut _ _ h
    · exact keeps_acceptSteer _ _ (keeps_upset _ h)
    · exact keeps_acceptGlaze _ _ (keeps_upset _ h)
  · exact keepsNext_next h
theorem State.keeps_takeSlots (c n : Nat) (h : Keeps s₀ s) : Keeps s₀ (s.takeSlots c n) := by
  induction n generalizing s with
  | zero => exact h
  | succ n ih =>
    unfold State.takeSlots
    split
    · exact keeps_ite (fun _ => ih (keeps_releaseJoin _ _ h)) fun _ => h
    · exact h
theorem State.keeps_reportDrain (k : Nat) (h : Keeps s₀ s) : Keeps s₀ (s.reportDrain k) := by
  unfold State.reportDrain
  extract_lets t1
  have k1 : Keeps s₀ t1 := keeps_reportGroups _ (keeps_retryHeaders _ h)
  split
  · exact k1
  · extract_lets t2
    have k2 : Keeps s₀ t2 := by
      refine keeps_foldl (fun _ _ k3 => ?_) _ k1
      extract_lets
      split
      · exact keeps_ite (fun _ => k3) (fun _ => keeps_ite (fun _ => keeps_setRng _ _ k3)
          (fun _ => keeps_ite (fun _ => keeps_setRng _ _ k3) (fun _ => k3)))
      · exact k3
    exact keeps_ite (fun _ => keeps_drainDone _ (keeps_cnt _ _ k2)) (fun _ => k2)
theorem State.keeps_takeDrain (k : Nat) (h : Keeps s₀ s) : Keeps s₀ (s.takeDrain k) := by
  unfold State.takeDrain
  extract_lets
  split
  · exact keeps_ite (fun _ => keeps_setKiln _ _ h) (fun _ => h)
  · extract_lets
    exact keeps_retryHeaders _ (keeps_setKiln _ _ (keeps_setPair _
      (keeps_foldl (fun _ _ k1 => keeps_ite (fun _ => keeps_setRng _ _ k1) (fun _ => k1)) _ h)))
theorem State.keeps_takeCaps (e : Nat) (h : Keeps s₀ s) : Keeps s₀ (s.takeCaps e) := keeps_setLtn _ _ h
theorem State.keeps_takeLost (h : Keeps s₀ s) : Keeps s₀ s.takeLost := by
  unfold State.takeLost
  extract_lets _ t
  have k : Keeps s₀ t := keeps_setPair _ (keeps_cnt _ _ h)
  refine keeps_ite (fun _ => ?_) (fun _ => k)
  split
  rename_i e
  exact keeps_cnt _ _ ((keeps_free k).of_snd e)
theorem State.keeps_takePosts (h : Keeps s₀ s) : Keeps s₀ s.takePosts := by
  unfold State.takePosts
  refine keeps_foldl (fun _ _ k => ?_) _ h
  split
  · exact keeps_ite (fun _ => k) (fun _ => keeps_heldOut _ _ _ k)
  · exact k
theorem State.keeps_takeover (h : Keeps s₀ s) : Keeps s₀ s.takeover := by
  unfold State.takeover
  extract_lets _ _ _ _ _ _ _ t
  have k1 : Keeps s₀ t := keeps_foldl (fun _ _ k2 => keeps_takeDrain _ k2) _
    (keeps_takePosts (keeps_foldl (fun _ _ k3 => keeps_takeCaps _ k3) _
    (keeps_takeLost (keeps_takeLogs (keeps_foldl (fun _ _ k4 => keeps_takeSlots _ _ k4) _
    (keeps_cnt _ _ (keeps_setRole _ (keeps_publish _ (keeps_setRf _ _ _ _
    (keeps_dropCovered (keeps_foldl (fun _ _ k5 => keeps_reportDrain _ k5) _ h)))))))))))
  exact keeps_endHeldPosts (keeps_ite (fun _ => keeps_foldl (fun _ _ k6 => keeps_flushHeld _ k6) _ k1) (fun _ => k1))
theorem State.keeps_losePartner (h : Keeps s₀ s) : Keeps s₀ s.losePartner := by
  unfold State.losePartner
  extract_lets _ t
  have k : Keeps s₀ t := keeps_publish _ h
  exact keeps_ite (fun _ => h) (fun _ => keeps_setPair _ (keeps_ite (fun _ => keeps_takeover k) (fun _ => keeps_setRole _ k)))
theorem State.keeps_leavePair (h : Keeps s₀ s) : Keeps s₀ s.leavePair :=
  keeps_setPair _ (keeps_setRf _ _ _ _ (keeps_setRole _ (keeps_foldl (fun _ _ k => keeps_opDone _ _ _ (keeps_setPost _ _ k)) _
    h)))
theorem State.keeps_prCtl (v : W32) (h : Keeps s₀ s) : Keeps s₀ (s.prCtl v) := by
  unfold State.prCtl
  extract_lets _ _ t1 t2 t3
  have k1 : Keeps s₀ t1 := keeps_setRb _ _ _ (keeps_setRb _ _ _ h)
  have k2 : Keeps s₀ t2 := keeps_ite (fun _ => keeps_setRole _ (keeps_setPair _ k1))
    (fun _ => keeps_ite (fun _ => keeps_leavePair k1) (fun _ => k1))
  have k3 : Keeps s₀ t3 := keeps_ite (fun _ => keeps_setPair _ (keeps_takeover k2)) (fun _ => k2)
  exact keeps_ite (fun _ => keeps_losePartner k3) (fun _ => k3)
theorem keepsNext_execPrEnableWrite (v : W32) (h : Keeps s₀ s) : KeepsNext s₀ (execPrEnableWrite v s) :=
  keepsNext_gate (keeps_prCtl _ h) h
theorem keepsNext_execPrForce (v : W32) (h : Keeps s₀ s) : KeepsNext s₀ (execPrForce v s) := keepsNext_gate (keeps_prCtl _ h) h
theorem State.keeps_claimWrite (v : W32) (h : Keeps s₀ s) : Keeps s₀ (s.claimWrite v) :=
  keeps_ite (fun _ => keeps_plainWrite _ _ h) (fun _ => h)
theorem keepsNext_execHeartbeatSend (n dt : Nat) (h : Keeps s₀ s) : KeepsNext s₀ (execHeartbeatSend n dt s) := by
  unfold execHeartbeatSend
  refine keepsNext_gate ?_ h
  extract_lets
  exact keeps_setPair _ (keeps_wPutOn _ _ (keeps_advance _ h))
theorem State.keeps_hear (f : WFrame) (g : State → State) (hf : ∀ t, Keeps s₀ t → Keeps s₀ (g t)) (h : Keeps s₀ s) :
    Keeps s₀ (s.hear f g) := by
  unfold State.hear
  extract_lets t1
  have k : Keeps s₀ t1 := keeps_waothFrame _ _ h
  exact keeps_ite (fun _ => hf _ k) (fun _ => k)
theorem State.keeps_acked (ack : Nat) (nak : Bool) (h : Keeps s₀ s) : Keeps s₀ (s.acked ack nak) := by
  unfold State.acked
  extract_lets _ t1 t2
  have k1 : Keeps s₀ t1 := keeps_setPair _ h
  have k2 : Keeps s₀ t2 := keeps_ite (fun _ => keeps_foldl (fun _ _ k3 => keeps_cnt _ _ (keeps_wPut _ k3)) _ k1) (fun _ => k1)
  exact keeps_ite (fun _ => keeps_sendLate k2) (fun _ => k2)
theorem State.keeps_heartbeat (lane role claim ack : Nat) (nak : Bool) (h : Keeps s₀ s) :
    Keeps s₀ (s.heartbeat lane role claim ack nak) := by
  unfold State.heartbeat
  extract_lets _ t
  have k : Keeps s₀ t := keeps_acked _ _ (keeps_hearRole _ _ (keeps_setRf _ _ _ _ (keeps_setPair _ h)))
  exact keeps_ite (fun _ => keeps_losePartner k) (fun _ => keeps_ite (fun _ => k)
    (fun _ => keeps_chooseRole _ (keeps_setPair _ k)))
theorem keepsNext_execHeartbeat (f : WFrame) (dt role lanes claim ack : Nat) (nak : Bool) (h : Keeps s₀ s) :
    KeepsNext s₀ (execHeartbeat f dt role lanes claim ack nak s) := by
  unfold execHeartbeat
  refine keepsNext_gate ?_ h
  extract_lets
  exact keeps_hear _ _ (fun _ k => keeps_heartbeat _ _ _ _ _ k) (keeps_advance _ h)
theorem keepsNext_execPrLink (lanes : BitVec 4) (h : Keeps s₀ s) : KeepsNext s₀ (execPrLink lanes s) :=
  keepsNext_gate (keeps_publish _ (keeps_setRf _ _ _ _ h)) h
theorem keepsNext_execPrPartnerTimeout (dt : Nat) (h : Keeps s₀ s) : KeepsNext s₀ (execPrPartnerTimeout dt s) :=
  keepsNext_gate (keeps_losePartner (keeps_setRf _ _ _ _ (keeps_advance _ h))) h
theorem keepsNext_execFoginN (low : Bool) (h : Keeps s₀ s) : KeepsNext s₀ (execFoginN low s) := by
  unfold execFoginN
  refine keepsNext_gate ?_ h
  extract_lets _ t1 t2
  have k1 : Keeps s₀ t1 := keeps_with h
  have k2 : Keeps s₀ t2 := keeps_ite (fun _ => keeps_setRb _ _ _ k1) (fun _ => k1)
  exact keeps_ite (fun _ => keeps_losePartner k2) (fun _ => k2)
theorem State.keeps_seqIn (f : WFrame) (m : WMsg) (g : State → State) (hf : ∀ t, Keeps s₀ t → Keeps s₀ (g t)) (h : Keeps s₀ s) :
    Keeps s₀ (s.seqIn f m g) :=
  keeps_ite (fun _ => hf _ (keeps_setPair _ h)) (fun _ => keeps_ite (fun _ => h) (fun _ => keeps_setPair _ h))
theorem keepsNext_seqRow (f : WFrame) (m : WMsg) (g : State → State) (hf : ∀ t, Keeps s₀ t → Keeps s₀ (g t)) (h : Keeps s₀ s) :
    KeepsNext s₀ (seqRow s f m g) :=
  keepsNext_gate (keeps_hear _ _ (fun _ k1 => keeps_ite (fun _ => keeps_seqIn _ _ _ (fun _ k2 => hf _ k2) k1) (fun _ => k1)) h)
    h
theorem State.keeps_asStandby (g : State → State) (hf : ∀ t, Keeps s₀ t → Keeps s₀ (g t)) (h : Keeps s₀ s) :
    Keeps s₀ (s.asStandby g) :=
  keeps_ite (fun _ => keeps_cnt _ _ (hf _ h)) (fun _ => h)
theorem State.keeps_matchItem (i : ConductItem) (h : Keeps s₀ s) : Keeps s₀ (s.matchItem i) := by
  unfold State.matchItem
  refine keeps_ite (fun _ => h) (fun _ => ?_)
  extract_lets
  exact keeps_ite (fun _ => keeps_setFollow _ _ h) (fun _ => keeps_setPair _ h)
theorem State.keeps_setUnfit (h : Keeps s₀ s) : Keeps s₀ s.setUnfit := keeps_setPair _ (keeps_setReady _ _ _ h)
theorem State.keeps_itemPlace (i : ConductItem) (h : Keeps s₀ s) : Keeps s₀ (s.itemPlace i) := by
  unfold State.itemPlace
  extract_lets
  split
  · exact keeps_setUnfit h
  · extract_lets
    exact keeps_foldl (fun _ _ k => keeps_setRb _ _ _ k) _ (keeps_placeTake _ h)
theorem State.keeps_itemApply (i : ConductItem) (h : Keeps s₀ s) : Keeps s₀ (s.itemApply i) := by
  unfold State.itemApply
  extract_lets
  split
  · exact keeps_itemPlace _ h
  · exact keeps_setRb _ _ _ (keeps_openApply _ _ _ _ (keeps_setReg64 _ _ h))
  · exact keeps_followBoundary _ _ _ _ (keeps_fireApply _ _ _ _ h)
  · exact keeps_ite (fun _ => keeps_shutIdle _ h) (fun _ => keeps_followBoundary _ _ _ _ (keeps_shutApply _ _ _ h))
  · split
    rename_i t e
    have k : Keeps s₀ t := by
      refine Keeps.of_snd₂ ?_ e
      split
      · exact keeps_csRead _ _ _ _ h
      · exact h
    exact keeps_steerApply _ _ _ _ _ k
  · refine keeps_ite (fun _ => keeps_glazeApply _ _ _ h) (fun _ => ?_)
    split
    rename_i e
    exact keeps_glazeApply _ _ _ ((keeps_csRead _ _ _ _ h).of_snd₂ e)
  · exact keeps_armApply _ _ h
  · exact h
theorem keepsNext_execConductItem (f : WFrame) (item : ConductItem) (h : Keeps s₀ s) :
    KeepsNext s₀ (execConductItem f item s) := by
  unfold execConductItem
  refine keepsNext_seqRow _ _ _ (fun _ k1 => keeps_asStandby _ (fun _ k2 => ?_) k1) h
  extract_lets t
  have k3 : Keeps s₀ t := keeps_matchItem _ k2
  exact keeps_ite (fun _ => k3) (fun _ => keeps_itemApply _ k3)
theorem State.keeps_itemEng (e : Nat) (d : Decision) (h : Keeps s₀ s) : Keeps s₀ (s.itemEng e d) :=
  keeps_engItems _ (keeps_setLtn _ _ h)
theorem State.keeps_itemDecide (d : Decision) (h : Keeps s₀ s) : Keeps s₀ (s.itemDecide d) := by
  unfold State.itemDecide
  split
  · exact keeps_ite (fun _ => keeps_setPair _ h) (fun _ => h)
  · exact keeps_ite (fun _ => keeps_takeSkips _ (keeps_setPair _ h)) (fun _ => h)
  · exact keeps_overrunShown _ h
  · exact keeps_setPair _ h
  · exact keeps_itemEng _ _ h
  · exact keeps_itemEng _ _ h
  · exact keeps_itemEng _ _ h
  · exact keeps_itemEng _ _ h
theorem keepsNext_execDecision (f : WFrame) (d : Decision) (h : Keeps s₀ s) : KeepsNext s₀ (execDecision f d s) :=
  keepsNext_seqRow _ _ _ (fun _ k1 => keeps_asStandby _ (fun _ k2 => keeps_itemDecide _ k2) k1) h
theorem keepsNext_execLoss (f : WFrame) (chan b : Nat) (mask : List Nat) (watermark : Bool) (h : Keeps s₀ s) :
    KeepsNext s₀ (execLoss f chan b mask watermark s) := by
  unfold execLoss
  refine keepsNext_seqRow _ _ _ (fun _ k => ?_) h
  extract_lets
  exact keeps_setPair _ (keeps_ite (fun _ => keeps_cnt _ _ k) (fun _ => k))
theorem keepsNext_execMirror (f : WFrame) (keeper ring pos : Nat) (bytes : List Byte) (h : Keeps s₀ s) :
    KeepsNext s₀ (execMirror f keeper ring pos bytes s) := by
  unfold execMirror
  refine keepsNext_seqRow _ _ _ (fun _ k1 => keeps_asStandby _ (fun _ k2 => ?_) k1) h
  split
  · exact keeps_holdWrite _ _ k2
  · exact keeps_setPair _ k2
theorem State.keeps_sendParts (m : WMsg) (h : Keeps s₀ s) : Keeps s₀ (s.sendParts m) := by
  unfold State.sendParts
  refine keeps_foldl (fun _ _ k => ?_) _ h
  split
  rename_i e
  exact keeps_wPut _ ((keeps_wFrame _ _ _ k).of_snd e)
theorem keepsNext_execReportSend (dt : Nat) (h : Keeps s₀ s) : KeepsNext s₀ (execReportSend dt s) := by
  unfold execReportSend
  refine keepsNext_gate ?_ h
  extract_lets
  exact keeps_setPair _ (keeps_cnt _ _ (keeps_sendParts _ (keeps_advance _ h)))
theorem State.keeps_reportIn (pos : Positions) (h : Keeps s₀ s) : Keeps s₀ (s.reportIn pos) :=
  keeps_foldl (fun _ _ k1 => keeps_reportDrain _ k1) _ (keeps_foldl (fun _ _ k2 => keeps_opDone _ _ _ (keeps_setPost _ _ k2)) _
    (keeps_cnt _ _ (keeps_setPair _ (keeps_setPair _ h))))
theorem keepsNext_execReport (f : WFrame) (pos : Positions) (h : Keeps s₀ s) : KeepsNext s₀ (execReport f pos s) :=
  keepsNext_gate (keeps_hear _ _ (fun _ k1 => keeps_asStandby _ (fun _ k2 => keeps_reportIn _ k2) k1) h) h
theorem keepsNext_execJoin (f : WFrame) (units : W32) (h : Keeps s₀ s) : KeepsNext s₀ (execJoin f units s) :=
  keepsNext_seqRow _ _ _ (fun _ k => keeps_ite (fun _ => keeps_sendSeq _ k) (fun _ => k)) h
theorem State.keeps_loadKiln (q : KilnSnap) (h : Keeps s₀ s) : Keeps s₀ (s.loadKiln q) := by
  unfold State.loadKiln
  extract_lets _ _ t
  have k : Keeps s₀ t := keeps_setReg64 _ _ (keeps_setRb _ _ _ (keeps_setRb _ _ _ h))
  exact keeps_ite (fun _ => keeps_setKiln _ _ k) (fun _ => keeps_ite (fun _ => keeps_setRb _ _ _ k)
    (fun _ => keeps_setPair _ (keeps_setRb _ _ _ (keeps_setReg _ _ (keeps_beginBank _ _ _ (keeps_setKiln _ _ k))))))
theorem State.keeps_loadBlock (q : BlockSnap) (h : Keeps s₀ s) : Keeps s₀ (s.loadBlock q) :=
  keeps_ite (fun _ => keeps_setRb _ _ _ (keeps_setBlock _ _ h))
    (fun _ => keeps_setPair _ (keeps_setRb _ _ _ (keeps_setReg64 _ _
    (keeps_foldl (fun _ _ k => keeps_setReg _ _ k) _ (keeps_setBlock _ _ h)))))
theorem State.keeps_loadEng (q : EngSnap) (h : Keeps s₀ s) : Keeps s₀ (s.loadEng q) := by
  unfold State.loadEng
  split
  · exact h
  · extract_lets _ _ t
    have k : Keeps s₀ t := keeps_setLtn _ _ h
    exact keeps_ite (fun _ => keeps_setRb _ _ _ k) (fun _ => keeps_setPair _ (keeps_setRb _ _ _ (keeps_setLtn _ _ k)))
theorem State.keeps_loadSnap (x : Snapshot) (h : Keeps s₀ s) : Keeps s₀ (s.loadSnap x) := by
  unfold State.loadSnap
  extract_lets _ _ _ _ _ _ t
  have k1 : Keeps s₀ t := keeps_setRole _ (keeps_setBeam _
    (keeps_fillBank _ _ (keeps_fillBank _ _ (keeps_setPair _ (keeps_with h)))))
  refine keeps_ite (fun _ => k1) (fun _ => ?_)
  split
  · exact keeps_setUnfit k1
  · extract_lets
    exact keeps_foldl (fun _ _ k2 => keeps_loadEng _ k2) _
      (keeps_foldl (fun _ _ k3 => keeps_armSlot _ _ k3) _ (keeps_foldl (fun _ _ k4 => keeps_loadBlock _ k4) _
      (keeps_foldl (fun _ _ k5 => keeps_loadKiln _ k5) _ (keeps_setReady _ _ _ (keeps_placeEffect _ _ k1)))))
theorem keepsNext_execSnapshot (f : WFrame) (snap : Snapshot) (h : Keeps s₀ s) : KeepsNext s₀ (execSnapshot f snap s) :=
  keepsNext_seqRow _ _ _ (fun _ k => keeps_ite (fun _ => keeps_loadSnap _ k) (fun _ => k)) h

/-! ### HostCmd -/

theorem State.keeps_setLink (f : HostSt → HostSt) (h : Keeps s₀ s) : Keeps s₀ (s.setLink f) := keeps_with h
theorem State.keeps_cmdFail (status : Nat) (h : Keeps s₀ s) : Keeps s₀ (s.cmdFail status).2.2.2 := h
theorem State.keeps_cmdFinish (t : State) (r : Nat) (b : List Byte) (o : CmdOut) (h : Keeps s₀ o.2.2.2) :
    Keeps s₀ (t.cmdFinish r b o) := keeps_setLink _ h
theorem keepsNext_cmdRow (r op : Nat) (f : State → List Byte → CmdOut) (hf : ∀ t b, Keeps s₀ t → Keeps s₀ (f t b).2.2.2)
    (h : Keeps s₀ s) : KeepsNext s₀ (cmdRow r op s f) := by
  refine keepsNext_gate (keeps_ite (fun _ => keeps_rLook _ h) fun _ => keeps_cmdFinish _ _ _ _ ?_) h
  split
  · exact keeps_rLook _ h
  · split
    · exact keeps_rLook _ h
    · exact hf _ _ (keeps_rLook _ h)
theorem State.keeps_moveIn (m : MoveCmd) (b : List Byte) (h : Keeps s₀ s) : Keeps s₀ (s.moveIn m b).2 := by
  unfold State.moveIn
  split
  · exact keeps_hbmMerge _ _ _ _ h
  · exact keeps_sramWr _ _ _ _ h
theorem State.keeps_doLoad (m : MoveCmd) (h : Keeps s₀ s) : Keeps s₀ (s.doLoad m).2.2.2 := by
  unfold State.doLoad
  split
  · exact keeps_cmdFail _ h
  · split
    · exact keeps_cmdFail _ h
    · split
      rename_i e
      exact (keeps_moveIn _ _ h).of_snd e
theorem keepsNext_rowLoad (r : Nat) (h : Keeps s₀ s) : KeepsNext s₀ (rowLoad r s) :=
  keepsNext_cmdRow _ _ _ (fun _ _ k => keeps_doLoad _ k) h
theorem keepsNext_execCmdLoad (r : Nat) (up : Option Upset) (h : Keeps s₀ s) : KeepsNext s₀ (execCmdLoad r up s) :=
  keepsNext_ite (fun _ => keepsNext_next (keeps_fabUnit _ _ (fun _ k => keeps_by_ (keepsNext_rowLoad _ k) k) (keeps_upset _ h)))
    (fun _ => keepsNext_rowLoad _ (keeps_upset _ h))
theorem State.keeps_moveOut (m : MoveCmd) (h : Keeps s₀ s) : Keeps s₀ (s.moveOut m).2.2 := by
  unfold State.moveOut
  split
  · split
    rename_i e
    exact (keeps_hbmRead _ _ _ _ h).of_snd₂ e
  · split
    rename_i e
    exact (keeps_sramRd _ _ _ h).of_snd₂ e
theorem State.keeps_doRead (m : MoveCmd) (h : Keeps s₀ s) : Keeps s₀ (s.doRead m).2.2.2 := by
  unfold State.doRead
  split
  · exact keeps_cmdFail _ h
  · split
    rename_i t1 e1
    have k1 : Keeps s₀ t1 := (keeps_moveOut _ h).of_snd₂ e1
    split
    rename_i t2 e2
    have k2 : Keeps s₀ t2 := by
      refine Keeps.of_snd₂ ?_ e2
      split
      · exact k1
      · exact keeps_free k1
    exact keeps_host _ (Memory.wf_wrBytes _ _) k2
theorem keepsNext_rowRead (r : Nat) (h : Keeps s₀ s) : KeepsNext s₀ (rowRead r s) :=
  keepsNext_cmdRow _ _ _ (fun _ _ k => keeps_doRead _ k) h
theorem keepsNext_execCmdRead (r : Nat) (up : Option Upset) (h : Keeps s₀ s) : KeepsNext s₀ (execCmdRead r up s) :=
  keepsNext_ite (fun _ => keepsNext_next (keeps_fabUnit _ _ (fun _ k => keeps_by_ (keepsNext_rowRead _ k) k) (keeps_upset _ h)))
    (fun _ => keepsNext_rowRead _ (keeps_upset _ h))
theorem State.keeps_doStart (b : List Byte) (h : Keeps s₀ s) : Keeps s₀ (s.doStart b).2.2.2 := by
  unfold State.doStart
  extract_lets
  split
  · exact keeps_cmdFail _ h
  · split
    · exact keeps_cmdFail _ h
    · exact keeps_kStart _ _ (keeps_ite (fun _ => keeps_setReg _ _ h) (fun _ => h))
theorem keepsNext_execCmdStartKeeper (r : Nat) (h : Keeps s₀ s) : KeepsNext s₀ (execCmdStartKeeper r s) :=
  keepsNext_cmdRow _ _ _ (fun _ _ k => keeps_doStart _ k) h
theorem State.keeps_doStop (b : List Byte) (h : Keeps s₀ s) : Keeps s₀ (s.doStop b).2.2.2 := by
  unfold State.doStop
  extract_lets
  split
  · exact keeps_cmdFail _ h
  · split
    · exact keeps_cmdFail _ h
    · exact keeps_kStop _ h
theorem keepsNext_execCmdStopKeeper (r : Nat) (h : Keeps s₀ s) : KeepsNext s₀ (execCmdStopKeeper r s) :=
  keepsNext_cmdRow _ _ _ (fun _ _ k => keeps_doStop _ k) h
theorem State.keeps_doAttach (b : List Byte) (h : Keeps s₀ s) : Keeps s₀ (s.doAttach b).2.2.2 := by
  unfold State.doAttach
  extract_lets
  split
  · exact keeps_cmdFail _ h
  · split
    · exact keeps_cmdFail _ h
    · exact keeps_attach _ (keeps_setReg64 _ _ h)
theorem keepsNext_execCmdAttach (r : Nat) (h : Keeps s₀ s) : KeepsNext s₀ (execCmdAttach r s) :=
  keepsNext_cmdRow _ _ _ (fun _ _ k => keeps_doAttach _ k) h
theorem State.keeps_doDetach (b : List Byte) (h : Keeps s₀ s) : Keeps s₀ (s.doDetach b).2.2.2 := by
  unfold State.doDetach
  extract_lets
  split
  · exact keeps_cmdFail _ h
  · split
    · exact keeps_cmdFail _ h
    · split
      · exact h
      · exact keeps_detach _ h
theorem keepsNext_execCmdDetach (r : Nat) (h : Keeps s₀ s) : KeepsNext s₀ (execCmdDetach r s) :=
  keepsNext_cmdRow _ _ _ (fun _ _ k => keeps_doDetach _ k) h
theorem State.keeps_doSetup (b : List Byte) (h : Keeps s₀ s) : Keeps s₀ (s.doSetup b).2.2.2 := by
  unfold State.doSetup
  extract_lets _ _ _ fault _ t1 _ _ t2
  have k1 : Keeps s₀ t1 := keeps_clean _ _ _ _ h
  have k2 : Keeps s₀ t2 := keeps_setReg _ _ (keeps_setReg _ _
    (keeps_setReg _ _ (keeps_setReg _ _ (keeps_ite (fun _ => keeps_ringOff _ k1) (fun _ => k1)))))
  split
  · exact keeps_cmdFail _ h
  · split
    · exact keeps_cmdFail _ h
    · split
      · exact keeps_setRb _ _ _ h
      · split
        · exact keeps_cmdFail _ h
        · clear_value fault
          split
          · exact keeps_setRb _ _ _ h
          · exact keeps_ringCfg _ _ (keeps_ite (fun _ => keeps_setReg _ _ (keeps_setReg _ _ k2)) (fun _ => k2))
theorem keepsNext_execCmdRingSetup (r : Nat) (h : Keeps s₀ s) : KeepsNext s₀ (execCmdRingSetup r s) :=
  keepsNext_cmdRow _ _ _ (fun _ _ k => keeps_doSetup _ k) h
theorem State.keeps_doQuery (b : List Byte) (h : Keeps s₀ s) : Keeps s₀ (s.doQuery b).2.2.2 := by
  unfold State.doQuery
  extract_lets
  split
  · exact keeps_cmdFail _ h
  · exact (keeps_rLook _ h)
theorem keepsNext_execCmdQuery (r : Nat) (h : Keeps s₀ s) : KeepsNext s₀ (execCmdQuery r s) :=
  keepsNext_cmdRow _ _ _ (fun _ _ k => keeps_doQuery _ k) h
theorem State.keeps_cmdClose (r : Nat) (d : CmdDone) (h : Keeps s₀ s) : Keeps s₀ (s.cmdClose r d) := by
  unfold State.cmdClose
  extract_lets _ _ t
  have k : Keeps s₀ t := keeps_setRng _ _ (keeps_setLink _ h)
  exact keeps_elim k (fun _ => keeps_detach _ k)
theorem State.keeps_respond (r : Nat) (d : CmdDone) (h : Keeps s₀ s) : Keeps s₀ (s.respond r d) := by
  unfold State.respond
  refine keeps_ite (fun _ => keeps_cmdClose _ _ h) (fun _ => keeps_ite (fun _ => keeps_cmdClose _ _ (keeps_rServed _ _ h))
    (fun _ => keeps_ite (fun _ => keeps_cmdClose _ _ (keeps_cnt _ _ h)) (fun _ => ?_)))
  split
  next e => exact (keeps_offer _ _ _ _ _ h).of_snd e
  next e1 => exact keeps_cmdClose _ _ ((keeps_offer _ _ _ _ _ h).of_snd e1)
theorem keepsNext_execResponseRecordWrite (r : Nat) (h : Keeps s₀ s) : KeepsNext s₀ (execResponseRecordWrite r s) := by
  unfold execResponseRecordWrite
  refine keepsNext_gate ?_ h
  split
  · exact keeps_respond _ _ h
  · extract_lets _ t1 t2
    have k1 : Keeps s₀ t1 := keeps_rLook _ h
    have k2 : Keeps s₀ t2 := keeps_cmdFinish _ _ _ _ (keeps_cmdFail _ k1)
    exact keeps_ite (fun _ => keeps_elim k2 (fun _ => keeps_respond _ _ k2)) (fun _ => k1)
theorem State.keeps_loadFails (r : Nat) (b : List Byte) (h : Keeps s₀ s) : Keeps s₀ (s.loadFails r b) :=
  keeps_ite (fun _ => h) (fun _ => keeps_cmdFinish _ _ _ _ (keeps_moveIn _ _ (keeps_setXbr _ (keeps_free h))))
theorem keepsNext_execHostCompletionTimeout (q : Requester) (h : Keeps s₀ s) :
    KeepsNext s₀ (execHostCompletionTimeout q s) := by
  unfold execHostCompletionTimeout
  split
  · exact keepsNext_gate (keeps_dmaHostError _ h) h
  · exact keepsNext_gate (keeps_loadFails _ _ h) h

/-! ### Power -/

theorem State.keeps_cause (i : Nat) (h : Keeps s₀ s) : Keeps s₀ (s.cause i) := keeps_setRb _ _ _ h
/-- The register file that the fuses load is canonical. -/
theorem swf_fuseRegs (f : Fuses) : swf regReset (fuseRegs f) = true :=
  swf_sset _ _ (swf_sset _ _ (swf_sset _ _ (swf_sset _ _ (swf_nil _))))

theorem State.keeps_porReset (h : Keeps s₀ s) : Keeps s₀ s.porReset :=
  h.stores (fun _ => swf_fuseRegs _) (fun _ => swf_nil _) (fun _ => swf_nil _) id rfl
theorem State.keeps_showFailed (qs : List Nat) (h : Keeps s₀ s) : Keeps s₀ (s.showFailed qs) :=
  keeps_foldl (fun _ _ k => keeps_setRb _ _ _ k) _ h
theorem State.keeps_cmdCut (h : Keeps s₀ s) : Keeps s₀ s.cmdCut := by
  unfold State.cmdCut
  split
  · exact h
  · extract_lets
    refine keeps_ite (fun _ => h) (fun _ => ?_)
    split
    · exact keeps_ite (fun _ => h) (fun _ => keeps_moveIn _ _ (keeps_free h))
    · split
      rename_i e
      exact keeps_host _ (Memory.wf_wrBytes _ _) ((keeps_moveOut _ (keeps_free h)).of_snd₂ e)
    · exact h
theorem State.keeps_warmReset (h : Keeps s₀ s) : Keeps s₀ s.warmReset := by
  unfold State.warmReset
  extract_lets _ t
  have k : Keeps s₀ t := keeps_ite (fun _ => keeps_inputLost _ (keeps_cmdCut h)) fun _ => keeps_cmdCut h
  exact keeps_cause _ (keeps_showFailed _ (k.stores (swf_filter _) id id id rfl))
theorem State.keeps_abortBursts (h : Keeps s₀ s) : Keeps s₀ s.abortBursts := by
  unfold State.abortBursts
  extract_lets
  split
  rename_i e
  exact keeps_cnt _ _ ((keeps_free h).of_snd e)
theorem State.keeps_killWrites (h : Keeps s₀ s) : Keeps s₀ s.killWrites := keeps_foldl (fun _ _ k => keeps_dKill _ k) _ h
theorem State.keeps_hostReset (h : Keeps s₀ s) : Keeps s₀ s.hostReset := by
  unfold State.hostReset
  extract_lets t u lost
  have k : Keeps s₀ u := keeps_foldl (fun _ _ k => keeps_ringOff _ k) _ (keeps_killWrites (keeps_abortBursts (keeps_cmdCut h)))
  exact keeps_cause _ (k.stores (swf_filter _) id id id rfl)
theorem State.keeps_showBist (tiles slices : Nat) (h : Keeps s₀ s) : Keeps s₀ (s.showBist tiles slices) := keeps_setReg _ _ h
theorem State.keeps_fails (us : List ExclUnit) (h : Keeps s₀ s) : Keeps s₀ (s.fails us) := keeps_updPlc _ h
theorem State.keeps_release (h : Keeps s₀ s) : Keeps s₀ s.release := by
  unfold State.release
  extract_lets _ t1
  have k1 : Keeps s₀ t1 := by
    refine keeps_foldl (fun _ _ k2 => ?_) _ h
    split
    · exact keeps_setRb _ _ _ k2
    · exact keeps_setRb _ _ _ k2
  split
  rename_i e
  extract_lets _ t2 t3
  have k3 : Keeps s₀ t2 := keeps_setPwr _ ((keeps_free (keeps_showBist _ _ k1)).of_snd e)
  have k4 : Keeps s₀ t3 := keeps_ite (fun _ => keeps_setRb _ _ _ k3) (fun _ => k3)
  exact keeps_ite (fun _ => keeps_setPwr _ (keeps_setRf _ _ _ _ k4)) (fun _ => keeps_setRf _ _ _ _ k4)
theorem keepsNext_execPorstN (h : Keeps s₀ s) : KeepsNext s₀ (execPorstN s) := keepsNext_next (keeps_porReset h)
theorem keepsNext_execWarmrstN (low : Bool) (h : Keeps s₀ s) : KeepsNext s₀ (execWarmrstN low s) := by
  unfold execWarmrstN
  refine keepsNext_gate ?_ h
  extract_lets t1 _ t2
  have k1 : Keeps s₀ t1 := keeps_setPwr _ h
  have k2 : Keeps s₀ t2 := keeps_ite (fun _ => keeps_fails _ k1) (fun _ => k1)
  exact keeps_ite (fun _ => keeps_warmReset k1) (fun _ => keeps_ite (fun _ => k2)
    (fun _ => keeps_ite (fun _ => keeps_release k2) (fun _ => keeps_ite (fun _ => keeps_setRf _ _ _ _ k2) (fun _ => k2))))
theorem keepsNext_execPerstN (h : Keeps s₀ s) : KeepsNext s₀ (execPerstN s) := keepsNext_gate (keeps_hostReset h) h
theorem keepsNext_execTrstN (h : Keeps s₀ s) : KeepsNext s₀ (execTrstN s) := by
  unfold execTrstN
  refine keepsNext_gate ?_ h
  extract_lets
  exact keeps_with (keeps_setPwr _ h)
theorem keepsNext_execRailsRemoved (h : Keeps s₀ s) : KeepsNext s₀ (execRailsRemoved s) := by
  unfold execRailsRemoved
  refine keepsNext_gate ?_ h
  extract_lets
  exact keeps_setPwr _ (keeps_porReset h)
theorem keepsNext_execHbmTrainingDone (dt : Nat) (data ca : List (Nat × Nat)) (h : Keeps s₀ s) :
    KeepsNext s₀ (execHbmTrainingDone dt data ca s) := by
  unfold execHbmTrainingDone
  refine keepsNext_gate ?_ h
  extract_lets
  exact keeps_setRf _ _ _ _ (keeps_fails _ (keeps_showFailed _
    (keeps_foldl (fun _ _ k => keeps_cnt _ _ k) _ (keeps_setPwr _ (keeps_setMem _ (keeps_advance _ h))))))
theorem keepsNext_execFillDone (dt : Nat) (tiles slices : List Nat) (h : Keeps s₀ s) :
    KeepsNext s₀ (execFillDone dt tiles slices s) := by
  unfold execFillDone
  refine keepsNext_gate ?_ h
  extract_lets _ _ _ t
  have filled : Keeps s₀ t := (keeps_advance dt h).stores (swf_filter _) (fun _ => swf_nil _) (fun _ => swf_nil _) id rfl
  exact keeps_release (keeps_fails _ (keeps_setReg _ _ (keeps_setMem _ (keeps_setErr _ filled))))
theorem State.keeps_bootGo (v : W32) (h : Keeps s₀ s) : Keeps s₀ (s.bootGo v) :=
  keeps_ite (fun _ => keeps_setPwr _ (keeps_setRf _ _ _ _ (keeps_setRf _ _ _ _ h))) (fun _ => h)
theorem keepsNext_execBootGo (v : W32) (h : Keeps s₀ s) : KeepsNext s₀ (execBootGo v s) := keepsNext_gate (keeps_bootGo _ h) h
theorem State.keepsOf_image (q : Bool) (o n : Nat) (h : Keeps s₀ s) : KeepsOf s₀ (·.2.2) (s.image q o n) :=
  keepsOf_ite (fun _ => keepsOf_some h) fun _ =>
    keepsOf_ite (fun _ => keepsOf_none) fun _ => keepsOf_some (keeps_hbmRead _ _ _ _ h)
theorem State.keepsOf_bootLoad (q : Bool) (n : Nat) (l : List (List Byte)) (h : Keeps s₀ s) :
    KeepsOf s₀ (·.2.2) (s.bootLoad q n l) := by
  induction l generalizing s with
  | nil => exact keepsOf_some h
  | cons b l ih =>
    refine keepsOf_ite (fun _ => keepsOf_some h) fun _ => keepsOf_ite (fun _ => keepsOf_none) fun _ =>
      keepsOf_bind (keepsOf_image _ _ _ h) fun ⟨ok, d, t⟩ k => ?_
    have moved := keeps_moveIn (bootSection b) d (keeps_ite (c := (bootSection b).space = 0) (fun _ => k)
      fun _ => keeps_fabTake fabCmd (t.fabAt (bootSection b).sram.fabAddr).target k)
    exact keepsOf_ite (fun _ => keepsOf_some moved) fun _ => keepsOf_map (ih moved) fun _ k => k
theorem State.keeps_bootFail (ms : List MoveCmd) (err : Nat) (h : Keeps s₀ s) : Keeps s₀ (s.bootFail ms err) :=
  keeps_setRb _ _ _ (keeps_setRf _ _ _ _ (keeps_setRf _ _ _ _
    (keeps_foldl (fun _ _ k => keeps_ite (fun _ => k) (fun _ => keeps_moveIn _ _ k)) _ h)))
theorem State.keepsOf_bootVerdict (q : Bool) (n : Nat) (h : Keeps s₀ s) : KeepsOf s₀ (·.2) (s.bootVerdict q n) := by
  refine keepsOf_bind (keepsOf_image _ _ _ h) fun ⟨_, _, _⟩ k => keepsOf_map (keepsOf_image _ _ _ k) fun ⟨_, _, _⟩ k => ?_
  dsimp only
  split
  · exact k
  · split
    · exact k
    · split <;> exact k
theorem State.keeps_bootStart (hdr : List Byte) (h : Keeps s₀ s) : Keeps s₀ (s.bootStart hdr) := by
  unfold State.bootStart
  refine keeps_foldl (fun _ _ k => ?_) _ h
  extract_lets
  exact keeps_kStart _ _ (keeps_setReg _ _ k)
theorem State.keepsSome_bootBody (hdr : List Byte) (h : Keeps s₀ s) : KeepsSome s₀ (s.bootBody hdr) :=
  keepsOf_bind (keepsOf_image _ _ _ h) fun ⟨_, _, _⟩ k =>
  keepsOf_bind (keepsOf_ite (fun _ => keepsOf_bootLoad _ _ _ k) fun _ => keepsOf_some k) fun ⟨_, _, _⟩ k =>
  keepsOf_ite (fun _ => keepsOf_some (keeps_bootFail _ _ k)) fun _ =>
  keepsOf_map (keepsOf_ite (fun _ => keepsOf_bootVerdict _ _ k) fun _ => keepsOf_some k) fun ⟨_, _⟩ k =>
  keeps_ite (fun _ => keeps_bootFail _ _ k) fun _ => keeps_setRf _ _ _ _ (keeps_bootStart _ k)
theorem State.keepsSome_boot (h : Keeps s₀ s) : KeepsSome s₀ s.boot :=
  keepsOf_bind (keepsOf_image _ _ _ (keeps_setPwr _ h)) fun ⟨_, _, _⟩ k =>
  keepsOf_ite (fun _ => keepsOf_some (keeps_bootFail _ _ k)) fun _ =>
  keepsOf_ite (fun _ => keepsOf_some (keeps_bootFail _ _ k)) fun _ =>
  keepsOf_ite (fun _ => keepsOf_some (keeps_bootFail _ _ k)) fun _ => keepsSome_bootBody _ k
theorem keepsNext_execBootLoadDone (dt : Nat) (h : Keeps s₀ s) : KeepsNext s₀ (execBootLoadDone dt s) :=
  keepsNext_gate (keeps_getD (keepsSome_boot (keeps_advance _ h)) h) h
theorem State.keeps_refused (h : Keeps s₀ s) : Keeps s₀ s.refused := keeps_setRb _ _ _ (keeps_setPwr _ h)
theorem State.keeps_lanesDown (h : Keeps s₀ s) : Keeps s₀ s.lanesDown :=
  keeps_foldl (fun _ _ k1 => keeps_toDown _ _ k1) _ (keeps_foldl (fun _ _ k2 => keeps_toDown _ _ k2) _ h)
theorem State.keeps_dozeQuarters (on : Bool) (h : Keeps s₀ s) : Keeps s₀ (s.dozeQuarters on) :=
  keeps_foldl (fun _ _ k => keeps_srefAsk _ (keeps_setQuarter _ _ k)) _ h
theorem State.keeps_startDoze (fromRun : Bool) (h : Keeps s₀ s) : Keeps s₀ (s.startDoze fromRun) :=
  keeps_startChange _ _ _ (keeps_dozeQuarters _ (keeps_lanesDown h))
theorem State.keeps_towards (final : Nat) (back : Bool) (h : Keeps s₀ s) : Keeps s₀ (s.towards final back) :=
  keeps_ite (fun _ => h) (fun _ => keeps_ite (fun _ => keeps_leaveDoze h)
    (fun _ => keeps_ite (fun _ => keeps_ite (fun _ => keeps_startChange _ _ _ h)
    (fun _ => keeps_ite (fun _ => keeps_startDoze _ h) (fun _ => keeps_ite (fun _ => keeps_startChange _ _ _ (keeps_refused h))
    (fun _ => keeps_refused h)))) (fun _ => keeps_ite (fun _ => keeps_startChange _ _ _ h) (fun _ => keeps_refused h))))
theorem State.keeps_powerWrite (v : W32) (h : Keeps s₀ s) : Keeps s₀ (s.powerWrite v) := by
  unfold State.powerWrite
  extract_lets t
  have k : Keeps s₀ t := keeps_plainWrite _ _ h
  split
  · exact keeps_setPwr _ k
  · exact keeps_towards _ _ k
theorem keepsNext_execPowerStateRequest (v : W32) (h : Keeps s₀ s) : KeepsNext s₀ (execPowerStateRequest v s) :=
  keepsNext_gate (keeps_powerWrite _ h) h
theorem State.keeps_sinceNow (dest : Nat) (h : Keeps s₀ s) : Keeps s₀ (s.sinceNow dest) :=
  keeps_ite (fun _ => keeps_foldl (fun _ _ k1 => keeps_kLook _ k1) _ h)
    (fun _ => keeps_ite (fun _ => keeps_foldl (fun _ _ k2 => keeps_setCore _ _ k2) _ h)
    (fun _ => keeps_ite (fun _ => h) (fun _ => keeps_foldl (fun _ _ k3 => keeps_setTile _ _ k3) _ h)))
theorem State.keeps_reach (dest : Nat) (h : Keeps s₀ s) : Keeps s₀ (s.reach dest) :=
  keeps_stopIslands (keeps_setRf _ _ _ _ (keeps_sinceNow _ h))
theorem State.keeps_leaveSref (q : Nat) (h : Keeps s₀ s) : Keeps s₀ (s.leaveSref q) := by
  unfold State.leaveSref
  extract_lets _ t
  have k : Keeps s₀ t := keeps_setQuarter _ _ h
  exact keeps_ite (fun _ => keeps_setRb _ _ _ (keeps_setQuarter _ _ (keeps_setMem _ k))) (fun _ => k)
theorem State.keeps_exitDoze (h : Keeps s₀ s) : Keeps s₀ s.exitDoze :=
  keeps_foldl (fun _ _ k1 => keeps_taskTake _ k1) _ (keeps_lanesDown
    (keeps_reach _ (keeps_foldl (fun _ _ k2 => keeps_leaveSref _ k2) _ h)))
theorem State.keeps_changeDone (c : PwrChange) (h : Keeps s₀ s) : Keeps s₀ (s.changeDone c) := by
  unfold State.changeDone
  extract_lets _ t1 t2 t3
  have k1 : Keeps s₀ t1 := keeps_endChange h
  have k2 : Keeps s₀ t2 := keeps_refused (keeps_dozeQuarters _ k1)
  have k3 : Keeps s₀ t3 := keeps_reach _ (keeps_lanesDown k1)
  exact keeps_ite (fun _ => keeps_ite (fun _ => keeps_ite (fun _ => keeps_startChange _ _ _ k2) (fun _ => k2))
    (fun _ => keeps_ite (fun _ => keeps_leaveDoze k3) (fun _ => k3)))
    (fun _ => keeps_ite (fun _ => keeps_ite (fun _ => keeps_towards _ _ (keeps_exitDoze k1))
    (fun _ => keeps_ite (fun _ => keeps_refused k1) (fun _ => keeps_towards _ _ (keeps_reach _ k1))))
    (fun _ => keeps_towards _ _ (keeps_reach _ k1)))
theorem keepsNext_execPowerStateChangeDone (dt : Nat) (h : Keeps s₀ s) : KeepsNext s₀ (execPowerStateChangeDone dt s) := by
  unfold execPowerStateChangeDone
  split
  · exact keepsNext_gate (keeps_changeDone _ (keeps_advance _ h)) h
  · exact keepsNext_next h
theorem State.keeps_alert (i : Nat) (h : Keeps s₀ s) : Keeps s₀ (s.alert i) := keeps_setRb _ _ _ h
theorem State.keeps_fog (i : Nat) (h : Keeps s₀ s) : Keeps s₀ (s.fog i) :=
  keeps_setRb _ _ _ (keeps_ite (fun _ => h) (fun _ => keeps_setRf _ _ _ _ h))
theorem State.keeps_trip (h : Keeps s₀ s) : Keeps s₀ s.trip :=
  keeps_stopIslands (keeps_setPwr _ (keeps_endChange (keeps_fog _ h)))
theorem keepsNext_execThermSensorRead (dt : Nat) (temps : List Int) (h : Keeps s₀ s) :
    KeepsNext s₀ (execThermSensorRead dt temps s) := by
  unfold execThermSensorRead
  refine keepsNext_gate ?_ h
  extract_lets _ _ _ _ t1 t2
  have k1 : Keeps s₀ t1 := keeps_setPwr _ (keeps_foldl (fun _ _ k2 => keeps_setReg _ _ k2) _
    (keeps_setPwr _ (keeps_advance _ h)))
  have k3 : Keeps s₀ t2 := keeps_ite (fun _ => keeps_alert _ (keeps_publish _ k1)) (fun _ => k1)
  exact keeps_ite (fun _ => keeps_trip k3) (fun _ => k3)
theorem keepsNext_execStackTempRead (st temp dt : Nat) (h : Keeps s₀ s) : KeepsNext s₀ (execStackTempRead st temp dt s) := by
  unfold execStackTempRead
  refine keepsNext_gate ?_ h
  extract_lets _ t1 t2
  have k1 : Keeps s₀ t1 := keeps_setRf _ _ _ _ (keeps_setRf _ _ _ _ (keeps_advance _ h))
  have k2 : Keeps s₀ t2 := keeps_ite (fun _ => keeps_alert _ (keeps_publish _ (keeps_setRb _ _ _ k1))) (fun _ => k1)
  exact keeps_ite (fun _ => keeps_trip k2) (fun _ => k2)
theorem keepsNext_execSupplyFault (dt : Nat) (h : Keeps s₀ s) : KeepsNext s₀ (execSupplyFault dt s) :=
  keepsNext_gate (keeps_fog _ (keeps_advance _ h)) h
theorem State.keeps_fogWrite (v : W32) (h : Keeps s₀ s) : Keeps s₀ (s.fogWrite v) :=
  keeps_ite (fun _ => keeps_fog _ h) (fun _ => h)
theorem keepsNext_execFogSet (v : W32) (h : Keeps s₀ s) : KeepsNext s₀ (execFogSet v s) := keepsNext_gate (keeps_fogWrite _ h) h
theorem keepsNext_execPmbAlertN (low : Bool) (h : Keeps s₀ s) : KeepsNext s₀ (execPmbAlertN low s) := by
  unfold execPmbAlertN
  refine keepsNext_gate ?_ h
  extract_lets t
  have k : Keeps s₀ t := keeps_setPwr _ h
  exact keeps_ite (fun _ => keeps_alert _ k) (fun _ => k)
theorem State.keeps_thermWrite (v : W32) (h : Keeps s₀ s) : Keeps s₀ (s.thermWrite v) := by
  unfold State.thermWrite
  extract_lets t
  have k : Keeps s₀ t := keeps_setRf _ _ _ _ h
  exact keeps_ite (fun _ => k) (fun _ => keeps_setPwr _ (keeps_setRf _ _ _ _ k))
theorem State.keeps_gateIsland (n : Nat) (a : Option Nat) (h : Keeps s₀ s) : Keeps s₀ (s.gateIsland n a) := by
  unfold State.gateIsland
  split
  · exact keeps_setReg _ _ h
  · extract_lets
    exact keeps_setReg _ _ (keeps_setReg _ _ h)
theorem State.keeps_voutCommand (v : Nat) (h : Keeps s₀ s) : Keeps s₀ (s.voutCommand v) :=
  keeps_ite (fun _ => h) (fun _ => keeps_setPwr _ h)
theorem State.keeps_setVset (v : Nat) (h : Keeps s₀ s) : Keeps s₀ (s.setVset v) :=
  keeps_voutCommand _ (keeps_setPwr _ (keeps_setRf _ _ _ _ h))
theorem State.keeps_avsStep (h : Keeps s₀ s) : Keeps s₀ s.avsStep := by
  unfold State.avsStep
  extract_lets _ _ _ _ t
  have k : Keeps s₀ t := keeps_setPwr _ h
  split
  · exact h
  · exact keeps_ite (fun _ => keeps_ite (fun _ => keeps_setVset _ h) (fun _ => keeps_alert _ (keeps_setRb _ _ _ h)))
      (fun _ => keeps_ite (fun _ => keeps_ite (fun _ => keeps_setVset _ k) (fun _ => k)) (fun _ => keeps_setPwr _ h))
theorem State.keeps_avsWrite (v : W32) (h : Keeps s₀ s) : Keeps s₀ (s.avsWrite v) := by
  unfold State.avsWrite
  extract_lets _ t
  have k : Keeps s₀ t := keeps_plainWrite _ _ h
  exact keeps_ite (fun _ => k) (fun _ => keeps_voutCommand _ k)
theorem keepsNext_execIslFreqGateEnd (dt : Nat) (counts : List (Nat × Nat)) (h : Keeps s₀ s) :
    KeepsNext s₀ (execIslFreqGateEnd dt counts s) := by
  unfold execIslFreqGateEnd
  refine keepsNext_gate ?_ h
  extract_lets _ _ _ t
  have k1 : Keeps s₀ t := keeps_setPwr _ (keeps_foldl (fun _ _ k2 => keeps_ite (fun _ => keeps_gateIsland _ _ k2)
    (fun _ => k2)) _ (keeps_setPwr _ (keeps_advance _ h)))
  exact keeps_ite (fun _ => keeps_avsStep k1) (fun _ => k1)

/-! ### BusRead -/

theorem State.keeps_rcClear (off : Nat) (h : Keeps s₀ s) : Keeps s₀ (s.rcClear off) := by
  unfold State.rcClear
  split
  · exact h
  · exact keeps_ite (fun _ => h) (fun _ => keeps_setReg _ _ h)
theorem State.keeps_deadLatch (off : Nat) (h : Keeps s₀ s) : Keeps s₀ (s.deadLatch off) := by
  unfold State.deadLatch
  refine keeps_ite (fun _ => ?_) (fun _ => h)
  extract_lets
  exact keeps_setLtn _ _ h
theorem State.keeps_regLook (off : Nat) (h : Keeps s₀ s) : Keeps s₀ (s.regLook off) :=
  keeps_ite (fun _ => keeps_rLook _ h) (fun _ => keeps_ite (fun _ => keeps_srcLook _ h)
    (fun _ => keeps_ite (fun _ => keeps_kLook _ h) (fun _ => keeps_ite (fun _ => keeps_stallNow _ h) (fun _ => h))))
theorem State.keeps_regRd (off : Nat) (h : Keeps s₀ s) : Keeps s₀ (s.regRd off).2 := by
  unfold State.regRd
  split
  · exact h
  · split
    · exact keeps_dozeAcc h
    · extract_lets
      exact keeps_deadLatch _ (keeps_rcClear _ (keeps_regLook _ h))
theorem State.keeps_hostReg (off len : Nat) (h : Keeps s₀ s) : Keeps s₀ (s.hostReg off len) := by
  unfold State.hostReg
  split
  rename_i e
  exact keeps_answer _ _ ((keeps_regRd _ h).of_snd e)
theorem State.keeps_hostMem (a : SramAt) (len : Nat) (h : Keeps s₀ s) : Keeps s₀ (s.hostMem a len) := by
  unfold State.hostMem
  split
  rename_i e
  exact keeps_answer _ _ ((keeps_sramRd _ _ _ h).of_snd₂ e)
theorem State.keeps_bar0Rd (off len : Nat) (h : Keeps s₀ s) : Keeps s₀ (s.bar0Rd off len) := by
  unfold State.bar0Rd
  refine keeps_ite (fun _ => keeps_fabGo _ _ (fun _ k1 => keeps_hostReg _ _ k1) h)
    (fun _ => keeps_ite (fun _ => keeps_answer _ _ (keeps_early h))
    (fun _ => keeps_ite (fun _ => keeps_answer _ _ (keeps_dozeAcc h)) (fun _ => ?_)))
  split
  · exact keeps_fabGo _ _ (fun _ k2 => keeps_hostMem _ _ k2) h
  · exact keeps_answer _ _ h
theorem keepsNext_execRcRegisterRead (r : RegSpan) (h : Keeps s₀ s) : KeepsNext s₀ (execRcRegisterRead r s) :=
  keepsNext_gate (keeps_ite (fun _ => keeps_bar0Rd _ _ h) (fun _ => keeps_answer _ _ h)) h
theorem keepsNext_execLtnEngDeadRead (e : Nat) (h : Keeps s₀ s) : KeepsNext s₀ (execLtnEngDeadRead e s) :=
  keepsNext_gate (keeps_bar0Rd _ _ h) h

/-! ### BusWrite -/

theorem State.keeps_wrGlb (off : Nat) (v : W32) (h : Keeps s₀ s) : Keeps s₀ (s.wrGlb off v) :=
  keeps_ite (fun _ => keeps_by_ (keepsNext_execBootGo _ h) h) (fun _ => keeps_plainWrite _ _ h)
theorem State.keeps_wrPwr (off : Nat) (v : W32) (h : Keeps s₀ s) : Keeps s₀ (s.wrPwr off v) :=
  keeps_ite (fun _ => keeps_by_ (keepsNext_execPowerStateRequest _ h) h)
    (fun _ => keeps_ite (fun _ => keeps_avsWrite _ h) (fun _ => keeps_ite (fun _ => keeps_thermWrite _ h)
    (fun _ => keeps_ite (fun _ => keeps_by_ (keepsNext_execFogSet _ h) h) (fun _ => keeps_plainWrite _ _ h))))
theorem State.keeps_wrBcn (off : Nat) (v : W32) (h : Keeps s₀ s) : Keeps s₀ (s.wrBcn off v) :=
  keeps_ite (fun _ => keeps_by_ (keepsNext_execBcnPub _ h) h)
    (fun _ => keeps_ite (fun _ => keeps_by_ (keepsNext_execBcnTaskWrite _ _ h) h) (fun _ => keeps_plainWrite _ _ h))
theorem State.keeps_wrXbr (off : Nat) (v : W32) (h : Keeps s₀ s) : Keeps s₀ (s.wrXbr off v) :=
  keeps_ite (fun _ => h) (fun _ => keeps_plainWrite _ _ h)
theorem State.keeps_wrTim (off : Nat) (v : W32) (h : Keeps s₀ s) : Keeps s₀ (s.wrTim off v) :=
  keeps_ite (fun _ => keeps_by_ (keepsNext_execTimRunWrite _ h) h)
    (fun _ => keeps_ite (fun _ => keeps_nsWrite _ h) (fun _ => keeps_ite
    (fun _ => keeps_by_ (keepsNext_execTimIncFracWrite _ h) h)
    (fun _ => keeps_ite (fun _ => keeps_by_ (keepsNext_execTimIncCommit _ h) h)
    (fun _ => keeps_ite (fun _ => keeps_by_ (keepsNext_execTimCmpArm _ _ _ h) h)
    (fun _ => keeps_ite (fun _ => keeps_capCtlWrite _ _ h)
    (fun _ => keeps_ite (fun _ => keeps_by_ (keepsNext_execTportTxGo _ h) h)
    (fun _ => keeps_ite (fun _ => keeps_by_ (keepsNext_execTimTsPop _ h) h) (fun _ => keeps_plainWrite _ _ h))))))))
theorem State.keeps_refInWrite (n : Nat) (v : W32) (h : Keeps s₀ s) : Keeps s₀ (s.refInWrite n v) := by
  unfold State.refInWrite
  extract_lets t
  have k : Keeps s₀ t := keeps_plainWrite _ _ h
  exact keeps_ite (fun _ => keeps_setQ _ _ (keeps_setRef _ k))
    (fun _ => keeps_ite (fun _ => keeps_setQ _ _ (keeps_setRef _ k)) (fun _ => k))
theorem State.keeps_rxclkMove (v : W32) (h : Keeps s₀ s) : Keeps s₀ (s.rxclkMove v) := by
  unfold State.rxclkMove
  extract_lets t
  have k : Keeps s₀ t := keeps_plainWrite _ _ h
  exact keeps_ite (fun _ => k) (fun _ => keeps_inputLost _ k)
theorem State.keeps_wrRef (off : Nat) (v : W32) (h : Keeps s₀ s) : Keeps s₀ (s.wrRef off v) :=
  keeps_ite (fun _ => keeps_by_ (keepsNext_execRefRealign _ h) h)
    (fun _ => keeps_ite (fun _ => keeps_refInWrite _ _ h) (fun _ => keeps_ite (fun _ => keeps_rxclkMove _ h)
    (fun _ => keeps_plainWrite _ _ h)))
theorem State.keeps_wrPr (off : Nat) (v : W32) (h : Keeps s₀ s) : Keeps s₀ (s.wrPr off v) :=
  keeps_ite (fun _ => keeps_by_ (keepsNext_execPrEnableWrite _ h) h)
    (fun _ => keeps_ite (fun _ => keeps_claimWrite _ h) (fun _ => keeps_plainWrite _ _ h))
theorem State.keeps_wrMem (off : Nat) (v : W32) (h : Keeps s₀ s) : Keeps s₀ (s.wrMem off v) :=
  keeps_ite (fun _ => keeps_by_ (keepsNext_execMemSrefRequest _ _ h) h)
    (fun _ => keeps_ite (fun _ => keeps_by_ (keepsNext_execScrubGo _ _ h) h) (fun _ => keeps_plainWrite _ _ h))
theorem State.keeps_wrEcc (off : Nat) (v : W32) (h : Keeps s₀ s) : Keeps s₀ (s.wrEcc off v) :=
  keeps_ite (fun _ => keeps_by_ (keepsNext_execEccLogPop _ h) h) (fun _ => keeps_plainWrite _ _ h)
theorem State.keeps_wrLn (off : Nat) (v : W32) (h : Keeps s₀ s) : Keeps s₀ (s.wrLn off v) := by
  unfold State.wrLn
  extract_lets
  split
  · exact keeps_by_ (keepsNext_execLnCtlWrite _ _ h) h
  · exact keeps_by_ (keepsNext_execLnCtleWrite _ _ h) h
  · exact keeps_by_ (keepsNext_execLnSlip _ _ h) h
  · exact keeps_by_ (keepsNext_execEyeStart _ _ h) h
  · exact keeps_plainWrite _ _ h
theorem State.keeps_fmtWord (e o : Nat) (v : W32) (h : Keeps s₀ s) : Keeps s₀ (s.fmtWord e o v) :=
  keeps_ite (fun _ => keeps_plainWrite _ _ (keeps_clean _ _ _ _ h)) (fun _ => h)
theorem State.keeps_wrWdg (off : Nat) (v : W32) (h : Keeps s₀ s) : Keeps s₀ (s.wrWdg off v) := by
  unfold State.wrWdg
  refine keeps_ite (fun _ => keeps_by_ (keepsNext_execSrcTimeoutWrite _ h) h)
    (fun _ => keeps_ite (fun _ => ?_) (fun _ => keeps_ite (fun _ => keeps_by_ (keepsNext_execSrcForget _ _ h) h)
    (fun _ => keeps_plainWrite _ _ h)))
  extract_lets
  exact keeps_ite (fun _ => keeps_by_ (keepsNext_execFmtValidate _ _ h) h)
    (fun _ => keeps_ite (fun _ => h) (fun _ => keeps_fmtWord _ _ _ h))
theorem State.keeps_wrKln (off : Nat) (v : W32) (h : Keeps s₀ s) : Keeps s₀ (s.wrKln off v) := by
  unfold State.wrKln
  refine keeps_ite (fun _ => h) (fun _ => ?_)
  extract_lets
  split
  · exact keeps_by_ (keepsNext_execKlnCtlWrite _ _ h) h
  · exact keeps_by_ (keepsNext_execKlnSeedWrite _ _ _ h) h
  · exact keeps_by_ (keepsNext_execKlnSeedWrite _ _ _ h) h
  · exact keeps_plainWrite _ _ h
theorem State.keeps_wrGlz (off : Nat) (v : W32) (h : Keeps s₀ s) : Keeps s₀ (s.wrGlz off v) :=
  keeps_ite (fun _ => keeps_by_ (keepsNext_execGlzGainWrite _ _ _ h) h)
    (fun _ => keeps_ite (fun _ => keeps_by_ (keepsNext_execGlzTxgEnable _ _ h) h)
    (fun _ => keeps_by_ (keepsNext_execGlzSettingWrite _ _ h) h))
theorem State.keeps_wrLtn (off : Nat) (v : W32) (h : Keeps s₀ s) : Keeps s₀ (s.wrLtn off v) :=
  keeps_ite (fun _ => keeps_by_ (keepsNext_execLtnBufferRelease _ _ h) h)
    (fun _ => keeps_ite (fun _ => keeps_ite (fun _ => h) (fun _ => keeps_plainWrite _ _ h))
    (fun _ => keeps_ite (fun _ => h) (fun _ => keeps_plainWrite _ _ h)))
theorem State.keeps_wrKpr (off : Nat) (v : W32) (h : Keeps s₀ s) : Keeps s₀ (s.wrKpr off v) := by
  unfold State.wrKpr
  extract_lets _ t
  have k : Keeps s₀ t := keeps_plainWrite _ _ h
  split
  · exact keeps_ite (fun _ => keeps_ite (fun _ => keeps_by_ (keepsNext_execKeeperStart _ k) k) (fun _ => k))
      (fun _ => keeps_ite (fun _ => keeps_by_ (keepsNext_execKeeperStop _ k) k) (fun _ => k))
  · exact keeps_by_ (keepsNext_execKprIrqSet _ _ h) h
  · exact keeps_plainWrite _ _ h
theorem State.keeps_dmaCtl (c : Nat) (v : W32) (h : Keeps s₀ s) : Keeps s₀ (s.dmaCtl c v) := by
  unfold State.dmaCtl
  extract_lets t1 t2
  have k1 : Keeps s₀ t1 := keeps_setRf _ _ _ _ h
  have k2 : Keeps s₀ t2 := keeps_ite (fun _ => keeps_setRb _ _ _ k1) (fun _ => k1)
  exact keeps_ite (fun _ => keeps_by_ (keepsNext_execDmaKill _ k2) k2)
    (fun _ => keeps_ite (fun _ => keeps_by_ (keepsNext_execDmaAbort _ k2) k2)
    (fun _ => keeps_ite (fun _ => keeps_by_ (keepsNext_execDmaProgStart _ k2) k2) (fun _ => k2)))
theorem State.keeps_shadowWrite (c off : Nat) (v : W32) (h : Keeps s₀ s) : Keeps s₀ (s.shadowWrite c off v) :=
  keeps_ite (fun _ => h) (fun _ => keeps_ite (fun _ => keeps_setRb _ _ _ h) (fun _ => keeps_plainWrite _ _ h))
theorem State.keeps_wrDma (off : Nat) (v : W32) (h : Keeps s₀ s) : Keeps s₀ (s.wrDma off v) := by
  unfold State.wrDma
  refine keeps_ite (fun _ => ?_) (fun _ => keeps_ite (fun _ => keeps_winWrite _ _ h)
    (fun _ => keeps_ite (fun _ => ?_) (fun _ => keeps_ite (fun _ => keeps_msixMask _ _ h) (fun _ => keeps_plainWrite _ _ h))))
  · extract_lets
    exact keeps_ite (fun _ => keeps_dmaCtl _ _ h) (fun _ => keeps_ite (fun _ => keeps_by_ (keepsNext_execDmaShadowGo _ _ h) h)
      (fun _ => keeps_ite (fun _ => keeps_shadowWrite _ _ _ h) (fun _ => keeps_plainWrite _ _ h)))
  · extract_lets
    exact keeps_ite (fun _ => keeps_by_ (keepsNext_execCtxCtlWrite _ _ h) h)
      (fun _ => keeps_ite (fun _ => h) (fun _ => keeps_plainWrite _ _ h))
theorem State.keeps_wrRng (off : Nat) (v : W32) (h : Keeps s₀ s) : Keeps s₀ (s.wrRng off v) := by
  unfold State.wrRng
  extract_lets
  split
  · exact keeps_by_ (keepsNext_execRingEnableWrite _ _ h) h
  · exact keeps_ringWrite _ _ _ h
theorem State.keeps_regWr (off : Nat) (v : W32) (h : Keeps s₀ s) : Keeps s₀ (s.regWr off v) := by
  unfold State.regWr
  refine keeps_ite (fun _ => h) (fun _ => keeps_ite (fun _ => keeps_dozeAcc h) (fun _ => ?_))
  split
  · exact keeps_wrGlb _ _ h
  · exact keeps_wrPwr _ _ h
  · exact keeps_wrBcn _ _ h
  · exact keeps_wrXbr _ _ h
  · exact keeps_wrTim _ _ h
  · exact keeps_wrRef _ _ h
  · exact keeps_wrPr _ _ h
  · exact keeps_wrMem _ _ h
  · exact keeps_wrEcc _ _ h
  · exact keeps_wrLn _ _ h
  · exact keeps_wrWdg _ _ h
  · exact keeps_wrKln _ _ h
  · exact keeps_wrGlz _ _ h
  · exact keeps_wrLtn _ _ h
  · exact keeps_wrKpr _ _ h
  · exact keeps_wrDma _ _ h
  · exact keeps_wrRng _ _ h
  · exact keeps_plainWrite _ _ h
theorem State.keeps_bar0Wr (off : Nat) (v : W32) (be : BitVec 4) (h : Keeps s₀ s) : Keeps s₀ (s.bar0Wr off v be) :=
  keeps_ite (fun _ => keeps_by_ (keepsNext_execMemoryWindowWrite _ _ _ h) h)
    (fun _ => keeps_ite (fun _ => keeps_setRb _ _ _ h) (fun _ => keeps_regWr _ _ h))
theorem keepsNext_execRegisterWrite (off : Nat) (val : W32) (be : BitVec 4) (h : Keeps s₀ s) :
    KeepsNext s₀ (execRegisterWrite off val be s) :=
  keepsNext_gate (keeps_ite (fun _ => keeps_fabGo _ _ (fun _ k => keeps_bar0Wr _ _ _ k) h) (fun _ => keeps_bar0Wr _ _ _ h)) h
theorem keepsNext_execRemapWrite (v : W32) (h : Keeps s₀ s) : KeepsNext s₀ (execRemapWrite v s) :=
  keepsNext_gate (keeps_fabGo _ _ (fun _ k => keeps_regWr _ _ k) h) h

/-! ### Fabric -/

theorem State.keeps_fabRd (at' : FabAt) (h : Keeps s₀ s) : Keeps s₀ (s.fabRd at').2.2 := by
  unfold State.fabRd
  split
  · exact h
  · exact h
  · exact keeps_csRead _ _ _ _ h
  · split
    rename_i e
    exact (keeps_regRd _ h).of_snd e
  · exact keeps_sramRd _ _ _ h
  · split
    · exact keeps_early h
    · extract_lets
      split
      rename_i e1
      exact (keeps_hbmRead _ _ _ _ h).of_snd₂ e1
theorem State.keeps_fabWr (at' : FabAt) (v : W32) (be : BitVec 4) (h : Keeps s₀ s) : Keeps s₀ (s.fabWr at' v be) := by
  unfold State.fabWr
  split
  · exact h
  · exact h
  · exact keeps_sramWr _ _ _ _ h
  · exact keeps_bar0Wr _ _ _ h
  · exact keeps_sramWr _ _ _ _ h
  · exact keeps_ite (fun _ => keeps_bar4Wr _ _ _ h) (fun _ => keeps_early h)
theorem State.keeps_jtagWord (r : FabReq) (h : Keeps s₀ s) : Keeps s₀ (s.jtagWord r) := by
  unfold State.jtagWord
  refine keeps_ite (fun _ => keeps_fabWr _ _ _ h) (fun _ => ?_)
  split
  rename_i e
  exact keeps_setPwr _ ((keeps_fabRd _ h).of_snd₂ e)
theorem State.keeps_hostWord (r : FabReq) (h : Keeps s₀ s) : Keeps s₀ (s.hostWord r) := by
  unfold State.hostWord
  extract_lets
  refine keeps_ite (fun _ => keeps_fabWr _ _ _ h) (fun _ => ?_)
  split
  · exact keeps_hostReg _ _ h
  · exact keeps_hostMem _ _ h
  · exact keeps_hostMem _ _ h
  · exact h
theorem State.keeps_fabPerform (r : FabReq) (h : Keeps s₀ s) : Keeps s₀ (s.fabPerform r) :=
  keeps_ite (fun _ => keeps_ite (fun _ => keeps_by_ (keepsNext_ite (fun _ => keepsNext_rowLoad _ h)
    (fun _ => keepsNext_rowRead _ h)) h) (fun _ => h)) (fun _ => keeps_ite (fun _ => keeps_hostWord _ h)
    (fun _ => keeps_ite (fun _ => keeps_ite (fun _ => keeps_dFetched _ h) (fun _ => h)) (fun _ => keeps_jtagWord _ h)))
theorem State.keeps_fabGrant (target m waited : Nat) (h : Keeps s₀ s) : Keeps s₀ (s.fabGrant target m waited) := by
  unfold State.fabGrant
  split
  · exact h
  · extract_lets _ t
    have k : Keeps s₀ t := keeps_cnt _ _ (keeps_fabTake _ _ (keeps_setXbr _ h))
    exact keeps_ite (fun _ => keeps_fabPerform _ k) (fun _ => keeps_setXbr _ k)
theorem keepsNext_execFabricGrant (target waited : Nat) (h : Keeps s₀ s) : KeepsNext s₀ (execFabricGrant target waited s) := by
  unfold execFabricGrant
  split
  · exact keepsNext_gate (keeps_fabGrant _ _ _ h) h
  · exact keepsNext_next h
theorem State.keeps_loadBack (k : Nat) (l : LoadPend) (bad : Bool) (v : Nat) (h : Keeps s₀ s) :
    Keeps s₀ (s.loadBack k l bad v) := by
  unfold State.loadBack
  refine keeps_ite (fun _ => ?_) (fun _ => ?_)
  · extract_lets
    exact keeps_kTrap _ _ _ (keeps_setCore _ _ (keeps_kResume _ _ h))
  · extract_lets
    exact keeps_kSettle _ (keeps_setCore _ _ (keeps_kCount _ (keeps_kResume _ _ h)))
theorem keepsNext_execFabricLoadReturn (k : Nat) (up : Option Upset) (h : Keeps s₀ s) :
    KeepsNext s₀ (execFabricLoadReturn k up s) := by
  unfold execFabricLoadReturn
  split
  · refine keepsNext_gate ?_ h
    extract_lets
    split
    rename_i e
    exact keeps_loadBack _ _ _ _ ((keeps_fabRd _ (keeps_setXbr _ (keeps_upset _ h))).of_snd₂ e)
  · exact keepsNext_next h
theorem keepsNext_execFabricStoreComplete (k : Nat) (h : Keeps s₀ s) : KeepsNext s₀ (execFabricStoreComplete k s) := by
  unfold execFabricStoreComplete
  split
  · refine keepsNext_gate ?_ h
    extract_lets _ _ _ t
    have k1 : Keeps s₀ t := keeps_setQueue _ _ (keeps_setCore _ _ (keeps_setXbr _ h))
    split
    · exact keeps_ite (fun _ => k1) (fun _ => keeps_fabWr _ _ _ k1)
    · exact keeps_fabWr _ _ _ k1
  · exact keepsNext_next h

/-! ### Tap -/

theorem State.keeps_setTap (f : TapSt → TapSt) (h : Keeps s₀ s) : Keeps s₀ (s.setTap f) := keeps_setPwr _ h
theorem State.keeps_tapLoad (ir len v : Nat) (h : Keeps s₀ s) : Keeps s₀ (s.tapLoad ir len v) := keeps_setTap _ h
theorem State.keeps_tapBypass (ir : Nat) (h : Keeps s₀ s) : Keeps s₀ (s.tapBypass ir) := keeps_tapLoad _ _ _ h
theorem State.keeps_scanPass (ir : Nat) (upd : BitVec 39) (h : Keeps s₀ s) : Keeps s₀ (s.scanPass ir upd) := by
  unfold State.scanPass
  split
  rename_i e
  extract_lets
  exact keeps_setTap _ (keeps_tapLoad _ _ _ ((keeps_free (keeps_setTap _ h)).of_snd e))
theorem State.keeps_bistPass (upd : W32) (h : Keeps s₀ s) : Keeps s₀ (s.bistPass upd) := by
  unfold State.bistPass
  extract_lets t
  have k : Keeps s₀ t := keeps_tapLoad _ _ _ h
  exact keeps_ite (fun _ => keeps_setTap _ k) (fun _ => k)
theorem State.keeps_fabricPass (upd : BitVec 96) (h : Keeps s₀ s) : Keeps s₀ (s.fabricPass upd) := by
  unfold State.fabricPass
  refine keeps_ite (fun _ => keeps_tapBypass _ h) (fun _ => ?_)
  extract_lets t
  have k : Keeps s₀ t := keeps_tapLoad _ _ _ h
  exact keeps_ite (fun _ => keeps_fabPost _ k) (fun _ => k)
theorem State.keeps_tapScan (ir : Byte) (upd : BitVec 96) (h : Keeps s₀ s) : Keeps s₀ (s.tapScan ir upd) := by
  unfold State.tapScan
  split
  · exact keeps_scanPass _ _ h
  · exact keeps_tapLoad _ _ _ h
  · exact keeps_scanPass _ _ h
  · exact keeps_ite (fun _ => keeps_bistPass _ h) (fun _ => h)
  · exact keeps_tapLoad _ _ _ h
  · exact keeps_fabricPass _ h
  · exact keeps_tapBypass _ h
theorem keepsNext_execExtest (upd : BitVec 39) (h : Keeps s₀ s) : KeepsNext s₀ (execExtest upd s) :=
  keepsNext_gate (keeps_tapScan _ _ h) h
theorem keepsNext_execIdcode (h : Keeps s₀ s) : KeepsNext s₀ (execIdcode s) := keepsNext_gate (keeps_tapScan _ _ h) h
theorem keepsNext_execSamplePreload (upd : BitVec 39) (h : Keeps s₀ s) : KeepsNext s₀ (execSamplePreload upd s) :=
  keepsNext_gate (keeps_tapScan _ _ h) h
theorem keepsNext_execClamp (h : Keeps s₀ s) : KeepsNext s₀ (execClamp s) := keepsNext_gate (keeps_tapScan _ _ h) h
theorem keepsNext_execHighz (h : Keeps s₀ s) : KeepsNext s₀ (execHighz s) := keepsNext_gate (keeps_tapScan _ _ h) h
theorem keepsNext_execBistRun (upd : W32) (h : Keeps s₀ s) : KeepsNext s₀ (execBistRun upd s) :=
  keepsNext_gate (keeps_tapScan _ _ h) h
theorem keepsNext_execBistDone (tiles slices : List Nat) (h : Keeps s₀ s) : KeepsNext s₀ (execBistDone tiles slices s) := by
  unfold execBistDone
  refine keepsNext_gate ?_ h
  extract_lets
  exact keeps_showBist _ _ (keeps_setTap _ h)
theorem keepsNext_execFuseRead (h : Keeps s₀ s) : KeepsNext s₀ (execFuseRead s) := keepsNext_gate (keeps_tapScan _ _ h) h
theorem keepsNext_execTapFabric (upd : BitVec 96) (h : Keeps s₀ s) : KeepsNext s₀ (execTapFabric upd s) :=
  keepsNext_gate (keeps_tapScan _ _ h) h
theorem keepsNext_execBypass (h : Keeps s₀ s) : KeepsNext s₀ (execBypass s) := keepsNext_gate (keeps_tapScan _ _ h) h

/-! ### Step -/

theorem State.keeps_idle (h : Keeps s₀ s) : Keeps s₀ s.idle := keeps_ite (fun _ => keeps_advance _ h) (fun _ => h)

/-! ### Every step -/

theorem keepsNext_exec (i : Instr) (h : Keeps s₀ s) : KeepsNext s₀ (exec i s) :=
  match i with
  | .registerWrite .. => keepsNext_execRegisterWrite _ _ _ h
  | .rcRegisterRead .. => keepsNext_execRcRegisterRead _ h
  | .islFreqGateEnd .. => keepsNext_execIslFreqGateEnd _ _ h
  | .lnCtlWrite .. => keepsNext_execLnCtlWrite _ _ h
  | .lnCtleWrite .. => keepsNext_execLnCtleWrite _ _ h
  | .laneSignalDetect .. => keepsNext_execLaneSignalDetect _ _ h
  | .laneLossOfSignal .. => keepsNext_execLaneLossOfSignal _ _ h
  | .laneBlockLock .. => keepsNext_execLaneBlockLock _ _ h
  | .laneBlockLockLost .. => keepsNext_execLaneBlockLockLost _ _ h
  | .txLaneUp .. => keepsNext_execTxLaneUp _ _ h
  | .lnSlip .. => keepsNext_execLnSlip _ _ h
  | .eyeStart .. => keepsNext_execEyeStart _ _ h
  | .eyeMeasureDone .. => keepsNext_execEyeMeasureDone _ _ _ h
  | .prbsLock .. => keepsNext_execPrbsLock _ _ h
  | .rxFrameReceived .. => keepsNext_execRxFrameReceived _ _ h
  | .dataFrame .. => keepsNext_execDataFrame _ h
  | .hailFrame .. => keepsNext_execHailFrame _ h
  | .buoyFrame .. => keepsNext_execBuoyFrame _ h
  | .srcTimeout .. => keepsNext_execSrcTimeout _ _ h
  | .srcForget .. => keepsNext_execSrcForget _ _ h
  | .srcTimeoutWrite .. => keepsNext_execSrcTimeoutWrite _ h
  | .fmtValidate .. => keepsNext_execFmtValidate _ _ h
  | .slotDeadline .. => keepsNext_execSlotDeadline _ _ _ h
  | .slotRelease .. => keepsNext_execSlotRelease _ _ h
  | .placementEffect .. => keepsNext_execPlacementEffect h
  | .tileChunkStart .. => keepsNext_execTileChunkStart _ h
  | .chunkEnd .. => keepsNext_execChunkEnd _ h
  | .chunkDrained .. => keepsNext_execChunkDrained _ _ h
  | .kilnUpdate .. => keepsNext_execKilnUpdate _ _ _ h
  | .excludedWorkMove .. => keepsNext_execExcludedWorkMove _ _ h
  | .kilnBankClose .. => keepsNext_execKilnBankClose _ _ _ h
  | .fireOverrun .. => keepsNext_execFireOverrun _ h
  | .firingLineRecordWrite .. => keepsNext_execFiringLineRecordWrite _ _ _ h
  | .firingCompletionWrite .. => keepsNext_execFiringCompletionWrite _ h
  | .klnCtlWrite .. => keepsNext_execKlnCtlWrite _ _ h
  | .klnSeedWrite .. => keepsNext_execKlnSeedWrite _ _ _ h
  | .beamVisitStart .. => keepsNext_execBeamVisitStart _ _ h
  | .beamWindowClose .. => keepsNext_execBeamWindowClose _ _ h
  | .glazeEpochEvalStart .. => keepsNext_execGlazeEpochEvalStart _ _ h
  | .glazeSwitch .. => keepsNext_execGlazeSwitch h
  | .glzGainWrite .. => keepsNext_execGlzGainWrite _ _ _ h
  | .glzSettingWrite .. => keepsNext_execGlzSettingWrite _ _ h
  | .glzTxgEnable .. => keepsNext_execGlzTxgEnable _ _ h
  | .txBeamFrameSent .. => keepsNext_execTxBeamFrameSent _ h
  | .detGroupRestart .. => keepsNext_execDetGroupRestart _ h
  | .detectOutput .. => keepsNext_execDetectOutput _ _ h
  | .ltnStreamSample .. => keepsNext_execLtnStreamSample _ _ h
  | .ltnTimeout .. => keepsNext_execLtnTimeout _ _ _ _ h
  | .ltnBlockWrite .. => keepsNext_execLtnBlockWrite _ h
  | .ltnCaptureRecord .. => keepsNext_execLtnCaptureRecord _ h
  | .ltnBufferRelease .. => keepsNext_execLtnBufferRelease _ _ h
  | .kNop .. => keepsNext_kIssueRow _ _ _ h
  | .kAdd .. => keepsNext_kIssueRow _ _ _ h
  | .kSub .. => keepsNext_kIssueRow _ _ _ h
  | .kAddi .. => keepsNext_kIssueRow _ _ _ h
  | .kAnd .. => keepsNext_kIssueRow _ _ _ h
  | .kOr .. => keepsNext_kIssueRow _ _ _ h
  | .kXor .. => keepsNext_kIssueRow _ _ _ h
  | .kAndi .. => keepsNext_kIssueRow _ _ _ h
  | .kOri .. => keepsNext_kIssueRow _ _ _ h
  | .kXori .. => keepsNext_kIssueRow _ _ _ h
  | .kShl .. => keepsNext_kIssueRow _ _ _ h
  | .kAsr .. => keepsNext_kIssueRow _ _ _ h
  | .kLsr .. => keepsNext_kIssueRow _ _ _ h
  | .kCmp .. => keepsNext_kIssueRow _ _ _ h
  | .kCmpi .. => keepsNext_kIssueRow _ _ _ h
  | .kMovi .. => keepsNext_kIssueRow _ _ _ h
  | .kNeg .. => keepsNext_kIssueRow _ _ _ h
  | .kAbs .. => keepsNext_kIssueRow _ _ _ h
  | .kExp .. => keepsNext_kIssueRow _ _ _ h
  | .kBexp .. => keepsNext_kIssueRow _ _ _ h
  | .kMul .. => keepsNext_kIssueRow _ _ _ h
  | .kMac .. => keepsNext_kIssueRow _ _ _ h
  | .kMsu .. => keepsNext_kIssueRow _ _ _ h
  | .kDmac .. => keepsNext_execKDmac _ _ _ _ _ _ _ _ h
  | .kRnd .. => keepsNext_kIssueRow _ _ _ h
  | .kLac .. => keepsNext_kIssueRow _ _ _ h
  | .kSha .. => keepsNext_kIssueRow _ _ _ h
  | .kAdda .. => keepsNext_kIssueRow _ _ _ h
  | .kClra .. => keepsNext_kIssueRow _ _ _ h
  | .kExpa .. => keepsNext_kIssueRow _ _ _ h
  | .kLd .. => keepsNext_execKLd _ _ _ _ _ _ h
  | .kSt .. => keepsNext_execKSt _ _ _ _ _ h
  | .kStx .. => keepsNext_execKStx _ _ _ _ _ h
  | .kLdl .. => keepsNext_execKLdl _ _ _ _ _ _ h
  | .kStl .. => keepsNext_execKStl _ _ _ _ _ h
  | .kLip .. => keepsNext_kIssueRow _ _ _ h
  | .kAddp .. => keepsNext_kIssueRow _ _ _ h
  | .kB .. => keepsNext_kIssueRow _ _ _ h
  | .kCall .. => keepsNext_kIssueRow _ _ _ h
  | .kJr .. => keepsNext_kIssueRow _ _ _ h
  | .kBdnz .. => keepsNext_kIssueRow _ _ _ h
  | .kReti .. => keepsNext_kIssueRow _ _ _ h
  | .kRpt .. => keepsNext_kIssueRow _ _ _ h
  | .kWaiti .. => keepsNext_kIssueRow _ _ _ h
  | .kMvs .. => keepsNext_kIssueRow _ _ _ h
  | .kMvd .. => keepsNext_kIssueRow _ _ _ h
  | .illegalInstruction .. => keepsNext_execIllegalInstruction _ h
  | .trapConduct .. => keepsNext_execTrapConduct _ h
  | .interruptEntry .. => keepsNext_execInterruptEntry _ h
  | .fabricLoadReturn .. => keepsNext_execFabricLoadReturn _ _ h
  | .fabricStoreComplete .. => keepsNext_execFabricStoreComplete _ h
  | .keeperStart .. => keepsNext_execKeeperStart _ h
  | .keeperStop .. => keepsNext_execKeeperStop _ h
  | .kprIrqSet .. => keepsNext_execKprIrqSet _ _ h
  | .memoryWindowWrite .. => keepsNext_execMemoryWindowWrite _ _ _ h
  | .conductIssue .. => keepsNext_execConductIssue _ _ _ _ _ h
  | .conductDispatch .. => keepsNext_execConductDispatch _ h
  | .nextResolve .. => keepsNext_execNextResolve _ _ h
  | .place .. => keepsNext_execPlace _ _ h
  | .openKiln .. => keepsNext_execOpenKiln _ h
  | .fire .. => keepsNext_execFire _ h
  | .shut .. => keepsNext_execShut _ h
  | .steer .. => keepsNext_execSteer _ _ h
  | .glaze .. => keepsNext_execGlaze _ _ h
  | .arm .. => keepsNext_execArm _ h
  | .disarm .. => keepsNext_execDisarm _ h
  | .waitt .. => keepsNext_execWaitt _ h
  | .waittDone .. => keepsNext_execWaittDone _ _ h
  | .waitb .. => keepsNext_execWaitb _ h
  | .waitbTimeout .. => keepsNext_execWaitbTimeout _ _ h
  | .signal .. => keepsNext_execSignal _ h
  | .post .. => keepsNext_execPost _ _ h
  | .postRecordWrite .. => keepsNext_execPostRecordWrite _ h
  | .scrub .. => keepsNext_execScrub _ h
  | .fenceAll .. => keepsNext_execFenceAll _ h
  | .fenceKiln .. => keepsNext_execFenceKiln _ h
  | .fenceHost .. => keepsNext_execFenceHost _ h
  | .fenceComplete .. => keepsNext_execFenceComplete _ h
  | .halt .. => keepsNext_execHalt _ h
  | .bar4Read .. => keepsNext_execBar4Read _ _ _ h
  | .bar4Write .. => keepsNext_execBar4Write _ _ _ _ _ h
  | .bar4Resize .. => keepsNext_execBar4Resize _ h
  | .doorbell .. => keepsNext_execDoorbell _ _ _ h
  | .cmdLoad .. => keepsNext_execCmdLoad _ _ h
  | .cmdRead .. => keepsNext_execCmdRead _ _ h
  | .cmdStartKeeper .. => keepsNext_execCmdStartKeeper _ h
  | .cmdStopKeeper .. => keepsNext_execCmdStopKeeper _ h
  | .cmdAttach .. => keepsNext_execCmdAttach _ h
  | .cmdDetach .. => keepsNext_execCmdDetach _ h
  | .cmdRingSetup .. => keepsNext_execCmdRingSetup _ h
  | .cmdQuery .. => keepsNext_execCmdQuery _ h
  | .responseRecordWrite .. => keepsNext_execResponseRecordWrite _ h
  | .ctxCtlWrite .. => keepsNext_execCtxCtlWrite _ _ h
  | .ringEnableWrite .. => keepsNext_execRingEnableWrite _ _ h
  | .indexWriteback .. => keepsNext_execIndexWriteback _ h
  | .msixTimer .. => keepsNext_execMsixTimer _ _ h
  | .hostCompletionTimeout .. => keepsNext_execHostCompletionTimeout _ h
  | .dmaShadowGo .. => keepsNext_execDmaShadowGo _ _ h
  | .dmaAbort .. => keepsNext_execDmaAbort _ h
  | .dmaKill .. => keepsNext_execDmaKill _ h
  | .dmaProgStart .. => keepsNext_execDmaProgStart _ h
  | .dmaBurstComplete .. => keepsNext_execDmaBurstComplete _ _ h
  | .dmaEnd .. => keepsNext_execDmaEnd _ h
  | .dmaMove .. => keepsNext_execDmaMove _ h
  | .dmaLoop .. => keepsNext_execDmaLoop _ h
  | .dmaWait .. => keepsNext_execDmaWait _ h
  | .dmaSignal .. => keepsNext_execDmaSignal _ h
  | .refreshInterval .. => keepsNext_execRefreshInterval _ _ _ _ h
  | .refreshWindowEnd .. => keepsNext_execRefreshWindowEnd _ _ h
  | .stackTempRead .. => keepsNext_execStackTempRead _ _ _ h
  | .hbmPowerDown .. => keepsNext_execHbmPowerDown _ _ h
  | .memSrefRequest .. => keepsNext_execMemSrefRequest _ _ h
  | .memRetrainRequest .. => keepsNext_execMemRetrainRequest _ _ h
  | .maintTokenGrant .. => keepsNext_execMaintTokenGrant _ h
  | .retrainDone .. => keepsNext_execRetrainDone _ _ _ h
  | .selfRefreshExit .. => keepsNext_execSelfRefreshExit _ _ h
  | .scrubGo .. => keepsNext_execScrubGo _ _ h
  | .scrubStepDone .. => keepsNext_execScrubStepDone _ _ _ h
  | .scrubDone .. => keepsNext_execScrubDone _ h
  | .eccLogPop .. => keepsNext_execEccLogPop _ h
  | .timWrap .. => keepsNext_execTimWrap _ h
  | .timIncFracWrite .. => keepsNext_execTimIncFracWrite _ h
  | .timIncCommit .. => keepsNext_execTimIncCommit _ h
  | .timRunWrite .. => keepsNext_execTimRunWrite _ h
  | .timCmpArm .. => keepsNext_execTimCmpArm _ _ _ h
  | .timCmpFire .. => keepsNext_execTimCmpFire _ _ h
  | .timCapture .. => keepsNext_execTimCapture _ h
  | .tportFrameRx .. => keepsNext_execTportFrameRx _ _ _ h
  | .tportTxGo .. => keepsNext_execTportTxGo _ h
  | .tportTxDone .. => keepsNext_execTportTxDone _ _ h
  | .timTsPop .. => keepsNext_execTimTsPop _ h
  | .refActivityLost .. => keepsNext_execRefActivityLost _ h
  | .refGateEnd .. => keepsNext_execRefGateEnd _ _ _ h
  | .refWtrExpiry .. => keepsNext_execRefWtrExpiry _ _ h
  | .refSelect .. => keepsNext_execRefSelect _ h
  | .refSwitchDone .. => keepsNext_execRefSwitchDone _ _ h
  | .refLocked .. => keepsNext_execRefLocked _ h
  | .refHoldoverUpdate .. => keepsNext_execRefHoldoverUpdate _ _ h
  | .refAgeTick .. => keepsNext_execRefAgeTick _ h
  | .ppsoutPulse .. => keepsNext_execPpsoutPulse _ h
  | .refRealign .. => keepsNext_execRefRealign _ h
  | .refRealignAlign .. => keepsNext_execRefRealignAlign _ h
  | .refRealignTimeout .. => keepsNext_execRefRealignTimeout _ h
  | .beaconDelivery .. => keepsNext_execBeaconDelivery _ h
  | .bcnPub .. => keepsNext_execBcnPub _ h
  | .bcnTaskWrite .. => keepsNext_execBcnTaskWrite _ _ h
  | .klnFireTask .. => keepsNext_execKlnFireTask _ h
  | .fabricGrant .. => keepsNext_execFabricGrant _ _ h
  | .remapWrite .. => keepsNext_execRemapWrite _ h
  | .prEnableWrite .. => keepsNext_execPrEnableWrite _ h
  | .prForce .. => keepsNext_execPrForce _ h
  | .heartbeatSend .. => keepsNext_execHeartbeatSend _ _ h
  | .heartbeat .. => keepsNext_execHeartbeat _ _ _ _ _ _ _ h
  | .reportSend .. => keepsNext_execReportSend _ h
  | .report .. => keepsNext_execReport _ _ h
  | .conductItem .. => keepsNext_execConductItem _ _ h
  | .decision .. => keepsNext_execDecision _ _ h
  | .loss .. => keepsNext_execLoss _ _ _ _ _ h
  | .mirror .. => keepsNext_execMirror _ _ _ _ _ h
  | .join .. => keepsNext_execJoin _ _ h
  | .snapshot .. => keepsNext_execSnapshot _ _ h
  | .prPartnerTimeout .. => keepsNext_execPrPartnerTimeout _ h
  | .foginN .. => keepsNext_execFoginN _ h
  | .porstN .. => keepsNext_execPorstN h
  | .warmrstN .. => keepsNext_execWarmrstN _ h
  | .perstN .. => keepsNext_execPerstN h
  | .trstN .. => keepsNext_execTrstN h
  | .fillDone .. => keepsNext_execFillDone _ _ _ h
  | .bootGo .. => keepsNext_execBootGo _ h
  | .bootLoadDone .. => keepsNext_execBootLoadDone _ h
  | .powerStateRequest .. => keepsNext_execPowerStateRequest _ h
  | .powerStateChangeDone .. => keepsNext_execPowerStateChangeDone _ h
  | .thermSensorRead .. => keepsNext_execThermSensorRead _ _ h
  | .supplyFault .. => keepsNext_execSupplyFault _ h
  | .fogSet .. => keepsNext_execFogSet _ h
  | .bistDone .. => keepsNext_execBistDone _ _ h
  | .extest .. => keepsNext_execExtest _ h
  | .idcode .. => keepsNext_execIdcode h
  | .samplePreload .. => keepsNext_execSamplePreload _ h
  | .clamp .. => keepsNext_execClamp h
  | .highz .. => keepsNext_execHighz h
  | .bistRun .. => keepsNext_execBistRun _ h
  | .fuseRead .. => keepsNext_execFuseRead h
  | .tapFabric .. => keepsNext_execTapFabric _ h
  | .bypass .. => keepsNext_execBypass h
  | .neighbourRefreshDone .. => keepsNext_execNeighbourRefreshDone _ h
  | .pmbAlertN .. => keepsNext_execPmbAlertN _ h
  | .prLink .. => keepsNext_execPrLink _ h
  | .ltnEngDeadRead .. => keepsNext_execLtnEngDeadRead _ h
  | .hbmTrainingDone .. => keepsNext_execHbmTrainingDone _ _ _ h
  | .hostLinkTraining .. => keepsNext_execHostLinkTraining _ _ _ h
  | .railsRemoved .. => keepsNext_execRailsRemoved h

theorem keepsNext_step (h : Keeps s₀ s) : KeepsNext s₀ (step s) := by
  unfold step
  split
  · exact keepsNext_next (keeps_ite (fun _ => keeps_advance _ h) fun _ => h)
  · exact keepsNext_exec _ (keeps_with h)

/-- Settles O2: the lemmas above, from the state itself to the state that its step answers. -/
theorem everyStepKeepsCanonicalStores : Obligations.EveryStepKeepsCanonicalStores := fun s t w e =>
  have k : Keeps s t := keepsNext_step keeps_refl t e
  ⟨k.1 w, k.2⟩

end Sys2Proof.Machine
end

section
/-! PROOF. The register file right after reset: the four registers that fuses load, and the reset values of all others. -/

namespace Sys2Proof.Machine

/-- The register file after reset holds entries of the four registers that fuses load, and of no other. -/
theorem sget_fuseRegs_other (f : Fuses) {off : Nat} (h0 : off ≠ 0) (h8 : off ≠ 8) (h20 : off ≠ 0x20) (h24 : off ≠ 0x24) :
    sget regReset (fuseRegs f) off = regReset off := by
  rw [fuseRegs, sget_sset_ne _ _ _ h24, sget_sset_ne _ _ _ h20, sget_sset_ne _ _ _ h8, sget_sset_ne _ _ _ h0, sget]

/-- GLB_UNITS holds what the grade fixes. -/
theorem sget_fuseRegs_units (f : Fuses) :
    sget regReset (fuseRegs f) 8 = if f.gradeC then 0x00FF0203#32 else 0x00FF07FF#32 := by
  rw [fuseRegs, sget_sset_ne _ _ _ (by decide), sget_sset_ne _ _ _ (by decide), sget_sset_same]

/-- GLB_ID holds the identification code of the grade. -/
theorem sget_fuseRegs_id (f : Fuses) :
    sget regReset (fuseRegs f) 0 = if f.gradeC then 0x17241993#32 else 0x17240993#32 := by
  rw [fuseRegs, sget_sset_ne _ _ _ (by decide), sget_sset_ne _ _ _ (by decide), sget_sset_ne _ _ _ (by decide), sget_sset_same]

/-- Settles O4: the register file of reset is that of the fuses, and the six reset values named are rows of the tables. -/
theorem resetRegisterValues : Obligations.ResetRegisterValues := by
  unfold Obligations.ResetRegisterValues
  refine ⟨fun off h0 h8 h20 h24 => sget_fuseRegs_other Fuses.init h0 h8 h20 h24, sget_fuseRegs_units Fuses.init,
    sget_fuseRegs_id Fuses.init, ?_⟩
  decide +kernel

end Sys2Proof.Machine
end

section
/-! PROOF. Accesses of the register space: the way of the host's request through the fabric, the rows of the registers an
access names, and what a write and a read of such a row do. -/

namespace Sys2Proof.Machine

/-! ### What changes beside a register -/

/-- Of two states: the second differs in the registers listed, if at all, and in nothing that a read of the memories shows. -/
def OnlyRegs (offs : List Nat) (s t : State) : Prop := Apart s t ∧ MemSame s t ∧ RegsBut offs s t

/-- Where the stores of a state stand, nothing in them changes. -/
theorem onlyRegs_of_stores {s t : State} (hp : t.pending = s.pending) (hf : t.fuse = s.fuse) (hr : t.regs = s.regs)
    (hm : t.hbm = s.hbm) (hc : t.csram = s.csram) (hh : t.host = s.host) : OnlyRegs [] s t :=
  ⟨⟨hp, hf⟩, fun a => ⟨by rw [hm], by rw [hc], by rw [hh]⟩, fun o _ => by rw [State.reg, State.reg, hr]⟩

theorem OnlyRegs.setReg {s t : State} {off : Nat} (v : W32) (h : OnlyRegs [] s t) : OnlyRegs [off] s (t.setReg off v) := by
  obtain ⟨hapart, hmem, hregs⟩ := h
  refine ⟨hapart, hmem, fun o ho => ?_⟩
  rw [State.reg_setReg_ne _ _ (by simpa using ho), hregs o (by simp)]

theorem onlyRegs_fabTake (s : State) (m target : Nat) : OnlyRegs [] s (s.fabTake m target) :=
  onlyRegs_of_stores rfl rfl rfl rfl rfl rfl

/-- A fact of the second state beside what it leaves, as the clauses join them. -/
theorem OnlyRegs.and {s t : State} {offs : List Nat} {P : Prop} (h : OnlyRegs offs s t) (p : P) :
    Apart s t ∧ MemSame s t ∧ RegsBut offs s t ∧ P := ⟨h.1, h.2.1, h.2.2, p⟩

/-- A read's answer goes to the host's link, and to no register or memory. -/
theorem OnlyRegs.answer {s t : State} {offs : List Nat} (b : List Byte) (p : Bool) (h : OnlyRegs offs s t) :
    OnlyRegs offs s (t.answer b p) := h

@[simp] theorem State.answer_rdata (s : State) (b : List Byte) (p : Bool) : (s.answer b p).link.rdata = b := rfl
@[simp] theorem State.reg_answer (s : State) (b : List Byte) (p : Bool) (off : Nat) : (s.answer b p).reg off = s.reg off := rfl
@[simp] theorem State.ltn_answer (s : State) (b : List Byte) (p : Bool) (e : Nat) : (s.answer b p).ltn e = s.ltn e := rfl
@[simp] theorem State.reg_fabTake (s : State) (m target off : Nat) : (s.fabTake m target).reg off = s.reg off := rfl
@[simp] theorem State.gradeC_fabTake (s : State) (m target : Nat) : (s.fabTake m target).gradeC = s.gradeC := rfl
@[simp] theorem State.dozing_fabTake (s : State) (m target : Nat) : (s.fabTake m target).dozing = s.dozing := rfl
@[simp] theorem State.unmapped_fabTake (s : State) (m target off : Nat) : (s.fabTake m target).unmapped off = s.unmapped off := rfl

/-! ### The way through the fabric -/

/-- Addresses from the host's base of the register space on lead there, whatever REMAP says. -/
theorem State.fabAt_regs_target (s : State) (off : Nat) : (s.fabAt (fabRegs + off)).target = 2 := by
  simp [State.fabAt, fabMap, FabAt.target]

/-- A register write is one request to the fabric. -/
theorem exec_registerWrite {s : State} (hu : s.hostUp = true) {off : Nat} (hlt : off < 0x2000000) (hal : off % 4 = 0) (v : W32)
    (be : BitVec 4) :
    exec (.registerWrite off v be) s
      = .next (s.fabGo (hostReq (fabRegs + off) true v be) fun s => s.bar0Wr off v be) := by
  have e : exec (.registerWrite off v be) s = execRegisterWrite off v be s := rfl
  rw [e, execRegisterWrite, gate_of _ _ _ (by simp [hu, hal]; omega), if_pos hlt]

/-- A register read of a dword is one request to the fabric. -/
theorem exec_rcRegisterRead {s : State} (hu : s.hostUp = true) {off : Nat} (hlt : off < 0x2000000) (hal : off % 4 = 0) :
    exec (.rcRegisterRead ⟨off, 4⟩) s = .next (s.fabGo (hostRead (fabRegs + off) 4) fun s => s.hostReg off 4) := by
  have e : exec (.rcRegisterRead ⟨off, 4⟩) s = execRcRegisterRead ⟨off, 4⟩ s := rfl
  rw [e, execRcRegisterRead, gate_of _ _ _ (by simp [hu, readOk, hal]; omega)]
  simp [State.bar0Rd, hlt, show off < 0x4000000 by omega]

/-- A write of XBR_CTL is one request to the fabric. -/
theorem exec_remapWrite {s : State} (hu : s.hostUp = true) (v : W32) :
    exec (.remapWrite v) s
      = .next (s.fabGo (hostReq (fabRegs + 0x300000) true v 0xF) fun s => s.regWr 0x300000 v) := by
  have e : exec (.remapWrite v) s = execRemapWrite v s := rfl
  rw [e, execRemapWrite, gate_of _ _ _ hu]

/-- A read of LTN_ENG_DEAD LO is the register read of its offset. -/
theorem exec_ltnEngDeadRead {s : State} (hu : s.hostUp = true) {e : Nat} (he : e < 4) :
    exec (.ltnEngDeadRead e) s = exec (.rcRegisterRead ⟨oEng e + 0xA0, 4⟩) s := by
  have hoff : oEng e = 0xE00000 + 0x10000 * e := rfl
  have e₁ : exec (.ltnEngDeadRead e) s = execLtnEngDeadRead e s := rfl
  rw [e₁, execLtnEngDeadRead, gate_of _ _ _ (by simp [hu, he]), exec_rcRegisterRead hu (by omega) (by omega),
    State.bar0Rd, if_pos (by omega)]

section
variable {s : State} (hd : s.dozing = false)
include hd

/-- With the register space not open to the host, its request waits. -/
theorem State.fabGo_regs_waits (hq : ¬ FabQuiet s 9 2) (off : Nat) (w : Bool) (v : W32) (be : BitVec 4) (f : State → State) :
    Asked s (s.fabGo (hostReq (fabRegs + off) w v be) f) (hostReq (fabRegs + off) w v be) := by
  rw [State.fabGo_waits _ _ hd (by rw [hostReq, s.fabAt_regs_target off]; exact eq_false_of_ne_true hq)]; rfl

variable (hq : FabQuiet s 9 2)
include hq

/-- With the register space open to the host, its request is performed as it comes. -/
theorem State.fabGo_regs_open (off : Nat) (w : Bool) (v : W32) (be : BitVec 4) (f : State → State) :
    s.fabGo (hostReq (fabRegs + off) w v be) f = f (s.fabTake 9 2) := by
  have ht := s.fabAt_regs_target off
  rw [State.fabGo_open _ _ hd (by rw [hostReq, ht]; exact hq), hostReq, ht]; rfl

variable (hu : s.hostUp = true) {off : Nat} (hlt : off < 0x2000000) (hal : off % 4 = 0)
include hu hlt hal

/-- What holds after a write of a whole dword holds after the command, where the register space is open. -/
theorem completes_write {v : W32} {P : State → Prop} (h : P ((s.fabTake 9 2).regWr off v)) :
    Completes (.registerWrite off v 0xF) s P := by
  refine ⟨_, exec_registerWrite hu hlt hal v 0xF, ?_⟩
  rw [State.fabGo_regs_open hd hq, State.bar0Wr, if_neg (by omega), if_neg (by simp)]
  exact h

/-- A write with a byte disabled only sets PARTWR. -/
theorem completes_partial_write {v : W32} {be : BitVec 4} (hbe : be ≠ 0xF) {P : State → Prop}
    (h : P ((s.fabTake 9 2).setRb oHlStat 0 true)) : Completes (.registerWrite off v be) s P := by
  refine ⟨_, exec_registerWrite hu hlt hal v be, ?_⟩
  rw [State.fabGo_regs_open hd hq, State.bar0Wr, if_neg (by omega), if_pos hbe]
  exact h

/-- What holds after the answer of a dword read holds after the command, where the register space is open. -/
theorem completes_read {P : State → Prop}
    (h : P (((s.fabTake 9 2).regRd off).2.answer (leBytes 4 ((s.fabTake 9 2).regRd off).1.toNat) false)) :
    Completes (.rcRegisterRead ⟨off, 4⟩) s P := by
  refine ⟨_, exec_rcRegisterRead hu hlt hal, ?_⟩
  rw [hostRead, State.fabGo_regs_open hd hq, State.hostReg, hal, show off / 4 * 4 = off by omega]
  simpa [leBytes, List.take_of_length_le] using h

end

/-! ### Writes and reads of a mapped register -/

section
variable {s : State} {off : Nat} {r : RegRow}

/-- An offset that a row of the map has and no fuse takes is mapped. -/
theorem State.unmapped_of_row (hr : regRow off = some r) (hf : (s.gradeC && fusedOff off) = false) : s.unmapped off = false := by
  simp [State.unmapped, hr, hf]

theorem State.plainWrite_of_row (hr : regRow off = some r) (v : W32) :
    s.plainWrite off v = s.setReg off (writeBits r (s.reg off) v) := by simp [State.plainWrite, hr]

theorem State.rcClear_of_row (hr : regRow off = some r) (hc : r.rc ≠ 0) :
    s.rcClear off
      = s.setReg off ((s.reg off &&& ~~~BitVec.ofNat 32 r.rc) ||| (BitVec.ofNat 32 r.reset &&& BitVec.ofNat 32 r.rc)) := by
  simp [State.rcClear, hr, hc]

theorem State.rcClear_of_no_rc (hr : regRow off = some r) (hc : r.rc = 0) : s.rcClear off = s := by
  simp [State.rcClear, hr, hc]

variable (hd : s.dozing = false)
include hd

/-- A read of a mapped register outside Doze at which nothing is brought up to date: what it shows, and the clearing of RC. -/
theorem State.regRd_mapped (hm : s.unmapped off = false) (hl : s.regLook off = s) :
    s.regRd off = (s.view off, (s.rcClear off).deadLatch off) := by
  simp [State.regRd, hm, hd, hl]

end

/-! ### The kinds of rows -/

/-- Every bit kept. -/
theorem and_ones (x : W32) : x &&& 0xFFFFFFFF#32 = x := BitVec.and_allOnes

/-- A word written to a row of RW bits only. -/
theorem writeBits_rw {r : RegRow} {m : W32} (hrw : BitVec.ofNat 32 r.rw = m) (hc : r.w1c = 0) (hs : r.w1s = 0) (old v : W32) :
    writeBits r old v = (old &&& ~~~m) ||| (v &&& m) := by simp [writeBits, hrw, hc, hs, and_ones]

/-- A word written to a row whose bits are all cleared by ones. -/
theorem writeBits_w1c {r : RegRow} (hrw : r.rw = 0) (hc : r.w1c = 0xFFFFFFFF) (hs : r.w1s = 0) (old v : W32) :
    writeBits r old v = old &&& ~~~v := by simp [writeBits, hrw, hc, hs, and_ones]

/-- A word written to a row whose bits are all set by ones. -/
theorem writeBits_w1s {r : RegRow} (hrw : r.rw = 0) (hc : r.w1c = 0) (hs : r.w1s = 0xFFFFFFFF) (old v : W32) :
    writeBits r old v = old ||| v := by simp [writeBits, hrw, hc, hs, and_ones]

/-- A word written to a row without software bits. -/
theorem writeBits_ro {r : RegRow} (hrw : r.rw = 0) (hc : r.w1c = 0) (hs : r.w1s = 0) (old v : W32) :
    writeBits r old v = old := by simp [writeBits, hrw, hc, hs, and_ones]

/-! ### The registers named -/

/-- The plain RW registers of the statement, each with the mask of its bits. -/
def plainRw : List (Nat × W32) :=
  [(0xA00000, 7#32), (0xA00004, 0xFFFF#32), (0xB00004, 0xFFFF#32), (0xB00008, 0xFFFF#32),
   (0x500010, 0xFFFFFFFF#32), (0x500018, 0xFFFFFFFF#32), (0x400804, 0xFFFFFFFF#32), (0x700008, 0xFFFF#32),
   (0x100044, 0x7F#32), (0x200030, 0xFFFF#32)]

/-- Each is a row of RW bits only, at an offset that no grade fuses off. -/
theorem plainRw_row : ∀ p ∈ plainRw, fusedOff p.1 = false ∧ p.1 < 0x2000000 ∧ p.1 % 4 = 0 ∧
    (regRow p.1).any (fun r => decide (BitVec.ofNat 32 r.rw = p.2) && decide (r.w1c = 0) && decide (r.w1s = 0)) = true := by
  decide

/-- A write of the beacon block below BCN_PUB is a plain one. -/
theorem State.wrBcn_low (s : State) {off : Nat} (h : off < 0x200034) (v : W32) : s.wrBcn off v = s.plainWrite off v := by
  rw [State.wrBcn, if_neg (by omega), if_neg (by omega)]

theorem regRow_bcnFlag {w : Nat} (hw : w < 4) :
    regRow (0x200000 + 4 * w) = some ⟨0x200000, [(4, 4)], .warm, 0, 0, 0xffffffff, 0, 0, 0⟩ := by
  decide +revert

theorem regRow_bcnLock {w : Nat} (hw : w < 4) :
    regRow (0x200020 + 4 * w) = some ⟨0x200020, [(4, 4)], .warm, 0, 0, 0, 0xffffffff, 0, 0⟩ := by
  decide +revert

theorem regRow_prReady : regRow 0x60000C = some (roRow 0x60000c [] .warm) := by decide

theorem regRow_bcnGrpDrop {g : Nat} (hg : g < 16) :
    regRow (0x200040 + 4 * g) = some (rcRow 0x200040 [(16, 4)] .warm 0xffffffff) := by
  decide +revert

theorem regRow_xbrCtl : regRow 0x300000 = some (rwRow 0x300000 [] .warm 0 1) := by decide

theorem regRow_engDead {e : Nat} (he : e < 4) :
    regRow (oEng e + 0xA0) = some (roRow 0xe000a0 [(4, 0x10000), (2, 4)] .warm) := by
  decide +revert

/-- The row of PWR_ISL_FMIN. -/
def islFminRow : RegRow := ⟨0x105000, [(497, 4)], .warm, 0xffffff, 0, 0, 0, 0, 0xffffff⟩

/-- The rows before it have no instance at its offsets. -/
theorem pwrRows_below_fmin (n : Nat) : ∀ r ∈ pwrRows.dropLast, r.hit (0x105000 + 4 * n) = false := by
  simp only [pwrRows, roRow, rwRow, woRow, List.dropLast_cons_cons, List.dropLast_singleton, List.forall_mem_cons, RegRow.hit,
    dimsHit, Bool.and_eq_false_iff, decide_eq_false_iff_not, beq_eq_false_iff_ne]
  refine ⟨?_, ?_, ?_, ?_, ?_, ?_, ?_, ?_, ?_, ?_, ?_, by simp⟩ <;> omega

theorem regRow_islFmin {n : Nat} (hn : n < 497) : regRow (0x105000 + 4 * n) = some islFminRow := by
  have hb : (0x105000 + 4 * n) >>> 20 = 1 := by rw [Nat.shiftRight_eq_div_pow]; omega
  have hrows : blockRows 1 = pwrRows.dropLast ++ [islFminRow] := rfl
  have hnone : pwrRows.dropLast.find? (fun r => r.hit (0x105000 + 4 * n)) = none :=
    List.find?_eq_none.2 fun r hr => by simp [pwrRows_below_fmin n r hr]
  have hit : islFminRow.hit (0x105000 + 4 * n) = true := by simp [islFminRow, RegRow.hit, dimsHit, hn]
  rw [regRow, hb, hrows, List.find?_append, hnone, Option.none_or, List.find?_singleton, if_pos hit]

/-- Offsets between the gate counts of islands and the stacks are those of no unit that a grade fuses off. -/
theorem fusedOff_low {off : Nat} (h : off < 0x740000) (hi : off < 0x104000 ∨ 0x106000 ≤ off) : fusedOff off = false := by
  simp [fusedOff]; omega

/-- Outside Doze a write of a mapped register of the beacon block below BCN_PUB is a plain one. -/
theorem State.regWr_bcn_low {s : State} (hd : s.dozing = false) {off : Nat} (hm : s.unmapped off = false) (hb : off >>> 20 = 2)
    (hoff : off < 0x200034) (v : W32) : s.regWr off v = s.plainWrite off v := by
  simp [State.regWr, hm, hd, hb, s.wrBcn_low hoff]

/-- Outside Doze a write of a plain RW register replaces its RW bits. -/
theorem State.regWr_plainRw {s : State} (hd : s.dozing = false) {p : Nat × W32} (hp : p ∈ plainRw) (v : W32) :
    s.regWr p.1 v = s.setReg p.1 ((s.reg p.1 &&& ~~~p.2) ||| (v &&& p.2)) := by
  obtain ⟨hf, -, -, hrow⟩ := plainRw_row p hp
  obtain ⟨r, hr, hbits⟩ := (Option.any_eq_true _ _).1 hrow
  simp only [Bool.and_eq_true, decide_eq_true_eq] at hbits
  obtain ⟨⟨hrw, hc⟩, hs⟩ := hbits
  have hm : s.unmapped p.1 = false := State.unmapped_of_row hr (by simp [hf])
  have plain : s.regWr p.1 v = s.plainWrite p.1 v := by
    clear hr hf hrow
    rw [plainRw] at hp
    fin_cases hp <;>
      simp_all [State.regWr, State.wrWdg, State.wrRef, State.wrTim, oTimCtl, oTimFrac, oTimInt, State.wrMem,
        State.wrPwr, State.wrBcn_low]
  rw [plain, State.plainWrite_of_row hr, writeBits_rw hrw hc hs]

/-- Outside Doze a write of XBR_CTL sets REMAP. -/
theorem State.regWr_xbrCtl {s : State} (hd : s.dozing = false) (v : W32) :
    s.regWr 0x300000 v = s.setReg 0x300000 ((s.reg 0x300000 &&& ~~~1#32) ||| (v &&& 1#32)) := by
  have hm : s.unmapped 0x300000 = false := State.unmapped_of_row regRow_xbrCtl (by simp [fusedOff_low])
  have plain : s.regWr 0x300000 v = s.plainWrite 0x300000 v := by simp [State.regWr, hm, hd, State.wrXbr]
  rw [plain, State.plainWrite_of_row regRow_xbrCtl, writeBits_rw (m := 1#32) rfl rfl rfl]

/-- Outside Doze a write of PR_READY leaves the word as it is. -/
theorem State.regWr_prReady {s : State} (hd : s.dozing = false) (v : W32) :
    s.regWr 0x60000C v = s.setReg 0x60000C (s.reg 0x60000C) := by
  have hm : s.unmapped 0x60000C = false := State.unmapped_of_row regRow_prReady (by simp [fusedOff_low])
  have plain : s.regWr 0x60000C v = s.plainWrite 0x60000C v := by simp [State.regWr, hm, hd, State.wrPr]
  rw [plain, State.plainWrite_of_row regRow_prReady, writeBits_ro rfl rfl rfl]

/-- Reads below the log and the tables bring nothing up to date. -/
theorem State.regLook_low (s : State) {off : Nat} (h : off < 0xA10000) : s.regLook off = s := by
  rw [State.regLook, if_neg (by omega), if_neg (by omega), if_neg (by omega), if_neg (by omega)]

/-- Reads below the Lantern latch nothing. -/
theorem State.deadLatch_low (s : State) {off : Nat} (h : off < 0xE00000) : s.deadLatch off = s := by
  rw [State.deadLatch, if_neg (by omega)]

/-- Reads of the Lantern bring nothing up to date. -/
theorem State.regLook_lantern (s : State) {off : Nat} (hl : 0xE00000 ≤ off) (h : off < 0xF00000) : s.regLook off = s := by
  rw [State.regLook, if_neg (by omega), if_neg (by omega), if_neg (by omega), if_neg (by omega)]

/-- LTN_ENG_DEAD LO shows the low word of the dead time. -/
theorem State.view_engDead (s : State) {e : Nat} (he : e < 4) : s.view (oEng e + 0xA0) = lo32 (ticksNs (s.ltn e).deadTicks) := by
  have hb : (0xE00000 + 0x10000 * e + 0xA0) >>> 20 = 14 := by rw [Nat.shiftRight_eq_div_pow]; omega
  have ho : (0xE00000 + 0x10000 * e + 0xA0) % 0x10000 = 0xA0 := by omega
  have hi : (0xE00000 + 0x10000 * e + 0xA0 - 0xE00000) / 0x10000 = e := by omega
  simp only [oEng, State.view, hb, State.viewLtn, ho, hi]
  simp [State.viewEng]

/-- Its read latches the high word, and nothing else. -/
theorem State.deadLatch_engDead (s : State) {e : Nat} (he : e < 4) :
    s.deadLatch (oEng e + 0xA0) = s.setLtn e { s.ltn e with latchHi := hi32 (ticksNs (s.ltn e).deadTicks) } := by
  have hi : (0xE00000 + 0x10000 * e + 0xA0 - 0xE00000) / 0x10000 = e := by omega
  rw [State.deadLatch, oEng, if_pos (by omega), hi]

/-! ### The clauses -/

section
variable {s : State} (hu : s.hostUp = true) (hd : s.dozing = false)
include hu hd

/-- Where the register space is not open, every access of it waits. -/
theorem accesses_wait (hq : ¬ FabQuiet s 9 2) {off : Nat} (hlt : off < 0x2000000) (hal : off % 4 = 0) (v : W32) (be : BitVec 4) :
    Completes (.registerWrite off v be) s (fun t => Asked s t (hostReq (fabRegs + off) true v be)) ∧
    Completes (.rcRegisterRead ⟨off, 4⟩) s (fun t => Asked s t (hostRead (fabRegs + off) 4)) :=
  ⟨⟨_, exec_registerWrite hu hlt hal v be, State.fabGo_regs_waits hd hq off true v be _⟩,
    ⟨_, exec_rcRegisterRead hu hlt hal, State.fabGo_regs_waits hd hq off false _ _ _⟩⟩

theorem remapWrite_waits (hq : ¬ FabQuiet s 9 2) (v : W32) :
    Completes (.remapWrite v) s (fun t => Asked s t (hostReq (fabRegs + 0x300000) true v 0xF)) :=
  ⟨_, exec_remapWrite hu v, State.fabGo_regs_waits hd hq _ _ _ _ _⟩

variable (hq : FabQuiet s 9 2)
include hq

theorem write_unmapped {off : Nat} (hlt : off < 0x2000000) (hal : off % 4 = 0) (hm : s.unmapped off = true) (v : W32) :
    Completes (.registerWrite off v 0xF) s (fun t => GrantOnly s t) := by
  refine completes_write hd hq hu hlt hal ?_
  rw [State.regWr, if_pos (by simpa using hm)]
  exact ⟨rfl, rfl, rfl⟩

theorem read_unmapped {off : Nat} (hlt : off < 0x2000000) (hal : off % 4 = 0) (hm : s.unmapped off = true) :
    Completes (.rcRegisterRead ⟨off, 4⟩) s (fun t => Apart s t ∧ MemSame s t ∧ RegsBut [] s t ∧ t.link.rdata = [0, 0, 0, 0]) := by
  refine completes_read hd hq hu hlt hal ?_
  rw [State.regRd, if_pos (by simpa using hm)]
  exact ((onlyRegs_fabTake s 9 2).answer _ _).and (by simp [leBytes])

theorem write_partial {off : Nat} (hlt : off < 0x2000000) (hal : off % 4 = 0) {be : BitVec 4} (hbe : be ≠ 0xF) (v : W32) :
    Completes (.registerWrite off v be) s (fun t => Apart s t ∧ MemSame s t ∧ RegsBut [0x1040000] s t ∧ t.rb 0x1040000 0 = true) :=
  completes_partial_write hd hq hu hlt hal hbe
    (((onlyRegs_fabTake s 9 2).setReg _).and (State.rb_setRb _ _ _ _ (by decide)))

/-- A write that comes to a new word of its register. -/
theorem write_setReg {off : Nat} (hlt : off < 0x2000000) (hal : off % 4 = 0) {v x : W32}
    (hw : (s.fabTake 9 2).regWr off v = (s.fabTake 9 2).setReg off x) :
    Completes (.registerWrite off v 0xF) s (fun t => Apart s t ∧ MemSame s t ∧ RegsBut [off] s t ∧ t.reg off = x) :=
  completes_write hd hq hu hlt hal (hw ▸ ((onlyRegs_fabTake s 9 2).setReg x).and (State.reg_setReg _ _ _))

theorem write_plainRw {p : Nat × W32} (hp : p ∈ plainRw) (v : W32) :
    Completes (.registerWrite p.1 v 0xF) s (fun t => Apart s t ∧ MemSame s t ∧ RegsBut [p.1] s t ∧
      t.reg p.1 = (s.reg p.1 &&& ~~~p.2) ||| (v &&& p.2)) := by
  obtain ⟨-, hlt, hal, -⟩ := plainRw_row p hp
  exact write_setReg hu hd hq hlt hal (State.regWr_plainRw (by simpa using hd) hp v)

/-- A write of a beacon register below BCN_PUB, by the row it has. -/
theorem write_bcn {off : Nat} {r : RegRow} (hr : regRow off = some r) (hb : off >>> 20 = 2) (hoff : off < 0x200034)
    (hal : off % 4 = 0) (v : W32) :
    Completes (.registerWrite off v 0xF) s (fun t => Apart s t ∧ MemSame s t ∧ RegsBut [off] s t ∧
      t.reg off = writeBits r (s.reg off) v) := by
  have hge : 0x200000 ≤ off := by rw [Nat.shiftRight_eq_div_pow] at hb; omega
  have hm : s.unmapped off = false := State.unmapped_of_row hr (by simp [fusedOff_low (off := off) (by omega) (by omega)])
  refine write_setReg hu hd hq (by omega) hal ?_
  rw [State.regWr_bcn_low (by simpa using hd) (by simpa using hm) hb hoff, State.plainWrite_of_row hr]; rfl

theorem write_prReady (v : W32) :
    Completes (.registerWrite 0x60000C v 0xF) s (fun t => Apart s t ∧ MemSame s t ∧ RegsBut [] s t) := by
  obtain ⟨t, ht, hapart, hmem, hregs, hsame⟩ :=
    write_setReg hu hd hq (by decide) (by decide) (State.regWr_prReady (s := s.fabTake 9 2) (by simpa using hd) v)
  refine ⟨t, ht, hapart, hmem, fun o _ => ?_⟩
  by_cases ho : o = 0x60000C
  · rw [ho, hsame]; rfl
  · exact hregs o (by simpa using ho)

/-- A read of a register with RC bits, below the tables, that shows its word. -/
theorem read_rc {off : Nat} {r : RegRow} (hr : regRow off = some r) (hc : r.rc ≠ 0) (hoff : off < 0xA10000) (hal : off % 4 = 0)
    (hf : (s.gradeC && fusedOff off) = false) (hv : (s.fabTake 9 2).view off = s.reg off) :
    Completes (.rcRegisterRead ⟨off, 4⟩) s (fun t => Apart s t ∧ MemSame s t ∧ RegsBut [off] s t ∧
      t.link.rdata = leBytes 4 (s.reg off).toNat ∧
      t.reg off = (s.reg off &&& ~~~BitVec.ofNat 32 r.rc) ||| (BitVec.ofNat 32 r.reset &&& BitVec.ofNat 32 r.rc)) := by
  have hm : s.unmapped off = false := State.unmapped_of_row hr hf
  refine completes_read hd hq hu (by omega) hal ?_
  rw [State.regRd_mapped (by simpa using hd) (by simpa using hm) (State.regLook_low _ hoff), State.deadLatch_low _ (by omega),
    State.rcClear_of_row hr hc, hv]
  exact (((onlyRegs_fabTake s 9 2).setReg _).answer _ _).and ⟨rfl, State.reg_setReg _ _ _⟩

theorem read_bcnGrpDrop {g : Nat} (hg : g < 16) :
    Completes (.rcRegisterRead ⟨0x200040 + 4 * g, 4⟩) s (fun t => Apart s t ∧ MemSame s t ∧ RegsBut [0x200040 + 4 * g] s t ∧
      t.link.rdata = leBytes 4 (s.reg (0x200040 + 4 * g)).toNat ∧ t.reg (0x200040 + 4 * g) = 0) := by
  have hb : (0x200040 + 4 * g) >>> 20 = 2 := by rw [Nat.shiftRight_eq_div_pow]; omega
  have hv : (s.fabTake 9 2).view (0x200040 + 4 * g) = s.reg (0x200040 + 4 * g) := by
    simp only [State.view, hb, State.viewBcn]
    exact if_neg (by omega)
  obtain ⟨t, ht, hapart, hmem, hregs, hdata, hzero⟩ :=
    read_rc hu hd hq (regRow_bcnGrpDrop hg) (by simp [rcRow]) (by omega) (by omega)
      (by simp [fusedOff_low (off := 0x200040 + 4 * g) (by omega) (by omega)]) hv
  exact ⟨t, ht, hapart, hmem, hregs, hdata, by simpa [rcRow] using hzero⟩

theorem read_islFmin {n : Nat} (hn : n < 497) (hg : s.gradeC = false) :
    Completes (.rcRegisterRead ⟨0x105000 + 4 * n, 4⟩) s (fun t => Apart s t ∧ MemSame s t ∧ RegsBut [0x105000 + 4 * n] s t ∧
      t.link.rdata = leBytes 4 (s.reg (0x105000 + 4 * n)).toNat ∧ fld (t.reg (0x105000 + 4 * n)) 0 24 = 0xFFFFFF) := by
  have hb : (0x105000 + 4 * n) >>> 20 = 1 := by rw [Nat.shiftRight_eq_div_pow]; omega
  have hv : (s.fabTake 9 2).view (0x105000 + 4 * n) = s.reg (0x105000 + 4 * n) := by simp [State.view, hb]
  obtain ⟨t, ht, hapart, hmem, hregs, hdata, hones⟩ :=
    read_rc hu hd hq (regRow_islFmin hn) (by simp [islFminRow]) (by omega) (by omega) (by simp [hg]) hv
  have hset : t.reg (0x105000 + 4 * n) = setFld (s.reg (0x105000 + 4 * n)) 0 24 0xFFFFFF := hones
  exact ⟨t, ht, hapart, hmem, hregs, hdata, by rw [hset, fld_setFld _ _ _ _ (by decide)]; rfl⟩

theorem remapWrite_sets (v : W32) :
    Completes (.remapWrite v) s (fun t => Apart s t ∧ MemSame s t ∧ RegsBut [0x300000] s t ∧ t.rb 0x300000 0 = bit v 0) := by
  refine ⟨_, exec_remapWrite hu v, ?_⟩
  rw [State.fabGo_regs_open hd hq, State.regWr_xbrCtl (by simpa using hd)]
  exact ((onlyRegs_fabTake s 9 2).setReg _).and (by simp [State.rb, bit])

theorem ltnEngDeadRead_latches {e : Nat} (he : e < 4) (hg : s.gradeC = false) :
    Completes (.ltnEngDeadRead e) s (fun t => Apart s t ∧ MemSame s t ∧ RegsBut [] s t ∧
      t.link.rdata = leBytes 4 (ticksNs (s.ltn e).deadTicks % 2 ^ 32) ∧
      (t.ltn e).latchHi = hi32 (ticksNs (s.ltn e).deadTicks)) := by
  have hoff : oEng e + 0xA0 = 0xE00000 + 0x10000 * e + 0xA0 := rfl
  have hm : s.unmapped (oEng e + 0xA0) = false := State.unmapped_of_row (regRow_engDead he) (by simp [hg])
  rw [Completes, exec_ltnEngDeadRead hu he]
  refine completes_read hd hq hu (by omega) (by omega) ?_
  rw [State.regRd_mapped (by simpa using hd) (by simpa using hm) (State.regLook_lantern _ (by omega) (by omega)),
    State.rcClear_of_no_rc (regRow_engDead he) rfl, State.view_engDead _ he, State.deadLatch_engDead _ he]
  have latched : OnlyRegs [] s ((s.fabTake 9 2).setLtn e
      { (s.fabTake 9 2).ltn e with latchHi := hi32 (ticksNs ((s.fabTake 9 2).ltn e).deadTicks) }) :=
    onlyRegs_of_stores rfl rfl rfl rfl rfl rfl
  refine (latched.answer _ _).and ⟨?_, ?_⟩
  · rw [State.answer_rdata, lo32, BitVec.toNat_ofNat]; rfl
  · rw [State.ltn_answer, State.ltn, State.setLtn, tget_tset_same]; rfl

end

/-- Settles O10: every clause is one request through the fabric and one write or read of the row that the offset has. -/
theorem registerAccessTypes : Obligations.RegisterAccessTypes := by
  unfold Obligations.RegisterAccessTypes
  intro s hu hd
  refine ⟨fun hq => ⟨fun off v be hlt hal => accesses_wait hu hd hq hlt hal v be, remapWrite_waits hu hd hq⟩, fun hq =>
    ⟨fun off v hlt hal hm => ⟨write_unmapped hu hd hq hlt hal hm v, read_unmapped hu hd hq hlt hal hm⟩,
      fun off v be hlt hal hbe => write_partial hu hd hq hlt hal hbe v,
      fun off m hp v => write_plainRw hu hd hq (p := (off, m)) hp v,
      fun w v hw => ⟨?_, ?_⟩,
      write_prReady hu hd hq,
      fun g hg => read_bcnGrpDrop hu hd hq hg,
      fun n hn hg => read_islFmin hu hd hq hn hg,
      remapWrite_sets hu hd hq,
      fun e he hg => ltnEngDeadRead_latches hu hd hq he hg⟩⟩
  · rw [← writeBits_w1c (r := ⟨0x200000, [(4, 4)], .warm, 0, 0, 0xffffffff, 0, 0, 0⟩) rfl rfl rfl]
    exact write_bcn hu hd hq (regRow_bcnFlag hw) (by rw [Nat.shiftRight_eq_div_pow]; omega) (by omega) (by omega) v
  · rw [← writeBits_w1s (r := ⟨0x200020, [(4, 4)], .warm, 0, 0, 0, 0xffffffff, 0, 0⟩) rfl rfl rfl]
    exact write_bcn hu hd hq (regRow_bcnLock hw) (by rw [Nat.shiftRight_eq_div_pow]; omega) (by omega) (by omega) v

end Sys2Proof.Machine
end

section
/-! PROOF. DATA frames: what wedging does with the frame at the head of a lane's FIFO, and what its block does to the slots of its
channel. -/

namespace Sys2Proof.Machine

/-! ### The books beside the slots -/

/-- From s to t only registers, wrong symbols and the controllers' state may change, and the count of accepted frames does not. -/
def BooksOnly (s t : State) : Prop :=
  ∃ regs err mem, t = { s with regs := regs, err := err, mem := mem } ∧ t.reg 0xA00100 = s.reg 0xA00100

theorem booksOnly_refl (s : State) : BooksOnly s s := ⟨s.regs, s.err, s.mem, rfl, rfl⟩

theorem BooksOnly.trans {s t u : State} (h : BooksOnly s t) (k : BooksOnly t u) : BooksOnly s u := by
  obtain ⟨r, e, m, rfl, hr⟩ := h
  obtain ⟨r', e', m', rfl, hr'⟩ := k
  exact ⟨r', e', m', rfl, hr'.trans hr⟩

/-- From s to t only the source table, the rings and the books may change, and the count of accepted frames does not. -/
def IngestOnly (s t : State) : Prop :=
  ∃ srcs rings regs err mem, t = { s with srcs := srcs, asm_ := rings, regs := regs, err := err, mem := mem } ∧
    t.reg 0xA00100 = s.reg 0xA00100

theorem BooksOnly.ingest {s t : State} (h : BooksOnly s t) : IngestOnly s t := by
  obtain ⟨r, e, m, ht, hr⟩ := h
  exact ⟨s.srcs, s.asm_, r, e, m, ht, hr⟩

theorem IngestOnly.trans {s t u : State} (h : IngestOnly s t) (k : IngestOnly t u) : IngestOnly s u := by
  obtain ⟨c, a, r, e, m, rfl, hr⟩ := h
  obtain ⟨c', a', r', e', m', rfl, hr'⟩ := k
  exact ⟨c', a', r', e', m', rfl, hr'.trans hr⟩

theorem IngestOnly.accepted {s t : State} (h : IngestOnly s t) : t.reg 0xA00100 = s.reg 0xA00100 := by
  obtain ⟨_, _, _, _, _, -, hr⟩ := h; exact hr

theorem ingestOnly_setRing (s : State) (c : Nat) (r : ChanRing) : IngestOnly s (s.setRing c r) :=
  ⟨s.srcs, _, s.regs, s.err, s.mem, rfl, rfl⟩
theorem ingestOnly_setSrc (s : State) (n : Nat) (v : SrcEntry) : IngestOnly s (s.setSrc n v) :=
  ⟨_, s.asm_, s.regs, s.err, s.mem, rfl, rfl⟩

theorem BooksOnly.ring_eq {s t : State} (h : BooksOnly s t) (c : Nat) : t.ring c = s.ring c := by
  obtain ⟨r, e, m, rfl, -⟩ := h; rfl

theorem booksOnly_foldl {α : Type} {f : State → α → State} (l : List α) (hf : ∀ t, ∀ x ∈ l, BooksOnly t (f t x)) (s : State) :
    BooksOnly s (l.foldl f s) := by
  induction l generalizing s with
  | nil => exact booksOnly_refl s
  | cons x l ih =>
    exact (hf s x List.mem_cons_self).trans (ih (fun t y hy => hf t y (List.mem_cons_of_mem x hy)) _)

theorem booksOnly_setMem (s : State) (f : MemSt → MemSt) : BooksOnly s (s.setMem f) := ⟨s.regs, s.err, _, rfl, rfl⟩
theorem booksOnly_setErr (s : State) (f : ErrSt → ErrSt) : BooksOnly s (s.setErr f) := ⟨s.regs, _, s.mem, rfl, rfl⟩

/-- A count under a reason of R83 other than acceptance. -/
theorem booksOnly_wdgCnt (s : State) {k : Nat} (hk : k ≠ 0) : BooksOnly s (s.wdgCnt k) :=
  ⟨_, s.err, s.mem, rfl, s.reg_cnt_ne 1 (by omega)⟩

theorem booksOnly_activate (s : State) (a : Nat) : BooksOnly s (s.activate a) := by
  unfold State.activate
  extract_lets _ _ _
  split
  extract_lets u
  have hu : BooksOnly s u := booksOnly_setMem s _
  split
  · exact hu.trans ⟨u.regs, u.err, _, rfl, rfl⟩
  · exact hu

theorem booksOnly_touch (s : State) (a n : Nat) : BooksOnly s (s.touch a n) := by
  unfold State.touch
  split
  · exact booksOnly_refl s
  · exact booksOnly_foldl _ (fun t _ _ => booksOnly_activate t _) s

theorem booksOnly_freshLines (s : State) (a n : Nat) : BooksOnly s (s.freshLines a n) :=
  (booksOnly_setErr s _).trans (booksOnly_setErr _ _)

/-- A block that, where it is blank, is so for a reason: code 0 is that of acceptance. -/
def BlkSt.reasoned (b : BlkSt) : Prop := ∀ n, b = .blank n → n ≠ 0

theorem booksOnly_countBlanks (s : State) {l : List BlkSt} (hl : ∀ b ∈ l, b.reasoned) : BooksOnly s (s.countBlanks l) := by
  refine booksOnly_foldl l (fun t b hb => ?_) s
  cases b with
  | blank n => exact booksOnly_wdgCnt t (hl _ hb n rfl)
  | awaited _ | stored _ _ _ => exact booksOnly_refl t

theorem openBlk_reasoned (s : State) (c ib : Nat) : (s.openBlk c ib).reasoned := by
  intro n hn
  unfold State.openBlk at hn
  split at hn
  · injection hn; omega
  · split at hn
    · injection hn; omega
    · exact absurd hn (by simp)

/-! ### Rings and slots -/

/-- A slot with its block for an input replaced. -/
def Slot.withBlock (x : Slot) (ib : Nat) (v : BlkSt) : Slot := { x with blocks := x.blocks.set (x.ins.findIdx (· == ib)) v }

theorem Slot.block_withBlock {x : Slot} (hl : x.ins.length = x.blocks.length) {i : Nat} (hi : x.ins.contains (i / 16) = true) (v : BlkSt) :
    (x.withBlock (i / 16) v).block i = v := by
  have hlt : x.ins.findIdx (· == i / 16) < x.ins.length :=
    List.findIdx_lt_length_of_exists ⟨i / 16, by simpa using hi, by simp⟩
  have hf : x.ins.findIdx? (· == i / 16) = some (x.ins.findIdx (· == i / 16)) :=
    List.findIdx?_eq_some_iff_findIdx_eq.2 ⟨hlt, rfl⟩
  simp only [Slot.block, Slot.withBlock, hf]
  simp [List.getD_eq_getElem?_getD, ← hl, hlt]

/-- An input whose block of the slot is not the blank of an input without one has a place there. -/
theorem Slot.contains_of_block {x : Slot} {i : Nat} (h : x.block i ≠ .blank 0) : x.ins.contains (i / 16) = true := by
  unfold Slot.block at h
  split at h
  case h_1 j hj =>
    obtain ⟨hlt, hat⟩ := List.findIdx?_eq_some_iff_findIdx_eq.1 hj
    obtain ⟨y, hy, he⟩ := List.findIdx_lt_length.1 (hat.symm ▸ hlt)
    exact List.contains_iff_mem.2 (beq_iff_eq.1 he ▸ hy)
  case h_2 => exact absurd rfl h

theorem slotAt_eq_of_slots {s t : State} {c : Nat} (h : (t.ring c).slots = (s.ring c).slots) (b : Nat) : t.slotAt c b = s.slotAt c b := by
  rw [State.slotAt, State.slotAt, h]

/-- A block replaced in a slot leaves the other slots of the channel. -/
theorem slotAt_setBlk (s : State) (c b ib : Nat) (v : BlkSt) (d : Nat) :
    (s.setBlk c b ib v).slotAt c d = (s.slotAt c d).map (fun x => if x.blk = b then x.withBlock ib v else x) := by
  unfold State.setBlk State.slotAt
  rw [State.setRing_ring, List.find?_map]
  have hp : ((fun x : Slot => x.blk == d) ∘ fun x => if x.blk = b then x.withBlock ib v else x) = fun x => x.blk == d := by
    funext x; simp only [Function.comp]; split <;> rfl
  exact congrArg (fun q => (List.find? q _).map _) hp

theorem slotAt_setBlk_same {s : State} {c b : Nat} {x : Slot} (h : s.slotAt c b = some x) (ib : Nat) (v : BlkSt) :
    (s.setBlk c b ib v).slotAt c b = some (x.withBlock ib v) := by
  have hb : x.blk = b := by simpa using List.find?_some h
  rw [slotAt_setBlk, h, Option.map_some, if_pos hb]

/-! ### The memory of a block -/

/-- Nothing is stored where the slot of the frame stands as it did. -/
theorem storeServes_of_slotAt {s t : State} {f : Frame} (h : t.slotAt f.chan (f.index / 128) = s.slotAt f.chan (f.index / 128)) :
    s.storeServes t f = true := by
  rw [State.storeServes, h]
  cases hx : s.slotAt f.chan (f.index / 128) with
  | none => rfl
  | some x => dsimp only; cases hk : x.block f.base <;> simp [hk]

section
variable {s t : State} {f : Frame} {x : Slot} (hx : t.slotAt f.chan (f.index / 128) = some x)
include hx

theorem storeServes_of_blank {r : Nat} (hk : x.block f.base = .blank r) : s.storeServes t f = true := by
  simp [State.storeServes, hx, hk]

/-- A block newly stored waits for the memory of its lines. -/
theorem storeServes_of_stored {crc : W32} {v : Nat} {pay : List Byte} (hk : x.block f.base = .stored crc v pay)
    (hs : (s.slotAt f.chan (f.index / 128)).map (fun y => y.block f.base) ≠ some (x.block f.base)) :
    s.storeServes t f = (x.ranges.getD (x.ins.findIdx (· == f.base / 16)) []).all (fun r => s.hbmServes r.1 r.2) := by
  rw [hk] at hs
  simp [State.storeServes, hx, hk, hs]

end

theorem setBlk_ring_ne (s : State) {c d : Nat} (h : d ≠ c) (b ib : Nat) (v : BlkSt) : (s.setBlk c b ib v).ring d = s.ring d :=
  s.setRing_ring_ne c _ h

theorem setBlk_ring_base (s : State) (c b ib : Nat) (v : BlkSt) (d : Nat) : ((s.setBlk c b ib v).ring d).base = (s.ring d).base := by
  by_cases h : d = c
  · rw [h, State.setBlk, State.setRing_ring]
  · rw [setBlk_ring_ne s h]

/-- Storing a block replaces it in its slot; beside that only the books change. -/
theorem storeBlk_books (s : State) (c b ib : Nat) (v : BlkSt) : BooksOnly (s.setBlk c b ib v) (s.storeBlk c b ib v) :=
  booksOnly_foldl _ (fun _ _ _ => (booksOnly_freshLines _ _ _).trans (booksOnly_touch _ _ _)) _

theorem slotAt_storeBlk (s : State) (c b ib : Nat) (v : BlkSt) (d : Nat) :
    (s.storeBlk c b ib v).slotAt c d = (s.slotAt c d).map (fun x => if x.blk = b then x.withBlock ib v else x) := by
  rw [← slotAt_setBlk, State.slotAt, State.slotAt, (storeBlk_books s c b ib v).ring_eq]

/-- The block of a frame stored in its slot and counted as accepted. -/
def State.accept (s : State) (f : Frame) : State :=
  (s.storeBlk f.chan (f.index / 128) (f.base / 16) (.stored f.crc f.valid f.payload)).wdgCnt 0

section
variable {s : State} {f : Frame}

theorem accept_ring_base (c : Nat) : ((s.accept f).ring c).base = (s.ring c).base :=
  (congrArg ChanRing.base ((storeBlk_books s _ _ _ _).ring_eq c)).trans (setBlk_ring_base _ _ _ _ _ _)

theorem accept_ring_ne {c : Nat} (hc : c ≠ f.chan) : (s.accept f).ring c = s.ring c :=
  ((storeBlk_books s _ _ _ _).ring_eq c).trans (setBlk_ring_ne _ hc _ _ _)

theorem ingestOnly_storeBlk (c b ib : Nat) (v : BlkSt) : IngestOnly s (s.storeBlk c b ib v) :=
  (ingestOnly_setRing _ _ _).trans (storeBlk_books s _ _ _ _).ingest

theorem accept_counted : ((s.accept f).reg 0xA00100).toNat = min ((s.reg 0xA00100).toNat + 1) 0xFFFFFFFF :=
  (State.reg_cnt _ _ 1).trans (by rw [(ingestOnly_storeBlk _ _ _ _).accepted])

/-- The frame's block fills its slot, and no slot beside it changes. -/
theorem slotAt_accept (d : Nat) : (s.accept f).slotAt f.chan d = (s.slotAt f.chan d).map fun x =>
    if x.blk = f.index / 128 then x.withBlock (f.base / 16) (.stored f.crc f.valid f.payload) else x :=
  slotAt_storeBlk s _ _ _ _ d

theorem slotAt_accept_exists {d : Nat} {y : Slot} (h : s.slotAt f.chan d = some y) :
    ∃ z, (s.accept f).slotAt f.chan d = some z ∧ z.released = y.released ∧ z.deadline = y.deadline := by
  rw [slotAt_accept, h]
  refine ⟨_, rfl, ?_, ?_⟩ <;> dsimp only <;> split <;> rfl

variable {x : Slot} (hx : s.slotAt f.chan (f.index / 128) = some x)
include hx

theorem slotAt_accept_same :
    (s.accept f).slotAt f.chan (f.index / 128) = some (x.withBlock (f.base / 16) (.stored f.crc f.valid f.payload)) := by
  have hb : x.blk = f.index / 128 := by simpa using List.find?_some hx
  rw [slotAt_accept, hx, Option.map_some, if_pos hb]

/-- A block that its slot awaits waits for the memory of its lines. -/
theorem storeServes_accept {u : State} {o : Nat} (hj : x.block f.base = .awaited o) (hl : x.ins.length = x.blocks.length)
    (hu : ∀ y, u.slotAt f.chan (f.index / 128) = some y → y = x) :
    u.storeServes (s.accept f) f = (x.ranges.getD (x.ins.findIdx (· == f.base / 16)) []).all (fun r => u.hbmServes r.1 r.2) := by
  have hy : (x.withBlock (f.base / 16) (.stored f.crc f.valid f.payload)).block f.base = .stored f.crc f.valid f.payload :=
    Slot.block_withBlock hl (Slot.contains_of_block (by simp [hj])) _
  refine (storeServes_of_stored (slotAt_accept_same hx) hy fun he => ?_).trans rfl
  obtain ⟨z, hz, hze⟩ := Option.map_eq_some_iff.1 he
  rw [hu z hz, hj, hy] at hze
  exact absurd hze (by simp)

end

/-! ### The source table -/

/-- From s to t only the source table and the rings change, and no channel's slots. -/
def TablesOnly (s t : State) : Prop :=
  ∃ srcs rings, t = { s with srcs := srcs, asm_ := rings } ∧ ∀ c, (t.ring c).slots = (s.ring c).slots

theorem srcLook_clean {s : State} (h : s.err.upsets = []) (n : Nat) : s.srcLook n = s := by
  simp [State.srcLook, State.scan, State.upsetsIn, h, sortBy]

theorem srcLookAll_clean {s : State} (h : s.err.upsets = []) : s.srcLookAll = s := by
  simp [State.srcLookAll, h]

/-- A block opens awaited from a PRESENT source that owns it and whose epoch blanks nothing. -/
theorem openBlk_awaited {s : State} {c ib n : Nat} (ho : s.owner c ib = some n) (he : s.epochBlank = false ∨ (s.src n).epochBad = false) :
    s.openBlk c ib = .awaited n := by
  rw [State.openBlk, ho]
  exact if_neg (by rcases he with h | h <;> simp [h])

theorem find?_sput {α : Type} {P : Nat × α → Bool} {l : List (Nat × α)} {n : Nat} {v w : α} (hl : l.find? P = some (n, w))
    (hv : P (n, v) = true) : (sput l n v).find? P = some (n, v) := by
  induction l with
  | nil => simp at hl
  | cons e l ih =>
    obtain ⟨j, x⟩ := e
    simp only [sput]
    split
    · simp [hv]
    · split
      · simp [hv]
      · next hne =>
        simp only [List.find?_cons] at hl ⊢
        split at hl
        · injection hl with hl; injection hl with hj; exact absurd hj.symm hne
        · exact ih hl

/-- The source whose ranges cover a block still owns it after a frame is attributed to it. -/
theorem owner_attribute {s : State} {c ib n : Nat} (ho : s.owner c ib = some n) (hs : (s.src n).state = 1)
    (hi : (s.src n).inFirst ≤ 16 * ib ∧ 16 * ib + 16 ≤ (s.src n).inFirst + (s.src n).inCount)
    (hc : inRange c (s.src n).chFirst (s.src n).chCount = true) (ns : W32) : (s.attribute_ n ns).owner c ib = some n := by
  obtain ⟨⟨m, w⟩, hfind, hm⟩ := Option.map_eq_some_iff.1 ho
  obtain rfl : m = n := hm
  have hne : ({ s.src m with lastSeen := ns, lastTick := s.time.ticks } : SrcEntry) ≠ SrcEntry.empty := fun e => by
    have : (s.src m).state = 0 := congrArg SrcEntry.state e
    omega
  have hput : (s.attribute_ m ns).srcs = sput s.srcs m { s.src m with lastSeen := ns, lastTick := s.time.ticks } := if_neg hne
  rw [State.owner, hput, find?_sput hfind (by simp [hs, hi, hc])]
  rfl

/-! ### The slot of a frame -/

/-- The state with the ring of channel c begun, by a frame for block b of the placement p. -/
def State.begun (s : State) (p : Placement) (c b : Nat) : State :=
  let r := s.ringFor p c
  s.setRing c ⟨some (r.base.getD b), r.slots, r.c3, r.srate, r.k, r.rel⟩

theorem ringFor_base (s : State) (p : Placement) (c : Nat) : (s.ringFor p c).base = (s.ring c).base := by
  unfold State.ringFor; dsimp only; split
  · split <;> rfl
  · rfl

theorem ringFor_slots (s : State) (p : Placement) (c : Nat) : (s.ringFor p c).slots = (s.ring c).slots := by
  unfold State.ringFor; dsimp only; split
  · split <;> rfl
  · rfl

theorem ringFor_k (s : State) {p : Placement} {c : Nat} {c3 : Bool} {sr : Nat} (hm : p.plan.mode c = some (c3, sr)) :
    (s.ringFor p c).k = ringK p.skewUs sr := by
  unfold State.ringFor; rw [hm]; dsimp only; split <;> rfl

theorem begun_base (s : State) (p : Placement) (c b : Nat) : ((s.begun p c b).ring c).base = some ((s.ring c).base.getD b) := by
  simp [State.begun, ringFor_base]

theorem begun_slots (s : State) (p : Placement) (c b d : Nat) : ((s.begun p c b).ring d).slots = (s.ring d).slots := by
  by_cases h : d = c
  · subst h; simp [State.begun, ringFor_slots]
  · rw [State.begun, State.setRing_ring_ne _ _ _ h]

/-- The slot that opens for block d of channel c. -/
def State.openedSlot (s : State) (p : Placement) (c d : Nat) : Slot :=
  ⟨d, p.plan.inBlocks c, (p.plan.inBlocks c).map (s.openBlk c), (s.ring c).c3, s.time.ticks + tUs p.skewUs, false, [],
    p.slotRanges c d, false⟩

/-- The slots that open up to block b, from block lo on. -/
def State.openedSlots (s : State) (p : Placement) (c lo b : Nat) : List Slot :=
  (List.range (b + 1 - lo)).map (fun i => s.openedSlot p c (lo + i))

theorem find?_openedSlots (s : State) (p : Placement) (c : Nat) {lo b d : Nat} (hd : lo ≤ d) (hdb : d ≤ b) :
    (s.openedSlots p c lo b).find? (fun x => x.blk == d) = some (s.openedSlot p c d) := by
  have hrange : (List.range (b + 1 - lo)).find? ((fun x => x.blk == d) ∘ fun i => s.openedSlot p c (lo + i)) = some (d - lo) := by
    refine List.find?_range_eq_some.2 ⟨?_, List.mem_range.2 (by omega), fun j hj => ?_⟩ <;> simp [State.openedSlot] <;> omega
  rw [State.openedSlots, List.find?_map, hrange, Option.map_some, show lo + (d - lo) = d by omega]

theorem openedSlot_block (s : State) {p : Placement} {c i : Nat} (d : Nat) (h : i / 16 ∈ p.plan.inBlocks c) :
    (s.openedSlot p c d).block i = s.openBlk c (i / 16) := by
  have hlt : (p.plan.inBlocks c).findIdx (· == i / 16) < (p.plan.inBlocks c).length :=
    List.findIdx_lt_length_of_exists ⟨i / 16, h, by simp⟩
  have hat : (p.plan.inBlocks c)[(p.plan.inBlocks c).findIdx (· == i / 16)] = i / 16 := by
    simpa using List.findIdx_getElem (w := hlt)
  simp only [Slot.block, State.openedSlot, List.findIdx?_eq_some_iff_findIdx_eq.2 ⟨hlt, rfl⟩]
  simp [List.getD_eq_getElem?_getD, hlt, hat]

section
variable {s : State} {p : Placement} {c b base : Nat} (hu : s.err.upsets = []) (hb : (s.ring c).base = some base)
include hu hb

/-- The slots up to block b opened stand behind those that were open. -/
theorem openTo_eq : ∃ w, BooksOnly s w ∧ s.openTo c b p = w.setRing c { s.ring c with
    slots := (s.ring c).slots ++ s.openedSlots p c (base + (s.ring c).slots.length) b } := by
  refine ⟨(s.openedSlots p c (base + (s.ring c).slots.length) b).foldl (fun t x => t.countBlanks x.blocks) s,
    booksOnly_foldl _ (fun t x hx => booksOnly_countBlanks t fun k hk => ?_) s, ?_⟩
  · obtain ⟨i, -, rfl⟩ := List.mem_map.1 hx
    obtain ⟨ib, -, rfl⟩ := List.mem_map.1 hk
    exact openBlk_reasoned s c ib
  · rw [State.openTo, srcLookAll_clean hu]
    simp only [hb]
    rfl

theorem ingestOnly_openTo : IngestOnly s (s.openTo c b p) := by
  obtain ⟨w, hbooks, hw⟩ := openTo_eq (p := p) (b := b) hu hb
  exact hw ▸ hbooks.ingest.trans (ingestOnly_setRing _ _ _)

theorem openTo_ring_base : ((s.openTo c b p).ring c).base = some base := by
  obtain ⟨w, -, hw⟩ := openTo_eq (p := p) (b := b) hu hb
  rw [hw, State.setRing_ring]; exact hb

theorem openTo_ring_ne {d : Nat} (hd : d ≠ c) : (s.openTo c b p).ring d = s.ring d := by
  obtain ⟨w, hbooks, hw⟩ := openTo_eq (p := p) (b := b) hu hb
  rw [hw, State.setRing_ring_ne _ _ _ hd, hbooks.ring_eq]

theorem slotAt_openTo (hold : ∀ y ∈ (s.ring c).slots, y.blk < base + (s.ring c).slots.length) {d : Nat}
    (hd : base + (s.ring c).slots.length ≤ d) (hdb : d ≤ b) :
    (s.openTo c b p).slotAt c d = some (s.openedSlot p c d) := by
  obtain ⟨w, -, hw⟩ := openTo_eq (p := p) (b := b) hu hb
  have hnone : (s.ring c).slots.find? (fun y => y.blk == d) = none :=
    List.find?_eq_none.2 fun y hy => by have := hold y hy; simp; omega
  rw [hw, State.slotAt, State.setRing_ring, List.find?_append, hnone, Option.none_or, find?_openedSlots s p c hd hdb]

end

/-! ### What a frame's block does (R80, R81) -/

/-- What becomes of a second or a first copy of a block, by what stands of it in its open slot. -/
def State.meetBlk (s : State) (f : Frame) (c b ib : Nat) (placed : Bool) : BlkSt → State
  | .awaited _ => (s.storeBlk c b ib (.stored f.crc f.valid f.payload)).wdgCnt 0
  | .stored crc _ _ => if crc = f.crc then s.wdgCnt 13 else ((s.setBlk c b ib (.blank 35)).wdgCnt 14).wdgCnt 35
  | .blank n => if n = 35 then s.wdgCnt 13 else if placed then s.wdgCnt 10 else s.wdgCnt 7

section
variable {s : State} {p : Placement} {f : Frame} {c b ib : Nat}

section
variable {x : Slot} (hx : s.slotAt c b = some x)
include hx

/-- A block for a released slot, or blanked under R77 in an open one, comes late. -/
theorem dataStore_late (h : x.released = true ∨ x.ins.contains ib = true ∧ (x.block (16 * ib)).blankR77 = true) :
    s.dataStore p f c b ib = (s.begun p c b).wdgCnt 10 := by
  have hx' := (slotAt_eq_of_slots (begun_slots s p c b c) b).trans hx
  rw [State.dataStore]
  dsimp only
  rw [← State.begun, hx']
  exact if_pos (Or.inr (by simpa using h))

/-- What a frame does to an open slot within K blocks of the base is what it does to its block there. -/
theorem dataStore_open {base : Nat} (hbase : (s.ring c).base = some base) {c3 : Bool} {sr : Nat} (hm : p.plan.mode c = some (c3, sr))
    (hle : base ≤ b) (hk : b < base + ringK p.skewUs sr) (hr : x.released = false) (hj : (x.block (16 * ib)).blankR77 = false) :
    s.dataStore p f c b ib = (s.begun p c b).meetBlk f c b ib (x.ins.contains ib) (x.block (16 * ib)) := by
  have hx' := (slotAt_eq_of_slots (begun_slots s p c b c) b).trans hx
  rw [State.dataStore]
  dsimp only
  rw [← State.begun, hx']
  refine (if_neg ?_).trans ((if_neg ?_).trans ?_)
  · simp [ringFor_base, hbase, hr, hj, hle]
  · simp [ringFor_base, hbase, ringFor_k s hm, hk]
  · cases x.block (16 * ib) <;> rfl

end

theorem dataStore_below {base : Nat} (hbase : (s.ring c).base = some base) (h : b < base) :
    s.dataStore p f c b ib = (s.begun p c b).wdgCnt 10 := by
  have hlt : b < (s.ringFor p c).base.getD b := by rwa [ringFor_base, hbase]
  rw [State.dataStore]
  dsimp only
  split
  · exact if_pos (Or.inl hlt)
  · exact if_pos hlt

variable {c3 : Bool} {sr : Nat} (hm : p.plan.mode c = some (c3, sr)) (hx : s.slotAt c b = none)
include hm hx

/-- A block too far beyond the base for a slot is dropped: FULL where the oldest slot is released, else AHEAD. -/
theorem dataStore_far {base : Nat} (hbase : (s.ring c).base = some base) (h : base + ringK p.skewUs sr ≤ b) :
    s.dataStore p f c b ib = (s.begun p c b).wdgCnt (if (s.ring c).slots.head?.elim false (·.released) then 12 else 11) := by
  have hx' := (slotAt_eq_of_slots (begun_slots s p c b c) b).trans hx
  rw [State.dataStore]
  dsimp only
  rw [← State.begun, hx']
  refine (if_neg ?_).trans ((if_pos ?_).trans ?_)
  · simp [ringFor_base, hbase]; omega
  · simpa [ringFor_base, hbase, ringFor_k s hm] using h
  · rw [ringFor_slots]; split <;> rfl

/-- A block within K blocks of the base whose slot is not open opens it, and is stored where it is awaited there. -/
theorem dataStore_opens (hle : (s.ring c).base.getD b ≤ b) (hk : b < (s.ring c).base.getD b + ringK p.skewUs sr) {x : Slot}
    (ho : ((s.begun p c b).openTo c b p).slotAt c b = some x) {o : Nat} (hj : x.block (16 * ib) = .awaited o) :
    s.dataStore p f c b ib = (((s.begun p c b).openTo c b p).storeBlk c b ib (.stored f.crc f.valid f.payload)).wdgCnt 0 := by
  have hx' := (slotAt_eq_of_slots (begun_slots s p c b c) b).trans hx
  rw [State.dataStore]
  dsimp only
  rw [← State.begun, hx']
  refine (if_neg ?_).trans ((if_neg ?_).trans ?_)
  · simpa [ringFor_base] using hle
  · simpa [ringFor_base, ringFor_k s hm] using hk
  · rw [ho, Option.map_some, hj]

end

/-! ### The checks of R80 -/

/-- The block of a frame lies within the ranges of an entry. -/
def Frame.within (f : Frame) (v : SrcEntry) : Prop :=
  v.inFirst ≤ f.base ∧ f.base + 16 ≤ v.inFirst + v.inCount ∧ v.chFirst ≤ f.chan ∧ f.chan < v.chFirst + v.chCount

theorem Frame.within_iff (f : Frame) (v : SrcEntry) : (decide (v.inFirst ≤ f.base) && decide (f.base + 16 ≤ v.inFirst + v.inCount)
    && inRange f.chan v.chFirst v.chCount) = true ↔ f.within v := by
  simp [Frame.within, inRange, and_assoc]

theorem within_attribute (s : State) (f : Frame) (ns : W32) :
    f.within ((s.attribute_ f.src ns).src f.src) ↔ f.within (s.src f.src) := by
  rw [State.attribute_, State.setSrc_src]; rfl

/-- What the placement in effect says of a frame (checks 11 to 13), and the frame's own part where it passes. -/
def State.planIn (s : State) (f : Frame) (epochBad : Bool) (p : Placement) : State :=
  if f.base / 16 ∉ p.plan.inBlocks f.chan then s.wdgCnt 7
  else if f.len ≠ (if ((p.plan.mode f.chan).map (·.1)).getD false then 1536 else 3072) then s.wdgCnt 8
  else if s.epochBlank = true ∧ epochBad = true then s.wdgCnt 9
  else s.dataStore p f f.chan (f.index / 128) (f.base / 16)

section
variable {s : State} {f : Frame} (hu : s.err.upsets = [])
include hu

/-- A frame of a PRESENT source passes the checks of its source. -/
theorem fromSource_present (h : (s.src f.src).state = 1) (k : State → State) :
    s.fromSource f k = k (s.attribute_ f.src s.ns) := by
  simp [State.fromSource, srcLook_clean hu, h]

theorem dataIn_departed (h : (s.src f.src).state = 2) : s.dataIn f = s.wdgCnt 4 := by
  simp only [State.dataIn, State.fromSource, srcLook_clean hu, h, if_true]

theorem dataIn_empty (h : (s.src f.src).state = 0) : s.dataIn f = (s.attribute_ f.src s.ns).wdgCnt 3 := by
  simp [State.dataIn, State.fromSource, srcLook_clean hu, h]

variable (h : (s.src f.src).state = 1)
include h

theorem dataIn_misaligned (hf : f.base % 16 ≠ 0 ∨ f.index % 128 ≠ 0) :
    s.dataIn f = (s.attribute_ f.src s.ns).wdgCnt 5 := by
  rw [State.dataIn, fromSource_present hu h]
  exact if_pos hf

variable (hb : f.base % 16 = 0) (hi : f.index % 128 = 0)
include hb hi

theorem dataIn_outside (hr : ¬ f.within (s.src f.src)) : s.dataIn f = (s.attribute_ f.src s.ns).wdgCnt 6 := by
  rw [State.dataIn, fromSource_present hu h]
  refine (if_neg (by simp [hb, hi])).trans (if_pos ?_)
  rw [Bool.not_eq_true', Bool.eq_false_iff]
  exact fun e => hr ((within_attribute s f s.ns).1 ((f.within_iff _).1 e))

variable (hr : f.within (s.src f.src))
include hr

/-- A frame aligned and within its source's ranges is judged by the placement. -/
theorem dataIn_within : s.dataIn f =
    s.plc.cur.elim ((s.attribute_ f.src s.ns).wdgCnt 7) ((s.attribute_ f.src s.ns).planIn f (s.src f.src).epochBad) := by
  rw [State.dataIn, fromSource_present hu h]
  refine (if_neg (by simp [hb, hi])).trans ((if_neg ?_).trans ?_)
  · rw [(f.within_iff _).2 ((within_attribute s f s.ns).2 hr)]; simp
  · have hcur : (s.attribute_ f.src s.ns).plc.cur = s.plc.cur := rfl
    rw [hcur]
    cases s.plc.cur with
    | none => rfl
    | some p => simp [State.planIn, State.attribute_]

end

/-! ### The command -/

/-- The state with the frame at the head of a lane's FIFO taken, and the rest left there. -/
def State.popFrame (s : State) (n : Nat) (rest : List Frame) : State :=
  s.setLane (.rx n) { s.lane (.rx n) with fifo := rest }

/-- From s to t the frame has been taken, and no command waiting, fuse or byte of memory changes. -/
def FrameTaken (s t : State) (n : Nat) (rest : List Frame) : Prop := Apart s t ∧ MemSame s t ∧ (t.lane (.rx n)).fifo = rest

/-- The frame is dropped under reason k: taken, counted under it alone, and no slot changes. -/
def FrameDropped (s : State) (n : Nat) (rest : List Frame) (k : Nat) : Prop :=
  Completes (.dataFrame n) s fun t => FrameTaken s t n rest ∧ RegsBut [0xA00100 + 4 * k] s t ∧
    Counted s t (0xA00100 + 4 * k) 1 ∧ ∀ c, (t.ring c).slots = (s.ring c).slots

/-- The frame is stored: taken, its block in its slot, counted as accepted; a slot opened for it has its deadline. -/
def FrameStored (s : State) (n : Nat) (f : Frame) (rest : List Frame) (skew : Nat) : Prop :=
  Completes (.dataFrame n) s fun t => FrameTaken s t n rest ∧ Counted s t 0xA00100 1 ∧
    (∃ x, t.slotAt f.chan (f.index / 128) = some x ∧ x.released = false ∧ x.block f.base = .stored f.crc f.valid f.payload ∧
      (s.slotAt f.chan (f.index / 128) = none → x.deadline = s.time.ticks + 625 * skew)) ∧
    (t.ring f.chan).base = some ((s.ring f.chan).base.getD (f.index / 128)) ∧ ∀ c, c ≠ f.chan → t.ring c = s.ring c

theorem FrameTaken.of_ingestOnly {s t : State} {n : Nat} {rest : List Frame} (h : IngestOnly (s.popFrame n rest) t) :
    FrameTaken s t n rest := by
  obtain ⟨srcs, rings, regs, err, mem, rfl, -⟩ := h
  exact ⟨⟨rfl, rfl⟩, fun _ => ⟨rfl, rfl, rfl⟩, congrArg Lane.fifo (s.setLane_lane _ _)⟩

theorem FrameTaken.wdgCnt {s t : State} {n : Nat} {rest : List Frame} (h : FrameTaken s t n rest) (k : Nat) :
    FrameTaken s (t.wdgCnt k) n rest := h

section
variable {s : State} {n : Nat} {f : Frame} {rest : List Frame} (hup : s.up = true) (hn : n < s.nRx)
  (hfifo : (s.lane (.rx n)).fifo = f :: rest) (hty : f.ty = 1)
include hup hn hfifo hty

/-- With wedging off the frame is discarded. -/
theorem exec_dataFrame_off (hoff : s.rb 0xA00000 0 = false) : exec (.dataFrame n) s = .next (s.popFrame n rest) := by
  have e : exec (.dataFrame n) s = execDataFrame n s := rfl
  have hw : s.wdgOn = false := hoff
  rw [e, execDataFrame, gate_of _ _ _ (by simp [hup, hn]), State.takeFrame, hfifo]
  dsimp only
  rw [if_neg (by simp [hty]), ← State.popFrame, hw]
  rfl

variable (hon : s.rb 0xA00000 0 = true)
include hon

/-- With wedging on the frame is judged, or waits for the memory of its block. -/
theorem exec_dataFrame_on : exec (.dataFrame n) s = .next (if (s.popFrame n rest).storeServes ((s.popFrame n rest).dataIn f) f
    then (s.popFrame n rest).dataIn f else s) := by
  have e : exec (.dataFrame n) s = execDataFrame n s := rfl
  have hw : s.wdgOn = true := hon
  rw [e, execDataFrame, gate_of _ _ _ (by simp [hup, hn]), State.takeFrame, hfifo]
  dsimp only
  rw [if_neg (by simp [hty]), ← State.popFrame, hw]
  rfl

theorem completes_dataFrame {t : State} (hd : (s.popFrame n rest).dataIn f = t) (hs : (s.popFrame n rest).storeServes t f = true)
    {P : State → Prop} (h : P t) : Completes (.dataFrame n) s P :=
  ⟨t, by rw [exec_dataFrame_on hup hn hfifo hty hon, hd, if_pos hs], h⟩

/-- A frame counted under a reason, with the slots as they were, is dropped. -/
theorem frameDropped {w : State} {k : Nat} (hd : (s.popFrame n rest).dataIn f = w.wdgCnt k) (hw : TablesOnly (s.popFrame n rest) w) :
    FrameDropped s n rest k := by
  obtain ⟨srcs, rings, hw, hslots⟩ := hw
  refine completes_dataFrame hup hn hfifo hty hon hd (storeServes_of_slotAt (slotAt_eq_of_slots (hslots f.chan) _)) ?_
  subst hw
  exact ⟨⟨⟨rfl, rfl⟩, fun _ => ⟨rfl, rfl, rfl⟩, congrArg Lane.fifo (s.setLane_lane _ _)⟩,
    fun o ho => State.reg_cnt_ne _ 1 (by simpa using ho), State.reg_cnt _ _ 1, hslots⟩

/-- Where the block of the frame meets an awaited one in a state that wedging has come to, it is stored and counted as accepted. -/
theorem frameStored {w : State} {x : Slot} {o skew : Nat} (hw : IngestOnly (s.popFrame n rest) w)
    (hd : (s.popFrame n rest).dataIn f = w.accept f) (hx : w.slotAt f.chan (f.index / 128) = some x) (hr : x.released = false)
    (hj : x.block f.base = .awaited o) (hl : x.ins.length = x.blocks.length)
    (hs : ∀ y, s.slotAt f.chan (f.index / 128) = some y → y = x)
    (hdl : s.slotAt f.chan (f.index / 128) = none → x.deadline = s.time.ticks + 625 * skew)
    (hbase : (w.ring f.chan).base = some ((s.ring f.chan).base.getD (f.index / 128))) (hoth : ∀ c, c ≠ f.chan → w.ring c = s.ring c)
    (hserve : (x.ranges.getD (x.ins.findIdx (· == f.base / 16)) []).all (fun r => s.hbmServes r.1 r.2) = true) :
    FrameStored s n f rest skew := by
  refine completes_dataFrame hup hn hfifo hty hon hd ((storeServes_accept hx hj hl hs).trans hserve)
    ⟨(FrameTaken.of_ingestOnly (hw.trans (ingestOnly_storeBlk _ _ _ _))).wdgCnt 0, ?_,
      ⟨_, slotAt_accept_same hx, hr, Slot.block_withBlock hl (Slot.contains_of_block (by simp [hj])) _, hdl⟩,
      (accept_ring_base _).trans hbase, fun c hc => (accept_ring_ne hc).trans (hoth c hc)⟩
  have hcnt : w.reg 0xA00100 = s.reg 0xA00100 := hw.accepted
  rw [Counted, accept_counted, hcnt]

end

/-- The state in which a frame that is taken is judged: it is attributed to its source. -/
def State.attributed (s : State) (n : Nat) (f : Frame) (rest : List Frame) : State :=
  (s.popFrame n rest).attribute_ f.src s.ns

theorem tablesOnly_attributed (s : State) (n : Nat) (f : Frame) (rest : List Frame) :
    TablesOnly (s.popFrame n rest) (s.attributed n f rest) := ⟨_, s.asm_, rfl, fun _ => rfl⟩

/-- The state in which the slot of a frame is sought: the ring of its channel has begun. -/
def State.atRing (s : State) (n : Nat) (f : Frame) (rest : List Frame) (p : Placement) : State :=
  (s.attributed n f rest).begun p f.chan (f.index / 128)

section
variable (s : State) (n : Nat) (f : Frame) (rest : List Frame) (p : Placement)

theorem atRing_slots (c : Nat) : ((s.atRing n f rest p).ring c).slots = (s.ring c).slots := begun_slots (s.attributed n f rest) p _ _ c

theorem slotAt_atRing (c d : Nat) : (s.atRing n f rest p).slotAt c d = s.slotAt c d :=
  slotAt_eq_of_slots (atRing_slots s n f rest p c) d

theorem atRing_base : ((s.atRing n f rest p).ring f.chan).base = some ((s.ring f.chan).base.getD (f.index / 128)) :=
  begun_base (s.attributed n f rest) p _ _

theorem atRing_ring_ne {c : Nat} (hc : c ≠ f.chan) : (s.atRing n f rest p).ring c = s.ring c := State.setRing_ring_ne _ _ _ hc

theorem atRing_regs : (s.atRing n f rest p).regs = s.regs := by
  simp [State.atRing, State.begun, State.attributed, State.attribute_, State.popFrame]

theorem tablesOnly_atRing : TablesOnly (s.popFrame n rest) (s.atRing n f rest p) := ⟨_, _, rfl, atRing_slots s n f rest p⟩

theorem ingestOnly_atRing : IngestOnly (s.popFrame n rest) (s.atRing n f rest p) :=
  (ingestOnly_setSrc _ _ _).trans (ingestOnly_setRing _ _ _)

end

section
variable {s : State} {n : Nat} {f : Frame} {rest : List Frame} (hups : s.err.upsets = []) (hst : (s.src f.src).state = 1)
  (hb : f.base % 16 = 0) (hi : f.index % 128 = 0) (hr : f.within (s.src f.src))
include hups hst hb hi hr

theorem dataIn_popFrame_unplaced (h : ∀ p, s.plc.cur = some p → f.base / 16 ∉ p.plan.inBlocks f.chan) :
    (s.popFrame n rest).dataIn f = (s.attributed n f rest).wdgCnt 7 := by
  have hplc : (s.popFrame n rest).plc.cur = s.plc.cur := rfl
  refine (dataIn_within (s := s.popFrame n rest) hups hst hb hi hr).trans ?_
  rw [hplc]
  cases hp : s.plc.cur with
  | none => rfl
  | some p => exact if_pos (h p hp)

variable {p : Placement} {c3 : Bool} {sr : Nat} (hp : s.plc.cur = some p) (hin : f.base / 16 ∈ p.plan.inBlocks f.chan)
  (hm : p.plan.mode f.chan = some (c3, sr))
include hp hin hm

/-- A frame of placed inputs is judged by its length, then by its source's epoch, then by its slot. -/
theorem dataIn_popFrame_placed : (s.popFrame n rest).dataIn f =
    if f.len ≠ (if c3 then 1536 else 3072) then (s.attributed n f rest).wdgCnt 8
    else if s.epochBlank = true ∧ (s.src f.src).epochBad = true then (s.attributed n f rest).wdgCnt 9
    else (s.attributed n f rest).dataStore p f f.chan (f.index / 128) (f.base / 16) := by
  have hplc : (s.popFrame n rest).plc.cur = some p := hp
  refine (dataIn_within (s := s.popFrame n rest) hups hst hb hi hr).trans ?_
  rw [hplc, Option.elim_some, State.planIn, if_neg (by simpa using hin), hm]
  rfl

end

/-! ### Frames of placed inputs, of the right length and from a good source -/

theorem slotAt_none {s : State} {c base d : Nat} (hold : ∀ y ∈ (s.ring c).slots, y.blk < base + (s.ring c).slots.length)
    (hd : base + (s.ring c).slots.length ≤ d) : s.slotAt c d = none :=
  List.find?_eq_none.2 fun y hy => by have := hold y hy; simp; omega

section
variable {s : State} {n : Nat} {f : Frame} {rest : List Frame} {p : Placement} (hb : f.base % 16 = 0) {c3 : Bool} {sr : Nat}
  (hm : p.plan.mode f.chan = some (c3, sr))
include hb hm

/-- A frame for an open slot does to its block there what `meetBlk` says. -/
theorem attributed_dataStore_open {x : Slot} {base : Nat} (hbase : (s.ring f.chan).base = some base) (hle : base ≤ f.index / 128)
    (hk : f.index / 128 < base + ringK p.skewUs sr) (hx : s.slotAt f.chan (f.index / 128) = some x) (hr : x.released = false)
    {v : BlkSt} (hv : x.block f.base = v) (hj : v.blankR77 = false) :
    (s.attributed n f rest).dataStore p f f.chan (f.index / 128) (f.base / 16) =
      (s.atRing n f rest p).meetBlk f f.chan (f.index / 128) (f.base / 16)
        (x.ins.contains (f.base / 16)) v := by
  have h16 : x.block (16 * (f.base / 16)) = v := by rw [show 16 * (f.base / 16) = f.base by omega, hv]
  rw [← h16] at hj ⊢
  exact dataStore_open (s := s.attributed n f rest) hx hbase hm hle hk hr hj

section
variable (hups : s.err.upsets = []) {base : Nat} (hbase : (s.ring f.chan).base.getD (f.index / 128) = base)
  (hold : ∀ y ∈ (s.ring f.chan).slots, y.blk < base + (s.ring f.chan).slots.length)
include hups hbase hold

omit hb hm in
/-- Every slot up to the frame's own is opened. -/
theorem slotAt_atRing_openTo {d : Nat} (hd : base + (s.ring f.chan).slots.length ≤ d) (hdb : d ≤ f.index / 128) :
    ((s.atRing n f rest p).openTo f.chan (f.index / 128) p).slotAt f.chan d = some ((s.atRing n f rest p).openedSlot p f.chan d) := by
  subst hbase
  exact slotAt_openTo (s := s.atRing n f rest p) hups (atRing_base s n f rest p) (by rwa [atRing_slots]) (by rwa [atRing_slots]) hdb

variable (hst : (s.src f.src).state = 1) (hw : f.within (s.src f.src)) (hin : f.base / 16 ∈ p.plan.inBlocks f.chan)
  (he : s.epochBlank = false ∨ (s.src f.src).epochBad = false) (ho : s.owner f.chan (f.base / 16) = some f.src)
include hst hw hin he ho

omit hm hups hbase hold in
/-- The slot that the frame opens awaits its block. -/
theorem openedSlot_awaits : ((s.atRing n f rest p).openedSlot p f.chan (f.index / 128)).block f.base = .awaited f.src := by
  have h16 : 16 * (f.base / 16) = f.base := by omega
  obtain ⟨hi, hi', hc, hc'⟩ := hw
  have hown : (s.attributed n f rest).owner f.chan (f.base / 16) = some f.src :=
    owner_attribute (s := s.popFrame n rest) ho hst (by rw [h16]; exact ⟨hi, hi'⟩) (by simp [inRange]; exact ⟨hc, hc'⟩) _
  have hbad : ((s.attributed n f rest).src f.src).epochBad = (s.src f.src).epochBad := by
    rw [State.attributed, State.attribute_, State.setSrc_src]; rfl
  rw [openedSlot_block _ _ hin]
  exact openBlk_awaited hown (he.imp id hbad.trans)

/-- A frame for a slot within K blocks of the base that is not open opens it and fills its block. -/
theorem attributed_dataStore_opens (hle : base + (s.ring f.chan).slots.length ≤ f.index / 128)
    (hk : f.index / 128 < base + ringK p.skewUs sr) : (s.attributed n f rest).dataStore p f f.chan (f.index / 128) (f.base / 16) =
      ((s.atRing n f rest p).openTo f.chan (f.index / 128) p).accept f := by
  have hopen := slotAt_atRing_openTo (n := n) (rest := rest) (p := p) hups hbase hold hle le_rfl
  have haw := openedSlot_awaits (n := n) (rest := rest) hb hst hw hin he ho
  have h16 : 16 * (f.base / 16) = f.base := by omega
  subst hbase
  exact dataStore_opens (s := s.attributed n f rest) hm (slotAt_none hold hle) (Nat.le_trans (Nat.le_add_right _ _) hle) hk hopen
    (by rw [h16]; exact haw)

end
end

section
variable {s : State} {n : Nat} {f : Frame} {rest : List Frame} (hup : s.up = true) (hn : n < s.nRx)
  (hfifo : (s.lane (.rx n)).fifo = f :: rest) (hty : f.ty = 1) (hon : s.rb 0xA00000 0 = true) {p : Placement}
  (hd : (s.popFrame n rest).dataIn f = (s.attributed n f rest).dataStore p f f.chan (f.index / 128) (f.base / 16))
include hup hn hfifo hty hon hd

/-- A frame that its slot only counts is dropped. -/
theorem frame_dropped {k : Nat} (h : (s.attributed n f rest).dataStore p f f.chan (f.index / 128) (f.base / 16)
    = (s.atRing n f rest p).wdgCnt k) : FrameDropped s n rest k :=
  frameDropped hup hn hfifo hty hon (hd.trans h) (tablesOnly_atRing s n f rest p)

/-- A frame that opens its slot is stored, and every slot up to its own has one deadline. -/
theorem frame_opens (hups : s.err.upsets = []) {base : Nat} (hbase : (s.ring f.chan).base.getD (f.index / 128) = base)
    (hold : ∀ y ∈ (s.ring f.chan).slots, y.blk < base + (s.ring f.chan).slots.length)
    (hle : base + (s.ring f.chan).slots.length ≤ f.index / 128) (hserve : ∀ a m, s.hbmServes a m = true)
    (hawaits : ((s.atRing n f rest p).openedSlot p f.chan (f.index / 128)).block f.base = .awaited f.src)
    (hst : (s.attributed n f rest).dataStore p f f.chan (f.index / 128) (f.base / 16) =
      ((s.atRing n f rest p).openTo f.chan (f.index / 128) p).accept f) :
    FrameStored s n f rest p.skewUs ∧ Completes (.dataFrame n) s (fun t => ∀ d, base + (s.ring f.chan).slots.length ≤ d →
      d ≤ f.index / 128 → ∃ y, t.slotAt f.chan d = some y ∧ y.released = false ∧ y.deadline = s.time.ticks + 625 * p.skewUs) := by
  have hslot := fun d => slotAt_atRing_openTo (n := n) (rest := rest) (p := p) (d := d) hups hbase hold
  have hnone := slotAt_none hold hle
  have hlen : ((s.atRing n f rest p).openedSlot p f.chan (f.index / 128)).ins.length =
      ((s.atRing n f rest p).openedSlot p f.chan (f.index / 128)).blocks.length := (List.length_map _).symm
  refine ⟨frameStored hup hn hfifo hty hon ((ingestOnly_atRing s n f rest p).trans
    (ingestOnly_openTo (s := s.atRing n f rest p) hups (atRing_base s n f rest p))) (hd.trans hst) (hslot _ hle le_rfl) rfl hawaits hlen
    (fun y hy => absurd (hnone.symm.trans hy) (by simp)) (fun _ => rfl)
    (openTo_ring_base (s := s.atRing n f rest p) hups (atRing_base s n f rest p))
    (fun c hc => (openTo_ring_ne (s := s.atRing n f rest p) hups (atRing_base s n f rest p) hc).trans (atRing_ring_ne s n f rest p hc))
    (List.all_eq_true.2 fun r _ => hserve r.1 r.2), ?_⟩
  refine completes_dataFrame hup hn hfifo hty hon (hd.trans hst) ?_ fun d hd hdb => ?_
  · rw [storeServes_accept (u := s.popFrame n rest) (hslot _ hle le_rfl) hawaits hlen (fun y hy => absurd (hnone.symm.trans hy) (by simp))]
    exact List.all_eq_true.2 fun r _ => hserve r.1 r.2
  · obtain ⟨y, hy, hr, hdl⟩ := slotAt_accept_exists (hslot d hd hdb)
    exact ⟨y, hy, hr, hdl⟩

section
variable {x : Slot} (hx : s.slotAt f.chan (f.index / 128) = some x) (hl : x.ins.length = x.blocks.length)
include hx hl

section
variable {o : Nat} (hj : x.block f.base = .awaited o) (hst : (s.attributed n f rest).dataStore p f f.chan (f.index / 128) (f.base / 16)
    = (s.atRing n f rest p).accept f)
include hj hst

/-- An awaited block of an open slot is stored. -/
theorem frame_awaited (hr : x.released = false)
    (hserve : (x.ranges.getD (x.ins.findIdx (· == f.base / 16)) []).all (fun r => s.hbmServes r.1 r.2) = true) :
    FrameStored s n f rest p.skewUs :=
  frameStored hup hn hfifo hty hon (ingestOnly_atRing s n f rest p) (hd.trans hst)
    ((slotAt_atRing s n f rest p _ _).trans hx) hr hj hl
    (fun _ hy => Option.some.inj (hy.symm.trans hx)) (fun h => absurd (h.symm.trans hx) (by simp))
    (atRing_base s n f rest p) (fun _ hc => atRing_ring_ne s n f rest p hc) hserve

/-- While the memory of the block serves no access the frame waits in the FIFO. -/
theorem frame_waits
    (hserve : (x.ranges.getD (x.ins.findIdx (· == f.base / 16)) []).all (fun r => s.hbmServes r.1 r.2) = false) :
    Completes (.dataFrame n) s (fun t => t = s) := by
  refine ⟨s, ?_, rfl⟩
  rw [exec_dataFrame_on hup hn hfifo hty hon, hd, hst, if_neg]
  exact Bool.eq_false_iff.1 ((storeServes_accept ((slotAt_atRing s n f rest p _ _).trans hx) hj hl
    fun _ hy => Option.some.inj (hy.symm.trans hx)).trans hserve)

end

/-- A copy that differs blanks the block, and both are counted. -/
theorem frame_differs (hin : x.ins.contains (f.base / 16) = true)
    (hst : (s.attributed n f rest).dataStore p f f.chan (f.index / 128) (f.base / 16) =
      (((s.atRing n f rest p).setBlk f.chan (f.index / 128) (f.base / 16) (.blank 35)).wdgCnt 14).wdgCnt 35) :
    Completes (.dataFrame n) s (fun t => FrameTaken s t n rest ∧ RegsBut [0xA00138, 0xA0018C] s t ∧
      (∃ y, t.slotAt f.chan (f.index / 128) = some y ∧ y.block f.base = .blank 35) ∧ Counted s t 0xA00138 1 ∧
      Counted s t 0xA0018C 1) := by
  obtain ⟨w, hw⟩ : ∃ w, w = (s.atRing n f rest p).setBlk f.chan (f.index / 128) (f.base / 16) (.blank 35) := ⟨_, rfl⟩
  have hregs : ∀ o, w.reg o = s.reg o := fun o => by rw [hw, State.reg, State.setBlk, State.setRing_regs, atRing_regs]; rfl
  have hy := Slot.block_withBlock hl hin (.blank 35)
  have hslot : w.slotAt f.chan (f.index / 128) = some (x.withBlock (f.base / 16) (.blank 35)) :=
    hw ▸ slotAt_setBlk_same ((slotAt_atRing s n f rest p _ _).trans hx) _ _
  have htaken : FrameTaken s w n rest := FrameTaken.of_ingestOnly (hw ▸ (ingestOnly_atRing s n f rest p).trans (ingestOnly_setRing _ _ _))
  rw [← hw] at hst
  refine completes_dataFrame hup hn hfifo hty hon (hd.trans hst) (storeServes_of_blank hslot hy)
    ⟨(htaken.wdgCnt 14).wdgCnt 35, fun o ho => ?_, ⟨_, hslot, hy⟩, ?_, ?_⟩
  · obtain ⟨h14, h35⟩ : o ≠ 0xA00138 ∧ o ≠ 0xA0018C := by simpa using ho
    exact (State.reg_cnt_ne _ 1 h35).trans ((State.reg_cnt_ne _ 1 h14).trans (hregs o))
  · have h := State.reg_cnt w 0xA00138 1
    rw [hregs] at h
    exact (congrArg BitVec.toNat (State.reg_cnt_ne _ 1 (by decide))).trans h
  · have h := State.reg_cnt (w.wdgCnt 14) 0xA0018C 1
    have h14 : (w.wdgCnt 14).reg 0xA0018C = s.reg 0xA0018C := (State.reg_cnt_ne _ 1 (by decide)).trans (hregs _)
    rw [h14] at h
    exact h

end
end

/-- Settles O26: a case for each clause, by what the checks of R80 and then the slot of the frame say of it. -/
theorem dataFramesFillSlots : Obligations.DataFramesFillSlots := by
  unfold Obligations.DataFramesFillSlots
  intro s n f rest hup hups hn hfifo hty b v after drop ranged served
  refine ⟨fun hoff => ⟨_, exec_dataFrame_off hup hn hfifo hty hoff, ?_⟩, fun hon => ⟨fun h => ?_, fun h => ?_, fun h hf => ?_,
    fun hst hb hi => ⟨fun hr => ?_, fun hr => ⟨fun hp => ?_, fun p c3 sr hp hin hm => ⟨fun hlen => ?_, fun hlen he hbad => ?_,
      fun hlen he => ?_⟩⟩⟩⟩⟩
  · exact ⟨FrameTaken.of_ingestOnly (booksOnly_refl _).ingest, fun _ _ => rfl, rfl, rfl⟩
  · exact frameDropped hup hn hfifo hty hon (dataIn_departed (s := s.popFrame n rest) hups h) ⟨_, _, rfl, fun _ => rfl⟩
  · exact frameDropped hup hn hfifo hty hon (dataIn_empty (s := s.popFrame n rest) hups h) (tablesOnly_attributed s n f rest)
  · exact frameDropped hup hn hfifo hty hon (dataIn_misaligned (s := s.popFrame n rest) hups h hf) (tablesOnly_attributed s n f rest)
  · exact frameDropped hup hn hfifo hty hon (dataIn_outside (s := s.popFrame n rest) hups hst hb hi hr) (tablesOnly_attributed s n f rest)
  · exact frameDropped hup hn hfifo hty hon (dataIn_popFrame_unplaced hups hst hb hi hr hp) (tablesOnly_attributed s n f rest)
  · exact frameDropped hup hn hfifo hty hon ((dataIn_popFrame_placed hups hst hb hi hr hp hin hm).trans (if_pos hlen))
      (tablesOnly_attributed s n f rest)
  · exact frameDropped hup hn hfifo hty hon ((dataIn_popFrame_placed hups hst hb hi hr hp hin hm).trans
      ((if_neg (not_not.2 hlen)).trans (if_pos ⟨he, hbad⟩))) (tablesOnly_attributed s n f rest)
  · have hd := (dataIn_popFrame_placed (n := n) (rest := rest) hups hst hb hi hr hp hin hm).trans ((if_neg (not_not.2 hlen)).trans
      (if_neg fun ⟨hblank, hbad⟩ => he.elim (fun e => absurd (e.symm.trans hblank) (by decide))
        fun e => absurd (e.symm.trans hbad) (by decide)))
    have dropped := fun {k : Nat} => frame_dropped (k := k) hup hn hfifo hty hon hd
    have hk4 : 0 < ringK p.skewUs sr := by unfold ringK; omega
    refine ⟨fun hnone hempty howner hserve => ?_, fun base hbase => ⟨fun hlt => ?_, fun hold hle hk howner hserve => ?_,
      fun x hle hx => ⟨fun hrel => ?_, fun o hrel hk hj hl => ⟨fun hserve => ?_, fun hserve => ?_⟩,
        fun crc w pay hrel hk hj => ⟨fun hc => ?_, fun hc hl => ?_⟩,
        fun r hrel hplaced hj => ⟨fun hmem => ?_, fun h35 hk => ?_⟩⟩, fun hk hx => ?_⟩⟩
    · have hbase : (s.ring f.chan).base.getD (f.index / 128) = f.index / 128 := by rw [hnone, Option.getD_none]
      have hold : ∀ y ∈ (s.ring f.chan).slots, y.blk < f.index / 128 + (s.ring f.chan).slots.length := by simp [hempty]
      have hle : f.index / 128 + (s.ring f.chan).slots.length ≤ f.index / 128 := by simp [hempty]
      exact (frame_opens hup hn hfifo hty hon hd hups hbase hold hle hserve (openedSlot_awaits hb hst hr hin he howner)
        (attributed_dataStore_opens hb hm hups hbase hold hst hr hin he howner hle (by omega))).1
    · exact dropped (dataStore_below (s := s.attributed n f rest) hbase hlt)
    · have hbase' : (s.ring f.chan).base.getD (f.index / 128) = base := by rw [hbase, Option.getD_some]
      exact frame_opens hup hn hfifo hty hon hd hups hbase' hold hle hserve (openedSlot_awaits hb hst hr hin he howner)
        (attributed_dataStore_opens hb hm hups hbase' hold hst hr hin he howner hle hk)
    · exact dropped (dataStore_late (s := s.attributed n f rest) hx (.inl hrel))
    · exact frame_awaited hup hn hfifo hty hon hd hx hl hj (attributed_dataStore_open hb hm hbase hle hk hx hrel hj rfl) hrel hserve
    · exact frame_waits hup hn hfifo hty hon hd hx hl hj (attributed_dataStore_open hb hm hbase hle hk hx hrel hj rfl) hserve
    · exact dropped ((attributed_dataStore_open hb hm hbase hle hk hx hrel hj rfl).trans (if_pos hc))
    · exact frame_differs hup hn hfifo hty hon hd hx hl (Slot.contains_of_block (by simp [hj]))
        ((attributed_dataStore_open hb hm hbase hle hk hx hrel hj rfl).trans (if_neg hc))
    · refine dropped (dataStore_late (s := s.attributed n f rest) hx (.inr ⟨hplaced, ?_⟩))
      have h16 : 16 * (f.base / 16) = f.base := by omega
      have hr35 : r ≠ 35 := by rintro rfl; simp at hmem
      rw [h16, hj]
      exact bne_iff_ne.2 hr35
    · subst h35
      exact dropped ((attributed_dataStore_open hb hm hbase hle hk hx hrel hj rfl).trans rfl)
    · exact dropped (dataStore_far (s := s.attributed n f rest) hm hx hbase hk)

end Sys2Proof.Machine
end

section
/-! PROOF. Power states and the gates of the islands: what a change of power state does beside the state it leads to, and what the
end of a frequency gate shows of each island. -/

namespace Sys2Proof.Machine

/-! ### What stands beside a change of power state -/

/-- From s to t no command waiting, fuse or byte of memory changes, nor device time, the controllers' state, the change of power
state under way or its wake event; and no register but those that satisfy `W`. -/
structure Aside (W : Nat → Prop) (s t : State) : Prop where
  pending : t.pending = s.pending
  fuse : t.fuse = s.fuse
  hbm : t.hbm = s.hbm
  csram : t.csram = s.csram
  host : t.host = s.host
  time : t.time = s.time
  mem : t.mem = s.mem
  change : t.pwr.change = s.pwr.change
  wake : t.pwr.wake = s.pwr.wake
  regs : ∀ o, ¬ W o → t.reg o = s.reg o

variable {W : Nat → Prop} {s t u : State}

theorem Aside.refl (W : Nat → Prop) (s : State) : Aside W s s := ⟨rfl, rfl, rfl, rfl, rfl, rfl, rfl, rfl, rfl, fun _ _ => rfl⟩

theorem Aside.trans (h : Aside W s t) (k : Aside W t u) : Aside W s u :=
  ⟨k.pending.trans h.pending, k.fuse.trans h.fuse, k.hbm.trans h.hbm, k.csram.trans h.csram, k.host.trans h.host, k.time.trans h.time,
    k.mem.trans h.mem, k.change.trans h.change, k.wake.trans h.wake, fun o ho => (k.regs o ho).trans (h.regs o ho)⟩

theorem Aside.mono {V : Nat → Prop} (h : Aside W s t) (hv : ∀ o, W o → V o) : Aside V s t :=
  { h with regs := fun o ho => h.regs o (mt (hv o) ho) }

theorem Aside.apart (h : Aside W s t) : Apart s t := ⟨h.pending, h.fuse⟩

theorem Aside.memSame (h : Aside W s t) : MemSame s t := fun a => ⟨by rw [h.hbm], by rw [h.csram], by rw [h.host]⟩

theorem Aside.quarter (h : Aside W s t) (q : Nat) : t.quarter q = s.quarter q := by rw [State.quarter, h.mem]; rfl

theorem Aside.foldl {α : Type} {f : State → α → State} (l : List α) (hf : ∀ t, ∀ x ∈ l, Aside W t (f t x)) (s : State) :
    Aside W s (l.foldl f s) := by
  induction l generalizing s with
  | nil => exact .refl W s
  | cons x l ih => exact (hf s x List.mem_cons_self).trans (ih (fun t y hy => hf t y (List.mem_cons_of_mem x hy)) _)

theorem Aside.ite {c : Prop} [Decidable c] (h : c → Aside W s t) (k : ¬ c → Aside W s u) :
    Aside W s (if c then t else u) := by
  split
  · exact h ‹_›
  · exact k ‹_›

/-! ### Operations that stand beside it -/

theorem aside_setReg (s : State) {off : Nat} (v : W32) (h : W off) : Aside W s (s.setReg off v) :=
  ⟨rfl, rfl, rfl, rfl, rfl, rfl, rfl, rfl, rfl, fun o ho => s.reg_setReg_ne v (by rintro rfl; exact ho h)⟩

theorem aside_setRf (s : State) {off : Nat} (lo len v : Nat) (h : W off) : Aside W s (s.setRf off lo len v) := aside_setReg s _ h
theorem aside_setRb (s : State) {off : Nat} (i : Nat) (b : Bool) (h : W off) : Aside W s (s.setRb off i b) := aside_setReg s _ h
theorem aside_cnt (s : State) {off : Nat} (n : Nat) (h : W off) : Aside W s (s.cnt off n) := aside_setReg s _ h

/-- A power register of the block that keeps the change and its wake event. -/
theorem aside_setPwr (s : State) {f : PwrSt → PwrSt} (hc : (f s.pwr).change = s.pwr.change) (hw : (f s.pwr).wake = s.pwr.wake) :
    Aside W s (s.setPwr f) := ⟨rfl, rfl, rfl, rfl, rfl, rfl, rfl, hc, hw, fun _ _ => rfl⟩

theorem aside_setLane (s : State) (l : LaneId) (v : Lane) : Aside W s (s.setLane l v) :=
  ⟨rfl, rfl, rfl, rfl, rfl, rfl, rfl, rfl, rfl, fun _ _ => rfl⟩
theorem aside_setCore (s : State) (k : Nat) (v : Core) : Aside W s (s.setCore k v) :=
  ⟨rfl, rfl, rfl, rfl, rfl, rfl, rfl, rfl, rfl, fun _ _ => rfl⟩
theorem aside_setTile (s : State) (k : Nat) (v : Tile) : Aside W s (s.setTile k v) :=
  ⟨rfl, rfl, rfl, rfl, rfl, rfl, rfl, rfl, rfl, fun _ _ => rfl⟩
theorem aside_setPend (s : State) (k : Nat) (l : List Nat) : Aside W s (s.setPend k l) :=
  ⟨rfl, rfl, rfl, rfl, rfl, rfl, rfl, rfl, rfl, fun _ _ => rfl⟩
theorem aside_setRef (s : State) (f : RefSt → RefSt) : Aside W s (s.setRef f) :=
  ⟨rfl, rfl, rfl, rfl, rfl, rfl, rfl, rfl, rfl, fun _ _ => rfl⟩

theorem aside_publish (s : State) {c : Nat} (h : W (0x200040 + 4 * (c / 8))) : Aside W s (s.publish c) := by
  unfold State.publish State.publishH
  split
  · exact .refl W s
  · split
    · exact ⟨rfl, rfl, rfl, rfl, rfl, rfl, rfl, rfl, rfl, fun _ _ => rfl⟩
    · exact aside_cnt s 1 h

theorem aside_stopIsland (s : State) {n : Nat} (h : W (0x104000 + 4 * n)) : Aside W s (s.stopIsland n) :=
  .ite (fun _ => .ite (fun _ => (aside_setPwr s rfl rfl).trans (aside_setRb _ _ _ h)) fun _ => aside_setPwr s rfl rfl) fun _ => .refl W s

theorem aside_stopIslands (s : State) (h : ∀ n < 497, W (0x104000 + 4 * n)) : Aside W s s.stopIslands :=
  .foldl _ (fun t n hn => aside_stopIsland t (h n (List.mem_range.1 hn))) s

/-! ### Keepers -/

section
variable {k : Nat} (h : ∀ j, W (oKpr k + 0x40 + 4 * j))
include h

theorem aside_kSpell (s : State) (j : Option Nat) : Aside W s (s.kSpell k j) := by
  unfold State.kSpell
  cases j with
  | none => exact aside_cnt s _ (h 0)
  | some j => exact (aside_cnt s _ (h 0)).trans (aside_cnt _ _ (h j))

theorem aside_kLook (s : State) : Aside W s (s.kLook k) :=
  .ite (fun _ => (aside_kSpell h s _).trans (aside_setCore _ k _)) fun _ => .refl W s

theorem aside_kResume (s : State) (j : Option Nat) : Aside W s (s.kResume k j) := (aside_setCore s k _).trans (aside_kSpell h _ j)

theorem aside_kWake (s : State) : Aside W s (s.kWake k) :=
  .ite (fun _ => aside_kResume h s none) fun _ => .ite (fun _ => aside_kResume h s _) fun _ => .refl W s

theorem aside_setIp (s : State) (b : Byte) : Aside W s (s.setIp k b) :=
  .ite (fun _ => (aside_setCore s k _).trans (aside_kWake h _)) fun _ => aside_setCore s k _

end

/-- A Keeper's task input takes its events. -/
theorem aside_taskTake (s : State) {k : Nat} (hk : k < 64) (h : ∀ k j, W (oKpr k + 0x40 + 4 * j)) : Aside W s (s.taskTake k) := by
  unfold State.taskTake
  rw [if_pos hk]
  exact .ite (fun _ => (aside_setPend s k []).trans (aside_setIp (h (k / 8)) _ _)) fun _ => .refl W s

/-! ### Lanes -/

/-- The registers that a lane taken to DOWN can change beside its state: counts of what it publishes and drops, and the RXCLK input. -/
def DownReg (l : LaneId) (o : Nat) : Prop :=
  o = 0x200044 ∨ o = 0x200048 ∨ o = oRefIn 4 ∨ ∃ n, l = .tx n ∧ o = 0xD08104 + 8 * n

theorem aside_inputLost (s : State) (l : LaneId) : Aside (DownReg l) s (s.inputLost 4) := by
  refine .ite (fun _ => aside_setRef s _) fun _ => (aside_setRef s _).trans (.ite (fun _ => .refl _ _) fun _ => ?_)
  exact ((aside_setRf _ _ _ _ (.inr (.inr (.inl rfl)))).trans (aside_publish _ (.inl rfl))).trans (aside_setRef _ _)

theorem aside_txDrop (s : State) (n : Nat) : Aside (DownReg (.tx n)) s (s.txDrop n) :=
  (aside_cnt s _ (.inr (.inr (.inr ⟨n, rfl, rfl⟩)))).trans ⟨rfl, rfl, rfl, rfl, rfl, rfl, rfl, rfl, rfl, fun _ _ => rfl⟩

/-- A lane's state becomes DOWN, with LEFT_UP set where it leaves UP. -/
def State.statDown (s : State) (l : LaneId) : State :=
  if s.laneState l = 4 then (s.setRf (oLnStat l) 29 3 0).setRb (oLnStat l) 0 true else s.setRf (oLnStat l) 29 3 0

theorem laneState_statDown (s : State) (l : LaneId) : (s.statDown l).laneState l = 0 := by
  unfold State.statDown
  split
  · exact (congrArg (fun w => fld w 29 3) (State.reg_setRb _ _ _ _)).trans
      ((fld_setFld_ne _ _ _ _ _ _ (.inr (by decide)) (by decide)).trans (State.rf_setRf _ _ _ _ _ (by decide)))
  · exact State.rf_setRf _ _ _ _ _ (by decide)

theorem aside_statDown (s : State) {l : LaneId} (h : W (oLnStat l)) : Aside W s (s.statDown l) :=
  .ite (fun _ => (aside_setRf s _ _ _ h).trans (aside_setRb _ _ _ h)) fun _ => aside_setRf s _ _ _ h

theorem aside_toState_down (s : State) (l : LaneId) : Aside (DownReg l) (s.statDown l) (s.toState l 0) := by
  have hline : ¬ (s.laneState l ≠ 4 ∧ (0 : Nat) = 4 ∧ isTxLane l = true) := fun h => absurd h.2.1 (by decide)
  rw [State.toState, if_neg hline, State.statDown]
  by_cases h4 : s.laneState l = 4
  · rw [if_pos h4, if_pos ⟨h4, by decide⟩]
    cases l with
    | rx n => exact aside_publish _ (.inr (.inl rfl))
    | tx n => exact aside_txDrop _ n
    | w _ | port => exact .refl _ _
  · rw [if_neg h4, if_neg fun h => h4 h.1]
    exact .refl _ _

/-- A lane is taken to DOWN: its state, and what stands beside it. -/
theorem toDown_eq (s : State) (l : LaneId) :
    ∃ u, Aside (fun _ => False) s u ∧ Aside (DownReg l) (u.statDown l) (s.toDown l false) := by
  refine ⟨_, aside_setLane s l { s.lane l with
      frm := none, skip := false, fails := 0, run := 0, prbsRun := 0, since := s.time.ticks }, ?_⟩
  cases l with
  | rx n => exact (aside_toState_down _ _).trans (.ite (fun _ => aside_inputLost _ _) fun _ => .refl _ _)
  | tx _ | w _ | port => exact aside_toState_down _ _

theorem aside_toDown (s : State) {l : LaneId} (hl : W (oLnStat l)) (h : ∀ o, DownReg l o → W o) : Aside W s (s.toDown l false) := by
  obtain ⟨u, hu, ht⟩ := toDown_eq s l
  exact (hu.mono fun _ => False.elim).trans ((aside_statDown u hl).trans (ht.mono h))

theorem Aside.laneState (h : Aside W s t) {l : LaneId} (hl : ¬ W (oLnStat l)) : t.laneState l = s.laneState l :=
  congrArg (fun w => fld w 29 3) (h.regs _ hl)

theorem laneState_toDown (s : State) {l : LaneId} (hl : ¬ DownReg l (oLnStat l)) : (s.toDown l false).laneState l = 0 := by
  obtain ⟨u, -, ht⟩ := toDown_eq s l
  exact (ht.laneState hl).trans (laneState_statDown u l)

/-! #### Every lane -/

/-- The RX and TX lanes that the map has. -/
def DataLane : LaneId → Prop
  | .rx n => n < 96
  | .tx n => n < 32
  | _ => False

theorem oLnStat_not_downReg {l m : LaneId} (hl : DataLane l) (hm : DataLane m) : ¬ DownReg m (oLnStat l) := by
  rintro (h | h | h | ⟨n, rfl, h⟩) <;> cases l <;> simp only [DataLane] at hl hm <;> simp [oLnStat, laneBase, oRefIn] at h <;> omega

theorem oLnStat_inj {l m : LaneId} (hl : DataLane l) (hm : DataLane m) (h : oLnStat l = oLnStat m) : l = m := by
  cases l <;> cases m <;> simp_all [DataLane, oLnStat, laneBase] <;> omega

/-- Taken to DOWN, a lane leaves the state of another. -/
theorem laneState_toDown_zero {l m : LaneId} (hl : DataLane l) (hm : DataLane m) {t : State} (h : t.laneState l = 0) :
    (t.toDown m false).laneState l = 0 := by
  by_cases e : l = m
  · exact e ▸ laneState_toDown t (oLnStat_not_downReg hl hl)
  · have ha : Aside (fun o => o = oLnStat m ∨ DownReg m o) t (t.toDown m false) := aside_toDown t (.inl rfl) fun _ => .inr
    rw [ha.laneState (not_or.2 ⟨fun h => e (oLnStat_inj hl hm h), oLnStat_not_downReg hl hm⟩), h]

theorem dataLane_rx {s : State} {n : Nat} (h : n < s.nRx) : DataLane (.rx n) := by
  unfold State.nRx at h; simp only [DataLane]; split at h <;> omega

theorem dataLane_tx {s : State} {n : Nat} (h : n < s.nTx) : DataLane (.tx n) := by
  unfold State.nTx at h; simp only [DataLane]; split at h <;> omega

/-- What a step sets up for its own item, and no step undoes, holds of every item of a list. -/
theorem foldl_sets {α : Type} {f : State → α → State} {P : α → State → Prop} (l : List α)
    (hset : ∀ t, ∀ x ∈ l, P x (f t x)) (hkeep : ∀ t, ∀ x ∈ l, ∀ y ∈ l, P y t → P y (f t x)) (s : State) :
    ∀ x ∈ l, P x (l.foldl f s) := by
  have hstay : ∀ (l' : List α), (∀ x ∈ l', x ∈ l) → ∀ t, ∀ y ∈ l, P y t → P y (l'.foldl f t) := by
    intro l'
    induction l' with
    | nil => exact fun _ _ _ _ h => h
    | cons x l' ih =>
      exact fun hl t y hy h => ih (fun z hz => hl z (List.mem_cons_of_mem x hz)) _ y hy
        (hkeep t x (hl x List.mem_cons_self) y hy h)
  intro x hx
  obtain ⟨a, b, hab⟩ := List.mem_iff_append.1 hx
  rw [hab, List.foldl_append, List.foldl_cons]
  exact hstay b (fun z hz => hab ▸ List.mem_append_right _ (List.mem_cons_of_mem x hz)) _ x hx (hset _ x hx)

/-- The fold of a step that keeps a property keeps it. -/
theorem foldl_keeps {α : Type} {f : State → α → State} {P : State → Prop} (l : List α)
    (hf : ∀ t, ∀ x ∈ l, P t → P (f t x)) {s : State} (h : P s) : P (l.foldl f s) := by
  induction l generalizing s with
  | nil => exact h
  | cons x l ih => exact ih (fun t y hy => hf t y (List.mem_cons_of_mem x hy)) (hf s x List.mem_cons_self h)

theorem laneState_lanesDown_rx (s : State) {n : Nat} (h : n < s.nRx) : s.lanesDown.laneState (.rx n) = 0 := by
  have hrx : ∀ n ∈ List.range s.nRx, DataLane (.rx n) := fun n hn => dataLane_rx (List.mem_range.1 hn)
  have htx : ∀ t : State, ∀ n ∈ List.range t.nTx, DataLane (.tx n) := fun t n hn => dataLane_tx (List.mem_range.1 hn)
  rw [State.lanesDown]
  refine foldl_keeps (P := fun t => t.laneState (.rx n) = 0) _ (fun t m hm ht => laneState_toDown_zero (dataLane_rx h) (htx _ m hm) ht) ?_
  exact foldl_sets (P := fun n t => t.laneState (.rx n) = 0) _
    (fun t m hm => laneState_toDown t (oLnStat_not_downReg (hrx m hm) (hrx m hm)))
    (fun t m hm y hy ht => laneState_toDown_zero (hrx y hy) (hrx m hm) ht) s n (List.mem_range.2 h)

theorem aside_lanesDown (s : State) (hl : ∀ l, DataLane l → W (oLnStat l)) (h : ∀ l o, DataLane l → DownReg l o → W o) :
    Aside W s s.lanesDown := by
  have hrx : Aside W s ((List.range s.nRx).foldl (fun s n => s.toDown (.rx n) false) s) := .foldl _ (fun t n hn =>
    have hd := dataLane_rx (List.mem_range.1 hn); aside_toDown t (hl _ hd) fun o => h _ o hd) s
  exact hrx.trans (.foldl _ (fun t n hn =>
    have hd := dataLane_tx (List.mem_range.1 hn); aside_toDown t (hl _ hd) fun o => h _ o hd) _)

theorem laneState_lanesDown_tx (s : State) {n : Nat} (h : n < s.nTx) : s.lanesDown.laneState (.tx n) = 0 := by
  have hfuse : ((List.range s.nRx).foldl (fun s n => s.toDown (.rx n) false) s).fuse = s.fuse :=
    (Aside.foldl (W := fun _ => True) _ (fun t n _ => aside_toDown t trivial fun _ _ => trivial) s).fuse
  have htx : ∀ n ∈ List.range s.nTx, DataLane (.tx n) := fun n hn => dataLane_tx (List.mem_range.1 hn)
  have hn : State.nTx ((List.range s.nRx).foldl (fun s n => s.toDown (.rx n) false) s) = s.nTx := by
    rw [State.nTx, State.gradeC, hfuse]; rfl
  rw [State.lanesDown, hn]
  exact foldl_sets (P := fun n t => t.laneState (.tx n) = 0) _
    (fun t m hm => laneState_toDown t (oLnStat_not_downReg (htx m hm) (htx m hm)))
    (fun t m hm y hy ht => laneState_toDown_zero (htx y hy) (htx m hm) ht) _ n (List.mem_range.2 h)

/-! ### The power register -/

/-- Every register but PWR_STATE. -/
def NotPwr (o : Nat) : Prop := o ≠ oPwr

theorem Aside.pwr (h : Aside NotPwr s t) : t.reg oPwr = s.reg oPwr := h.regs oPwr (not_not.2 rfl)

theorem notPwr_counter (k j : Nat) : NotPwr (oKpr k + 0x40 + 4 * j) := by simp only [NotPwr, oKpr, oPwr, ne_eq]; omega

theorem oLnStat_ne_pwr {l : LaneId} (hl : DataLane l) : oLnStat l ≠ oPwr := by
  cases l <;> simp only [DataLane] at hl <;> simp only [oLnStat, laneBase, oPwr, ne_eq] <;> omega

theorem aside_lanesDown_notPwr (s : State) : Aside NotPwr s s.lanesDown := by
  refine aside_lanesDown s (fun l hl => oLnStat_ne_pwr hl) fun l o hl => ?_
  rintro (rfl | rfl | rfl | ⟨n, -, rfl⟩) <;> simp only [NotPwr, oRefIn, oPwr, ne_eq] <;> omega

/-- What is counted and dated as a state is reached stands beside it. -/
theorem aside_sinceNow (s : State) (d : Nat) : Aside NotPwr s (s.sinceNow d) :=
  .ite (fun _ => .foldl _ (fun t k _ => aside_kLook (notPwr_counter k) t) s) fun _ =>
    .ite (fun _ => .foldl _ (fun t k _ => aside_setCore t k _) s) fun _ => .ite (fun _ => .refl _ s) fun _ =>
      .foldl _ (fun t e _ => aside_setTile t e.1 _) s

theorem aside_stopIslands_notPwr (s : State) : Aside NotPwr s s.stopIslands :=
  aside_stopIslands s fun n _ => by simp only [NotPwr, oPwr, ne_eq]; omega

theorem aside_reach (s : State) (d : Nat) : Aside (fun _ => True) s (s.reach d) :=
  ((aside_sinceNow s d).mono fun _ _ => trivial).trans ((aside_setRf _ _ _ _ trivial).trans
    ((aside_stopIslands_notPwr _).mono fun _ _ => trivial))

/-- A state reached shows in CUR, and in no other bit of PWR_STATE. -/
theorem reg_reach (s : State) (d : Nat) : (s.reach d).reg oPwr = setFld (s.reg oPwr) 28 2 d := by
  rw [State.reach, (aside_stopIslands_notPwr _).pwr, State.reg_setRf, (aside_sinceNow s d).pwr]

theorem aside_taskTakes (s : State) : Aside NotPwr s ((List.range 64).foldl State.taskTake s) :=
  .foldl _ (fun t _ hk => aside_taskTake t (List.mem_range.1 hk) notPwr_counter) s

/-! ### Time passing -/

/-- Device time changes no register but TIM_STAT and the count of what the beacon network drops of its wraps. -/
theorem reg_wraps_ne (s : State) (n : Nat) {o : Nat} (h : o ≠ 0x400004) (h' : o ≠ 0x200044) : (s.wraps n).reg o = s.reg o := by
  induction n generalizing s with
  | zero => rfl
  | succ n ih =>
    have hp := (aside_publish (W := fun o => o = 0x200044) (s.setRb oTimStat 0 true) (c := 8) rfl).regs o h'
    exact (ih _).trans (hp.trans (State.reg_setRb_ne _ _ _ h))

theorem State.reg_advance_ne (s : State) (dt : Nat) {o : Nat} (h : o ≠ 0x400004) (h' : o ≠ 0x200044) :
    (s.advance dt).reg o = s.reg o := by
  unfold State.advance
  dsimp only
  split
  · exact reg_wraps_ne _ _ h h'
  · rfl

theorem State.memSame_advance (s : State) (dt : Nat) : MemSame s (s.advance dt) := fun a => by simp

theorem MemSame.trans (h : MemSame s t) (k : MemSame t u) : MemSame s u := fun a =>
  have ⟨hhbm, hcs, hhost⟩ := h a
  have ⟨khbm, kcs, khost⟩ := k a
  ⟨khbm.trans hhbm, kcs.trans hcs, khost.trans hhost⟩

/-! ### A write of PWR_STATE -/

/-- The row of PWR_STATE: REQ is RW, REFUSED and DOZEACC are W1C. -/
def pwrRow : RegRow := ⟨0x100000, [], .warm, 0, 0xc0000000, 0x6000000, 0, 0, 0⟩

theorem regRow_pwr : regRow oPwr = some pwrRow := by decide

theorem fld_congr {w x : W32} {lo len : Nat} (h : ∀ i < len, w.getLsbD (lo + i) = x.getLsbD (lo + i)) : fld w lo len = fld x lo len := by
  apply Nat.eq_of_testBit_eq
  intro i
  rw [fld, fld, Nat.testBit_mod_two_pow, Nat.testBit_mod_two_pow, Nat.testBit_shiftRight, Nat.testBit_shiftRight]
  by_cases hi : i < len
  · have := h i hi
    simp only [BitVec.getLsbD] at this
    simp [this]
  · simp [hi]

theorem fld_writeBits_cur (w v : W32) : fld (writeBits pwrRow w v) 28 2 = fld w 28 2 :=
  fld_congr fun i hi => by interval_cases i <;> simp [writeBits, pwrRow]

theorem fld_writeBits_req (w v : W32) : fld (writeBits pwrRow w v) 30 2 = fld v 30 2 :=
  fld_congr fun i hi => by interval_cases i <;> simp [writeBits, pwrRow]

/-- The state with PWR_STATE written. -/
def State.pwrWritten (s : State) (v : W32) : State := s.setReg oPwr (writeBits pwrRow (s.reg oPwr) v)

theorem plainWrite_pwr (s : State) (v : W32) : s.plainWrite oPwr v = s.pwrWritten v := State.plainWrite_of_row regRow_pwr v

theorem pwrCur_pwrWritten (s : State) (v : W32) : (s.pwrWritten v).pwrCur = s.pwrCur := by
  rw [State.pwrCur, State.rf, State.pwrWritten, State.reg_setReg, fld_writeBits_cur]; rfl

theorem req_pwrWritten (s : State) (v : W32) : (s.pwrWritten v).rf oPwr 30 2 = fld v 30 2 := by
  rw [State.rf, State.pwrWritten, State.reg_setReg, fld_writeBits_req]

theorem onlyRegs_pwrWritten (s : State) (v : W32) : OnlyRegs [oPwr] s (s.pwrWritten v) :=
  (onlyRegs_of_stores rfl rfl rfl rfl rfl rfl).setReg _

theorem OnlyRegs.setReg_same {off : Nat} (h : OnlyRegs [off] s t) (v : W32) : OnlyRegs [off] s (t.setReg off v) := by
  obtain ⟨hapart, hmem, hregs⟩ := h
  exact ⟨hapart, hmem, fun o ho => (State.reg_setReg_ne _ _ (by simpa using ho)).trans (hregs o ho)⟩

theorem exec_powerStateRequest (hu : s.hostUp = true) (hc : s.pwr.change = none) (v : W32) :
    exec (.powerStateRequest v) s = .next ((s.pwrWritten v).towards (fld v 30 2 % 3) false) := by
  have e : exec (.powerStateRequest v) s = execPowerStateRequest v s := rfl
  have hc' : (s.pwrWritten v).pwr.change = none := hc
  rw [e, execPowerStateRequest, gate_of _ _ _ hu, State.powerWrite, plainWrite_pwr, hc', State.pwrReq, req_pwrWritten]

/-! #### What begins -/

theorem rf_setBit_pwr (s : State) {i : Nat} (b : Bool) (lo : Nat) (h : i < lo) (hlo : lo + 2 ≤ 32) :
    (s.setRb oPwr i b).rf oPwr lo 2 = s.rf oPwr lo 2 := s.rf_setRf_other oPwr i 1 _ lo 2 (.inr (by omega)) hlo

theorem towards_idle (h : s.pwrCur = 0) : s.towards 1 false = if s.idleOk then s.startChange 1 1 else s.refused := by
  simp [State.towards, h]

theorem towards_doze (h : s.pwrCur = 1) : s.towards 2 false = if s.dozeOk then s.startDoze false else s.refused := by
  simp [State.towards, h]

theorem towards_reached {d : Nat} (h : s.pwrCur = d) (back : Bool) : s.towards d back = s := by simp [State.towards, h]

theorem towards_out_of_doze (h : s.pwrCur = 2) {d : Nat} (hd : d ≠ 2) : s.towards d false = s.leaveDoze := by
  simp [State.towards, h, hd]

/-- In Run a request for Idle begins the change, or is refused. -/
theorem request_idle (hu : s.hostUp = true) {v : W32} (hc : s.pwr.change = none) (hcur : s.rf 0x100000 28 2 = 0) (hv : fld v 30 2 = 1) :
    Completes (.powerStateRequest v) s (fun t => Apart s t ∧ MemSame s t ∧ RegsBut [0x100000] s t ∧
        t.rf 0x100000 28 2 = 0 ∧ t.rf 0x100000 30 2 = 1 ∧
        (if s.idleOk then t.rb 0x100000 27 = true ∧ t.pwr.change.isSome = true
         else t.rb 0x100000 26 = true ∧ t.pwr.change = none)) := by
  refine ⟨_, exec_powerStateRequest hu hc v, ?_⟩
  have hcur' : (s.pwrWritten v).pwrCur = 0 := (pwrCur_pwrWritten s v).trans hcur
  have hidle : (s.pwrWritten v).idleOk = s.idleOk := rfl
  have hreq : (s.pwrWritten v).rf oPwr 30 2 = 1 := (req_pwrWritten s v).trans hv
  rw [hv, Nat.mod_eq_of_lt (by decide), towards_idle hcur', hidle]
  have hwritten := onlyRegs_pwrWritten s v
  cases s.idleOk with
  | true =>
    exact OnlyRegs.and (hwritten.setReg_same _) ⟨(rf_setBit_pwr _ _ _ (by decide) (by decide)).trans hcur',
      (rf_setBit_pwr _ _ _ (by decide) (by decide)).trans hreq, State.rb_setRb _ _ _ _ (by decide), rfl⟩
  | false =>
    exact OnlyRegs.and (hwritten.setReg_same _) ⟨(rf_setBit_pwr _ _ _ (by decide) (by decide)).trans hcur',
      (rf_setBit_pwr _ _ _ (by decide) (by decide)).trans hreq, State.rb_setRb _ _ _ _ (by decide), hc⟩

/-- In Doze any other request begins the exit. -/
theorem request_exit (hu : s.hostUp = true) (hcur : s.rf 0x100000 28 2 = 2) {v : W32} (hc : s.pwr.change = none) (hv : fld v 30 2 ≠ 2) :
    Completes (.powerStateRequest v) s (fun t => Apart s t ∧ MemSame s t ∧ RegsBut [0x100000] s t ∧
      t.rb 0x100000 27 = true ∧ ∃ c, t.pwr.change = some c ∧ c.dest = 1 ∧ c.since = s.time.ticks) := by
  refine ⟨_, exec_powerStateRequest hu hc v, ?_⟩
  have hlt : fld v 30 2 < 4 := Nat.mod_lt _ (by decide)
  rw [towards_out_of_doze ((pwrCur_pwrWritten s v).trans hcur) (by omega)]
  exact OnlyRegs.and ((onlyRegs_pwrWritten s v).setReg_same _) ⟨State.rb_setRb _ _ _ _ (by decide), _, rfl, rfl, rfl⟩

/-! ### Entry to Doze -/

@[simp] theorem quarter_setQuarter_same (s : State) (q : Nat) (v : Quarter) : (s.setQuarter q v).quarter q = v := tget_tset_same _ _ _ _

theorem quarter_setQuarter_ne (s : State) {q r : Nat} (v : Quarter) (h : r ≠ q) : (s.setQuarter q v).quarter r = s.quarter r :=
  tget_tset_ne _ _ _ h

/-- From s to t only the controllers' state changes. -/
def MemOnly (s t : State) : Prop := ∃ mem, t = { s with mem := mem }

theorem MemOnly.trans (h : MemOnly s t) (k : MemOnly t u) : MemOnly s u := by
  obtain ⟨m, rfl⟩ := h
  obtain ⟨m', rfl⟩ := k
  exact ⟨m', rfl⟩

theorem memOnly_srefAsk (s : State) (q : Nat) : MemOnly s (s.srefAsk q) := by
  unfold State.srefAsk
  dsimp only
  split
  · split
    · exact ⟨s.mem, rfl⟩
    · exact ⟨_, rfl⟩
  · exact ⟨_, rfl⟩

/-- A quarter's part of the entry to Doze. -/
def State.dozeQuarter (s : State) (q : Nat) : State := (s.setQuarter q { s.quarter q with doze := true }).srefAsk q

theorem memOnly_dozeQuarter (s : State) (q : Nat) : MemOnly s (s.dozeQuarter q) := .trans ⟨_, rfl⟩ (memOnly_srefAsk _ q)

/-- Asked for self-refresh by Doze, with its request where it is not there yet. -/
def DozeAsked (q : Nat) (t : State) : Prop :=
  (t.quarter q).doze = true ∧ ((t.quarter q).selfRef = false → (t.quarter q).waits 4 = true)

theorem srefAsk_wanted {q : Nat} (h : s.wantsSref q = true) : s.srefAsk q =
    if (s.quarter q).selfRef || (s.quarter q).waits 4 then s else s.askToken q ⟨4, 0, 0⟩ := if_pos h

theorem dozeQuarter_asks (s : State) (q : Nat) :
    DozeAsked q (s.dozeQuarter q) ∧ ((s.dozeQuarter q).quarter q).selfRef = (s.quarter q).selfRef := by
  have hw : (s.setQuarter q { s.quarter q with doze := true }).wantsSref q = true := by simp [State.wantsSref]
  rw [State.dozeQuarter, srefAsk_wanted hw, quarter_setQuarter_same]
  split
  · next h => exact ⟨⟨by simp, fun hs => by simp_all [Quarter.waits]⟩, by simp⟩
  · exact ⟨⟨by simp [State.askToken], fun _ => by simp [State.askToken, Quarter.waits]⟩, by simp [State.askToken]⟩

theorem quarter_dozeQuarter_ne (s : State) {q r : Nat} (h : r ≠ q) : (s.dozeQuarter q).quarter r = s.quarter r := by
  have hw : (s.setQuarter q { s.quarter q with doze := true }).wantsSref q = true := by simp [State.wantsSref]
  rw [State.dozeQuarter, srefAsk_wanted hw]
  split
  · exact quarter_setQuarter_ne _ _ h
  · exact (quarter_setQuarter_ne _ _ h).trans (quarter_setQuarter_ne _ _ h)

theorem dozeQuarters_asks (s : State) : MemOnly s (s.dozeQuarters true) ∧ ∀ q < 4 * s.nStacks,
    DozeAsked q (s.dozeQuarters true) ∧ ((s.dozeQuarters true).quarter q).selfRef = (s.quarter q).selfRef := by
  have hfold : s.dozeQuarters true = (List.range (4 * s.nStacks)).foldl State.dozeQuarter s := rfl
  rw [hfold]
  refine ⟨foldl_keeps _ (fun t q _ h => h.trans (memOnly_dozeQuarter t q)) ⟨s.mem, rfl⟩, fun q hq => ⟨?_, ?_⟩⟩
  · refine foldl_sets _ (fun t q _ => (dozeQuarter_asks t q).1) (fun t x _ y _ h => ?_) s q (List.mem_range.2 hq)
    by_cases e : y = x
    · exact e ▸ (dozeQuarter_asks t y).1
    · rwa [DozeAsked, quarter_dozeQuarter_ne t e]
  · refine foldl_keeps (P := fun t => (t.quarter q).selfRef = (s.quarter q).selfRef) _ (fun t x _ h => ?_) rfl
    by_cases e : q = x
    · exact e ▸ (dozeQuarter_asks t q).2.trans h
    · rwa [quarter_dozeQuarter_ne t e]

/-- The entry to Doze begun: lanes are DOWN, quarters are asked, and the change stands. -/
theorem startDoze_eq (s : State) (fromRun : Bool) : s.startDoze fromRun = ({ s.lanesDown with
    mem := (s.lanesDown.dozeQuarters true).mem
    pwr := { s.lanesDown.pwr with change := some ⟨2, 2, s.lanesDown.time.ticks, fromRun⟩ } } : State).setRb oPwr 27 true := by
  obtain ⟨⟨mem, hm⟩, -⟩ := dozeQuarters_asks s.lanesDown
  rw [State.startDoze, hm]
  rfl

theorem dozeOk_iff (s : State) : s.dozeOk = true ↔ ∀ c < 64, s.dState c ≠ 1 ∧ s.dState c ≠ 2 ∧ s.dState c ≠ 3 := by
  simp [State.dozeOk, and_assoc]

/-- What depends on the registers of DMA channels alone does not see a write elsewhere. -/
theorem dozeOk_congr (h : ∀ c < 64, t.reg (oDma c + 4) = s.reg (oDma c + 4)) : t.dozeOk = s.dozeOk := by
  rw [Bool.eq_iff_iff, dozeOk_iff, dozeOk_iff]
  refine forall₂_congr fun c hc => ?_
  rw [State.dState, State.dState, State.rf, State.rf, h c hc]

theorem oDma_ne_pwr (c : Nat) : oDma c + 4 ≠ oPwr := by simp only [oDma, oPwr, ne_eq]; omega

/-- The stacks of the grade stand in the fuses. -/
theorem nStacks_congr (h : t.fuse = s.fuse) : t.nStacks = s.nStacks := by rw [State.nStacks, State.gradeC, h]; rfl

/-- In Idle a request for Doze begins the entry, or is refused. -/
theorem request_doze (hu : s.hostUp = true) {v : W32} (hc : s.pwr.change = none) (hcur : s.rf 0x100000 28 2 = 1) (hv : fld v 30 2 = 2) :
    Completes (.powerStateRequest v) s (fun t => Apart s t ∧ MemSame s t ∧ t.rf 0x100000 28 2 = 1 ∧
      ((∀ c < 64, s.dState c ≠ 1 ∧ s.dState c ≠ 2 ∧ s.dState c ≠ 3) → t.rb 0x100000 27 = true ∧
        (∃ c, t.pwr.change = some c ∧ c.dest = 2 ∧ c.final = 2 ∧ c.since = s.time.ticks) ∧
        (∀ n < s.nRx, t.laneState (.rx n) = 0) ∧ (∀ n < s.nTx, t.laneState (.tx n) = 0) ∧
        (∀ q < 4 * s.nStacks, (t.quarter q).doze = true ∧ ((s.quarter q).selfRef = false → (t.quarter q).waits 4 = true))) ∧
      (¬ (∀ c < 64, s.dState c ≠ 1 ∧ s.dState c ≠ 2 ∧ s.dState c ≠ 3) →
        t.rb 0x100000 26 = true ∧ t.pwr.change = none ∧ RegsBut [0x100000] s t)) := by
  refine ⟨_, exec_powerStateRequest hu hc v, ?_⟩
  have hcur' : (s.pwrWritten v).pwrCur = 1 := (pwrCur_pwrWritten s v).trans hcur
  have hok : (s.pwrWritten v).dozeOk = s.dozeOk := dozeOk_congr fun c _ => State.reg_setReg_ne _ _ (oDma_ne_pwr c)
  rw [hv, Nat.mod_eq_of_lt (by decide), towards_doze hcur', hok]
  by_cases hd : s.dozeOk = true
  · rw [if_pos hd]
    have hl := aside_lanesDown_notPwr (s.pwrWritten v)
    have hlane : ∀ l, DataLane l → (s.pwrWritten v).lanesDown.laneState l = 0 → ((s.pwrWritten v).startDoze false).laneState l = 0 :=
      fun l hl h => by
        rw [startDoze_eq]
        exact (congrArg (fun w => fld w 29 3) (State.reg_setRb_ne _ _ _ (oLnStat_ne_pwr hl))).trans h
    have hcurl : (s.pwrWritten v).lanesDown.rf oPwr 28 2 = 1 := (congrArg (fun w => fld w 28 2) hl.pwr).trans hcur'
    have hnum : (s.pwrWritten v).lanesDown.nStacks = s.nStacks := nStacks_congr hl.fuse
    have hapart' := hl.apart
    have hmem' := hl.memSame
    refine ⟨?_, ?_, ?_, fun _ => ⟨?_, ?_, fun n hn => hlane _ (dataLane_rx hn) (laneState_lanesDown_rx _ hn),
      fun n hn => hlane _ (dataLane_tx hn) (laneState_lanesDown_tx _ hn), fun q hq => ?_⟩, fun h => absurd ((dozeOk_iff s).1 hd) h⟩
    · rw [startDoze_eq]; exact hapart'
    · rw [startDoze_eq]; exact hmem'
    · rw [startDoze_eq]; exact (rf_setBit_pwr _ _ _ (by decide) (by decide)).trans hcurl
    · rw [startDoze_eq]; exact State.rb_setRb _ _ _ _ (by decide)
    · rw [startDoze_eq]; exact ⟨_, rfl, rfl, rfl, congrArg TimeSt.ticks hl.time⟩
    · obtain ⟨hasks, hself⟩ := (dozeQuarters_asks (s.pwrWritten v).lanesDown).2 q (by rw [hnum]; exact hq)
      have hsame : ((s.pwrWritten v).startDoze false).quarter q = ((s.pwrWritten v).lanesDown.dozeQuarters true).quarter q := by
        rw [startDoze_eq]; rfl
      rw [hsame]
      exact ⟨hasks.1, fun hs => hasks.2 (hself.trans ((congrArg Quarter.selfRef (hl.quarter q)).trans hs))⟩
  · rw [if_neg hd]
    obtain ⟨hapart, hmem, hregs⟩ := (onlyRegs_pwrWritten s v).setReg_same (setBit ((s.pwrWritten v).reg oPwr) 26 true)
    exact ⟨hapart, hmem, (rf_setBit_pwr _ _ _ (by decide) (by decide)).trans hcur', fun h => absurd ((dozeOk_iff s).2 h) hd,
      fun _ => ⟨State.rb_setRb _ _ _ _ (by decide), hc, hregs⟩⟩

/-! ### The end of a change -/

/-- The state at the end of a change of power state, before the state it leads to is entered. -/
abbrev State.changeEnded (s : State) (dt : Nat) : State := (s.advance dt).endChange

theorem State.reg_changeEnded_pwr (s : State) (dt : Nat) : (s.changeEnded dt).reg oPwr = setBit (s.reg oPwr) 27 false :=
  (State.reg_setRb _ _ _ _).trans (congrArg (fun w => setBit w 27 false) (s.reg_advance_ne dt (by decide) (by decide)))

theorem State.reg_changeEnded_ne (s : State) (dt : Nat) {o : Nat} (h : o ≠ 0x400004) (h' : o ≠ 0x200044) (hp : o ≠ oPwr) :
    (s.changeEnded dt).reg o = s.reg o := (State.reg_setRb_ne _ _ _ hp).trans (s.reg_advance_ne dt h h')

theorem State.pwrCur_advance (s : State) (dt : Nat) : (s.advance dt).pwrCur = s.pwrCur :=
  congrArg (fun w => fld w 28 2) (s.reg_advance_ne dt (by decide) (by decide))

theorem State.idleOk_changeEnded (s : State) (dt : Nat) : (s.changeEnded dt).idleOk = s.idleOk := by
  simp [State.idleOk, State.changeEnded, State.endChange, State.setPwr]

theorem State.dozeOk_changeEnded (s : State) (dt : Nat) : (s.changeEnded dt).dozeOk = s.dozeOk :=
  dozeOk_congr fun c _ => s.reg_changeEnded_ne dt (by simp only [oDma]; omega) (by simp only [oDma]; omega) (oDma_ne_pwr c)

theorem State.wake_changeEnded (s : State) (dt : Nat) : (s.changeEnded dt).pwr.wake = s.pwr.wake := by
  simp [State.changeEnded, State.endChange, State.setPwr]

/-- Power state d is reached: CUR shows it, BUSY is clear, no change is under way, and no memory has changed. -/
def Reached (d : Nat) (s t : State) : Prop :=
  Apart s t ∧ MemSame s t ∧ t.rf 0x100000 28 2 = d ∧ t.rb 0x100000 27 = false ∧ t.pwr.change = none

theorem reached_of {dt d : Nat} (hd : d < 4) (hapart : Apart (s.changeEnded dt) t) (hmem : MemSame (s.changeEnded dt) t)
    (hchange : t.pwr.change = none) (hr : t.reg oPwr = setFld ((s.changeEnded dt).reg oPwr) 28 2 d) : Reached d s t := by
  have hpend : (s.changeEnded dt).pending = s.pending := s.advance_pending dt
  have hfuse : (s.changeEnded dt).fuse = s.fuse := s.advance_fuse dt
  rw [State.reg_changeEnded_pwr] at hr
  have hadv : MemSame s (s.changeEnded dt) := s.memSame_advance dt
  refine ⟨⟨hapart.1.trans hpend, hapart.2.trans hfuse⟩, hadv.trans hmem, ?_, ?_, hchange⟩
  · exact (congrArg (fun w => fld w 28 2) hr).trans ((fld_setFld _ _ _ _ (by decide)).trans (Nat.mod_eq_of_lt hd))
  · refine (congrArg (fun w => bit w 27) hr).trans ?_
    rw [bit, getLsbD_setFld _ _ _ _ _ (by decide), if_neg (by decide)]
    exact bit_setBit _ _ _ (by decide)

theorem reached_of_aside {dt d : Nat} (hd : d < 4) (h : Aside (fun _ => True) (s.changeEnded dt) t)
    (hr : t.reg oPwr = setFld ((s.changeEnded dt).reg oPwr) 28 2 d) : Reached d s t :=
  reached_of hd h.apart h.memSame h.change hr

/-! #### Quarters leaving self-refresh -/

/-- From s to t the controllers' state and their status registers change, and nothing else. -/
def QuartersOnly (s t : State) : Prop :=
  ∃ mem regs, t = { s with mem := mem, regs := regs } ∧ ∀ o, (∀ k, o ≠ oMem k + 4) → t.reg o = s.reg o

theorem QuartersOnly.trans (h : QuartersOnly s t) (k : QuartersOnly t u) : QuartersOnly s u := by
  obtain ⟨m, r, rfl, hr⟩ := h
  obtain ⟨m', r', rfl, hr'⟩ := k
  exact ⟨m', r', rfl, fun o ho => (hr' o ho).trans (hr o ho)⟩

theorem quartersOnly_leaveSref (s : State) (q : Nat) : QuartersOnly s (s.leaveSref q) := by
  unfold State.leaveSref
  dsimp only
  split
  · exact ⟨_, _, rfl, fun o ho => State.reg_setRb_ne _ _ _ (ho _)⟩
  · exact ⟨_, s.regs, rfl, fun _ _ => rfl⟩

/-- Out of self-refresh, unless MEM_CMD keeps the quarter there. -/
def LeftSref (q : Nat) (t : State) : Prop := t.rb (oMem (q / 4)) (4 + q % 4) = false → (t.quarter q).selfRef = false

theorem leaveSref_left (s : State) (q : Nat) : LeftSref q (s.leaveSref q) := by
  intro h
  unfold State.leaveSref at h ⊢
  dsimp only at h ⊢
  split at h
  · next hs => rw [if_pos hs]; exact congrArg Quarter.selfRef (quarter_setQuarter_same _ _ _)
  · next hs =>
    rw [if_neg hs]
    simp_all [State.wantsSref]

theorem quarter_leaveSref_ne (s : State) {q r : Nat} (h : r ≠ q) : (s.leaveSref q).quarter r = s.quarter r := by
  unfold State.leaveSref
  dsimp only
  split
  · exact (quarter_setQuarter_ne _ _ h).trans (quarter_setQuarter_ne s _ h)
  · exact quarter_setQuarter_ne s _ h

theorem oMem_ne_stat (j k : Nat) : oMem j ≠ oMem k + 4 := by simp only [oMem, ne_eq]; omega

theorem LeftSref.keeps {q r : Nat} (h : LeftSref q t) : LeftSref q (t.leaveSref r) := by
  by_cases e : q = r
  · exact e ▸ leaveSref_left t q
  · obtain ⟨_, _, -, hr⟩ := quartersOnly_leaveSref t r
    intro hq
    rw [quarter_leaveSref_ne t e]
    exact h ((congrArg (fun w => bit w _) (hr _ (oMem_ne_stat _)).symm).trans hq)

/-- Every quarter leaves self-refresh. -/
theorem leaveSrefs (s : State) (n : Nat) : QuartersOnly s ((List.range n).foldl State.leaveSref s) ∧
    ∀ q < n, LeftSref q ((List.range n).foldl State.leaveSref s) :=
  ⟨foldl_keeps _ (fun t q _ h => h.trans (quartersOnly_leaveSref t q)) ⟨s.mem, s.regs, rfl, fun _ _ => rfl⟩,
    fun q hq => foldl_sets (P := LeftSref) _ (fun t q _ => leaveSref_left t q) (fun _ _ _ _ _ h => h.keeps) s q (List.mem_range.2 hq)⟩

theorem oPwr_ne_stat (k : Nat) : oPwr ≠ oMem k + 4 := by simp only [oMem, oPwr, ne_eq]; omega

/-- Doze is left: CUR reads Idle, and the quarters that MEM_CMD does not keep in self-refresh leave it. -/
theorem exitDoze_leaves (s : State) : Apart s s.exitDoze ∧ MemSame s s.exitDoze ∧ s.exitDoze.pwr.change = s.pwr.change ∧
    s.exitDoze.reg oPwr = setFld (s.reg oPwr) 28 2 1 ∧
    ∀ q < 4 * s.nStacks, s.rb (oMem (q / 4)) (4 + q % 4) = false → (s.exitDoze.quarter q).selfRef = false := by
  obtain ⟨⟨mem, regs, hu, hregs⟩, hleft⟩ := leaveSrefs s (4 * s.nStacks)
  rw [State.exitDoze]
  rw [hu] at hregs hleft ⊢
  have hdown := aside_lanesDown_notPwr (({ s with mem := mem, regs := regs } : State).reach 1)
  have htakes := aside_taskTakes (({ s with mem := mem, regs := regs } : State).reach 1).lanesDown
  have h := (aside_reach _ 1).trans ((hdown.trans htakes).mono fun _ _ => trivial)
  refine ⟨h.apart, h.memSame, h.change, ?_, fun q hq hkeep => ?_⟩
  · rw [(hdown.trans htakes).pwr, reg_reach, hregs _ oPwr_ne_stat]
  · rw [h.quarter]
    exact hleft q hq ((congrArg (fun w => bit w _) (hregs _ (oMem_ne_stat _))).trans hkeep)

/-! #### What it leads to -/

theorem pwrCur_reach (s : State) {d : Nat} (hd : d < 4) : (s.reach d).pwrCur = d :=
  (congrArg (fun w => fld w 28 2) (reg_reach s d)).trans ((fld_setFld _ _ _ _ (by decide)).trans (Nat.mod_eq_of_lt hd))

section
variable {c : PwrChange}

theorem changeDone_idle (hdest : c.dest = 1) (hfinal : c.final = 1) (hcur : s.pwrCur = 0) (hok : s.endChange.idleOk = true) :
    s.changeDone c = s.endChange.reach 1 := by
  simp [State.changeDone, hdest, hfinal, hcur, hok, towards_reached (pwrCur_reach s.endChange (d := 1) (by decide))]

theorem changeDone_run (hdest : c.dest = 0) (hfinal : c.final = 0) : s.changeDone c = s.endChange.reach 0 := by
  simp [State.changeDone, hdest, hfinal, towards_reached (pwrCur_reach s.endChange (d := 0) (by decide))]

theorem aside_doze (s : State) : Aside (fun _ => True) s (s.lanesDown.reach 2) :=
  ((aside_lanesDown_notPwr s).mono fun _ _ => trivial).trans (aside_reach _ 2)

theorem changeDone_doze (hdest : c.dest = 2) (hfinal : c.final = 2) (hok : s.endChange.dozeOk = true)
    (hwake : s.endChange.pwr.wake = false) : s.changeDone c = s.endChange.lanesDown.reach 2 := by
  simp [State.changeDone, hdest, hfinal, hok, (aside_doze s.endChange).wake.trans hwake]

/-- Doze left for Idle alone. -/
theorem changeDone_exit (hdest : c.dest = 1) (hfinal : c.final = 1) (hcur : s.pwrCur = 2) (hexit : s.endChange.exitDoze.pwrCur = 1) :
    s.changeDone c = s.endChange.exitDoze := by
  simp [State.changeDone, hdest, hfinal, hcur, towards_reached hexit]

end

section
variable {c : PwrChange} {dt : Nat} (hu : s.hostUp = true) (hc : s.pwr.change = some c)
include hu hc

theorem exec_powerStateChangeDone (ht : c.since + changeTicks s.pwrCur c.dest ≤ s.time.ticks + dt)
    (hr : c.dest ≠ 2 ∨ s.dozeReady = true) : exec (.powerStateChangeDone dt) s = .next ((s.advance dt).changeDone c) := by
  have e : exec (.powerStateChangeDone dt) s = execPowerStateChangeDone dt s := rfl
  rw [e, execPowerStateChangeDone, hc]
  exact gate_of _ _ _ (by simpa [hu, ht] using hr)

/-- The time of a change to Idle has passed, and its conditions still hold. -/
theorem done_idle (hdest : c.dest = 1) (hfinal : c.final = 1) (hcur : s.rf 0x100000 28 2 = 0) (hok : s.idleOk = true)
    (ht : c.since + 6250 ≤ s.time.ticks + dt) : Completes (.powerStateChangeDone dt) s (Reached 1 s) := by
  have hcur' : s.pwrCur = 0 := hcur
  refine ⟨_, exec_powerStateChangeDone hu hc (by rwa [hcur', hdest]) (.inl (by omega)), ?_⟩
  rw [changeDone_idle hdest hfinal ((s.pwrCur_advance dt).trans hcur) ((s.idleOk_changeEnded dt).trans hok)]
  exact reached_of_aside (by decide) (aside_reach _ 1) (reg_reach _ 1)

/-- The time of a change to Run has passed. -/
theorem done_run (hdest : c.dest = 0) (hfinal : c.final = 0) (ht : c.since + 31250 ≤ s.time.ticks + dt) :
    Completes (.powerStateChangeDone dt) s (Reached 0 s) := by
  refine ⟨_, exec_powerStateChangeDone hu hc (by rwa [hdest]) (.inl (by omega)), ?_⟩
  rw [changeDone_run hdest hfinal]
  exact reached_of_aside (by decide) (aside_reach _ 0) (reg_reach _ 0)

/-- The entry to Doze is complete. -/
theorem done_doze (hdest : c.dest = 2) (hfinal : c.final = 2) (hwake : s.pwr.wake = false) (ht : c.since + 1250000 ≤ s.time.ticks + dt)
    (hr : s.dozeReady = true) (hok : s.dozeOk = true) : Completes (.powerStateChangeDone dt) s (Reached 2 s) := by
  refine ⟨_, exec_powerStateChangeDone hu hc (by rwa [hdest]) (.inr hr), ?_⟩
  rw [changeDone_doze hdest hfinal ((s.dozeOk_changeEnded dt).trans hok) ((s.wake_changeEnded dt).trans hwake)]
  exact reached_of_aside (by decide) (aside_doze _) (by rw [reg_reach, (aside_lanesDown_notPwr _).pwr])

/-- Doze is left, with every quarter that MEM_CMD does not keep there out of self-refresh. -/
theorem done_exit (hdest : c.dest = 1) (hfinal : c.final = 1) (hcur : s.rf 0x100000 28 2 = 2)
    (ht : c.since + 125000 ≤ s.time.ticks + dt) :
    Completes (.powerStateChangeDone dt) s (fun t => Apart s t ∧ MemSame s t ∧
      t.rf 0x100000 28 2 = 1 ∧ t.rb 0x100000 27 = false ∧ t.pwr.change = none ∧
      ∀ q < 4 * s.nStacks, s.rb (0x700000 + 0x10000 * (q / 4)) (4 + q % 4) = false → (t.quarter q).selfRef = false) := by
  have hcur' : s.pwrCur = 2 := hcur
  refine ⟨_, exec_powerStateChangeDone hu hc (by rwa [hcur', hdest]) (.inl (by omega)), ?_⟩
  obtain ⟨hapart, hmem, hchange, hreg, hleft⟩ := exitDoze_leaves (s.changeEnded dt)
  have hnum : (s.changeEnded dt).nStacks = s.nStacks := nStacks_congr (s.advance_fuse dt)
  have hcur1 : (s.changeEnded dt).exitDoze.pwrCur = 1 := (congrArg (fun w => fld w 28 2) hreg).trans (fld_setFld _ _ _ _ (by decide))
  have hdone : (s.advance dt).changeDone c = (s.changeEnded dt).exitDoze :=
    changeDone_exit hdest hfinal ((s.pwrCur_advance dt).trans hcur) hcur1
  rw [hdone]
  have hended : (s.changeEnded dt).pwr.change = none := rfl
  have h : Reached 1 s (s.changeEnded dt).exitDoze := reached_of (by decide) hapart hmem (hchange.trans hended) hreg
  obtain ⟨hapart', hmem', hcurI, hbusy, hnone⟩ := h
  refine ⟨hapart', hmem', hcurI, hbusy, hnone, fun q hq hkeep => hleft q (hnum.symm ▸ hq) ?_⟩
  have hcmd : (s.changeEnded dt).reg (oMem (q / 4)) = s.reg (oMem (q / 4)) :=
    s.reg_changeEnded_ne dt (by simp only [oMem]; omega) (by simp only [oMem]; omega) (by simp only [oMem, oPwr]; omega)
  exact (congrArg (fun w => bit w _) hcmd).trans hkeep

end

/-! ### In Doze -/

theorem onlyRegs_dozeAcc (s : State) : OnlyRegs [oPwr] s s.dozeAcc := (onlyRegs_of_stores rfl rfl rfl rfl rfl rfl).setReg _

section
variable (hu : s.hostUp = true) (hcur : s.rf 0x100000 28 2 = 2) {off : Nat} (hlt : off < 0x2000000) (hal : off % 4 = 0)
  (hmap : s.unmapped off = false) (hoff : runsInDoze off = false)
include hu hcur hlt hal hmap hoff

theorem doze_write (v : W32) : Completes (.registerWrite off v 0xF) s (fun t =>
    Apart s t ∧ MemSame s t ∧ RegsBut [0x100000] s t ∧ t.rb 0x100000 25 = true) := by
  have hdoze : s.dozing = true := by simpa [State.dozing] using hcur
  refine ⟨s.dozeAcc, ?_, (onlyRegs_dozeAcc s).and (State.rb_setRb _ _ _ _ (by decide))⟩
  rw [exec_registerWrite hu hlt hal, State.fabGo, if_pos hdoze, State.bar0Wr, if_neg (by omega), if_neg (by simp), State.regWr]
  simp [hmap, hdoze, hoff]

theorem doze_read : Completes (.rcRegisterRead ⟨off, 4⟩) s (fun t =>
    Apart s t ∧ MemSame s t ∧ RegsBut [0x100000] s t ∧ t.rb 0x100000 25 = true ∧ t.link.rdata = [0, 0, 0, 0]) := by
  have hdoze : s.dozing = true := by simpa [State.dozing] using hcur
  have hread : s.regRd off = (0, s.dozeAcc) := by simp [State.regRd, hmap, hdoze, hoff]
  refine ⟨s.dozeAcc.answer [0, 0, 0, 0] false, ?_,
    ((onlyRegs_dozeAcc s).answer _ _).and ⟨State.rb_setRb _ _ _ _ (by decide), rfl⟩⟩
  rw [exec_rcRegisterRead hu hlt hal, State.fabGo, if_pos hdoze, State.hostReg, show off / 4 * 4 = off by omega, hread, hal]
  rfl

end

/-! ### The end of a frequency gate -/

/-- The voltage control changes only its own register and the alerts. -/
def AvsReg (o : Nat) : Prop := o = 0x100014 ∨ o = oAlert

theorem aside_voutCommand (s : State) (v : Nat) : Aside W s (s.voutCommand v) := .ite (fun _ => .refl W s) fun _ => aside_setPwr s rfl rfl

theorem aside_setVset (s : State) (v : Nat) : Aside AvsReg s (s.setVset v) := by
  unfold State.setVset
  exact ((aside_setRf s 0 6 v (.inl rfl)).trans (aside_setPwr _ rfl rfl)).trans (aside_voutCommand _ v)

theorem aside_avsStep (s : State) : Aside AvsReg s s.avsStep := by
  unfold State.avsStep
  dsimp only
  cases s.avsMin with
  | none => exact .refl _ s
  | some m =>
    refine .ite (fun _ => .ite (fun _ => aside_setVset s _) fun _ => ?_) fun _ => .ite (fun _ => ?_) fun _ => aside_setPwr s rfl rfl
    · exact (aside_setRb s _ _ (.inl rfl)).trans (aside_setRb _ _ _ (.inr rfl))
    · exact .ite (fun _ => (aside_setPwr s rfl rfl).trans (aside_setVset _ _)) fun _ => aside_setPwr s rfl rfl

/-- The count that the gate of an island ends with: none where its clock does not run, or has stopped since the gate opened. -/
def State.gateCount (s : State) (counts : List (Nat × Nat)) (n : Nat) : Option Nat :=
  if s.islandOn n && !s.pwr.stopped.contains n then (counts.find? (fun c => c.1 == n)).map (·.2) else none

/-- The gate of one island ends. -/
def State.gateStep (counts : List (Nat × Nat)) (s : State) (n : Nat) : State :=
  if s.hasIsland n then s.gateIsland n (s.gateCount counts n) else s

/-- Every gate ends, from the state whose present gate opens. -/
def State.gatesEnd (s : State) (counts : List (Nat × Nat)) : State :=
  (List.range 497).foldl (State.gateStep counts) (s.setPwr fun p => { p with gate := s.time.ticks })

/-- The islands that do not run are noted for the next gate. -/
def State.gateNoted (s : State) : State := s.setPwr fun p => { p with stopped := (List.range 497).filter (fun n => !s.islandOn n) }

/-- After the gates, the next one begins, and the voltage control takes its step. -/
def State.gateClosed (s : State) : State := if s.gateNoted.avsOn then s.gateNoted.avsStep else s.gateNoted

theorem aside_gateClosed (s : State) : Aside AvsReg s s.gateClosed :=
  have hnoted : Aside AvsReg s s.gateNoted := aside_setPwr s rfl rfl
  .ite (fun _ => hnoted.trans (aside_avsStep _)) fun _ => hnoted

theorem exec_islFreqGateEnd {dt : Nat} (h : s.auxUp = true) (hg : s.pwr.gate + 625000 ≤ s.time.ticks + dt) (counts : List (Nat × Nat)) :
    exec (.islFreqGateEnd dt counts) s = .next ((s.advance dt).gatesEnd counts).gateClosed := by
  have e : exec (.islFreqGateEnd dt counts) s = execIslFreqGateEnd dt counts s := rfl
  rw [e, execIslFreqGateEnd, gate_of _ _ _ (by simp [h, tMs, hg])]
  rfl

/-- What the gates of the other islands leave: the registers of island n and of the power states, and which islands run. -/
structure GateKeeps (n : Nat) (s t : State) : Prop where
  aside : Aside (fun o => o ≠ oFreq n ∧ o ≠ oFmin n ∧ o ≠ oPwr) s t
  stopped : t.pwr.stopped = s.pwr.stopped
  tripped : t.pwr.tripped = s.pwr.tripped

theorem GateKeeps.refl (n : Nat) (s : State) : GateKeeps n s s := ⟨.refl _ s, rfl, rfl⟩

theorem GateKeeps.trans {n : Nat} (h : GateKeeps n s t) (k : GateKeeps n t u) : GateKeeps n s u :=
  ⟨h.aside.trans k.aside, k.stopped.trans h.stopped, k.tripped.trans h.tripped⟩

theorem GateKeeps.freq {n : Nat} (h : GateKeeps n s t) : t.reg (oFreq n) = s.reg (oFreq n) := h.aside.regs _ fun k => k.1 rfl
theorem GateKeeps.fmin {n : Nat} (h : GateKeeps n s t) : t.reg (oFmin n) = s.reg (oFmin n) := h.aside.regs _ fun k => k.2.1 rfl

theorem islandOn_congr (ht : t.pwr.tripped = s.pwr.tripped) (hc : t.reg oPwr = s.reg oPwr) (hm : t.mem = s.mem) (n : Nat) :
    t.islandOn n = s.islandOn n := by
  have hcur : t.pwrCur = s.pwrCur := congrArg (fun w => fld w 28 2) hc
  have hq : (t.quarter (n - 416)).selfRef = (s.quarter (n - 416)).selfRef := by rw [State.quarter, hm]; rfl
  rw [State.islandOn, ht, hcur, hq]; rfl

theorem GateKeeps.gateCount {n : Nat} (h : GateKeeps n s t) (counts : List (Nat × Nat)) : t.gateCount counts n = s.gateCount counts n := by
  rw [State.gateCount, islandOn_congr h.tripped (h.aside.regs _ fun k => k.2.2 rfl) h.aside.mem, h.stopped]; rfl

theorem hasIsland_congr (h : t.fuse = s.fuse) (n : Nat) : t.hasIsland n = s.hasIsland n := by
  rw [State.hasIsland, State.gradeC, h]; rfl

theorem aside_gateIsland (s : State) {n : Nat} (c : Option Nat) (hfreq : W (oFreq n)) (hfmin : W (oFmin n)) :
    Aside W s (s.gateIsland n c) := by
  cases c with
  | none => exact aside_setReg s _ hfreq
  | some f => exact (aside_setReg s _ hfreq).trans (aside_setReg _ _ hfmin)

theorem aside_gateStep (counts : List (Nat × Nat)) (s : State) {n : Nat} (hfreq : W (oFreq n)) (hfmin : W (oFmin n)) :
    Aside W s (s.gateStep counts n) := .ite (fun _ => aside_gateIsland s _ hfreq hfmin) fun _ => .refl W s

theorem pwr_gateStep (counts : List (Nat × Nat)) (s : State) (n : Nat) : (s.gateStep counts n).pwr = s.pwr := by
  unfold State.gateStep
  split
  · cases s.gateCount counts n <;> rfl
  · rfl

theorem gateKeeps_gateStep (counts : List (Nat × Nat)) (s : State) {m n : Nat} (hm : m < 497) (hn : n < 497) (h : m ≠ n) :
    GateKeeps n s (s.gateStep counts m) := by
  have hpwr := pwr_gateStep counts s m
  refine ⟨aside_gateStep counts s ?_ ?_, by rw [hpwr], by rw [hpwr]⟩ <;> simp only [oFreq, oFmin, oPwr] <;> omega

/-- Around one item of a list without repetition, a fold whose other steps keep a relation. -/
theorem foldl_around {α : Type} {f : State → α → State} {K : State → State → Prop} (hrefl : ∀ s, K s s)
    (htrans : ∀ s t u, K s t → K t u → K s u) {l : List α} (hl : l.Nodup) {x : α} (hx : x ∈ l)
    (hk : ∀ t, ∀ y ∈ l, y ≠ x → K t (f t y)) (s : State) : ∃ t, K s t ∧ K (f t x) (l.foldl f s) := by
  obtain ⟨a, b, rfl⟩ := List.mem_iff_append.1 hx
  have hfold : ∀ l' : List α, (∀ y ∈ l', y ∈ a ++ x :: b ∧ y ≠ x) → ∀ s, K s (l'.foldl f s) := fun l' hl' s =>
    foldl_keeps (P := K s) l' (fun t y hy h => htrans _ _ _ h (hk t y (hl' y hy).1 (hl' y hy).2)) (hrefl s)
  have hnot : x ∉ a ++ b := (List.nodup_middle.1 hl).notMem
  rw [List.foldl_append, List.foldl_cons]
  refine ⟨_, hfold a (fun y hy => ⟨by simp [hy], ?_⟩) s, hfold b (fun y hy => ⟨by simp [hy], ?_⟩) _⟩
  · rintro rfl; exact hnot (by simp [hy])
  · rintro rfl; exact hnot (by simp [hy])

/-- Of a present island, the end of the gates shows its own gate. -/
theorem gatesEnd_of (s : State) (counts : List (Nat × Nat)) {n : Nat} (hn : n < 497) (hi : s.hasIsland n = true) :
    Aside (fun _ => True) s (s.gatesEnd counts) ∧ ∃ t : State, t.reg (oFmin n) = s.reg (oFmin n) ∧
      (s.gatesEnd counts).reg (oFreq n) = (t.gateIsland n (s.gateCount counts n)).reg (oFreq n) ∧
      (s.gatesEnd counts).reg (oFmin n) = (t.gateIsland n (s.gateCount counts n)).reg (oFmin n) := by
  have hopen : GateKeeps n s (s.setPwr fun p => { p with gate := s.time.ticks }) := ⟨aside_setPwr s rfl rfl, rfl, rfl⟩
  refine ⟨(hopen.aside.mono fun _ _ => trivial).trans (.foldl _ (fun t m _ => aside_gateStep counts t trivial trivial) _), ?_⟩
  obtain ⟨t, hst, hend⟩ := foldl_around (f := State.gateStep counts) (GateKeeps.refl n) (fun _ _ _ h k => h.trans k) List.nodup_range
    (List.mem_range.2 hn) (fun t m hm hne => gateKeeps_gateStep counts t (List.mem_range.1 hm) hn hne)
    (s.setPwr fun p => { p with gate := s.time.ticks })
  have hst := hopen.trans hst
  have hstep : t.gateStep counts n = t.gateIsland n (s.gateCount counts n) := by
    rw [State.gateStep, if_pos ((hasIsland_congr hst.aside.fuse n).trans hi), hst.gateCount]
  rw [hstep] at hend
  exact ⟨t, hst.fmin, hend.freq, hend.fmin⟩

theorem gateIsland_none (s : State) (n : Nat) : (s.gateIsland n none).reg (oFreq n) = 0x40000000#32 ∧
    (s.gateIsland n none).reg (oFmin n) = s.reg (oFmin n) :=
  ⟨State.reg_setReg _ _ _, State.reg_setReg_ne _ _ (by simp only [oFreq, oFmin]; omega)⟩

theorem gateIsland_some (s : State) (n : Nat) {f : Nat} (hf : f < 2 ^ 24) :
    (s.gateIsland n (some f)).reg (oFreq n) = lo32 (2 ^ 31 + f) ∧
      (s.gateIsland n (some f)).rf (oFmin n) 0 24 = min (s.rf (oFmin n) 0 24) f := by
  have hne : oFmin n ≠ oFreq n := by simp only [oFreq, oFmin]; omega
  have hmin : (s.setReg (oFreq n) (lo32 (2 ^ 31 + f))).rf (oFmin n) 0 24 = s.rf (oFmin n) 0 24 :=
    congrArg (fun w => fld w 0 24) (s.reg_setReg_ne _ hne)
  rw [State.gateIsland, Nat.mod_eq_of_lt hf, hmin]
  refine ⟨(State.reg_setReg_ne _ _ hne.symm).trans (State.reg_setReg _ _ _), ?_⟩
  rw [State.rf, State.reg_setReg]
  have hlt : min (s.rf (oFmin n) 0 24) f < 2 ^ 24 := (Nat.min_le_right _ _).trans_lt hf
  simp only [fld, lo32, BitVec.toNat_ofNat]
  omega

/-- The end of a frequency gate. -/
theorem gate_ends {dt : Nat} {counts : List (Nat × Nat)} {n f : Nat} (hup : s.auxUp = true)
    (hg : s.pwr.gate + 625000 ≤ s.time.ticks + dt)
    (hn : n < 497) (hi : s.hasIsland n = true) (hf : f < 2 ^ 24) (hcount : counts.find? (fun c => c.1 == n) = some (n, f)) :
    Completes (.islFreqGateEnd dt counts) s (fun t => Apart s t ∧ MemSame s t ∧
      (s.islandOn n = true → n ∉ s.pwr.stopped → t.reg (0x104000 + 4 * n) = lo32 (2 ^ 31 + f) ∧
        t.rf (0x105000 + 4 * n) 0 24 = min (s.rf (0x105000 + 4 * n) 0 24) f) ∧
      (s.islandOn n = false ∨ n ∈ s.pwr.stopped → t.reg (0x104000 + 4 * n) = 0x40000000#32 ∧
        t.reg (0x105000 + 4 * n) = s.reg (0x105000 + 4 * n))) := by
  have hclosed := aside_gateClosed ((s.advance dt).gatesEnd counts)
  have hfreq : ¬ AvsReg (oFreq n) := by simp only [AvsReg, oFreq, oAlert]; omega
  have hfmin : ¬ AvsReg (oFmin n) := by simp only [AvsReg, oFmin, oAlert]; omega
  have hmin : (s.advance dt).reg (oFmin n) = s.reg (oFmin n) :=
    s.reg_advance_ne dt (by simp only [oFmin]; omega) (by simp only [oFmin]; omega)
  obtain ⟨hends, t, htmin, hregF, hregM⟩ := gatesEnd_of (s.advance dt) counts hn ((hasIsland_congr (s.advance_fuse dt) n).trans hi)
  have hrest := hends.trans (hclosed.mono fun _ _ => trivial)
  have hon : (s.advance dt).islandOn n = s.islandOn n :=
    islandOn_congr (by rw [s.advance_pwr]) (s.reg_advance_ne dt (by decide) (by decide)) (s.advance_mem dt) n
  have hstopped : (s.advance dt).pwr.stopped = s.pwr.stopped := by rw [s.advance_pwr]
  have hfreqs := (hclosed.regs _ hfreq).trans hregF
  have hmins := (hclosed.regs _ hfmin).trans hregM
  refine ⟨_, exec_islFreqGateEnd hup hg counts, ⟨hrest.pending.trans (s.advance_pending dt), hrest.fuse.trans (s.advance_fuse dt)⟩,
    (s.memSame_advance dt).trans hrest.memSame, fun hr hns => ?_, fun h => ?_⟩
  · have hc : (s.advance dt).gateCount counts n = some f := by simp [State.gateCount, hon, hr, hns, hcount]
    rw [hc] at hfreqs hmins
    obtain ⟨hF, hM⟩ := gateIsland_some t n hf
    refine ⟨hfreqs.trans hF, (congrArg (fun w => fld w 0 24) hmins).trans (hM.trans ?_)⟩
    exact congrArg (fun w => min (fld w 0 24) f) (htmin.trans hmin)
  · have hc : (s.advance dt).gateCount counts n = none := by
      rw [State.gateCount, hon, hstopped]
      rcases h with h | h <;> simp [h]
    rw [hc] at hfreqs hmins
    obtain ⟨hF, hM⟩ := gateIsland_none t n
    exact ⟨hfreqs.trans hF, hmins.trans (hM.trans (htmin.trans hmin))⟩

/-! ### The obligation -/

theorem dozeReady_of (hq : ∀ q < 4 * s.nStacks, (s.quarter q).selfRef = true)
    (hc : ∀ e ∈ s.cores, e.2.load = none ∧ e.2.store = false) (hw : s.xbr.waiting = []) : s.dozeReady = true := by
  have hcores : s.cores.all (fun e => e.2.load.isNone && !e.2.store) = true := by
    rw [List.all_eq_true]
    intro e he
    obtain ⟨hload, hstore⟩ := hc e he
    simp [hload, hstore]
  have hquarters : (List.range (4 * s.nStacks)).all (fun q => (s.quarter q).selfRef) = true := by simpa using hq
  simp [State.dozeReady, hcores, hquarters, hw]

/-- Settles O7: a request and the end of a change each lead to one row of the transitions, whose lanes, islands, quarters and
Keepers stand beside PWR_STATE; of the gates, each writes the two registers of its own island. -/
theorem powerStatesAndIslandGates : Obligations.PowerStatesAndIslandGates := by
  unfold Obligations.PowerStatesAndIslandGates
  refine ⟨fun s hu => ⟨?_, ?_, ?_, ?_, ?_, ?_⟩, fun s dt counts n f hup hg hn hi hf hcount => gate_ends hup hg hn hi hf hcount⟩
  · exact fun v hc hcur hv => request_idle hu hc hcur hv
  · exact fun c dt hc hdest hfinal hcur hok ht => done_idle hu hc hdest hfinal hcur hok ht
  · exact fun c dt hc hdest hfinal ht => done_run hu hc hdest hfinal ht
  · exact fun v hc hcur hv => request_doze hu hc hcur hv
  · exact fun c dt hc hdest hfinal hwake ht hq hcores hw hdma =>
      done_doze hu hc hdest hfinal hwake ht (dozeReady_of hq hcores hw) ((dozeOk_iff s).2 hdma)
  · intro hcur
    refine ⟨fun off v hlt hal hmap hoff => ?_, fun v hc hv => request_exit hu hcur hc hv, fun c dt hc hdest hfinal ht =>
      done_exit hu hc hdest hfinal hcur ht⟩
    exact ⟨doze_write hu hcur hlt hal hmap hoff v, doze_read hu hcur hlt hal hmap hoff⟩

end Sys2Proof.Machine
end

section
/-! PROOF. The words of a kiln: exact additions within the limits of R35, the bytes of an E48 word and of a K16 line, and the parts
of a byte string in memory. -/

namespace Sys2Proof.Machine

/-! ### Exact additions (R35) -/

theorem e48Add_exact {v d : Int} (h : (v + d).natAbs < 2 ^ 47) : e48Add false v d = (v + d, false) := by
  have hmax : ¬ e48Max < v + d := by simp only [e48Max]; omega
  have hmin : ¬ v + d < -e48Max := by simp only [e48Max]; omega
  simp [e48Add, hmax, hmin]

theorem countAdd_exact {v d : Nat} (h : v + d < 2 ^ 32) : countAdd false v d = (v + d, false) := by
  have hmax : ¬ countMax < v + d := by simp only [countMax]; omega
  simp [countAdd, hmax]

/-- A word with no field saturated adds a chunk's sum exactly within the limits. -/
theorem SpanAcc.add_sum_exact {a : SpanAcc} {d : E48} (ha : a.stuck = (false, false, false)) (hre : (a.sum.re + d.re).natAbs < 2 ^ 47)
    (him : (a.sum.im + d.im).natAbs < 2 ^ 47) (hn : a.sum.count + d.count < 2 ^ 32) (bad : Bool) :
    (a.add d bad).sum = ⟨a.sum.re + d.re, a.sum.im + d.im, a.sum.count + d.count⟩ := by
  simp only [SpanAcc.add, ha, e48Add_exact hre, e48Add_exact him, countAdd_exact hn]

/-- The same of a line's word, where neither it nor the span's sum has a saturated field. -/
theorem e48Upd_exact {old : E48} {a : SpanAcc} (ha : a.stuck = (false, false, false)) (hre : (old.re + a.sum.re).natAbs < 2 ^ 47)
    (him : (old.im + a.sum.im).natAbs < 2 ^ 47) (hn : old.count + a.sum.count < 2 ^ 32) (w : Nat) :
    (e48Upd [] w old a).1 = ⟨old.re + a.sum.re, old.im + a.sum.im, old.count + a.sum.count⟩ := by
  simp [e48Upd, ha, e48Add_exact hre, e48Add_exact him, countAdd_exact hn]

/-! ### Byte strings -/

@[simp] theorem length_leBytes (n v : Nat) : (leBytes n v).length = n := by
  induction n generalizing v with
  | zero => rfl
  | succ n ih => rw [leBytes, List.length_cons, ih]

theorem ofLe_leBytes (n v : Nat) : ofLe (leBytes n v) = v % 256 ^ n := by
  induction n generalizing v with
  | zero => simp [leBytes, ofLe, Nat.mod_one]
  | succ n ih =>
    have hdigit : v % 256 ^ (n + 1) = v % 256 + 256 * (v / 256 % 256 ^ n) := by rw [← Nat.mod_mul, Nat.pow_succ']
    rw [leBytes, ofLe, ih, BitVec.toNat_ofNat, Nat.shiftRight_eq_div_pow, hdigit]

@[simp] theorem length_rdBytes (m : List Host.Cell) (a n : Nat) : (rdBytes m a n).length = n := by simp [rdBytes]

theorem rdBytes_congr {m m' : List Host.Cell} {a n : Nat} (h : ∀ i < n, rd8 m' (a + i) = rd8 m (a + i)) :
    rdBytes m' a n = rdBytes m a n :=
  List.map_congr_left fun i hi => h i (List.mem_range.1 hi)

/-- A part of the bytes read is what a read of that part gives. -/
theorem take_drop_rdBytes (m : List Host.Cell) (a : Nat) {n i k : Nat} (h : i + k ≤ n) :
    ((rdBytes m a n).drop i).take k = rdBytes m (a + i) k := by
  refine List.ext_getElem (by simp; omega) fun j _ _ => ?_
  simp [rdBytes, Nat.add_assoc]

/-- Of strings of one length put end to end, the part at the place of one is that one. -/
theorem take_drop_flatMap {α β : Type} {f : α → List β} {k : Nat} (hf : ∀ x, (f x).length = k) (l : List α) {q : Nat}
    (hq : q < l.length) : ((l.flatMap f).drop (k * q)).take k = f l[q] := by
  induction l generalizing q with
  | nil => simp at hq
  | cons x l ih =>
    rw [List.flatMap_cons]
    cases q with
    | zero => simp [← hf x]
    | succ q =>
      have hdrop : (f x ++ l.flatMap f).drop (k * (q + 1)) = (l.flatMap f).drop (k * q) := by
        rw [Nat.mul_succ, Nat.add_comm, ← List.drop_drop, ← hf x, List.drop_left]
      rw [hdrop]
      exact ih (by simpa using hq)

theorem length_flatMap_const {α β : Type} {f : α → List β} {k : Nat} (hf : ∀ x, (f x).length = k) (l : List α) :
    (l.flatMap f).length = k * l.length := by
  simp [List.length_flatMap, hf, Nat.mul_comm]

/-! ### The bytes of a word (R34) and of a line (R36) -/

@[simp] theorem E48.length_bytes (w : E48) : w.bytes.length = 16 := by simp [E48.bytes]

@[simp] theorem K16Line.length_bytes (l : K16Line) : l.bytes.length = 64 :=
  length_flatMap_const (k := 8) (fun _ => by simp) _

theorem signI_wrapI_48 {z : Int} (h : z.natAbs < 2 ^ 47) : signI 48 (wrapI 48 z) = z := by
  have hlt : wrapI 48 z < 2 ^ 48 := by simp only [wrapI]; omega
  simp only [signI, Nat.mod_eq_of_lt hlt]
  rcases le_or_gt 0 z with hz | hz
  · rw [if_pos (by simp only [wrapI]; omega)]
    simp only [wrapI]; omega
  · rw [if_neg (by simp only [wrapI]; omega)]
    simp only [wrapI]; omega

/-- An E48 word within its limits reads back from its bytes. -/
theorem E48.ofBytes_bytes {w : E48} (hre : w.re.natAbs < 2 ^ 47) (him : w.im.natAbs < 2 ^ 47) (hn : w.count < 2 ^ 32) :
    E48.ofBytes w.bytes = w := by
  have hsix : ∀ z : Int, ofLe (leBytes 6 (wrapI 48 z)) = wrapI 48 z := fun z => by
    rw [ofLe_leBytes, wrapI, Nat.mod_eq_of_lt]; omega
  have h0 : field w.bytes 0 6 = wrapI 48 w.re := by simp [E48.bytes, field, hsix]
  have h6 : field w.bytes 6 6 = wrapI 48 w.im := by simp [E48.bytes, field, hsix]
  have h12 : field w.bytes 12 4 = w.count := by
    have hdrop : w.bytes.drop 12 = leBytes 4 w.count := List.drop_left' (by simp)
    have htake : (leBytes 4 w.count).take 4 = leBytes 4 w.count := List.take_of_length_le (by simp)
    rw [field, hdrop, htake, ofLe_leBytes, Nat.mod_eq_of_lt (by omega)]
  rw [E48.ofBytes, h0, h6, h12, signI_wrapI_48 hre, signI_wrapI_48 him]

theorem E48.ofBytes_zeros : E48.ofBytes (List.replicate 16 0) = E48.zero := by decide

end Sys2Proof.Machine
end

section
/-! PROOF. Tiles: the sums of a chunk's cells, and what taking up, completing and draining a chunk does. -/

namespace Sys2Proof.Machine

variable {s : State}

/-! ### The sum of a cell (R31, R90) -/

/-- What one block adds to a cell: the products of R31 where it is valid in both inputs, and its 128 instants. -/
def blockSum : Option (List (Int × Int)) → Option (List (Int × Int)) → E48
  | some u, some v =>
    ⟨(List.zipWith (fun x y => x.1 * y.1 + x.2 * y.2) u v).sum, (List.zipWith (fun x y => x.2 * y.1 - x.1 * y.2) u v).sum, 128⟩
  | _, _ => E48.zero

theorem foldl_pair_add (l : List (Int × Int)) (t : Int × Int) :
    l.foldl (fun (t : Int × Int) p => (t.1 + p.1, t.2 + p.2)) t = (t.1 + (l.map (·.1)).sum, t.2 + (l.map (·.2)).sum) := by
  induction l generalizing t with
  | nil => simp
  | cons p l ih => simp [ih, add_assoc]

/-- What a block adds, written out as a triple. -/
theorem blockSum_triple (x y : Option (List (Int × Int))) : ((blockSum x y).re, (blockSum x y).im, (blockSum x y).count) =
    match x, y with
    | some u, some v => ((List.zipWith (fun (x y : Int × Int) => x.1 * y.1 + x.2 * y.2) u v).sum,
        (List.zipWith (fun (x y : Int × Int) => x.2 * y.1 - x.1 * y.2) u v).sum, 128)
    | _, _ => (0, 0, 0) := by
  cases x with
  | none => rfl
  | some u => cases y with
    | none => rfl
    | some v => rfl

theorem blockSum_count (x y : Option (List (Int × Int))) : (blockSum x y).count = 0 ∨ (blockSum x y).count = 128 := by
  cases x with
  | none => exact .inl rfl
  | some u => cases y with
    | none => exact .inl rfl
    | some v => exact .inr rfl

/-- The step of the sum over the blocks adds what the block adds. -/
theorem cellSum_foldl (l : List (Option (List (Int × Int)) × Option (List (Int × Int)))) (a : E48) :
    l.foldl (fun (a : E48) q => match q with
      | (some u, some v) =>
        let z := (List.zipWith product u v).foldl (fun (t : Int × Int) p => (t.1 + p.1, t.2 + p.2)) (0, 0)
        ⟨a.re + z.1, a.im + z.2, a.count + 128⟩
      | _ => a) a =
    ⟨a.re + (l.map fun q => (blockSum q.1 q.2).re).sum, a.im + (l.map fun q => (blockSum q.1 q.2).im).sum,
      a.count + (l.map fun q => (blockSum q.1 q.2).count).sum⟩ := by
  induction l generalizing a with
  | nil => simp
  | cons q l ih =>
    rw [List.foldl_cons, ih]
    rcases q with ⟨_ | u, _ | v⟩ <;> simp [blockSum, E48.zero, foldl_pair_add, List.map_zipWith, product, add_assoc]

/-- The sum of a cell over blocks is that of what each adds. -/
theorem cellSum_map {α : Type} (f g : α → Option (List (Int × Int))) (l : List α) : cellSum (l.map f) (l.map g) =
    ⟨(l.map fun b => (blockSum (f b) (g b)).re).sum, (l.map fun b => (blockSum (f b) (g b)).im).sum,
      (l.map fun b => (blockSum (f b) (g b)).count).sum⟩ := by
  refine (cellSum_foldl _ _).trans ?_
  simp [List.zip_map', E48.zero, Function.comp_def]

/-- The count of a cell is 128 for each block valid in both inputs, so at most 128 for each block. -/
theorem cellSum_count {α : Type} (f g : α → Option (List (Int × Int))) (l : List α) :
    (cellSum (l.map f) (l.map g)).count % 128 = 0 ∧ (cellSum (l.map f) (l.map g)).count ≤ 128 * l.length := by
  rw [cellSum_map]
  dsimp only
  induction l with
  | nil => simp
  | cons b l ih =>
    have hb := blockSum_count (f b) (g b)
    simp only [List.map_cons, List.sum_cons, List.length_cons]
    omega

/-! ### The sums of a chunk -/

/-- Rows and columns of the kept cells are those of a tile. -/
theorem cells_lt {d : KilnDesc} {p q c : Nat} {z : Nat × Nat × Nat} (hz : z ∈ d.cells p q c) : z.1 < 64 ∧ z.2.1 < 64 := by
  simp only [KilnDesc.cells, List.mem_flatMap, List.mem_filterMap, List.mem_range] at hz
  obtain ⟨r, hr, k, hk, hz⟩ := hz
  split at hz
  · cases hz; exact ⟨hr, hk⟩
  · exact absurd hz (by simp)

/-- The samples of position `n` of a kiln's inputs in block `b` of a channel, where it is valid. -/
def State.sideSamples (s : State) (kp : KilnPlace) (c n b : Nat) : Option (List (Int × Int)) :=
  (kp.inputs[n]?).bind fun i => (s.slotAt c b).bind fun x => (x.valid? i).map fun y => samplesOf kp.desc.c3 y i

/-- What block `b` adds to a cell of a chunk. -/
def State.cellBlock (s : State) (kp : KilnPlace) (h : Chunk) (z : Nat × Nat × Nat) (b : Nat) : E48 :=
  blockSum (s.sideSamples kp h.chan (64 * h.p + z.1) b) (s.sideSamples kp h.chan (64 * h.q + z.2.1) b)

/-- The sum of a cell of a chunk over its blocks. -/
def State.chunkCell (s : State) (kp : KilnPlace) (h : Chunk) (z : Nat × Nat × Nat) : E48 :=
  cellSum ((chunkBlocks h.first kp.l).map (s.sideSamples kp h.chan (64 * h.p + z.1)))
    ((chunkBlocks h.first kp.l).map (s.sideSamples kp h.chan (64 * h.q + z.2.1)))

theorem chunkSums_eq (s : State) (kp : KilnPlace) (h : Chunk) : s.chunkSums kp h =
    (kp.desc.cells h.p h.q (h.chan - kp.desc.chFirst)).map fun z => (z.2.2, s.chunkCell kp h z) := by
  refine List.map_congr_left fun z hz => ?_
  obtain ⟨hr, hc⟩ := cells_lt hz
  simp only [List.getD_eq_getElem?_getD, List.getElem?_map, List.getElem?_range, hr, hc]
  rfl

theorem chunkCell_count (s : State) (kp : KilnPlace) (h : Chunk) (z : Nat × Nat × Nat) :
    (s.chunkCell kp h z).count % 128 = 0 ∧ (s.chunkCell kp h z).count ≤ kp.l := by
  obtain ⟨hmod, hle⟩ := cellSum_count (s.sideSamples kp h.chan (64 * h.p + z.1)) (s.sideSamples kp h.chan (64 * h.q + z.2.1))
    (chunkBlocks h.first kp.l)
  have hlen : (chunkBlocks h.first kp.l).length = kp.l / 128 := by simp [chunkBlocks]
  exact ⟨hmod, by rw [hlen] at hle; exact hle.trans (Nat.mul_div_le _ _)⟩

theorem chunkCell_eq (s : State) (kp : KilnPlace) (h : Chunk) (z : Nat × Nat × Nat) : s.chunkCell kp h z =
    ⟨((chunkBlocks h.first kp.l).map fun b => (s.cellBlock kp h z b).re).sum,
      ((chunkBlocks h.first kp.l).map fun b => (s.cellBlock kp h z b).im).sum,
      ((chunkBlocks h.first kp.l).map fun b => (s.cellBlock kp h z b).count).sum⟩ := cellSum_map _ _ _

/-! ### The registers of a tile -/

/-- WHL_CHUNKS and WHL_STALL of a tile. -/
theorem whlChunks_eq (t : Nat) : 0xC00004 + 0x10 * t = oWhl t + 4 := by simp only [oWhl]; omega
theorem whlStall_eq (t : Nat) : 0xC00008 + 0x10 * t = oWhl t + 8 := by simp only [oWhl]; omega

/-! ### A chunk begins (R88) -/

theorem exec_tileChunkStart {t k x c i n : Nat} {kp : KilnPlace} (hup : s.up = true) (hcur : (s.tile t).cur = none)
    (hfull : (s.tile t).full.length ≤ 1) (hn : s.nextPair t = some (k, kp, x, c, i, n)) (hh : (s.kiln k).holds x = false)
    (hb : ∀ b ∈ chunkBlocks x kp.l, s.isReleased c b = true) : exec (.tileChunkStart t) s = .next (s.setTile t { s.tile t with
      cur := some ⟨k, (kp.desc.pairs.getD n (0, 0)).1, (kp.desc.pairs.getD n (0, 0)).2, c, x⟩, at_ := (x, c, i) }) := by
  have e : exec (.tileChunkStart t) s = execTileChunkStart t s := rfl
  have hblocks : (chunkBlocks x kp.l).all (s.isReleased c) = true := List.all_eq_true.2 hb
  rw [e, execTileChunkStart, hn]
  exact gate_of _ _ _ (by simp [hup, hcur, hfull, hh, hblocks])

/-! ### A chunk ends (R87, R89) -/

/-- Slots consumed and freed: nothing but the rings changes. -/
theorem consume_rings (s : State) (reader c lo hi : Nat) : ∃ rings, s.consume reader c lo hi = { s with asm_ := rings } := by
  unfold State.consume State.freeSlots
  extract_lets
  split
  · exact ⟨_, rfl⟩
  · exact ⟨_, rfl⟩

/-- The end of a chunk: the tile's banks, its stalled cycles and the rings change, and nothing else. -/
theorem chunkEnd_eq (s : State) (t : Nat) (h : Chunk) (p : Placement) (w : TileWork) (kp : KilnPlace) : ∃ v regs rings,
    s.chunkEnd t h p w kp = { s.setTile t v with regs := regs, asm_ := rings } ∧ v.cur = none ∧
      v.full = (s.tile t).full ++ [⟨h, s.chunkSums kp h⟩] ∧ RegsBut [oWhl t + 8] s (s.chunkEnd t h p w kp) := by
  have hcnt : ∀ u : State, ∃ regs, (if kp.desc.c3 ∧ kp.l = 128 then u.cnt (oWhl t + 8) 6 else u) = { u with regs := regs } ∧
      ∀ o, o ∉ [oWhl t + 8] → sget regReset regs o = u.reg o := fun u => by
    split
    · exact ⟨_, rfl, fun o ho => u.reg_cnt_ne 6 (List.mem_singleton.not.1 ho)⟩
    · exact ⟨u.regs, rfl, fun _ _ => rfl⟩
  unfold State.chunkEnd
  extract_lets v i full u w'
  obtain ⟨regs, hw, hregs⟩ := hcnt u
  have hw : w' = { u with regs := regs } := hw
  split
  · obtain ⟨rings, hr⟩ := consume_rings w' t h.chan (h.first / 128) ((h.first + kp.l) / 128)
    rw [hr, hw]
    exact ⟨_, regs, rings, rfl, rfl, rfl, hregs⟩
  · rw [hw]
    exact ⟨_, regs, u.asm_, rfl, rfl, rfl, hregs⟩

/-- What the end of a chunk leaves, and the tile's banks after it. -/
theorem chunkEnd_leaves (s : State) (t : Nat) (h : Chunk) (p : Placement) (w : TileWork) (kp : KilnPlace) :
    OnlyRegs [oWhl t + 8] s (s.chunkEnd t h p w kp) ∧ ((s.chunkEnd t h p w kp).tile t).cur = none ∧
      (s.chunkEnd t h p w kp).kilns = s.kilns ∧
      ((s.chunkEnd t h p w kp).tile t).full = (s.tile t).full ++ [⟨h, s.chunkSums kp h⟩] := by
  obtain ⟨v, regs, rings, hend, hcur, hfull, hregs⟩ := chunkEnd_eq s t h p w kp
  have htile : (s.chunkEnd t h p w kp).tile t = v := by rw [hend]; exact s.setTile_tile t v
  have hapart : Apart s (s.chunkEnd t h p w kp) := by rw [hend]; exact ⟨rfl, rfl⟩
  have hmem : MemSame s (s.chunkEnd t h p w kp) := by rw [hend]; exact fun _ => ⟨rfl, rfl, rfl⟩
  exact ⟨⟨hapart, hmem, hregs⟩, htile ▸ hcur, by rw [hend]; rfl, htile ▸ hfull⟩

theorem exec_chunkEnd {t : Nat} {h : Chunk} {p : Placement} {w : TileWork} {kp : KilnPlace} (hup : s.up = true)
    (hcur : (s.tile t).cur = some h) (hp : s.plc.cur = some p) (hw : s.tileWork t = some w) (hk : s.placedKiln h.kiln = some kp)
    (hh : (s.kiln h.kiln).holds h.first = false) : exec (.chunkEnd t) s = .next (s.chunkEnd t h p w kp) := by
  have e : exec (.chunkEnd t) s = execChunkEnd t s := rfl
  rw [e, execChunkEnd, hcur, hp, hw]
  dsimp only
  rw [hk]
  exact gate_of _ _ _ (by simp [hup, hh])

/-! ### A bank drained (R89, R94) -/

section
variable (hups : s.err.upsets = [])
include hups

/-- With no upset about, no word of a memory reads wrong. -/
theorem upsetsIn_clean (cls unit lo hi : Nat) : s.upsetsIn cls unit lo hi = [] := by simp [State.upsetsIn, hups, sortBy]

theorem scan_clean (cls unit lo hi access ctx : Nat) (poison : Bool) : s.scan cls unit lo hi access ctx poison = ([], s) := by
  rw [State.scan, upsetsIn_clean hups]; rfl

theorem clean_clean (cls unit lo hi : Nat) : s.clean cls unit lo hi = s := by
  have herr : { s.err with upsets := [] } = s.err := by rw [← hups]
  rw [State.clean, State.setErr, hups, List.filter_nil, herr]

theorem shelfScan_clean (k : Nat) (p : KilnPlace) (x : Bank) (ws : List Nat) (ctx : Nat) : s.shelfScan k p x ws ctx = ([], s) :=
  if_pos (.inr (by simp [hups]))

end

/-- Where no corrected error is on record, no unit is excluded. -/
theorem excludeCheck_clean (h : s.plc.ceTicks = []) : s.excludeCheck = s := by
  rw [State.excludeCheck, h]
  exact ite_self _

/-- What a slice holds for a word and span, zero where nothing has come yet. -/
def Kiln.spanAcc (v : Kiln) (w x : Nat) : SpanAcc := (v.spanAt w x).getD ⟨x, 0, E48.zero, (false, false, false), false⟩

theorem spanAcc_first (v : Kiln) (w x : Nat) : (v.spanAcc w x).first = x := by
  unfold Kiln.spanAcc
  cases h : v.spanAt w x with
  | none => rfl
  | some a => simpa using List.find?_some h

theorem spanAt_contribute_same (v : Kiln) (w x : Nat) (d : E48) (bad : Bool) :
    (v.contribute w x d bad).spanAt w x = some ((v.spanAcc w x).add d bad) := by
  have hrest : ((tget [] v.acc w).filter fun a => a.first != x).find? (fun a => a.first == x) = none := by simp
  have hnew : ((v.spanAcc w x).add d bad).first = x := spanAcc_first v w x
  rw [Kiln.spanAt, Kiln.contribute, tget_tset_same, List.find?_append, hrest]
  exact List.find?_cons_of_pos (p := fun a : SpanAcc => a.first == x) (a := (v.spanAcc w x).add d bad) (beq_iff_eq.2 hnew)

theorem spanAt_contribute_ne (v : Kiln) {w w' : Nat} (hw : w' ≠ w) (x y : Nat) (d : E48) (bad : Bool) :
    (v.contribute w x d bad).spanAt w' y = v.spanAt w' y := by
  rw [Kiln.spanAt, Kiln.contribute, tget_tset_ne _ _ _ hw]; rfl

section
variable {bad : Nat → Bool} {x : Nat}

/-- Contributions to a span, word by word, leave the words not named. -/
theorem spanAt_contributes_ne {l : List (Nat × E48)} {w : Nat} (hw : w ∉ l.map (·.1)) (v : Kiln) :
    (l.foldl (fun y e => y.contribute e.1 x e.2 (bad e.1)) v).spanAt w x = v.spanAt w x := by
  induction l generalizing v with
  | nil => rfl
  | cons e l ih =>
    simp only [List.map_cons, List.mem_cons, not_or] at hw
    exact (ih hw.2 _).trans (spanAt_contribute_ne v hw.1 _ _ _ _)

/-- Of contributions to different words, each adds its sum to what its word held. -/
theorem spanAt_contributes {l : List (Nat × E48)} (hl : (l.map (·.1)).Nodup) {e : Nat × E48} (he : e ∈ l) (v : Kiln) :
    (l.foldl (fun y e => y.contribute e.1 x e.2 (bad e.1)) v).spanAt e.1 x = some ((v.spanAcc e.1 x).add e.2 (bad e.1)) := by
  induction l generalizing v with
  | nil => exact absurd he List.not_mem_nil
  | cons f l ih =>
    obtain ⟨hf, hl⟩ := List.nodup_cons.1 hl
    rw [List.foldl_cons]
    rcases List.mem_cons.1 he with rfl | he
    · exact (spanAt_contributes_ne hf _).trans (spanAt_contribute_same v _ _ _ _)
    · have hne : e.1 ≠ f.1 := fun h => hf (List.mem_map.2 ⟨e, he, h⟩)
      rw [ih hl he, Kiln.spanAcc, spanAt_contribute_ne v hne]; rfl

end

/-- The stall of a tile shows in its register of stalled cycles and in the tile alone. -/
theorem stallNow_eq (s : State) (t : Nat) : ∃ regs tiles, s.stallNow t = { s with regs := regs, tiles := tiles } ∧
    ∀ o, o ≠ oWhl t + 8 → sget regReset regs o = s.reg o := by
  unfold State.stallNow
  split
  · exact ⟨_, _, rfl, fun o ho => s.reg_cnt_ne (2 * (s.time.ticks - (s.tile t).since)) ho⟩
  · exact ⟨s.regs, s.tiles, rfl, fun _ _ => rfl⟩

/-- A chunk's sums taken into what a kiln's slices hold. -/
def Kiln.takeSums (v : Kiln) (h : ChunkSum) (x : Nat) (bad : Nat → Bool) : Kiln :=
  h.sums.foldl (fun y e => y.contribute e.1 x e.2 (bad e.1)) v

/-- A bank drained with no error about: its sums are in the slices, the chunk is counted beside the stall of the tile up to now, and
the bank is gone. -/
theorem chunkDrained_clean (hups : s.err.upsets = []) (hce : s.plc.ceTicks = []) (t : Nat) (h : ChunkSum) (rest : List ChunkSum)
    (kp : KilnPlace) : OnlyRegs [oWhl t + 4, oWhl t + 8] s (s.chunkDrained t h rest kp) ∧
      ((s.chunkDrained t h rest kp).tile t).full = rest ∧ Counted s (s.chunkDrained t h rest kp) (oWhl t + 4) 1 ∧
      ∃ bad, (s.chunkDrained t h rest kp).kiln h.chunk.kiln = (s.kiln h.chunk.kiln).takeSums h (h.chunk.first / kp.g * kp.g) bad := by
  let bad : Nat → Bool := fun w => (badWords kp.desc h.chunk []).contains w || ([] : List Nat).contains w
  let u := s.setKiln h.chunk.kiln ((s.kiln h.chunk.kiln).takeSums h (h.chunk.first / kp.g * kp.g) bad)
  obtain ⟨regs, tiles, hstall, hregs⟩ := stallNow_eq u t
  let w : State := ({ u with regs := regs, tiles := tiles } : State).setTile t { s.tile t with full := rest, since := s.time.ticks }
  have hdrained : s.chunkDrained t h rest kp = w.cnt (oWhl t + 4) 1 := by
    unfold State.chunkDrained
    simp only [upsetsIn_clean hups, List.foldl_nil, clean_clean hups, shelfScan_clean hups]
    exact (congrArg (fun u : State =>
      ((u.setTile t { s.tile t with full := rest, since := u.time.ticks }).cnt (oWhl t + 4) 1).excludeCheck) hstall).trans
      (excludeCheck_clean hce)
  rw [hdrained]
  refine ⟨⟨⟨rfl, rfl⟩, fun _ => ⟨rfl, rfl, rfl⟩, fun o ho => ?_⟩, congrArg Tile.full (State.setTile_tile _ t _), ?_,
    bad, State.setKiln_kiln s _ _⟩
  · simp only [List.mem_cons, List.not_mem_nil, or_false, not_or] at ho
    exact (w.reg_cnt_ne 1 ho.1).trans (hregs o ho.2)
  · have hw : w.reg (oWhl t + 4) = s.reg (oWhl t + 4) := hregs _ (by omega)
    rw [Counted, State.reg_cnt, hw]

theorem exec_chunkDrained {t : Nat} {h : ChunkSum} {rest : List ChunkSum} {kp : KilnPlace} (hup : s.up = true)
    (hfull : (s.tile t).full = h :: rest) (hk : s.placedKiln h.chunk.kiln = some kp)
    (hh : (s.kiln h.chunk.kiln).holds h.chunk.first = false) : exec (.chunkDrained t none) s = .next (s.chunkDrained t h rest kp) := by
  have e : exec (.chunkDrained t none) s = execChunkDrained t none s := rfl
  rw [e, execChunkDrained, hfull]
  dsimp only
  rw [hk]
  exact gate_of _ _ _ (by simp [hup, hh])

/-! ### The obligation -/

/-- A chunk begins: the tile names it, and nothing else changes. -/
theorem chunk_starts {t k x c i n : Nat} {kp : KilnPlace} (hup : s.up = true) (hcur : (s.tile t).cur = none)
    (hfull : (s.tile t).full.length ≤ 1) (hn : s.nextPair t = some (k, kp, x, c, i, n)) (hh : (s.kiln k).holds x = false)
    (hb : ∀ b ∈ chunkBlocks x kp.l, s.isReleased c b = true) :
    Completes (.tileChunkStart t) s (fun u => Apart s u ∧ MemSame s u ∧ RegsBut [] s u ∧
      (u.tile t).cur = some ⟨k, (kp.desc.pairs.getD n (0, 0)).1, (kp.desc.pairs.getD n (0, 0)).2, c, x⟩ ∧
      (u.tile t).full = (s.tile t).full ∧ u.kilns = s.kilns) :=
  ⟨_, exec_tileChunkStart hup hcur hfull hn hh hb,
    (onlyRegs_of_stores rfl rfl rfl rfl rfl rfl).and ⟨by simp, by simp, rfl⟩⟩

/-- Settles O28: the tile names its next chunk; at the end its bank holds the sums of the cells, each the sum of what the blocks add;
a bank drained adds them word by word. -/
theorem tilesFormChunks : Obligations.TilesFormChunks := by
  unfold Obligations.TilesFormChunks
  intro s t hup
  rw [whlChunks_eq, whlStall_eq]
  refine ⟨fun k kp x c i n hcur hfull hn hh hb => chunk_starts hup hcur hfull hn hh hb, fun h p w kp hcur hp hw hk hh _ => ?_,
    fun h rest kp hfull hk hh hups hce hl _ => ?_⟩
  · obtain ⟨⟨hapart, hmem, hregs⟩, hcur', hkilns, hfull⟩ := chunkEnd_leaves s t h p w kp
    refine ⟨_, exec_chunkEnd hup hcur hp hw hk hh, hapart, hmem, hregs, hcur', hkilns, s.chunkSums kp h, hfull, ?_, ?_, ?_⟩
    · simp [chunkSums_eq]
    · rw [chunkSums_eq]
      intro e he
      obtain ⟨z, -, rfl⟩ := List.mem_map.1 he
      exact chunkCell_count s kp h z
    · intro side term blks n z e hz he
      rw [chunkSums_eq, List.getElem?_map, hz] at he
      obtain rfl : (z.2.2, s.chunkCell kp h z) = e := Option.some.inj he
      have hterm : ∀ b, ((s.cellBlock kp h z b).re, (s.cellBlock kp h z b).im, (s.cellBlock kp h z b).count) = term z b :=
        fun b => blockSum_triple _ _
      simp only [chunkCell_eq, ← hterm]
      exact ⟨rfl, rfl, rfl⟩
  · obtain ⟨⟨hapart, hmem, hregs⟩, hfull', hcount, bad, hkiln⟩ := chunkDrained_clean hups hce t h rest kp
    refine ⟨_, exec_chunkDrained hup hfull hk hh, hapart, hmem, hregs, hfull', hcount, fun e he => ?_⟩
    rw [hkiln]
    exact ⟨_, spanAt_contributes hl he _, rfl, fun hst hre him hn => SpanAcc.add_sum_exact hst hre him hn _⟩

end Sys2Proof.Machine
end

section
/-! PROOF. Updates of a kiln line: what an exclusion leaves, the line and the exponent line as an update writes them, and the update as
a whole. -/

namespace Sys2Proof.Machine

variable {s t u : State}

/-! ### Exclusions of units (R183, R184) -/

/-- What exclusions leave: the commands, the fuses, the memories, and every kiln but for a layout waiting for its next bank. -/
structure Excludes (s t : State) : Prop where
  pending : t.pending = s.pending
  fuse : t.fuse = s.fuse
  hbm : t.hbm = s.hbm
  csram : t.csram = s.csram
  host : t.host = s.host
  kiln : ∀ k, ∃ l, t.kiln k = { s.kiln k with newLayout := l }

theorem Excludes.refl (s : State) : Excludes s s := ⟨rfl, rfl, rfl, rfl, rfl, fun _ => ⟨_, rfl⟩⟩

theorem Excludes.trans (h : Excludes s t) (k : Excludes t u) : Excludes s u := by
  refine ⟨k.pending.trans h.pending, k.fuse.trans h.fuse, k.hbm.trans h.hbm, k.csram.trans h.csram, k.host.trans h.host, fun j => ?_⟩
  obtain ⟨l, hl⟩ := h.kiln j
  obtain ⟨l', hl'⟩ := k.kiln j
  exact ⟨l', by rw [hl', hl]⟩

theorem Excludes.ite {c : Prop} [Decidable c] (h : c → Excludes s t) (k : ¬ c → Excludes s u) : Excludes s (if c then t else u) := by
  split
  · exact h ‹_›
  · exact k ‹_›

theorem Excludes.foldl {α : Type} {f : State → α → State} (hf : ∀ t x, Excludes t (f t x)) (l : List α) (s : State) :
    Excludes s (l.foldl f s) := foldl_keeps (P := Excludes s) l (fun t x _ h => h.trans (hf t x)) (.refl s)

theorem excludes_setRb (s : State) (off i : Nat) (b : Bool) : Excludes s (s.setRb off i b) :=
  ⟨rfl, rfl, rfl, rfl, rfl, fun _ => ⟨_, rfl⟩⟩
theorem excludes_setPlc (s : State) (f : PlcSt → PlcSt) : Excludes s (s.setPlc f) :=
  ⟨rfl, rfl, rfl, rfl, rfl, fun _ => ⟨_, rfl⟩⟩

theorem excludes_publish (s : State) (c : Nat) : Excludes s (s.publish c) :=
  ⟨by simp, by simp, by simp, by simp, by simp, fun k => ⟨_, congrArg (fun l => tget Kiln.init l k) (s.publish_kilns c)⟩⟩

theorem excludes_newLayout (s : State) (k : Nat) (l : Option Layout) : Excludes s (s.setKiln k { s.kiln k with newLayout := l }) := by
  refine ⟨rfl, rfl, rfl, rfl, rfl, fun j => ?_⟩
  by_cases h : j = k
  · subst h; exact ⟨l, s.setKiln_kiln j _⟩
  · exact ⟨_, s.setKiln_kiln_ne k _ h⟩

theorem excludes_tileMove (s : State) (t since : Nat) (p : Placement) : Excludes s (s.tileMove t since p) := by
  unfold State.tileMove
  extract_lets
  split
  · exact excludes_setPlc s _
  · exact excludes_setRb s _ _ _

theorem excludes_redest (s : State) (t : Nat) : Excludes s (s.redest t) := by
  unfold State.redest
  split
  · exact .refl s
  · refine (excludes_setPlc s _).trans (.foldl (fun u m => ?_) _ _)
    split
    · exact excludes_tileMove u _ _ _
    · exact .refl u

theorem excludes_planMove (s : State) (x : ExclUnit) : Excludes s (s.planMove x) := by
  unfold State.planMove
  split
  · exact .refl s
  · split
    · exact .ite (fun _ => .refl s) fun _ => excludes_tileMove s _ _ _
    · split
      · exact excludes_setRb s _ _ _
      · refine (excludes_setPlc s _).trans (.foldl (fun u e => ?_) _ _)
        exact .ite (fun _ => excludes_newLayout u e.1 _) fun _ => excludes_setPlc u _

theorem excludes_exclude (s : State) (x : ExclUnit) : Excludes s (s.exclude x) := by
  have hshown : ∀ off i, Excludes s (((s.setRb off i true).publish 100).planMove x) := fun off i =>
    (excludes_setRb s off i true).trans ((excludes_publish _ 100).trans (excludes_planMove _ x))
  unfold State.exclude
  split
  · exact .ite (fun _ => .refl s) fun _ => (hshown _ _).trans (excludes_redest _ _)
  · exact .ite (fun _ => .refl s) fun _ => hshown _ _

theorem excludes_excludeCheck (s : State) : Excludes s s.excludeCheck :=
  .ite (fun _ => .refl s) fun _ => .foldl (fun u _ => .ite (fun _ => excludes_exclude u _) fun _ => .refl u) _ s

/-! ### Banks of a kiln -/

theorem Kiln.bankOf_setBank (v : Kiln) (b : Nat) (x : Bank) : (v.setBank b x).bankOf b = x := by
  by_cases h : b = 0 <;> simp [Kiln.setBank, Kiln.bankOf, h]

theorem mem_sput {α : Type} (l : List (Nat × α)) (n : Nat) (v : α) : (n, v) ∈ sput l n v := by
  induction l with
  | nil => exact List.mem_singleton_self _
  | cons e l ih =>
    obtain ⟨j, x⟩ := e
    rw [sput]
    split
    · exact List.mem_cons_self
    · split
      · exact List.mem_cons_self
      · exact List.mem_cons_of_mem _ ih

theorem le_foldl_max (l : List Nat) (a : Nat) : a ≤ l.foldl max a ∧ ∀ x ∈ l, x ≤ l.foldl max a := by
  induction l generalizing a with
  | nil => simp
  | cons y l ih =>
    obtain ⟨hstart, hmem⟩ := ih (max a y)
    refine ⟨(le_max_left a y).trans hstart, fun x hx => ?_⟩
    rcases List.mem_cons.1 hx with rfl | hx
    · exact (le_max_right a x).trans hstart
    · exact hmem x hx

/-- The exponents that the header names are no lower than those of a line. -/
theorem Bank.le_peak_fit {x : Bank} {n e f : Nat} (h : (n, e, f) ∈ x.fits) : e ≤ x.peak ∧ f ≤ x.fit :=
  ⟨(le_foldl_max _ 0).2 e (List.mem_map.2 ⟨_, h, rfl⟩), (le_foldl_max _ 0).2 f (List.mem_map.2 ⟨_, h, rfl⟩)⟩

/-! ### A line written -/

theorem memOnly_activate (s : State) (a : Nat) : MemOnly s (s.activate a) := by
  unfold State.activate
  extract_lets _ _ _
  split
  extract_lets u
  split
  · exact ⟨_, rfl⟩
  · exact ⟨_, rfl⟩

theorem memOnly_touch (s : State) (a n : Nat) : MemOnly s (s.touch a n) := by
  unfold State.touch
  split
  · exact ⟨s.mem, rfl⟩
  · exact foldl_keeps _ (fun t i _ h => h.trans (memOnly_activate t _)) ⟨s.mem, rfl⟩

/-- Rows activated where a line is read, or not: only the controllers' state changes. -/
theorem memOnly_touchIf (s : State) (c : Prop) [Decidable c] (a n : Nat) : MemOnly s (if c then s.touch a n else s) := by
  split
  · exact memOnly_touch s a n
  · exact ⟨s.mem, rfl⟩

theorem MemOnly.err_eq (h : MemOnly s t) : t.err = s.err := by obtain ⟨mem, rfl⟩ := h; rfl
theorem MemOnly.hbm_eq (h : MemOnly s t) : t.hbm = s.hbm := by obtain ⟨mem, rfl⟩ := h; rfl

/-- From s to t device memory comes to hold m; beside that only registers, wrong symbols and the controllers' state change. -/
def Writes (m : List Host.Cell) (s t : State) : Prop := ∃ regs err mem, t = { s with hbm := m, regs := regs, err := err, mem := mem }

theorem MemOnly.writes (h : MemOnly s t) : Writes s.hbm s t := by
  obtain ⟨mem, rfl⟩ := h
  exact ⟨s.regs, s.err, mem, rfl⟩

theorem Writes.memOnly {m : List Host.Cell} (h : Writes m s t) (k : MemOnly t u) : Writes m s u := by
  obtain ⟨regs, err, mem, rfl⟩ := h
  obtain ⟨mem', rfl⟩ := k
  exact ⟨regs, err, mem', rfl⟩

theorem Writes.freshLines {m : List Host.Cell} (h : Writes m s t) (a n : Nat) : Writes m s (t.freshLines a n) := by
  obtain ⟨regs, err, mem, rfl⟩ := h
  exact ⟨regs, _, mem, rfl⟩

theorem Writes.store {m : List Host.Cell} (h : Writes m s t) (m' : List Host.Cell) : Writes m' s { t with hbm := m' } := by
  obtain ⟨regs, err, mem, rfl⟩ := h
  exact ⟨regs, err, mem, rfl⟩

theorem Writes.hbm_eq {m : List Host.Cell} (h : Writes m s t) : t.hbm = m := by obtain ⟨regs, err, mem, rfl⟩ := h; rfl

theorem memOnly_unitWrites (s : State) : MemOnly s s.unitWrites := by
  unfold State.unitWrites
  split
  · exact ⟨s.mem, rfl⟩
  · exact ⟨_, rfl⟩

/-- Bytes of lines written. -/
theorem Writes.hbmWrite {m : List Host.Cell} (h : Writes m s t) (a : Nat) (b : List Byte) : Writes (wrBytes m a b) s (t.hbmWrite a b) := by
  have hfresh : Writes m s (t.unitWrites.freshLines a b.length) := (h.memOnly (memOnly_unitWrites t)).freshLines a b.length
  rw [← hfresh.hbm_eq]
  exact (hfresh.store _).memOnly (memOnly_touch _ a b.length)

/-! ### A line of an E48 bank (R93) -/

/-- A word of a line as it stands: zero before the first update of the integration. -/
def Bank.e48Old (x : Bank) (m : List Host.Cell) (b n q : Nat) : E48 :=
  if x.touched.contains n then E48.ofBytes (rdBytes m (x.lineAddr b n + 16 * q) 16) else E48.zero

/-- A word of a line as an update leaves it. -/
def Bank.e48New (x : Bank) (m : List Host.Cell) (b n : Nat) (a : List SpanAcc) (q : Nat) : E48 :=
  (e48Upd x.stuck (4 * n + q) (x.e48Old m b n q) (a.getD q ⟨0, 0, E48.zero, (false, false, false), false⟩)).1

/-- The bytes of the line as the update leaves it. -/
def Bank.e48Line (x : Bank) (m : List Host.Cell) (b n : Nat) (a : List SpanAcc) : List Byte :=
  (List.range 4).flatMap fun q => (x.e48New m b n a q).bytes

theorem length_e48Line (x : Bank) (m : List Host.Cell) (b n : Nat) (a : List SpanAcc) : (x.e48Line m b n a).length = 64 :=
  length_flatMap_const (k := 16) (fun _ => E48.length_bytes _) _

/-- A word of an unsaturated line takes the sum of an unsaturated span exactly within the limits. -/
theorem e48New_exact {x : Bank} {m : List Host.Cell} {b n q : Nat} {a : List SpanAcc} (hstuck : x.stuck = [])
    (ha : ∀ y ∈ a, y.stuck = (false, false, false)) :
    let old := x.e48Old m b n q
    let d := (a.map (·.sum)).getD q E48.zero
    (old.re + d.re).natAbs < 2 ^ 47 → (old.im + d.im).natAbs < 2 ^ 47 → old.count + d.count < 2 ^ 32 →
      x.e48New m b n a q = ⟨old.re + d.re, old.im + d.im, old.count + d.count⟩ := by
  intro old d hre him hn
  have hd : d = (a.getD q ⟨0, 0, E48.zero, (false, false, false), false⟩).sum :=
    List.getD_map a ⟨0, 0, E48.zero, (false, false, false), false⟩ SpanAcc.sum
  have hq : (a.getD q ⟨0, 0, E48.zero, (false, false, false), false⟩).stuck = (false, false, false) := by
    rcases lt_or_ge q a.length with h | h
    · rw [List.getD_eq_getElem _ _ h]
      exact ha _ (List.getElem_mem h)
    · rw [List.getD_eq_default _ _ h]
  rw [hd] at hre him hn ⊢
  rw [Bank.e48New, hstuck]
  exact e48Upd_exact hq hre him hn _

/-- Each word of the line reads back from memory. -/
theorem rdBytes_e48Line (x : Bank) (m m' : List Host.Cell) (b n : Nat) (a : List SpanAcc) (addr : Nat) {q : Nat} (hq : q < 4) :
    rdBytes (wrBytes m' addr (x.e48Line m b n a)) (addr + 16 * q) 16 = (x.e48New m b n a q).bytes := by
  have hline := rdBytes_wrBytes m' addr (x.e48Line m b n a)
  rw [length_e48Line] at hline
  rw [← take_drop_rdBytes _ addr (show 16 * q + 16 ≤ 64 by omega), hline, Bank.e48Line,
    take_drop_flatMap (fun _ => E48.length_bytes _) _ (by simpa using hq), List.getElem_range]

/-- The line of the words that an update forms of the bytes it has read. -/
theorem e48Line_eq (x : Bank) (m : List Host.Cell) (b n : Nat) (a : List SpanAcc) :
    ((List.range 4).map fun q => e48Upd x.stuck (4 * n + q)
      (E48.ofBytes (((if x.touched.contains n = true then rdBytes m (x.lineAddr b n) 64 else List.replicate 64 0).drop (16 * q)).take 16))
      (a.getD q ⟨0, 0, E48.zero, (false, false, false), false⟩)).flatMap (fun w => w.1.bytes) = x.e48Line m b n a := by
  rw [List.flatMap_map]
  refine List.flatMap_congr fun q hq => ?_
  have hq : q < 4 := List.mem_range.1 hq
  rw [Bank.e48New, Bank.e48Old]
  split
  · rw [take_drop_rdBytes _ _ (by omega)]
  · rw [List.drop_replicate, List.take_replicate, Nat.min_eq_left (by omega), E48.ofBytes_zeros]

/-- With no error about, a read of a line already updated, or none, meets no wrong word. -/
theorem scanIf_clean (hups : s.err.upsets = []) (c : Prop) [Decidable c] (lo hi ctx : Nat) :
    (if c then s.scan 0 0 lo hi 0 ctx true else ([], s)) = ([], s) := by
  rw [scan_clean hups]
  exact ite_self _

/-- An update of an E48 line, with no error about, writes its words and notes the line in its bank. -/
theorem updE48_clean (hups : s.err.upsets = []) (k b n ctx : Nat) (a : List SpanAcc) : ∃ w sat stuck,
    Writes (wrBytes s.hbm (((s.kiln k).bankOf b).lineAddr b n) (((s.kiln k).bankOf b).e48Line s.hbm b n a)) s w ∧
      s.updE48 k b n ctx false a = w.touchLine k b n sat stuck := by
  unfold State.updE48
  simp only [scanIf_clean hups]
  rw [if_neg (by simp)]
  refine ⟨_, _, _, ?_, rfl⟩
  rw [← e48Line_eq]
  exact (memOnly_touchIf s _ _ _).writes.hbmWrite _ _

/-! ### A line of a K16 bank (R95) -/

/-- A K16 line as it stands: zero before the first update of the integration. -/
def Bank.k16Old (x : Bank) (m : List Host.Cell) (b n : Nat) : K16Line :=
  if x.touched.contains n then K16Line.ofBytes (rdBytes m (x.lineAddr b n) 64) (rd8 m (x.expLine b n + n % 64)) else K16Line.zero

/-- The line as an update by `g` samples from `first` on leaves it. -/
def Kiln.k16New (v : Kiln) (m : List Host.Cell) (b n first g : Nat) (a : List SpanAcc) : K16Line :=
  (k16Update ((v.bankOf b).k16Old m b n) v.seed n first (a.flatMap fun w => [w.sum.re, w.sum.im]) (a.map fun w => w.sum.count)).bounded
    ((first + g - (v.bankOf b).first) / g)

/-- The exponent bytes of a line's group, zero for lines not yet updated. -/
def Bank.expBytes (x : Bank) (m : List Host.Cell) (b n : Nat) : List Byte :=
  (List.zip ((List.range 64).map (n / 64 * 64 + ·)) (rdBytes m (x.expLine b n) 64)).map fun q =>
    if x.touched.contains q.1 then q.2 else 0#8

theorem length_expBytes (x : Bank) (m : List Host.Cell) (b n : Nat) : (x.expBytes m b n).length = 64 := by simp [Bank.expBytes]

theorem getD_expBytes (x : Bank) (m : List Host.Cell) (b n : Nat) :
    (x.expBytes m b n).getD (n % 64) 0 = if x.touched.contains n then rd8 m (x.expLine b n + n % 64) else 0#8 := by
  have hlt : n % 64 < 64 := Nat.mod_lt _ (by decide)
  have hn : n / 64 * 64 + n % 64 = n := Nat.div_add_mod' n 64
  simp [Bank.expBytes, rdBytes, List.getD_eq_getElem?_getD, hlt, hn]

/-- The line that an update forms of the bytes it has read. -/
theorem k16New_eq (v : Kiln) (m : List Host.Cell) (b n first g : Nat) (a : List SpanAcc) :
    (k16Update (if (v.bankOf b).touched.contains n = true then
        K16Line.ofBytes (rdBytes m ((v.bankOf b).lineAddr b n) 64) (((v.bankOf b).expBytes m b n).getD (n % 64) 0) else K16Line.zero)
      v.seed n first (a.flatMap fun w => [w.sum.re, w.sum.im]) (a.map fun w => w.sum.count)).bounded
        ((first + g - (v.bankOf b).first) / g) = v.k16New m b n first g a := by
  rw [Kiln.k16New, Bank.k16Old, getD_expBytes]
  split <;> rfl

/-- Memory with a K16 line and its exponent line written. -/
def Kiln.k16Mem (v : Kiln) (m : List Host.Cell) (b n first g : Nat) (a : List SpanAcc) : List Host.Cell :=
  wrBytes (wrBytes m ((v.bankOf b).lineAddr b n) (v.k16New m b n first g a).bytes) ((v.bankOf b).expLine b n)
    (((v.bankOf b).expBytes m b n).set (n % 64) (v.k16New m b n first g a).expByte)

section
variable (v : Kiln) (m : List Host.Cell) (b n first g : Nat) (a : List SpanAcc)

theorem length_expSet (y : Byte) : (((v.bankOf b).expBytes m b n).set (n % 64) y).length = 64 := by simp [length_expBytes]

/-- Bytes outside the line and its exponent line stand as they did. -/
theorem rd8_k16Mem_ne {i : Nat} (hl : i < (v.bankOf b).lineAddr b n ∨ (v.bankOf b).lineAddr b n + 64 ≤ i)
    (he : i < (v.bankOf b).expLine b n ∨ (v.bankOf b).expLine b n + 64 ≤ i) : rd8 (v.k16Mem m b n first g a) i = rd8 m i := by
  rw [Kiln.k16Mem, rd8_wrBytes_ne _ _ _ _ (by rw [length_expSet]; exact he),
    rd8_wrBytes_ne _ _ _ _ (by rw [K16Line.length_bytes]; exact hl)]

/-- The line reads back, where its exponent line lies elsewhere. -/
theorem rdBytes_k16Mem (h : (v.bankOf b).expLine b n + 64 ≤ (v.bankOf b).lineAddr b n ∨
    (v.bankOf b).lineAddr b n + 64 ≤ (v.bankOf b).expLine b n) :
    rdBytes (v.k16Mem m b n first g a) ((v.bankOf b).lineAddr b n) 64 = (v.k16New m b n first g a).bytes := by
  have hexp : ∀ i < 64, rd8 (v.k16Mem m b n first g a) ((v.bankOf b).lineAddr b n + i) =
      rd8 (wrBytes m ((v.bankOf b).lineAddr b n) (v.k16New m b n first g a).bytes) ((v.bankOf b).lineAddr b n + i) := fun i hi =>
    rd8_wrBytes_ne _ _ _ _ (by rw [length_expSet]; omega)
  rw [rdBytes_congr hexp, ← K16Line.length_bytes (v.k16New m b n first g a), rdBytes_wrBytes]

/-- The exponent byte reads back. -/
theorem rd8_k16Mem_exp : rd8 (v.k16Mem m b n first g a) ((v.bankOf b).expLine b n + n % 64) = (v.k16New m b n first g a).expByte := by
  have hlt : n % 64 < 64 := Nat.mod_lt _ (by decide)
  rw [Kiln.k16Mem, rd8_wrBytes_in _ _ _ _ (by rwa [length_expSet])]
  simp [List.getD_eq_getElem?_getD, length_expBytes, hlt]

end

/-- An update of a K16 line, with no error about, writes the line and its exponent line, and notes both in its bank. -/
theorem updK16_clean (hups : s.err.upsets = []) (k b n first g ctx : Nat) (a : List SpanAcc) : ∃ w,
    Writes ((s.kiln k).k16Mem s.hbm b n first g a) s w ∧
      s.updK16 k b n first g ctx false a = (w.touchLine k b n ((s.kiln k).k16New s.hbm b n first g a).sat []).setFit k b n
        ((s.kiln k).k16New s.hbm b n first g a).e
        (fitDown ((s.kiln k).k16New s.hbm b n first g a).m ((s.kiln k).k16New s.hbm b n first g a).e) := by
  unfold State.updK16
  simp only [scanIf_clean hups]
  rw [if_neg (by simp)]
  obtain ⟨w, hw⟩ : ∃ w, w =
    if (((List.range 64).map (n / 64 * 64 + ·)).any fun m => ((s.kiln k).bankOf b).touched.contains m) = true then
      s.touch (((s.kiln k).bankOf b).expLine b n) 64 else s := ⟨_, rfl⟩
  have hmem : MemOnly s w := hw ▸ memOnly_touchIf s _ _ _
  have hupsw : w.err.upsets = [] := by rw [hmem.err_eq, hups]
  simp only [← hw, scanIf_clean hupsw, hmem.hbm_eq]
  rw [if_neg (by simp)]
  have hexps : (List.zip ((List.range 64).map (n / 64 * 64 + ·)) (rdBytes s.hbm (((s.kiln k).bankOf b).expLine b n) 64)).map
    (fun q => if ((s.kiln k).bankOf b).touched.contains q.1 then q.2 else 0#8) = ((s.kiln k).bankOf b).expBytes s.hbm b n := rfl
  have hread : Writes s.hbm s (if ((s.kiln k).bankOf b).touched.contains n = true then
    w.touch (((s.kiln k).bankOf b).lineAddr b n) 64 else w) := (hmem.trans (memOnly_touchIf w _ _ _)).writes
  simp only [hexps, k16New_eq]
  exact ⟨_, (hread.hbmWrite _ _).hbmWrite _ _, rfl⟩

/-! ### The update (R92, R101) -/

/-- An update below the boundary begins no bank. -/
theorem begins_own (s : State) (k : Nat) : s.begins k (s.kiln k).bank = none := by
  rw [State.begins]
  cases s.boundary k with
  | none => rfl
  | some y => exact if_neg fun h => h.1 rfl

theorem updInto_own (s : State) (k : Nat) : s.updInto k (s.kiln k).bank = (s.kiln k).bankOf (s.kiln k).bank := by
  rw [State.updInto, begins_own]; rfl

/-- The accumulating bank of a kiln. -/
abbrev Kiln.cur (v : Kiln) : Bank := v.bankOf v.bank

/-- The state with an update counted in the slice that holds the line. -/
def State.updCounted (s : State) (k n : Nat) : State :=
  s.cnt (0xC10004 + 0x20 * devQuarter ((s.kiln k).cur.lineAddr (s.kiln k).bank n)) 1

@[simp] theorem updCounted_hbm (s : State) (k n : Nat) : (s.updCounted k n).hbm = s.hbm := State.cnt_hbm s _ 1
@[simp] theorem updCounted_err (s : State) (k n : Nat) : (s.updCounted k n).err = s.err := State.cnt_err s _ 1
@[simp] theorem updCounted_kiln (s : State) (k n j : Nat) : (s.updCounted k n).kiln j = s.kiln j :=
  congrArg (fun l => tget Kiln.init l j) (State.cnt_kilns s _ 1)

section
variable {k n x : Nat} {p : KilnPlace}

theorem exec_kilnUpdate (hup : s.up = true) (hp : s.placedKiln k = some p) (hlive : (s.kiln k).live = true) (hline : n < p.desc.lines)
    (hready : (s.kiln k).lineReady p n ((s.kiln k).lineNext' n) = true)
    (hbank : s.updBank k p ((s.kiln k).lineNext' n) = some (s.kiln k).bank)
    (hserves : s.lineServes (s.kiln k).cur p.desc (s.kiln k).bank n = true) :
    exec (.kilnUpdate k n none) s = .next (s.kilnUpdate k n ((s.kiln k).lineNext' n) (s.kiln k).bank p none) := by
  have e : exec (.kilnUpdate k n none) s = execKilnUpdate k n none s := rfl
  rw [e, execKilnUpdate, hp]
  dsimp only
  rw [hbank]
  exact gate_of _ _ _ (by simp [hup, hlive, hline, hready, updInto_own, hserves])

/-- With no error about, an update is counted and applied to the line, and is done. -/
theorem kilnUpdate_clean (hups : s.err.upsets = []) (hpoison : (s.kiln k).cur.poison.contains n = false)
    (hsum : ∀ a ∈ (s.kiln k).lineSums p.desc n x, a.bad = false) : s.kilnUpdate k n x (s.kiln k).bank p none =
      ((if p.desc.k16 then
          (s.updCounted k n).updK16 k (s.kiln k).bank n x p.g (k + 16 * (s.kiln k).bank) false ((s.kiln k).lineSums p.desc n x)
        else (s.updCounted k n).updE48 k (s.kiln k).bank n (k + 16 * (s.kiln k).bank) false ((s.kiln k).lineSums p.desc n x)).updDone
          k p n x).excludeCheck := by
  have hbad : ((s.kiln k).lineSums p.desc n x).any (·.bad) = false := by
    rw [List.any_eq_false]
    exact fun a ha => by simp [hsum a ha]
  unfold State.kilnUpdate
  simp only [begins_own, Option.elim_none, State.upset, State.shelfLost, shelfScan_clean hups, hpoison, hbad, Bool.false_eq_true, if_false,
    List.isEmpty_nil, Bool.not_true, Bool.or_false, State.updCounted]

/-- An update done, and units excluded after it: what both leave, and the line's next span. -/
theorem updDone_leaves (s : State) (k n x : Nat) (p : KilnPlace) :
    Excludes (s.updDone k p n x) (s.updDone k p n x).excludeCheck ∧ ((s.updDone k p n x).excludeCheck.kiln k).lineNext' n = x + p.g ∧
      ∀ b, ((s.updDone k p n x).excludeCheck.kiln k).bankOf b = (s.kiln k).bankOf b := by
  have hex := excludes_excludeCheck (s.updDone k p n x)
  obtain ⟨l, hl⟩ := hex.kiln k
  have hdone : (s.updDone k p n x).kiln k = _ := s.setKiln_kiln k _
  rw [hl, hdone]
  exact ⟨hex, sget_sput_same _ _ _ _, fun _ => rfl⟩

/-- The same from the state before the update, whose line has been written and noted in its bank. -/
theorem Writes.updDone {m : List Host.Cell} {o : Nat} (h : Writes m (s.cnt o 1) t) (kilns : List (Nat × Kiln)) (k n x : Nat)
    (p : KilnPlace) :
    let u := (({ t with kilns := kilns } : State).updDone k p n x).excludeCheck
    (Apart s u ∧ u.csram = s.csram ∧ u.host = s.host ∧ (u.kiln k).lineNext' n = x + p.g) ∧ u.hbm = m ∧
      ∀ b, (u.kiln k).bankOf b = (tget Kiln.init kilns k).bankOf b := by
  intro u
  obtain ⟨hex, hnext, hbanks⟩ := updDone_leaves { t with kilns := kilns } k n x p
  obtain ⟨regs, err, mem, rfl⟩ := h
  exact ⟨⟨⟨hex.pending, hex.fuse⟩, hex.csram, hex.host, hnext⟩, hex.hbm, hbanks⟩

end

/-! ### The obligation -/

/-- An update of an E48 line, with no error about, writes the line of its words, and the line's next span follows. -/
theorem e48_update {k n x : Nat} {p : KilnPlace} (hups : s.err.upsets = []) (hpoison : (s.kiln k).cur.poison.contains n = false)
    (hsum : ∀ a ∈ (s.kiln k).lineSums p.desc n x, a.bad = false) (hk : p.desc.k16 = false) :
    let u := s.kilnUpdate k n x (s.kiln k).bank p none
    (Apart s u ∧ u.csram = s.csram ∧ u.host = s.host ∧ (u.kiln k).lineNext' n = x + p.g) ∧
      u.hbm = wrBytes s.hbm ((s.kiln k).cur.lineAddr (s.kiln k).bank n)
        ((s.kiln k).cur.e48Line s.hbm (s.kiln k).bank n ((s.kiln k).lineSums p.desc n x)) := by
  intro u
  have hupsu : (s.updCounted k n).err.upsets = [] := by rw [updCounted_err, hups]
  obtain ⟨w, sat, stuck, hw, hupd⟩ := updE48_clean hupsu k (s.kiln k).bank n (k + 16 * (s.kiln k).bank)
    ((s.kiln k).lineSums p.desc n x)
  rw [updCounted_kiln, updCounted_hbm] at hw
  have hu : u = ((w.touchLine k (s.kiln k).bank n sat stuck).updDone k p n x).excludeCheck := by
    rw [← hupd]
    refine (kilnUpdate_clean hups hpoison hsum).trans ?_
    rw [if_neg (by simp [hk])]
  obtain ⟨hleft, hhbm, -⟩ := hw.updDone (w.touchLine k (s.kiln k).bank n sat stuck).kilns k n x p
  rw [hu]
  exact ⟨hleft, hhbm⟩

theorem setFit_fits (s : State) (k b n e f : Nat) : (n, e, f) ∈ (((s.setFit k b n e f).kiln k).bankOf b).fits := by
  rw [State.setFit, State.setKiln_kiln, Kiln.bankOf_setBank]
  exact mem_sput _ _ _

/-- An update of a K16 line, with no error about, writes the line and its exponent line, and its bank notes both exponents. -/
theorem k16_update {k n x : Nat} {p : KilnPlace} (hups : s.err.upsets = []) (hpoison : (s.kiln k).cur.poison.contains n = false)
    (hsum : ∀ a ∈ (s.kiln k).lineSums p.desc n x, a.bad = false) (hk : p.desc.k16 = true) :
    let u := s.kilnUpdate k n x (s.kiln k).bank p none
    let l := (s.kiln k).k16New s.hbm (s.kiln k).bank n x p.g ((s.kiln k).lineSums p.desc n x)
    (Apart s u ∧ u.csram = s.csram ∧ u.host = s.host ∧ (u.kiln k).lineNext' n = x + p.g) ∧
      u.hbm = (s.kiln k).k16Mem s.hbm (s.kiln k).bank n x p.g ((s.kiln k).lineSums p.desc n x) ∧
      (n, l.e, fitDown l.m l.e) ∈ ((u.kiln k).bankOf (s.kiln k).bank).fits := by
  intro u l
  have hupsu : (s.updCounted k n).err.upsets = [] := by rw [updCounted_err, hups]
  obtain ⟨w, hw, hupd⟩ := updK16_clean hupsu k (s.kiln k).bank n x p.g (k + 16 * (s.kiln k).bank) ((s.kiln k).lineSums p.desc n x)
  rw [updCounted_kiln, updCounted_hbm] at hw hupd
  have hu : u = (((w.touchLine k (s.kiln k).bank n l.sat []).setFit k (s.kiln k).bank n l.e (fitDown l.m l.e)).updDone k p n x).excludeCheck := by
    rw [← hupd]
    refine (kilnUpdate_clean hups hpoison hsum).trans ?_
    rw [if_pos hk]
  obtain ⟨hleft, hhbm, hbanks⟩ :=
    hw.updDone ((w.touchLine k (s.kiln k).bank n l.sat []).setFit k (s.kiln k).bank n l.e (fitDown l.m l.e)).kilns k n x p
  rw [hu]
  exact ⟨hleft, hhbm, (congrArg Bank.fits (hbanks _)).symm ▸ setFit_fits _ k _ n _ _⟩

/-- Settles O29: an update writes the line that its words, or k16_update, form, and exclusions of units after it leave both memory and
the banks. -/
theorem kilnUpdatesAreExact : Obligations.KilnUpdatesAreExact := by
  unfold Obligations.KilnUpdatesAreExact
  intro s k line p hup hp hlive hline hups v x bank addr hready hbank hpoison hsum hserves
  have hrow := exec_kilnUpdate hup hp hlive hline hready hbank hserves
  have hgood : ∀ a ∈ v.lineSums p.desc line x, a.bad = false := fun a ha => (hsum a ha).1
  refine ⟨fun hk hstuck => ⟨_, hrow, ?_⟩, fun hk hapart => ⟨_, hrow, ?_⟩⟩
  · obtain ⟨⟨hap, hcs, hhost, hnext⟩, hhbm⟩ := e48_update hups hpoison hgood hk
    refine ⟨hap, hcs, hhost, hnext, fun a ha => ?_, fun q hq => ?_⟩
    · rw [hhbm]
      exact rd8_wrBytes_ne _ _ _ _ (by rwa [length_e48Line])
    · intro old d hre him hn
      rw [hhbm, rdBytes_e48Line _ _ _ _ _ _ _ hq, e48New_exact hstuck (fun a ha => (hsum a ha).2) hre him hn]
      exact E48.ofBytes_bytes hre him hn
  · obtain ⟨⟨hap, hcs, hhost, hnext⟩, hhbm, hfits⟩ := k16_update hups hpoison hgood hk
    obtain ⟨hpeak, hfit⟩ := Bank.le_peak_fit hfits
    refine ⟨hap, hcs, hhost, hnext, fun a ha hb => ?_, ?_, ?_, hfit, hpeak⟩
    · rw [hhbm, rd8_k16Mem_ne _ _ _ _ _ _ _ ha hb]
    · rw [hhbm]
      exact rdBytes_k16Mem _ _ _ _ _ _ _ hapart
    · rw [hhbm]
      exact rd8_k16Mem_exp _ _ _ _ _ _ _

end Sys2Proof.Machine
end

section
/-! PROOF. Format entries: what a write of WDG_FMT_CTL leaves of the word it meets, and when it validates the entry (R72). -/

namespace Sys2Proof.Machine

/-! ### Rows that are register writes -/

/-- Outside Doze a register write whose conditions hold is performed. -/
theorem writeGate_of {ok : Bool} {s : State} (h : ok = true) (hup : s.up = true) (f : State → State) :
    writeGate ok s f = .next (f s) := by subst h; simp [writeGate, hup]

/-- The error state of the memories is beside every register and every byte. -/
theorem onlyRegs_clean (s : State) (cls unit lo hi : Nat) : OnlyRegs [] s (s.clean cls unit lo hi) :=
  onlyRegs_of_stores rfl rfl rfl rfl rfl rfl

@[simp] theorem State.reg_clean (s : State) (cls unit lo hi off : Nat) : (s.clean cls unit lo hi).reg off = s.reg off := rfl

/-! ### The word of an entry -/

/-- The low `n` bits and no others. -/
theorem getLsbD_lowMask (n : Nat) {i : Nat} (hi : i < 32) : (BitVec.ofNat 32 (2 ^ n - 1)).getLsbD i = decide (i < n) := by
  rw [BitVec.getLsbD_ofNat, Nat.testBit_two_pow_sub_one]; simp [hi]

/-- What a write puts into an entry that is not valid, before its checks: the codes and length written, and ERR as it stood. -/
def fmtWord (old v : W32) : W32 := (old &&& 0x40000000#32) ||| (v &&& 0x07FFFFFF#32)

theorem getLsbD_fmtWord (old v : W32) {i : Nat} (hi : i < 27) : (fmtWord old v).getLsbD i = v.getLsbD i := by
  have hmask : (0x07FFFFFF#32).getLsbD i = true := (getLsbD_lowMask 27 (by omega)).trans (decide_eq_true hi)
  have herr : (0x40000000#32).getLsbD i = false := by decide +revert
  simp [fmtWord, hmask, herr]

/-- Fields of the codes and the length are those written, whatever is added above them. -/
theorem fld_fmtWord {old v w : W32} {lo len : Nat} (h : lo + len ≤ 27)
    (hw : ∀ i < 27, w.getLsbD i = (fmtWord old v).getLsbD i) : fld w lo len = fld v lo len :=
  fld_congr fun i hi => (hw (lo + i) (by omega)).trans (getLsbD_fmtWord old v (by omega))

theorem bit_fmtWord_valid (old v : W32) : bit (fmtWord old v) 31 = false := by simp [bit, fmtWord]
theorem bit_fmtWord_err (old v : W32) : bit (fmtWord old v) 30 = bit old 30 := by simp [bit, fmtWord]

/-- The word of an entry that passes its checks: VALID set and ERR clear. -/
def fmtPassed (w : W32) : W32 := (w &&& 0xBFFFFFFF#32) ||| 0x80000000#32
/-- The word of an entry that fails them. -/
def fmtFailed (w : W32) : W32 := w ||| 0x40000000#32

theorem bits_fmtPassed (w : W32) : bit (fmtPassed w) 31 = true ∧ bit (fmtPassed w) 30 = false ∧
    ∀ i < 27, (fmtPassed w).getLsbD i = w.getLsbD i := by
  refine ⟨by simp [bit, fmtPassed], by simp [bit, fmtPassed], fun i hi => ?_⟩
  have hvalid : (0x80000000#32).getLsbD i = false := by decide +revert
  have herr : (0xBFFFFFFF#32).getLsbD i = true := by decide +revert
  simp [fmtPassed, hvalid, herr]

theorem bits_fmtFailed (old v : W32) : bit (fmtFailed (fmtWord old v)) 31 = false ∧ bit (fmtFailed (fmtWord old v)) 30 = true ∧
    ∀ i < 27, (fmtFailed (fmtWord old v)).getLsbD i = (fmtWord old v).getLsbD i := by
  refine ⟨by simp [bit, fmtFailed, fmtWord], by simp [bit, fmtFailed], fun i hi => ?_⟩
  have herr : (0x40000000#32).getLsbD i = false := by decide +revert
  simp [fmtFailed, herr]

/-! ### The checks of R72 -/

/-- Field `f` with descriptor `d` passes the checks in a header of `bits` bits. -/
def fmtFieldOk (bits f : Nat) (d : W32) : Prop :=
  fld d 16 6 ≤ [12, 8, 3, 16, 12, 48, 16, 16].getD f 0 ∧
    (if f = 2 ∨ f = 6 then fld d 16 6 = 0 ∨ fld d 16 6 = [12, 8, 3, 16, 12, 48, 16, 16].getD f 0 else 1 ≤ fld d 16 6) ∧
    fld d 0 9 + (if bit d 24 then 8 * ((fld d 16 6 + 7) / 8) else fld d 16 6) ≤ bits ∧ (bit d 24 = true → fld d 0 9 % 8 = 0)

theorem fmtOk_iff (fds : List W32) (ctl : W32) :
    fmtOk fds ctl = true ↔ ∀ f < 8, fmtFieldOk (64 * (fld ctl 24 3 + 1)) f (fds.getD f 0) := by
  unfold fmtOk
  rw [List.all_eq_true]
  simp only [List.mem_range]
  refine forall₂_congr fun f _ => ?_
  unfold fmtFieldOk fdWidth fdOff fdBe divUp
  generalize [12, 8, 3, 16, 12, 48, 16, 16].getD f 0 = m
  generalize fds.getD f 0 = d
  by_cases hf : f = 2 ∨ f = 6 <;> simp [hf, and_assoc, imp_iff_not_or]

/-- The descriptors of an entry that has its own are those of its registers. -/
theorem getD_fmtFds (s : State) {e f : Nat} (he : 1 ≤ e) (hf : f < 8) : (s.fmtFds e).getD f 0 = s.reg (0xA01000 + 0x40 * e + 4 * f) := by
  rw [State.fmtFds, if_neg (by omega)]
  simp [List.getD_eq_getElem?_getD, hf, oFmt]

/-! ### The write -/

theorem exec_fmtValidate {s : State} {e : Nat} (hup : s.up = true) (he : e < 8) (v : W32) :
    exec (.fmtValidate e v) s = .next (s.fmtCtl e v) := by
  have h : exec (.fmtValidate e v) s = execFmtValidate e v s := rfl
  rw [h, execFmtValidate, writeGate_of (by simp [he]) hup]

theorem oFmt_ctl (e : Nat) : oFmt e + 0x20 = 0xA01020 + 0x40 * e := by unfold oFmt; omega

section
variable {s : State} {e : Nat} (he : 1 ≤ e) (v : W32)
include he

/-- What a write does to an entry that is not valid. -/
theorem fmtCtl_invalid (hs : s.rb (0xA01020 + 0x40 * e) 31 = false) :
    s.fmtCtl e v = (s.clean 10 e 0x20 0x24).setReg (0xA01020 + 0x40 * e)
      (if bit v 31 = false then fmtWord (s.reg (0xA01020 + 0x40 * e)) v
        else if fmtOk (s.fmtFds e) (fmtWord (s.reg (0xA01020 + 0x40 * e)) v) = true
          then fmtPassed (fmtWord (s.reg (0xA01020 + 0x40 * e)) v) else fmtFailed (fmtWord (s.reg (0xA01020 + 0x40 * e)) v)) := by
  rw [State.fmtCtl, oFmt_ctl]
  dsimp only
  rw [if_neg (by omega), hs, if_neg (by decide)]
  by_cases hv : bit v 31 = true
  · rw [hv, if_neg (c := (!true) = true) (by simp), if_neg (c := true = false) (by simp)]
    by_cases hok : fmtOk (s.fmtFds e) (fmtWord (s.reg (0xA01020 + 0x40 * e)) v) = true
    · rw [if_pos hok]; exact if_pos hok
    · rw [if_neg hok]; exact if_neg hok
  · rw [Bool.eq_false_iff.2 hv]; rfl

/-- What it does to a valid one. -/
theorem fmtCtl_valid (hs : s.rb (0xA01020 + 0x40 * e) 31 = true) :
    s.fmtCtl e v = if bit v 31 = true then s else (s.clean 10 e 0x23 0x24).setRb (0xA01020 + 0x40 * e) 31 false := by
  rw [State.fmtCtl, oFmt_ctl]
  dsimp only
  rw [if_neg (by omega), if_pos hs]

end

/-- Settles O24: a valid entry takes only the clearing of VALID; any other takes the word written, with VALID and ERR as the checks
of its descriptors say. -/
theorem formatEntriesAreValidated : Obligations.FormatEntriesAreValidated := by
  unfold Obligations.FormatEntriesAreValidated
  intro s e v hup he
  have written : ∀ w, OnlyRegs [0xA01020 + 0x40 * e] s ((s.clean 10 e 0x20 0x24).setReg (0xA01020 + 0x40 * e) w) :=
    fun w => (onlyRegs_clean s 10 e 0x20 0x24).setReg w
  refine ⟨fun h0 => ⟨s, by rw [exec_fmtValidate hup he, State.fmtCtl, if_pos h0], rfl⟩,
    fun h1 hs hv => ⟨_, (exec_fmtValidate hup he v).trans (congrArg _ (fmtCtl_invalid h1 v hs)), (written _).and ?_⟩,
    fun h1 hs hv => ⟨_, (exec_fmtValidate hup he v).trans (congrArg _ (fmtCtl_invalid h1 v hs)), (written _).and ?_⟩,
    fun h1 hs => ⟨_, (exec_fmtValidate hup he v).trans (congrArg _ (fmtCtl_valid h1 v hs)), ?_⟩⟩
  · rw [if_pos hv]
    simp only [State.rf, State.rb, State.reg_setReg]
    exact ⟨fld_fmtWord (by decide) fun _ _ => rfl, bit_fmtWord_valid _ _, bit_fmtWord_err _ _⟩
  · rw [if_neg (by simp [hv])]
    simp only [State.rf, State.rb, State.reg_setReg]
    obtain ⟨pvalid, perr, pcodes⟩ := bits_fmtPassed (fmtWord (s.reg (0xA01020 + 0x40 * e)) v)
    obtain ⟨fvalid, ferr, fcodes⟩ := bits_fmtFailed (s.reg (0xA01020 + 0x40 * e)) v
    have hgood := fmtOk_iff (s.fmtFds e) (fmtWord (s.reg (0xA01020 + 0x40 * e)) v)
    have hfds : ∀ f < 8, (s.fmtFds e).getD f 0 = s.reg (0xA01000 + 0x40 * e + 4 * f) := fun f hf => getD_fmtFds s h1 hf
    rw [fld_fmtWord (lo := 24) (len := 3) (by decide) (fun _ _ => rfl)] at hgood
    simp +contextual only [hfds] at hgood
    refine ⟨?_, fun good => ?_, fun bad => ?_⟩
    · split
      · exact fld_fmtWord (by decide) pcodes
      · exact fld_fmtWord (by decide) fcodes
    · rw [if_pos (hgood.2 good)]; exact ⟨pvalid, perr⟩
    · rw [if_neg (mt hgood.1 bad)]; exact ⟨fvalid, ferr⟩
  · split
    · next hv => exact ⟨⟨rfl, rfl⟩, fun _ => ⟨rfl, rfl, rfl⟩, hs.trans hv.symm, fun _ => ⟨fun _ => rfl, rfl⟩⟩
    · next hv =>
      obtain ⟨hapart, hmem, hregs⟩ : OnlyRegs [0xA01020 + 0x40 * e] s ((s.clean 10 e 0x23 0x24).setRb (0xA01020 + 0x40 * e) 31 false) :=
        (onlyRegs_clean s 10 e 0x23 0x24).setReg _
      refine ⟨hapart, hmem, (State.rb_setRb _ _ _ _ (by decide)).trans (Bool.eq_false_iff.2 hv).symm, fun o => ?_⟩
      have hother : o ≠ 0xA01020 + 0x40 * e → _ := fun ho => hregs o (by simpa using ho)
      refine ⟨hother, ?_⟩
      by_cases ho : o = 0xA01020 + 0x40 * e
      · subst ho
        rw [State.reg_setRb, setBit, fld_setFld_ne _ _ _ _ _ _ (.inl (by decide)) (by decide)]; rfl
      · rw [hother ho]

end Sys2Proof.Machine
end

section
/-! PROOF. Slips: what a slip leaves in LN_HDR_CNT, and why STALE does not show after it where a lane keeps too long a row of
headers. -/

namespace Sys2Proof.Machine

/-! ### Rows of a lane -/

/-- A write of a register of a lane whose island runs is performed. -/
theorem laneWrite_of {s : State} {l : LaneId} {ok : Bool} (h : ok = true) (hon : s.laneOn l = true) (f : State → State) :
    laneWrite l ok s f = .next (f s) := by
  simp only [State.laneOn, Bool.and_eq_true] at hon
  obtain ⟨hhas, hup⟩ := hon
  cases l with
  | rx n | tx n => simp [laneWrite, writeGate, h, hhas, show s.up = true from hup]
  | w n | port => simp [laneWrite, gate, h, hhas, show s.hostUp = true from hup]

theorem exec_lnSlip {s : State} {l : LaneId} (hon : s.laneOn l = true) (hrx : isTxLane l = false) (v : W32) :
    exec (.lnSlip l v) s = .next (s.lnSlip l v) := laneWrite_of (by rw [hrx]; rfl) hon _

theorem laneState_congr {s t : State} {l : LaneId} (h : t.reg (oLnStat l) = s.reg (oLnStat l)) : t.laneState l = s.laneState l :=
  congrArg (fun w => fld w 29 3) h

/-! ### A slip -/

/-- LN_HDR_CNT right after a slip: STALE, and below it the number of the headers kept that are valid. -/
theorem reg_slip_hdrCnt (s : State) (l : LaneId) :
    (s.slip l).reg (laneBase l + 0x10) = lo32 (2 ^ 31 + ((s.lane l).hdrs.filter id).length) := by
  rw [State.slip, State.hdrCnt, State.reg_setReg]; rfl

theorem reg_slip_ne (s : State) {l : LaneId} {o : Nat} (h : o ≠ laneBase l + 0x10) : (s.slip l).reg o = s.reg o :=
  State.reg_setReg_ne _ _ h

/-- In SLIP mode a write of SLIP = 1 slips a lane that is in SIGNAL or DOWN, and clears HOLD. -/
theorem lnSlip_below_lock {s : State} {l : LaneId} {v : W32} (hv : bit v 0 = true) (ha : s.lnAlign l = true) (hst : s.laneState l < 2) :
    s.lnSlip l v = (s.slip l).setRb (oLnCtl l) 29 false := by
  have hstat : ((s.slip l).setRb (oLnCtl l) 29 false).laneState l = s.laneState l := laneState_congr
    ((State.reg_setRb_ne _ _ _ (by simp [oLnStat, oLnCtl])).trans (reg_slip_ne s (by simp [oLnStat])))
  rw [State.lnSlip, hv, ha]
  exact (if_neg (by simp)).trans (if_neg (by omega))

/-! ### A row too long -/

/-- A part after reset whose RX lane 0, DOWN, is in SLIP mode. -/
def slipMode : State := State.reset.setReg (laneBase (.rx 0)) 0x40000000#32

theorem slipMode_lane : slipMode.laneOn (.rx 0) = true ∧ slipMode.lnAlign (.rx 0) = true ∧ slipMode.laneState (.rx 0) = 0 := by
  decide +kernel

/-- That part, with a row of headers kept by the lane. -/
def slipKept (hdrs : List Bool) : State := slipMode.setLane (.rx 0) { Lane.init with hdrs := hdrs }

/-- With 2³¹ valid headers kept their count carries into STALE. -/
theorem rb_slip_not_stale {s : State} {l : LaneId} (h : (s.lane l).hdrs = List.replicate (2 ^ 31) true) :
    (s.slip l).rb (laneBase l + 16) 31 = false := by
  have hlen : ((s.lane l).hdrs.filter id).length = 2 ^ 31 := by
    rw [h, List.filter_replicate_of_pos rfl, List.length_replicate]
  rw [State.rb, reg_slip_hdrCnt, hlen]
  decide

/-- Refutes O22: the row of headers of a lane may be of any length in a state that is not reached from reset (a header received
keeps 4,096), and with 2³¹ valid ones in it their count in LN_HDR_CNT carries into the STALE bit that a slip sets. -/
theorem not_slipEyeAndPrbs : ¬ Obligations.SlipEyeAndPrbs := by
  unfold Obligations.SlipEyeAndPrbs
  intro h
  obtain ⟨hon, halign, hdown⟩ := slipMode_lane
  generalize hl : List.replicate (2 ^ 31) true = hdrs
  obtain ⟨t, ht, -, -, -, -, -, hstale, -⟩ := (h (slipKept hdrs) (.rx 0) hon rfl).1 1 rfl halign
  have hslip : exec (.lnSlip (.rx 0) 1) (slipKept hdrs) = .next (((slipKept hdrs).slip (.rx 0)).setRb (oLnCtl (.rx 0)) 29 false) := by
    rw [exec_lnSlip (s := slipKept hdrs) (l := .rx 0) hon rfl, lnSlip_below_lock (s := slipKept hdrs) rfl halign (hdown.trans_lt (by decide))]
  rw [hslip] at ht
  injection ht with ht
  have hrow : ((slipKept hdrs).lane (.rx 0)).hdrs = List.replicate (2 ^ 31) true :=
    (congrArg Lane.hdrs (State.setLane_lane _ _ _)).trans hl.symm
  rw [← ht, State.rb_setRb_ne _ _ _ _ (by decide), rb_slip_not_stale hrow] at hstale
  exact Bool.false_ne_true hstale

end Sys2Proof.Machine
end

section
/-! PROOF. BUOY frames of a source whose rate has no row of WDG_RATE: the word that would hold its period's high part is a
counter. -/

namespace Sys2Proof.Machine

/-- A part after reset with wedging on and EPOCH_CHK set, whose one source is PRESENT with rate 32, and a BUOY of its first sample at
the epoch at the head of RX lane 0's FIFO. The high word of P for rate 32 would lie at WDG_CNT 17, which counts BUOYs. -/
def buoyOfRate32 : State :=
  (((State.reset.setReg oWdgCtl 3).setSrc 0 { SrcEntry.empty with state := 1, rate := 32 }).setLane (.rx 0)
    { Lane.init with fifo := [⟨3, true, 0, 0, 0, 0, 0, 0, [], 0, 0, 0⟩] })

theorem buoyOfRate32_meets : buoyOfRate32.up = true ∧ buoyOfRate32.err.upsets = [] ∧ 0 < buoyOfRate32.nRx ∧
    (buoyOfRate32.lane (.rx 0)).fifo = [⟨3, true, 0, 0, 0, 0, 0, 0, [], 0, 0, 0⟩] ∧ buoyOfRate32.rb 0xA00000 0 = true ∧
    (buoyOfRate32.src 0).state = 1 ∧ (buoyOfRate32.src 0).rate = 32 ∧ buoyOfRate32.epochChk = true := by decide +kernel

/-- Its period reads 0, for which the statement has EPOCH_BAD set. -/
theorem buoyOfRate32_period : (buoyOfRate32.reg (0xA00040 + 8 * 32)).toNat + 2 ^ 32 * buoyOfRate32.rf (0xA00044 + 8 * 32) 0 24 = 0 := by
  decide +kernel

/-- The frame counted first, P is 2³², and the epoch implied by index 0 is the one set. -/
theorem buoyOfRate32_passes :
    ∃ t, exec (.buoyFrame 0) buoyOfRate32 = .next t ∧ (t.src 0).epochBad = false := ⟨_, rfl, by decide +kernel⟩

/-- Refutes O25: of a source whose rate is 32, which no HAIL sets, the epoch check reads its period after the BUOY has been counted
in the word that the period takes, and clears EPOCH_BAD where the statement, with the period as it was before, has it set. -/
theorem not_sourcesArriveAndDepart : ¬ Obligations.SourcesArriveAndDepart := by
  unfold Obligations.SourcesArriveAndDepart
  intro h
  obtain ⟨hup, hups, hn, hfifo, hon, hst, hrate, hchk⟩ := buoyOfRate32_meets
  obtain ⟨t, ht, -, -, -, hsrc, -⟩ := ((h buoyOfRate32 hup hups).1 0 _ [] hn hfifo).2.2 hon rfl |>.2.2 hst
  obtain ⟨t', ht', hpass⟩ := buoyOfRate32_passes
  have same : t = t' := Host.Outcome.next.inj (ht.symm.trans ht')
  rw [hchk, if_pos rfl, hrate, buoyOfRate32_period] at hsrc
  have hbad : (t.src 0).epochBad = true := congrArg SrcEntry.epochBad hsrc
  exact Bool.false_ne_true ((same ▸ hpass).symm.trans hbad)

end Sys2Proof.Machine
end

section
/-! PROOF. A window that closes in a block past the 24 that a part has: its clamp counters lie on registers of the TX entries. -/

namespace Sys2Proof.Machine

/-- A block of one window, at slot 0 of channel 0 in block 28, in which one sample of beam 16 exceeds 8 bits. -/
def farWindow : Window := ⟨28, 0, 0, [], List.replicate (128 * 16) (0, 0) ++ [(1000, 0)], [], []⟩

def farPlace : BlockPlace := ⟨⟨0, 0, 0, 0, false, 0⟩, [], 0⟩
def farEra : Era := ⟨0, 0, 0, []⟩

/-- A part after reset, with block 28 placed and its window to close, and TX entry 0 enabled for the 16 beams from 1,808 on of that
block, on lane 0, which is DOWN. -/
def farBlock : State :=
  { State.reset.setReg (oTxg 0) 0x80000710 with
    plc := { PlcSt.init with
      cur := some ⟨⟨0, 0, [], [], [], 0, 0, 0, 0, [], []⟩, 0, [], [], [(28, farPlace)], [], 0, 0, 0, 0, 0, [], 0, 0, []⟩ }
    beam := { BeamSt.init with windows := [farWindow], blocks := [(28, { BlockSt.init with eras := [farEra] })] } }

theorem farBlock_meets : farBlock.up = true ∧ farBlock.placedBlock 28 = some farPlace ∧
    farBlock.closable 28 (farPlace.desc.n / 64) farPlace.desc.c3 = some farWindow ∧
    (farBlock.block 28).eraAt (128 * farWindow.blk) = some farEra ∧ farBlock.emits = true ∧ farBlock.pair.hold = [] ∧
    farBlock.beam.txgPend = [] ∧ farBlock.txgBeams 0 = some (1808, 16) := by decide +kernel

theorem farBlock_lane : farBlock.rf (0xD08000 + 4 * 0) 24 5 = 0 ∧ farBlock.laneState (.tx 0) ≠ 4 ∧ (farBlock.reg 0xD08104).toNat = 0 ∧
    ∀ i < 64, i ≠ 0 → farBlock.txgBeams i = none := by decide +kernel

/-- The clamp of beam 16 of block 28 is counted at 0xD01004 + 0x10 × 1,808, where TX lane 0 counts frames dropped. -/
theorem farBlock_counts : ∃ t, exec (.beamWindowClose 28 none) farBlock = .next t ∧ (t.reg 0xD08104).toNat = 2 :=
  ⟨_, rfl, by decide +kernel⟩

/-- Refutes O37: in a block past the 24 of the part, which no PLACE places, the counters of a window's clamps lie on the count of frames
dropped of a TX lane, and a window that closes with one frame dropped and one sample clamped counts 2 there. -/
theorem not_txEntriesAndBeamFrames : ¬ Obligations.TxEntriesAndBeamFrames := by
  unfold Obligations.TxEntriesAndBeamFrames
  intro h
  obtain ⟨hup, hplaced, hclose, hera, hemits, hhold, hpend, hbeams⟩ := farBlock_meets
  obtain ⟨hlane, hdown, hzero, hothers⟩ := farBlock_lane
  obtain ⟨t, ht, -, -, -, -, hdrops, -⟩ := (h farBlock hup).2.2.1 28 _ _ _ 0 _ hplaced hclose hera hemits hhold hpend (by decide) hbeams
    (by decide) (by decide) (by decide) fun i hi h0 o ho => absurd ((hothers i hi h0).symm.trans ho) (by simp)
  obtain ⟨t', ht', hcount⟩ := farBlock_counts
  have same : t = t' := Host.Outcome.next.inj (ht.symm.trans ht')
  rw [hlane] at hdrops
  have hone := (hdrops (.inl hdown)).2
  rw [Counted, hzero, same, hcount] at hone
  exact absurd hone (by decide)

end Sys2Proof.Machine
end

section
/-! PROOF. The end of a slot: its deadline, which blanks what it still awaits, and its release (R78, R79). -/

namespace Sys2Proof.Machine

variable {s t u : State}

/-! ### Awaited blocks blanked, channel by channel -/

/-- A block of an open slot that is awaited from a source that satisfies `f`. -/
def Slot.hit (f : Nat → Bool) (x : Slot) (b : BlkSt) : Bool := !x.released && b.awaitedFrom f

/-- A slot with those blocks blanked for a reason. -/
def Slot.blanked (x : Slot) (code : Nat) (f : Nat → Bool) : Slot :=
  { x with blocks := x.blocks.map (fun b => if x.hit f b then .blank code else b) }

/-- How many blocks are blanked so in a list of slots. -/
def hitCount (f : Nat → Nat → Bool) (l : List Slot) : Nat := (l.map (fun x => (x.blocks.filter (x.hit (f x.blk))).length)).sum

/-- What `blankAwaited` does to one channel. -/
def State.blankChan (s : State) (code : Nat) (f : Nat → Nat → Nat → Bool) (c : Nat) : State :=
  (s.setRing c { s.ring c with slots := (s.ring c).slots.map (fun x => x.blanked code (f c x.blk)) }).cnt (0xA00100 + 4 * code)
    (hitCount (f c) (s.ring c).slots)

theorem blankAwaited_eq (s : State) (code : Nat) (f : Nat → Nat → Nat → Bool) :
    s.blankAwaited code f = (s.asm_.map (·.1)).foldl (fun t c => t.blankChan code f c) s := by
  rw [List.foldl_map]; rfl

/-- Blocks blanked are awaited no longer. -/
theorem Slot.not_hit_blanked (x : Slot) (code : Nat) (f : Nat → Bool) : ∀ b ∈ (x.blanked code f).blocks, (x.blanked code f).hit f b = false := by
  intro b hb
  obtain ⟨a, -, rfl⟩ := List.mem_map.1 hb
  split
  · simp [Slot.hit, BlkSt.awaitedFrom]
  · next h => exact Bool.eq_false_iff.2 h

theorem Slot.blanked_of_not_hit {x : Slot} {f : Nat → Bool} (h : ∀ b ∈ x.blocks, x.hit f b = false) (code : Nat) : x.blanked code f = x := by
  have hmap : x.blocks.map (fun b => if x.hit f b then .blank code else b) = x.blocks :=
    (List.map_congr_left fun b hb => by rw [h b hb]; rfl).trans (List.map_id' _)
  rw [Slot.blanked, hmap]

/-- From s to t no register, no slot, and nothing beside the rings and the register file changes. -/
def SlotsKept (s t : State) : Prop :=
  (∃ rings regs, t = { s with asm_ := rings, regs := regs }) ∧ (∀ o, t.reg o = s.reg o) ∧ ∀ d, (t.ring d).slots = (s.ring d).slots

theorem SlotsKept.refl (s : State) : SlotsKept s s := ⟨⟨_, _, rfl⟩, fun _ => rfl, fun _ => rfl⟩

theorem SlotsKept.trans (h : SlotsKept s t) (k : SlotsKept t u) : SlotsKept s u := by
  obtain ⟨⟨rings, regs, rfl⟩, hreg, hslots⟩ := h
  obtain ⟨⟨rings', regs', rfl⟩, kreg, kslots⟩ := k
  exact ⟨⟨rings', regs', rfl⟩, fun o => (kreg o).trans (hreg o), fun d => (kslots d).trans (hslots d)⟩

/-- No open slot of a channel awaits a block that is to be blanked. -/
def NoneHit (f : Nat → Nat → Nat → Bool) (s : State) (c : Nat) : Prop :=
  ∀ x ∈ (s.ring c).slots, ∀ b ∈ x.blocks, x.hit (f c x.blk) b = false

theorem slots_blankChan_same (code : Nat) (f : Nat → Nat → Nat → Bool) (c : Nat) :
    ((s.blankChan code f c).ring c).slots = (s.ring c).slots.map (fun x => x.blanked code (f c x.blk)) :=
  congrArg ChanRing.slots (State.setRing_ring _ _ _)

theorem slots_blankChan_ne (code : Nat) (f : Nat → Nat → Nat → Bool) {c d : Nat} (h : d ≠ c) :
    (s.blankChan code f c).ring d = s.ring d := State.setRing_ring_ne _ _ _ h

theorem hitCount_eq_zero {f : Nat → Nat → Bool} {l : List Slot}
    (h : ∀ x ∈ l, ∀ b ∈ x.blocks, x.hit (f x.blk) b = false) : hitCount f l = 0 := by
  refine List.sum_eq_zero fun n hn => ?_
  obtain ⟨x, hx, rfl⟩ := List.mem_map.1 hn
  rw [List.length_eq_zero_iff, List.filter_eq_nil_iff]
  exact fun b hb => by simp [h x hx b hb]

/-- A counter that adds nothing keeps its word. -/
theorem reg_cnt_zero (s : State) (off o : Nat) : (s.cnt off 0).reg o = s.reg o := by
  by_cases h : o = off
  · subst h
    have := (s.reg o).isLt
    exact BitVec.eq_of_toNat_eq ((s.reg_cnt o 0).trans (by omega))
  · exact s.reg_cnt_ne 0 h

theorem slotsKept_blankChan (code : Nat) {f : Nat → Nat → Nat → Bool} {c : Nat} (h : NoneHit f s c) : SlotsKept s (s.blankChan code f c) := by
  refine ⟨⟨_, _, rfl⟩, fun o => ?_, fun d => ?_⟩
  · rw [State.blankChan, hitCount_eq_zero h, reg_cnt_zero]; rfl
  · by_cases hd : d = c
    · subst hd
      rw [slots_blankChan_same, List.map_congr_left fun x hx => Slot.blanked_of_not_hit (h x hx) code, List.map_id']
    · rw [slots_blankChan_ne code f hd]

theorem NoneHit.congr {f : Nat → Nat → Nat → Bool} {c : Nat} (h : NoneHit f s c) (e : (t.ring c).slots = (s.ring c).slots) : NoneHit f t c := by
  rw [NoneHit, e]; exact h

theorem noneHit_blankChan (code : Nat) (f : Nat → Nat → Nat → Bool) (c : Nat) : NoneHit f (s.blankChan code f c) c := by
  rw [NoneHit, slots_blankChan_same]
  rintro x hx
  obtain ⟨y, -, rfl⟩ := List.mem_map.1 hx
  exact y.not_hit_blanked code (f c y.blk)

theorem slotsKept_blankChans (code : Nat) {f : Nat → Nat → Nat → Bool} (l : List Nat) (h : ∀ c, NoneHit f s c) :
    SlotsKept s (l.foldl (fun t c => t.blankChan code f c) s) := by
  induction l generalizing s with
  | nil => exact .refl s
  | cons c l ih =>
    have hc := slotsKept_blankChan code (h c)
    exact hc.trans (ih fun d => (h d).congr (hc.2.2 d))

/-- Where only one channel has blocks to be blanked, and it is met, nothing happens but what happens to it. -/
theorem blankChans_one (code : Nat) {f : Nat → Nat → Nat → Bool} {c : Nat} {l : List Nat} (hc : c ∈ l)
    (h : ∀ d, d ≠ c → NoneHit f s d) :
    ∃ u, SlotsKept s u ∧ SlotsKept (u.blankChan code f c) (l.foldl (fun t c => t.blankChan code f c) s) := by
  induction l generalizing s with
  | nil => exact absurd hc (List.not_mem_nil)
  | cons d l ih =>
    by_cases hd : d = c
    · subst hd
      refine ⟨s, .refl s, slotsKept_blankChans code l fun e => ?_⟩
      by_cases he : e = d
      · subst he; exact noneHit_blankChan code f e
      · exact (h e he).congr (by rw [slots_blankChan_ne code f he])
    · have hk := slotsKept_blankChan code (h d hd)
      obtain ⟨u, hu, ht⟩ := ih ((List.mem_cons.1 hc).resolve_left (Ne.symm hd)) fun e he => (h e he).congr (hk.2.2 e)
      exact ⟨u, hk.trans hu, ht⟩

/-! ### The deadline of a slot -/

/-- The slots of a channel are listed in the table of rings. -/
theorem mem_rings {c : Nat} (h : (s.ring c).slots ≠ []) : c ∈ s.asm_.map (·.1) := by
  by_contra hc
  have hinit : ∀ l : List (Nat × ChanRing), c ∉ l.map (·.1) → tget ChanRing.init l c = ChanRing.init := by
    intro l
    induction l with
    | nil => exact fun _ => rfl
    | cons e l ih =>
      intro hl
      obtain ⟨he, hl⟩ := not_or.1 (mt List.mem_cons.2 hl)
      exact (if_neg he).trans (ih hl)
  exact h (congrArg ChanRing.slots (hinit _ hc))

/-- Every awaited block of one slot. -/
def ofSlot (c b : Nat) : Nat → Nat → Nat → Bool := fun c' b' _ => c' == c && b' == b

theorem not_hit_ofSlot {c b d : Nat} {x : Slot} (h : ¬ (d = c ∧ x.blk = b)) (k : BlkSt) : x.hit (ofSlot c b d x.blk) k = false := by
  have hf : ofSlot c b d x.blk = fun _ => false := by
    funext o
    exact Bool.eq_false_iff.2 (mt (by simp [ofSlot]) h)
  cases k <;> simp [Slot.hit, BlkSt.awaitedFrom, hf]

theorem ofSlot_same {c b b' : Nat} (h : b' = b) : ofSlot c b c b' = fun _ => true := by funext o; simp [ofSlot, h]

theorem hit_of_open {x : Slot} (hr : x.released = false) : x.hit (fun _ => true) = BlkSt.isAwaited := by
  funext k; simp [Slot.hit, BlkSt.isAwaited, hr]

/-- Of the slots of a list only the one of block b counts. -/
theorem hitCount_ofSlot {c b : Nat} {x : Slot} {l : List Slot} (h : l.filter (fun y => y.blk == b) = [x]) (hr : x.released = false) :
    hitCount (ofSlot c b c) l = (x.blocks.filter (·.isAwaited)).length := by
  have hb : x.blk = b := by simpa using List.of_mem_filter (h.symm ▸ List.mem_singleton_self x : x ∈ l.filter (fun y => y.blk == b))
  have hsplit : ∀ l : List Slot, hitCount (ofSlot c b c) l = hitCount (ofSlot c b c) (l.filter (fun y => y.blk == b)) := by
    intro l
    induction l with
    | nil => rfl
    | cons y l ih =>
      rw [hitCount, List.map_cons, List.sum_cons, ← hitCount, ih]
      by_cases hy : y.blk = b
      · rw [List.filter_cons_of_pos (by simpa using hy)]; rfl
      · have hzero : y.blocks.filter (y.hit (ofSlot c b c y.blk)) = [] :=
          List.filter_eq_nil_iff.2 fun k _ => by simp [not_hit_ofSlot (fun e => hy e.2) k]
        rw [List.filter_cons_of_neg (by simpa using hy), hzero, List.length_nil, Nat.zero_add]
  rw [hsplit, h]
  simp [hitCount, ofSlot_same hb, hit_of_open hr]

/-- Blanking keeps which slot is which. -/
theorem find?_blanked (code : Nat) (g : Nat → Nat → Bool) (l : List Slot) (d : Nat) :
    (l.map (fun x => x.blanked code (g x.blk))).find? (fun y => y.blk == d) =
      (l.find? (fun y => y.blk == d)).map (fun x => x.blanked code (g x.blk)) := by
  rw [List.find?_map]; rfl

theorem slotAt_congr {c : Nat} (h : (t.ring c).slots = (s.ring c).slots) (d : Nat) : t.slotAt c d = s.slotAt c d := slotAt_eq_of_slots h d

section
variable {c b : Nat} {x : Slot} (honly : (s.ring c).slots.filter (fun y => y.blk == b) = [x]) (hr : x.released = false)
include honly hr

omit hr in
theorem mem_of_filter_singleton : x ∈ (s.ring c).slots ∧ x.blk = b := by
  have hx : x ∈ (s.ring c).slots.filter (fun y => y.blk == b) := honly.symm ▸ List.mem_singleton_self x
  simpa using hx

omit hr in
theorem slotAt_of_filter_singleton : s.slotAt c b = some x := by
  rw [State.slotAt, ← List.head?_filter, honly]; rfl

/-- What the deadline of a slot leaves: its awaited blocks blank, their number counted, and every other slot. -/
theorem deadline_blanks : (∃ rings regs, s.blankAwaited 32 (ofSlot c b) = { s with asm_ := rings, regs := regs }) ∧
    RegsBut [0xA00180] s (s.blankAwaited 32 (ofSlot c b)) ∧
    Counted s (s.blankAwaited 32 (ofSlot c b)) 0xA00180 (x.blocks.filter (·.isAwaited)).length ∧
    (s.blankAwaited 32 (ofSlot c b)).slotAt c b = some (x.blanked 32 (fun _ => true)) ∧
    ∀ d e, (d, e) ≠ (c, b) → (s.blankAwaited 32 (ofSlot c b)).slotAt d e = s.slotAt d e := by
  obtain ⟨hx, hb⟩ := mem_of_filter_singleton honly
  have hnone : ∀ d, d ≠ c → NoneHit (ofSlot c b) s d := fun d hd y _ k _ => not_hit_ofSlot (fun e => hd e.1) k
  obtain ⟨u, ⟨⟨rings, regs, hu⟩, hureg, huslots⟩, ⟨⟨rings', regs', ht⟩, htreg, htslots⟩⟩ :=
    blankChans_one 32 (mem_rings (List.ne_nil_of_mem hx)) hnone
  rw [← blankAwaited_eq] at ht htreg htslots
  have hcount : hitCount (ofSlot c b c) (u.ring c).slots = (x.blocks.filter (·.isAwaited)).length := by
    rw [huslots, hitCount_ofSlot honly hr]
  have hblank : ∀ d, (u.blankChan 32 (ofSlot c b) c).slotAt c d = (s.slotAt c d).map (fun y => y.blanked 32 (ofSlot c b c y.blk)) := by
    intro d
    rw [State.slotAt, slots_blankChan_same, huslots, find?_blanked 32 (ofSlot c b c), ← State.slotAt]
  refine ⟨⟨rings', regs', by rw [ht, hu]; rfl⟩, fun o ho => ?_, ?_, ?_, fun d e hde => ?_⟩
  · rw [htreg, State.blankChan, State.reg_cnt_ne _ _ (by simpa using ho)]
    exact hureg o
  · rw [Counted, htreg, ← hcount, ← hureg]
    exact State.reg_cnt _ _ _
  · rw [slotAt_congr (htslots c), hblank, slotAt_of_filter_singleton honly, Option.map_some, ofSlot_same hb]
  · rw [slotAt_congr (htslots d)]
    by_cases hd : d = c
    · subst hd
      have he : e ≠ b := fun h => hde (by rw [h])
      rw [hblank]
      cases hy : s.slotAt d e with
      | none => rfl
      | some y =>
        have hye : y.blk = e := by simpa using List.find?_some hy
        rw [Option.map_some, Slot.blanked_of_not_hit fun k _ => not_hit_ofSlot (fun h => he (hye.symm.trans h.2)) k]
    · rw [State.slotAt, slots_blankChan_ne _ _ hd, ← State.slotAt, slotAt_congr (huslots d)]

end

theorem exec_slotDeadline {c b dt : Nat} {x : Slot} (hup : s.up = true) (hx : s.slotAt c b = some x) (hr : x.released = false)
    (hd : x.deadline ≤ s.time.ticks + dt) : exec (.slotDeadline c b dt) s = .next ((s.advance dt).blankAwaited 32 (ofSlot c b)) := by
  have e : exec (.slotDeadline c b dt) s = execSlotDeadline c b dt s := rfl
  rw [e, execSlotDeadline, hx]
  exact gate_of _ _ _ (by simp [hup, hr, hd])

/-! ### A slot read (R11) -/

/-- The ranges of one block read with no wrong word about. -/
theorem readRanges_clean (hups : s.err.upsets = []) (l : List (Nat × Nat)) : ∃ w, MemOnly s w ∧
    l.foldl (fun (acc : Bool × State) r =>
      let (ue, s) := acc.2.scan 0 0 r.1 (r.1 + r.2) 2 0 false
      (acc.1 || !ue.isEmpty, s.touch r.1 r.2)) (false, s) = (false, w) := by
  induction l generalizing s with
  | nil => exact ⟨s, ⟨_, rfl⟩, rfl⟩
  | cons r l ih =>
    have ht := memOnly_touch s r.1 r.2
    obtain ⟨w, hw, hl⟩ := ih (s := s.touch r.1 r.2) (by rw [ht.err_eq, hups])
    refine ⟨w, ht.trans hw, ?_⟩
    rw [List.foldl_cons]
    dsimp only
    rw [scan_clean hups]
    exact hl

/-- A slot read where no wrong word is about: it is marked, and beside that the controllers' state alone changes. -/
theorem readSlot_clean (hups : s.err.upsets = []) (c : Nat) {x : Slot} (hx : x.taken = false) :
    MemOnly (s.slotMark c x.blk) (s.readSlot c x) := by
  rw [State.readSlot, if_neg (by simp [hx])]
  refine foldl_keeps (P := MemOnly (s.slotMark c x.blk)) _ (fun t e _ ht => ?_) ⟨_, rfl⟩
  have hclean : t.err.upsets = [] := by rw [ht.err_eq]; exact hups
  split
  · obtain ⟨w, hw, hread⟩ := readRanges_clean hclean e.2
    rw [hread]
    exact ht.trans hw
  · exact ht

/-! ### A slot released (R79) -/

/-- From s to t only the rings, the kilns, the controllers' state and the books of the pair may change, and no other channel's ring. -/
structure RingOnly (c : Nat) (s t : State) : Prop where
  frame : ∃ rings kilns mem pair, t = { s with asm_ := rings, kilns := kilns, mem := mem, pair := pair }
  other : ∀ d, d ≠ c → t.ring d = s.ring d

theorem RingOnly.trans {c : Nat} (h : RingOnly c s t) (k : RingOnly c t u) : RingOnly c s u := by
  obtain ⟨⟨r, kl, m, p, rfl⟩, hother⟩ := h
  obtain ⟨⟨r', kl', m', p', rfl⟩, kother⟩ := k
  exact ⟨⟨r', kl', m', p', rfl⟩, fun d hd => (kother d hd).trans (hother d hd)⟩

theorem ringOnly_setRing (s : State) (c : Nat) (v : ChanRing) : RingOnly c s (s.setRing c v) :=
  ⟨⟨_, s.kilns, s.mem, s.pair, rfl⟩, fun _ hd => s.setRing_ring_ne c v hd⟩
theorem MemOnly.ringOnly (h : MemOnly s t) (c : Nat) : RingOnly c s t := by
  obtain ⟨m, rfl⟩ := h
  exact ⟨⟨s.asm_, s.kilns, m, s.pair, rfl⟩, fun _ _ => rfl⟩

theorem RingOnly.onlyRegs {c : Nat} (h : RingOnly c s t) : OnlyRegs [] s t := by
  obtain ⟨⟨r, k, m, p, rfl⟩, -⟩ := h
  exact onlyRegs_of_stores rfl rfl rfl rfl rfl rfl

/-- The loss map carried to the kilns changes their records of it alone. -/
theorem lossToKilns_kilns (s : State) (c : Nat) (x : Slot) : ∃ kilns, s.lossToKilns c x = { s with kilns := kilns } := by
  unfold State.lossToKilns
  split
  · exact ⟨s.kilns, rfl⟩
  · refine foldl_keeps (P := fun t => ∃ kilns, t = { s with kilns := kilns }) _ (fun t e _ ht => ?_) ⟨s.kilns, rfl⟩
    obtain ⟨kilns, rfl⟩ := ht
    split
    dsimp only
    split
    · exact ⟨_, rfl⟩
    · exact ⟨kilns, rfl⟩

theorem mem_of_mem_freeLead {base : Nat} {l : List Slot} {y : Slot} (h : y ∈ (freeLead base l).2) : y ∈ l := by
  induction l generalizing base with
  | nil => exact h
  | cons x l ih =>
    rw [freeLead] at h
    split at h
    · exact List.mem_cons_of_mem x (ih h)
    · exact h

/-- Slots that are free go, and what is left of the ring is as it was. -/
theorem freeSlots_ring (s : State) (c : Nat) : RingOnly c s (s.freeSlots c) ∧ ((s.freeSlots c).ring c).rel = (s.ring c).rel ∧
    (s.freeSlots c).pair = s.pair ∧ ∀ y ∈ ((s.freeSlots c).ring c).slots, y ∈ (s.ring c).slots := by
  unfold State.freeSlots
  dsimp only
  split
  · exact ⟨⟨⟨s.asm_, s.kilns, s.mem, s.pair, rfl⟩, fun _ _ => rfl⟩, rfl, rfl, fun _ h => h⟩
  · refine ⟨ringOnly_setRing s c _, ?_, rfl, fun y hy => ?_⟩
    · rw [State.setRing_ring]
    · rw [State.setRing_ring] at hy
      exact mem_of_mem_freeLead hy

/-- A slot released counts as released, and its readers are those that take it. -/
theorem releaseSlot_ring (s : State) (c b : Nat) : RingOnly c s (s.releaseSlot c b) ∧ ((s.releaseSlot c b).ring c).rel = some b ∧
    (s.releaseSlot c b).pair.kilnFrom = s.pair.kilnFrom ∧ (s.releaseSlot c b).pair.blockFrom = s.pair.blockFrom ∧
    ∀ y ∈ ((s.releaseSlot c b).ring c).slots, y.blk = b → y.released = true ∧ y.readers = s.readersOf c b := by
  obtain ⟨w, hw⟩ : ∃ w, w = s.setRing c { s.ring c with
      slots := (s.ring c).slots.map (fun x => if x.blk = b then { x with released := true, readers := s.readersOf c b } else x)
      rel := some b } := ⟨_, rfl⟩
  have hring : w.ring c = _ := hw ▸ State.setRing_ring _ _ _
  obtain ⟨kilns, hloss⟩ : ∃ kilns, (w.slotAt c b).elim w (fun x => w.lossToKilns c x) = { w with kilns := kilns } := by
    cases w.slotAt c b with
    | none => exact ⟨w.kilns, rfl⟩
    | some x => exact lossToKilns_kilns w c x
  obtain ⟨v, hv⟩ : ∃ v, v = ({ w with kilns := kilns } : State).setPair fun p =>
      { p with lossSent := p.lossSent.filter (· ≠ (c, b)), losses := p.losses.filter (fun e => !(e.1 == c && e.2.1 == b)) } := ⟨_, rfl⟩
  have heq : s.releaseSlot c b = v.freeSlots c := by rw [State.releaseSlot, hv, ← hloss, hw]
  obtain ⟨hfree, hrel, hpair, hslots⟩ := freeSlots_ring v c
  rw [← heq] at hfree hrel hpair hslots
  have hwv : RingOnly c w v := ⟨⟨w.asm_, kilns, w.mem, v.pair, hv ▸ rfl⟩, fun _ _ => hv ▸ rfl⟩
  have hvring : v.ring c = w.ring c := hv ▸ rfl
  refine ⟨(hw ▸ ringOnly_setRing s c _ : RingOnly c s w).trans (hwv.trans hfree), ?_, ?_, ?_, fun y hy hb => ?_⟩
  · rw [hrel, hvring, hring]
  · rw [hpair, hv, hw]; rfl
  · rw [hpair, hv, hw]; rfl
  · have hmem := hslots y hy
    rw [hvring, hring] at hmem
    obtain ⟨z, -, rfl⟩ := List.mem_map.1 hmem
    by_cases hz : z.blk = b
    · rw [if_pos hz]; exact ⟨rfl, rfl⟩
    · rw [if_neg hz] at hb; exact absurd hb hz

/-! ### The release of the next slot, outside a pair -/

/-- With no unit yet to begin, a release means nothing beside itself. -/
theorem releaseJoin_eq {c b : Nat} (hk : s.pair.kilnFrom = []) (hb : s.pair.blockFrom = []) : s.releaseJoin c b = s.releaseSlot c b := by
  obtain ⟨-, -, hkiln, hblock, -⟩ := releaseSlot_ring s c b
  have hmiss : (s.releaseSlot c b).missFrames c b = s.releaseSlot c b := by rw [State.missFrames, hblock, hb]; rfl
  rw [State.releaseJoin, hmiss, State.joinUnits]
  split
  · rfl
  · rw [if_pos (by rw [hkiln, hblock, hk, hb]; rfl)]

theorem joined_of_role_le_one (h : s.role ≤ 1) : s.joined = false := by simp [State.joined]; omega

theorem slotRelease_of_no_pair {c : Nat} (x : Slot) (hrole : s.role ≤ 1) (hk : s.pair.kilnFrom = []) (hb : s.pair.blockFrom = []) :
    s.slotRelease c x = s.releaseSlot c x.blk := by
  have hsend : s.sendLoss c x = s := if_pos (Or.inr (by rw [joined_of_role_le_one hrole]; rfl))
  rw [State.slotRelease, hsend, if_neg (by omega), releaseJoin_eq hk hb]

/-- The slot next to be released is the same slot once it is marked as read. -/
theorem nextSlot_slotMark {c : Nat} {x : Slot} (h : s.nextSlot c = some x) (b : Nat) :
    ∃ y, (s.slotMark c b).nextSlot c = some y ∧ y.blk = x.blk := by
  refine ⟨if x.blk = b then { x with taken := true } else x, ?_, by split <;> rfl⟩
  have hopen : (fun y : Slot => !y.released) ∘ (fun x => if x.blk = b then { x with taken := true } else x) = fun y => !y.released := by
    funext y
    dsimp only [Function.comp]
    split <;> rfl
  rw [State.nextSlot, State.slotMark, State.setRing_ring, List.find?_map, hopen, ← State.nextSlot, h]
  rfl

/-- A slot read leaves the same slot next, and nothing that names its readers changes. -/
theorem readSlot_next (hups : s.err.upsets = []) {c : Nat} {x : Slot} (h : s.nextSlot c = some x) :
    RingOnly c s (s.readSlot c x) ∧ (∃ y, (s.readSlot c x).nextSlot c = some y ∧ y.blk = x.blk) ∧
    (s.readSlot c x).role = s.role ∧ (s.readSlot c x).pair = s.pair ∧ ∀ b, (s.readSlot c x).readersOf c b = s.readersOf c b := by
  cases hx : x.taken with
  | true =>
    have hread : s.readSlot c x = s := if_pos hx
    rw [hread]
    exact ⟨⟨⟨s.asm_, s.kilns, s.mem, s.pair, rfl⟩, fun _ _ => rfl⟩, ⟨x, h, rfl⟩, rfl, rfl, fun _ => rfl⟩
  | false =>
    have hm := readSlot_clean hups c hx
    obtain ⟨y, hy, hblk⟩ := nextSlot_slotMark h x.blk
    refine ⟨(ringOnly_setRing s c _).trans (hm.ringOnly c), ⟨y, ?_, hblk⟩, ?_⟩ <;> obtain ⟨m, hm⟩ := hm <;> rw [hm]
    · exact hy
    · exact ⟨rfl, rfl, fun _ => rfl⟩

theorem exec_slotRelease {c b : Nat} {x : Slot} (hup : s.up = true) (hx : s.nextSlot c = some x) (hb : x.blk = b)
    (hnone : ∀ k ∈ x.blocks, k.isAwaited = false) (hserves : s.slotServes x = true) (hheld : s.heldByPlacement c b = false)
    (hrole : s.role ≤ 1) : exec (.slotRelease c none) s = .next (s.slotTake c x) := by
  have e : exec (.slotRelease c none) s = execSlotRelease c none s := rfl
  have hany : x.blocks.any (·.isAwaited) = false := by simpa using hnone
  have hroom : s.sagRoom = true := by rw [State.sagRoom, joined_of_role_le_one hrole]; rfl
  have hupset : s.slotUpset c x none = s := rfl
  rw [e, execSlotRelease, hx]
  refine (gate_of _ _ _ (by simp [hup, hroom, hb, hheld, hserves, hany])).trans ?_
  dsimp only
  rw [hupset, hx]
  simp [hany]

/-- Settles O27: the deadline blanks what one slot awaits, by induction on the channels, and the first open slot is read and released. -/
theorem slotsAreReleasedInOrder : Obligations.SlotsAreReleasedInOrder := by
  unfold Obligations.SlotsAreReleasedInOrder
  intro s c b x hup
  refine ⟨fun dt honly hr hd => ?_, fun hx hb hnone hserves hheld hrole hups hk hbl => ?_⟩
  · have hring : ∀ d, (s.advance dt).ring d = s.ring d := fun d => by rw [State.ring, State.advance_asm_]; rfl
    obtain ⟨⟨rings, regs, hframe⟩, hregs, hcount, hslot, hother⟩ := deadline_blanks (s := s.advance dt) (by rw [hring]; exact honly) hr
    refine ⟨_, exec_slotDeadline hup (slotAt_of_filter_singleton honly) hr hd, ?_, fun a => ?_, hregs, hcount, ?_, fun d e hde => ?_⟩
    · rw [hframe]; exact ⟨s.advance_pending dt, s.advance_fuse dt⟩
    · rw [hframe]; exact s.memSame_advance dt a
    · rw [hslot, Slot.blanked, hit_of_open hr]
    · rw [hother d e hde]
      exact slotAt_eq_of_slots (congrArg ChanRing.slots (hring d)) e
  · obtain ⟨hread, ⟨y, hy, hyb⟩, hrole', hpair, hreaders⟩ := readSlot_next hups hx
    have htake : s.slotTake c x = (s.readSlot c x).releaseSlot c b := by
      rw [State.slotTake, hy, Option.elim_some,
        slotRelease_of_no_pair y (by rw [hrole']; exact hrole) (by rw [hpair]; exact hk) (by rw [hpair]; exact hbl), hyb, hb]
    obtain ⟨hrelease, hrel, -, -, hslots⟩ := releaseSlot_ring (s.readSlot c x) c b
    have hall := hread.trans hrelease
    obtain ⟨hapart, hmem, hregs⟩ := hall.onlyRegs
    refine ⟨_, exec_slotRelease hup hx hb hnone hserves hheld hrole, ?_⟩
    rw [htake]
    refine ⟨hapart, hmem, hregs, ?_, hall.other, fun z hz => ?_⟩
    · rw [State.wasReleased, hrel]; exact decide_eq_true (Nat.le_refl b)
    · rw [← hreaders]
      exact hslots z (List.mem_of_find?_eq_some hz) (by simpa using List.find?_some hz)

end Sys2Proof.Machine
end

section
/-! PROOF. Lanes: the state a lane enters, what it leaves where that is not UP any more, and what stands beside it (R60). -/

namespace Sys2Proof.Machine

variable {W : Nat → Prop} {l : LaneId} {s t u : State}

/-! ### The map -/

theorem oLnStat_ne_oLnCtl (l : LaneId) : oLnStat l ≠ oLnCtl l := by simp [oLnStat, oLnCtl]

theorem downReg_lt (l : LaneId) {o : Nat} (h : DownReg l o) : o < 0x900000 ∨ ∃ n, l = .tx n ∧ o = 0xD08104 + 8 * n := by
  obtain rfl | rfl | rfl | h := h
  · exact .inl (by decide)
  · exact .inl (by decide)
  · exact .inl (by decide)
  · exact .inr h

theorem laneBase_ge (l : LaneId) : 0x900000 ≤ laneBase l := by cases l <;> simp only [laneBase] <;> omega

/-- No register below 0x100 of a lane is one that its fall from UP touches elsewhere. -/
theorem not_downReg_own (l : LaneId) {k : Nat} (hk : k < 0x60) : ¬ DownReg l (laneBase l + k) := by
  intro h
  have hge := laneBase_ge l
  obtain h | ⟨n, rfl, h⟩ := downReg_lt l h
  · omega
  · simp only [laneBase] at h; omega

theorem not_downReg_stat (l : LaneId) : ¬ DownReg l (oLnStat l) := not_downReg_own l (by decide)

theorem not_downReg_group (l : LaneId) : ¬ DownReg l 0x200030 := by
  intro h
  obtain h | h | h | ⟨n, -, h⟩ := h
  · simp at h
  · simp at h
  · simp [oRefIn] at h
  · omega

/-! ### A lane moved -/

/-- From s to t a lane moves: beside it stands what `Aside` says, every event on its way stays so, and where it leaves UP that shows. -/
structure LaneMove (W : Nat → Prop) (l : LaneId) (s t : State) : Prop where
  aside : Aside W s t
  group : t.reg 0x200030 = s.reg 0x200030
  flight : ∀ e ∈ s.bcn.flight, e ∈ t.bcn.flight
  shown : s.rb (oLnStat l) 0 = true → t.rb (oLnStat l) 0 = true
  left : s.laneState l = 4 → t.laneState l ≠ 4 → t.rb (oLnStat l) 0 = true ∧ ∀ n, l = .rx n → Published s t 16

theorem published_congr {c : Nat} (h : t.reg 0x200030 = s.reg 0x200030) : Published t u c → Published s u c := by
  intro hp hg
  exact hp (by rw [State.rb, h]; exact hg)

theorem published_flight {c : Nat} (h : ∀ e ∈ t.bcn.flight, e ∈ u.bcn.flight) : Published s t c → Published s u c := by
  intro hp hg
  obtain ⟨x, hx⟩ := hp hg
  exact ⟨x, h _ hx⟩

theorem LaneMove.refl (W : Nat → Prop) (l : LaneId) (s : State) : LaneMove W l s s :=
  ⟨.refl W s, rfl, fun _ h => h, fun h => h, fun h k => absurd h k⟩

theorem LaneMove.trans (h : LaneMove W l s t) (k : LaneMove W l t u) : LaneMove W l s u := by
  refine ⟨h.aside.trans k.aside, k.group.trans h.group, fun e he => k.flight e (h.flight e he), fun e => k.shown (h.shown e), fun hs hu => ?_⟩
  by_cases ht : t.laneState l = 4
  · obtain ⟨hb, hp⟩ := k.left ht hu
    exact ⟨hb, fun n hn => published_congr h.group (hp n hn)⟩
  · obtain ⟨hb, hp⟩ := h.left hs ht
    exact ⟨k.shown hb, fun n hn => published_flight k.flight (hp n hn)⟩

theorem LaneMove.mono {V : Nat → Prop} (h : LaneMove W l s t) (hv : ∀ o, W o → V o) : LaneMove V l s t := { h with aside := h.aside.mono hv }

/-- A change that leaves the lane's status, the events on their way and the groups enabled. -/
theorem Aside.laneMove (h : Aside W s t) (hstat : t.reg (oLnStat l) = s.reg (oLnStat l)) (hg : t.reg 0x200030 = s.reg 0x200030)
    (hf : t.bcn.flight = s.bcn.flight) : LaneMove W l s t := by
  refine ⟨h, hg, fun e he => hf ▸ he, fun hb => ?_, fun hs ht => ?_⟩
  · rw [State.rb, hstat]; exact hb
  · exact absurd ((congrArg (fun w => fld w 29 3) hstat).trans hs) ht

theorem laneMove_setLane (s : State) (l m : LaneId) (v : Lane) : LaneMove W l s (s.setLane m v) := (aside_setLane s m v).laneMove rfl rfl rfl

theorem laneMove_setReg (s : State) {off : Nat} (v : W32) (h : W off) (hs : off ≠ oLnStat l) (hg : off ≠ 0x200030) :
    LaneMove W l s (s.setReg off v) :=
  (aside_setReg s v h).laneMove (s.reg_setReg_ne v hs.symm) (s.reg_setReg_ne v hg.symm) rfl

theorem laneMove_cnt (s : State) {off : Nat} (n : Nat) (h : W off) (hs : off ≠ oLnStat l) (hg : off ≠ 0x200030) :
    LaneMove W l s (s.cnt off n) := laneMove_setReg s _ h hs hg

theorem oLnStat_ne_group (l : LaneId) : 0x200030 ≠ oLnStat l := by have := laneBase_ge l; simp only [oLnStat, ne_eq]; omega

/-- A bit of LN_STAT below STATE leaves the lane its state. -/
theorem laneState_setStatBit (s : State) (l : LaneId) {i : Nat} (b : Bool) (hi : i < 29) : (s.setRb (oLnStat l) i b).laneState l = s.laneState l :=
  (congrArg (fun w => fld w 29 3) (State.reg_setRb _ _ _ _)).trans (fld_setFld_ne _ _ _ _ _ _ (.inr (by omega)) (by decide))

/-- A bit of the lane's status between LEFT_UP and STATE. -/
theorem laneMove_setStatBit (s : State) {i : Nat} (b : Bool) (h : W (oLnStat l)) (hi : 0 < i) (hi' : i < 29) :
    LaneMove W l s (s.setRb (oLnStat l) i b) := by
  refine ⟨aside_setRb s i b h, s.reg_setRb_ne i b (oLnStat_ne_group l), fun e he => he, fun hb => ?_, fun hs ht => ?_⟩
  · exact (State.rb_setRb_other s _ b (by omega) (by decide)).trans hb
  · exact absurd ((laneState_setStatBit s l b hi').trans hs) ht

/-! ### A state entered -/

theorem flight_publish (s : State) (c : Nat) : ∀ e ∈ s.bcn.flight, e ∈ (s.publish c).bcn.flight := by
  intro e he
  unfold State.publish State.publishH
  split
  · exact he
  · split
    · exact List.mem_append_left _ he
    · exact he

theorem published_publish (s : State) {c : Nat} (hc : c < 64) : Published s (s.publish c) c := by
  intro hg
  have hcan : s.canPublish c = true := by simp [State.canPublish]; omega
  refine ⟨0, ?_⟩
  rw [State.publish, State.publishH, if_neg (by simp [hcan]), if_pos hg]
  exact List.mem_append_right _ List.mem_cons_self

/-- What a lane taken to DOWN can change: its status, counts of what is published and dropped, and its clock input. -/
def StateReg (l : LaneId) (o : Nat) : Prop := o = oLnStat l ∨ DownReg l o

/-- What a lane that leaves UP for another state than DOWN can change beside its status. -/
def LeaveReg : LaneId → Nat → Prop
  | .rx _, o => o = 0x200048
  | .tx n, o => o = 0xD08104 + 8 * n
  | _, _ => False

theorem LeaveReg.downReg {o : Nat} (h : LeaveReg l o) : DownReg l o := by
  cases l with
  | rx n => exact .inr (.inl h)
  | tx n => exact .inr (.inr (.inr ⟨n, rfl, h⟩))
  | w _ | port => exact h.elim

/-- What a state entered can change. -/
def EnterReg (l : LaneId) (o : Nat) : Prop := o = oLnStat l ∨ LeaveReg l o

theorem EnterReg.stateReg {o : Nat} (h : EnterReg l o) : StateReg l o := h.imp_right LeaveReg.downReg

theorem laneState_setState (s : State) (l : LaneId) {st : Nat} (h : st < 8) : (s.setRf (oLnStat l) 29 3 st).laneState l = st :=
  (State.rf_setRf _ _ _ _ _ (by decide)).trans (Nat.mod_eq_of_lt h)

/-- A state entered from another than UP shows in LN_STAT, and the line of a transmitter may begin. -/
theorem toState_of_ne_up (h4 : s.laneState l ≠ 4) (st : Nat) :
    s.toState l st = (if s.laneState l ≠ 4 ∧ st = 4 ∧ isTxLane l then s.startLine l else s).setRf (oLnStat l) 29 3 st :=
  if_neg fun h => h4 h.1

theorem toState_of_rx (h4 : s.laneState l ≠ 4) (htx : isTxLane l = false) (st : Nat) : s.toState l st = s.setRf (oLnStat l) 29 3 st := by
  rw [toState_of_ne_up h4, if_neg (by simp [htx])]

theorem toState_same (h4 : s.laneState l = 4) : s.toState l 4 = s.setRf (oLnStat l) 29 3 4 := by simp [State.toState, h4]

/-- What leaving UP does once the state is entered. -/
def State.leave (s : State) (l : LaneId) : State :=
  match l with
  | .rx _ => s.publish 16
  | .tx n => s.txDrop n
  | _ => s

theorem toState_of_up (h4 : s.laneState l = 4) {st : Nat} (hst : st ≠ 4) :
    s.toState l st = ((s.setRf (oLnStat l) 29 3 st).setRb (oLnStat l) 0 true).leave l := by
  rw [State.toState]
  simp only [h4, ne_eq, not_true_eq_false, false_and, if_false, hst, not_false_eq_true, and_self, if_true]
  cases l <;> rfl

theorem aside_leave (s : State) (l : LaneId) : Aside (LeaveReg l) s (s.leave l) := by
  cases l with
  | rx n => exact aside_publish _ rfl
  | tx n =>
    have hcnt : Aside (LeaveReg (.tx n)) s (s.cnt (0xD08104 + 8 * n) (tget [] s.beam.txq n).length) := aside_cnt s _ rfl
    exact hcnt.trans ⟨rfl, rfl, rfl, rfl, rfl, rfl, rfl, rfl, rfl, fun _ _ => rfl⟩
  | w _ | port => exact .refl _ _

theorem not_leaveReg_stat (l : LaneId) : ¬ LeaveReg l (oLnStat l) := fun h => not_downReg_stat l h.downReg

theorem flight_leave (s : State) (l : LaneId) : ∀ e ∈ s.bcn.flight, e ∈ (s.leave l).bcn.flight := by
  cases l with
  | rx n => exact flight_publish s 16
  | tx _ | w _ | port => exact fun _ h => h

@[simp] theorem lanes_leave (s : State) (l : LaneId) : (s.leave l).lanes = s.lanes := by
  cases l with
  | rx n => exact s.publish_lanes 16
  | tx _ | w _ | port => rfl

theorem lanes_toState (htx : isTxLane l = false) (st : Nat) : (s.toState l st).lanes = s.lanes := by
  by_cases h4 : s.laneState l = 4
  · by_cases hst : st = 4
    · subst hst; rw [toState_same h4]; rfl
    · rw [toState_of_up h4 hst, lanes_leave]; rfl
  · rw [toState_of_rx h4 htx]; rfl

theorem lanes_toDownState (s : State) (l : LaneId) : (s.toState l 0).lanes = s.lanes := by
  by_cases h4 : s.laneState l = 4
  · rw [toState_of_up h4 (by decide), lanes_leave]; rfl
  · rw [toState_of_ne_up h4, if_neg (by simp)]; rfl

theorem laneState_toState (s : State) (l : LaneId) {st : Nat} (hst : st < 8) : (s.toState l st).laneState l = st := by
  by_cases h4 : s.laneState l = 4
  · by_cases hst4 : st = 4
    · subst hst4; rw [toState_same h4]; exact laneState_setState s l hst
    · rw [toState_of_up h4 hst4, (aside_leave _ l).laneState (not_leaveReg_stat l)]
      exact (laneState_setStatBit _ l true (by decide)).trans (laneState_setState s l hst)
  · rw [toState_of_ne_up h4]; exact laneState_setState _ l hst

theorem rb_setState (s : State) (l : LaneId) (st : Nat) {i : Nat} (hi : i < 29) :
    (s.setRf (oLnStat l) 29 3 st).rb (oLnStat l) i = s.rb (oLnStat l) i := by
  rw [State.rb, State.rb, State.reg_setRf, bit, bit, getLsbD_setFld _ _ _ _ _ (by omega)]
  simp [show ¬ 29 ≤ i by omega]

/-- A state entered is a move of the lane. -/
theorem laneMove_toState (s : State) {l : LaneId} {st : Nat} (hst : st < 8) (hW : ∀ o, EnterReg l o → W o) : LaneMove W l s (s.toState l st) := by
  have hstat : W (oLnStat l) := hW _ (.inl rfl)
  have hset : ∀ u : State, LaneMove W l s u → u.laneState l = s.laneState l → (s.laneState l = 4 → st = 4) →
      LaneMove W l s (u.setRf (oLnStat l) 29 3 st) := fun u hu hsame h4 => by
    refine ⟨hu.aside.trans (aside_setRf u _ _ _ hstat), (u.reg_setRf_ne _ _ _ (oLnStat_ne_group l)).trans hu.group, hu.flight,
      fun hb => (rb_setState u l st (by decide)).trans (hu.shown hb), fun hs ht => ?_⟩
    exact absurd ((laneState_setState u l hst).trans (h4 hs)) ht
  by_cases h4 : s.laneState l = 4
  · by_cases hst4 : st = 4
    · subst hst4; rw [toState_same h4]; exact hset s (.refl W l s) rfl fun _ => rfl
    · obtain ⟨v, hv⟩ : ∃ v, v = (s.setRf (oLnStat l) 29 3 st).setRb (oLnStat l) 0 true := ⟨_, rfl⟩
      have hva : Aside W s v := hv ▸ (aside_setRf s _ _ _ hstat).trans (aside_setRb _ _ _ hstat)
      have hvg : v.reg 0x200030 = s.reg 0x200030 :=
        hv ▸ (State.reg_setRb_ne _ _ _ (oLnStat_ne_group l)).trans (s.reg_setRf_ne _ _ _ (oLnStat_ne_group l))
      have hleave := aside_leave v l
      have hbit : (v.leave l).rb (oLnStat l) 0 = true := by
        rw [State.rb, hleave.regs _ (not_leaveReg_stat l), hv]; exact State.rb_setRb _ _ _ _ (by decide)
      rw [toState_of_up h4 hst4, ← hv]
      refine ⟨hva.trans (hleave.mono fun o ho => hW o (.inr ho)), (hleave.regs _ fun h => not_downReg_group l h.downReg).trans hvg,
        fun e he => flight_leave v l e (hv ▸ he), fun _ => hbit, fun _ _ => ⟨hbit, ?_⟩⟩
      rintro n rfl
      exact published_congr hvg (published_publish v (by decide))
  · rw [toState_of_ne_up h4]
    refine hset _ ?_ ?_ fun h => absurd h h4
    · split
      · exact laneMove_setLane s l l _
      · exact .refl W l s
    · split <;> rfl

/-! ### DOWN -/

/-- A reference input lost leaves every lane. -/
theorem inputLost_keeps (s : State) (l : LaneId) : LaneMove (DownReg l) l s (s.inputLost 4) ∧ (s.inputLost 4).lanes = s.lanes ∧
    (s.inputLost 4).laneState l = s.laneState l := by
  have hgt := laneBase_ge l
  have hq : oRefIn 4 ≠ oLnStat l := by simp only [oRefIn, oLnStat, ne_eq]; omega
  have ha := aside_inputLost s l
  refine ⟨⟨ha, ha.regs _ (not_downReg_group l), fun e he => ?_, fun hb => ?_, fun hs ht => ?_⟩, ?_, ha.laneState (not_downReg_stat l)⟩
  · rw [State.inputLost]
    split
    · exact he
    · rw [State.setQ]
      split
      · exact he
      · exact flight_publish _ 11 e he
  · rw [State.rb, ha.regs _ (not_downReg_stat l)]; exact hb
  · exact absurd ((ha.laneState (not_downReg_stat l)).trans hs) ht
  · rw [State.inputLost]
    split
    · rfl
    · rw [State.setQ]
      split
      · rfl
      · exact State.publish_lanes _ 11

/-- What a lane may lose with its clock (R304). -/
def State.clockLost (s : State) (l : LaneId) : State :=
  match l with
  | .rx n => s.rxclkLost n
  | _ => s

theorem clockLost_keeps (s : State) (l : LaneId) : LaneMove (DownReg l) l s (s.clockLost l) ∧ (s.clockLost l).lanes = s.lanes ∧
    (s.clockLost l).laneState l = s.laneState l := by
  cases l with
  | rx n =>
    rw [State.clockLost, State.rxclkLost]
    split
    · exact inputLost_keeps s (.rx n)
    · exact ⟨.refl _ _ _, rfl, rfl⟩
  | tx _ | w _ | port => exact ⟨.refl _ _ _, rfl, rfl⟩

/-- A lane with no frame, whose times count anew. -/
def Lane.downed (v : Lane) (now : Nat) : Lane := { v with frm := none, skip := false, fails := 0, run := 0, prbsRun := 0, since := now }

theorem State.toDown_def (s : State) (l : LaneId) (lost : Bool) :
    s.toDown l lost = (((if lost && (s.lane l).frm.isSome then s.frameCnt l 3 else s).setLane l ((s.lane l).downed
      (if lost && (s.lane l).frm.isSome then s.frameCnt l 3 else s).time.ticks)).toState l 0).clockLost l := by
  cases l <;> rfl

/-- What a frame abandoned (k = 3) or failed (k = 1) on a lane, or a state entered, can change. -/
def FailReg (l : LaneId) (k : Nat) (o : Nat) : Prop := o = laneBase l + 0x40 + 4 * k ∨ o = 0x600108 ∨ StateReg l o

theorem laneMove_frameCnt (s : State) (l : LaneId) {k : Nat} (hk : k < 8) : LaneMove (FailReg l k) l s (s.frameCnt l k) ∧
    (s.frameCnt l k).lanes = s.lanes ∧ (s.frameCnt l k).reg (oLnStat l) = s.reg (oLnStat l) := by
  have hge := laneBase_ge l
  have hcnt : ∀ off, FailReg l k off → off ≠ oLnStat l → off ≠ 0x200030 → LaneMove (FailReg l k) l s (s.cnt off 1) ∧
      (s.cnt off 1).lanes = s.lanes ∧ (s.cnt off 1).reg (oLnStat l) = s.reg (oLnStat l) := fun off ho hs hg =>
    ⟨laneMove_cnt s 1 ho hs hg, rfl, s.reg_cnt_ne 1 hs.symm⟩
  have hown := hcnt (laneBase l + 0x40 + 4 * k) (.inl rfl) (by simp only [oLnStat]; omega) (by omega)
  have hlane : LaneMove (FailReg l k) l s (s.lnCnt l k 1) ∧ (s.lnCnt l k 1).lanes = s.lanes ∧
      (s.lnCnt l k 1).reg (oLnStat l) = s.reg (oLnStat l) := by
    rw [State.lnCnt]
    split
    · exact ⟨.refl _ _ _, rfl, rfl⟩
    · exact hown
  have hpair := hcnt 0x600108 (.inr (.inl rfl)) (by simp only [oLnStat]; omega) (by decide)
  cases l with
  | w n =>
    rw [State.frameCnt]
    split
    · exact hpair
    · exact ⟨.refl _ _ _, rfl, rfl⟩
  | rx n =>
    rw [State.frameCnt]
    split
    · exact hlane
    · exact ⟨.refl _ _ _, rfl, rfl⟩
  | tx n => exact hlane
  | port => exact hlane

theorem laneMove_toDown (s : State) {l : LaneId} {lost : Bool} (hW : ∀ o, StateReg l o → W o)
    (hlost : lost = true → ∀ o, FailReg l 3 o → W o) :
    LaneMove W l s (s.toDown l lost) ∧ (s.toDown l lost).laneState l = 0 ∧ ((s.toDown l lost).lane l).since = s.time.ticks := by
  obtain ⟨u, hu, hmove, hlanes⟩ : ∃ u, u = (if lost && (s.lane l).frm.isSome then s.frameCnt l 3 else s) ∧
      LaneMove W l s u ∧ u.lanes = s.lanes := by
    refine ⟨_, rfl, ?_, ?_⟩ <;> split
    · next h => exact (laneMove_frameCnt s l (by decide)).1.mono (hlost (Bool.and_eq_true_iff.1 h).1)
    · exact .refl W l s
    · exact (laneMove_frameCnt s l (by decide)).2.1
    · rfl
  have hdown : ∀ o, DownReg l o → W o := fun o ho => hW o (.inr ho)
  rw [State.toDown_def, ← hu]
  obtain ⟨hclock, hcl, hcs⟩ := clockLost_keeps ((u.setLane l ((s.lane l).downed u.time.ticks)).toState l 0) l
  have hzero := (laneMove_setLane u l l ((s.lane l).downed u.time.ticks)).trans (laneMove_toState _ (st := 0) (by decide) fun o h => hW o h.stateReg)
  refine ⟨hmove.trans (hzero.trans (hclock.mono hdown)), ?_, ?_⟩
  · rw [hcs]; exact laneState_toState _ l (by decide)
  · rw [State.lane, hcl, lanes_toDownState, ← State.lane, State.setLane_lane, ← hmove.aside.time]; rfl

/-! ### Frames that fail, and block lock lost -/

theorem laneMove_frameFailed (s : State) {l : LaneId} (hW : ∀ o, EnterReg l o → W o) : LaneMove W l s (s.frameFailed l) := by
  have hset := fun v => laneMove_setLane (W := W) s l l v
  rw [State.frameFailed]
  split
  · exact (hset _).trans (laneMove_toState _ (by decide) hW)
  · split
    · split
      · exact (hset _).trans (laneMove_setLane _ l l _)
      · exact (hset _).trans (laneMove_toState _ (by decide) hW)
    · exact hset _

/-- A frame that fails leaves a lane UP for the fourth in a row, and FRAME_LOCK at once. -/
theorem laneState_frameFailed (s : State) (l : LaneId) : (s.frameFailed l).laneState l =
    if s.laneState l = 3 ∨ (s.laneState l = 4 ∧ 3 ≤ (s.lane l).fails) then 2 else s.laneState l := by
  have hset : ∀ v, (s.setLane l v).laneState l = s.laneState l := fun _ => rfl
  rw [State.frameFailed]
  by_cases h3 : s.laneState l = 3
  · rw [if_pos ((hset _).trans h3), if_pos (.inl h3)]
    exact laneState_toState _ l (by decide)
  · rw [if_neg (fun h => h3 ((hset _).symm.trans h))]
    by_cases h4 : s.laneState l = 4
    · rw [if_pos ((hset _).trans h4)]
      by_cases hf : (s.lane l).fails + 1 < 4
      · rw [if_pos hf, if_neg (by omega)]; rfl
      · rw [if_neg hf, if_pos (.inr ⟨h4, by omega⟩)]
        exact laneState_toState _ l (by decide)
    · rw [if_neg (fun h => h4 ((hset _).symm.trans h)), if_neg (by omega)]
      exact hset _

theorem laneMove_abandon (s : State) (l : LaneId) : LaneMove (FailReg l 3) l s (s.abandon l) :=
  (laneMove_frameCnt s l (by decide)).1.trans (laneMove_frameFailed _ fun _ h => .inr (.inr h.stateReg))

theorem two_le_laneState_abandon (l : LaneId) (h : 2 ≤ s.laneState l) : 2 ≤ (s.abandon l).laneState l := by
  rw [State.abandon, laneState_frameFailed, laneState_congr (laneMove_frameCnt s l (by decide)).2.2]
  split <;> omega

/-- A frame that fails leaves the lane its FIFO and its row of headers. -/
theorem lane_frameFailed (s : State) {l : LaneId} (htx : isTxLane l = false) :
    ∃ n, (s.frameFailed l).lane l = { s.lane l with frm := none, fails := n } := by
  have hset : ∀ (u : State) v, ((u.setLane l v).toState l 2).lane l = v := fun u v => by
    rw [State.lane, lanes_toState htx, ← State.lane, State.setLane_lane]
  rw [State.frameFailed]
  split
  · exact ⟨_, hset _ _⟩
  · split
    · split
      · exact ⟨_, State.setLane_lane _ _ _⟩
      · exact ⟨_, hset _ _⟩
    · exact ⟨_, State.setLane_lane _ _ _⟩

theorem lane_abandon (s : State) {l : LaneId} (htx : isTxLane l = false) : ∃ n, (s.abandon l).lane l = { s.lane l with frm := none, fails := n } := by
  obtain ⟨n, hn⟩ := lane_frameFailed (s.frameCnt l 3) htx
  refine ⟨n, hn.trans ?_⟩
  rw [State.lane, (laneMove_frameCnt s l (by decide)).2.1]; rfl

theorem laneMove_toSignal (s : State) (l : LaneId) : LaneMove (FailReg l 3) l s (s.toSignal l) := by
  rw [State.toSignal]
  have hfirst : LaneMove (FailReg l 3) l s (if (s.lane l).frm.isSome then s.frameCnt l 3 else s) := by
    split
    · exact (laneMove_frameCnt s l (by decide)).1
    · exact .refl _ _ _
  exact hfirst.trans ((laneMove_setLane _ l l _).trans (laneMove_toState _ (by decide) fun _ h => .inr (.inr h.stateReg)))

theorem laneState_toSignal (s : State) (l : LaneId) : (s.toSignal l).laneState l = 1 := laneState_toState _ l (by decide)

end Sys2Proof.Machine
end

section
/-! PROOF. A lane's controls and its signal: LN_CTL, LN_CTLE, and the rows of sync headers that bring and lose block lock (R52, R60). -/

namespace Sys2Proof.Machine

variable {W : Nat → Prop} {l : LaneId} {s t u : State}

/-! ### The row of LN_CTL -/

/-- A row whose EN is read and written, of plain bits alone. -/
def RegRow.enPlain (r : RegRow) : Bool := (BitVec.ofNat 32 r.rw).getLsbD 31 && decide (r.w1c = 0) && decide (r.w1s = 0)

theorem lnCtl_rows : (∀ n < 96, (regRow (laneBase (.rx n))).any RegRow.enPlain = true) ∧
    (∀ n < 32, (regRow (laneBase (.tx n))).any RegRow.enPlain = true) ∧
    (∀ n < 4, (regRow (laneBase (.w n))).any RegRow.enPlain = true) ∧ (regRow (laneBase .port)).any RegRow.enPlain = true := by
  decide

theorem lnCtl_row (hon : s.laneOn l = true) : ∃ r, regRow (oLnCtl l) = some r ∧ r.enPlain = true := by
  obtain ⟨hrx, htx, hw, hport⟩ := lnCtl_rows
  simp only [State.laneOn, Bool.and_eq_true] at hon
  obtain ⟨hhas, -⟩ := hon
  refine (Option.any_eq_true _ _).1 ?_
  cases l with
  | rx n => exact hrx n (dataLane_rx (of_decide_eq_true hhas))
  | tx n => exact htx n (dataLane_tx (of_decide_eq_true hhas))
  | w n => exact hw n (of_decide_eq_true hhas)
  | port => exact hport

theorem bit_writeBits_en {r : RegRow} (h : r.enPlain = true) (old v : W32) : bit (writeBits r old v) 31 = bit v 31 := by
  simp only [RegRow.enPlain, Bool.and_eq_true, decide_eq_true_eq] at h
  obtain ⟨⟨hen, hc⟩, hs⟩ := h
  rw [writeBits_rw rfl hc hs, bit, bit]
  have hrw : (BitVec.ofNat 32 r.rw)[31] = true := hen
  simp [hrw]

/-! ### A write of LN_CTL -/

/-- The line up to now accounted for under the settings that end. -/
def State.lineEnded (s : State) (l : LaneId) : State := if s.sends l then s.lineTo l [] else s

/-- LN_CTL and its line rewritten, CFG_ERR shown, and the PRBS checker's lock lost with the mode. -/
def State.lnSet (s : State) (l : LaneId) (old new : W32) : State :=
  let s := (s.newLine l old new).setRb (oLnStat l) 28 (fld new 24 2 == 3)
  if fld old 26 2 % 3 ≠ fld new 26 2 % 3 then s.prbsClear l else s

/-- Where LN_CTL takes the lane. -/
def State.lnGo (s : State) (l : LaneId) (old new : W32) : State :=
  if !bit new 31 then s.toDown l false
  else if !bit old 31 || decide (fld old 24 5 ≠ fld new 24 5) then s.toDown l false
  else if bit new 30 && bit new 29 && decide (s.lnMode l = 0) && decide (s.laneState l = 1) && !isTxLane l then
    s.toState l (lockState l)
  else s

theorem laneMove_lineEnded (s : State) (l : LaneId) : LaneMove W l s (s.lineEnded l) ∧ (s.lineEnded l).regs = s.regs := by
  rw [State.lineEnded]
  split
  · exact ⟨laneMove_setLane s l l _, rfl⟩
  · exact ⟨.refl W l s, rfl⟩

theorem laneMove_newLine (s : State) (l : LaneId) (old new : W32) : LaneMove W l s (s.newLine l old new) ∧ (s.newLine l old new).regs = s.regs := by
  have hfirst : ∃ u, u = (if isWLane l && !bit old 31 && bit new 31 then s.startLine l else s) ∧ LaneMove W l s u ∧ u.regs = s.regs := by
    refine ⟨_, rfl, ?_⟩
    split
    · exact ⟨laneMove_setLane s l l _, rfl⟩
    · exact ⟨.refl W l s, rfl⟩
  obtain ⟨u, hu, hmove, hregs⟩ := hfirst
  rw [State.newLine, ← hu]
  dsimp only
  split
  · exact ⟨hmove, hregs⟩
  · have hfree : LaneMove W l u { u with freeCtr := u.freeCtr + 1 } :=
      Aside.laneMove ⟨rfl, rfl, rfl, rfl, rfl, rfl, rfl, rfl, rfl, fun _ _ => rfl⟩ rfl rfl rfl
    exact ⟨hmove.trans (hfree.trans (laneMove_setLane _ l l _)), hregs⟩

theorem laneMove_prbsClear (s : State) {l : LaneId} (h : W (oLnStat l)) : LaneMove W l s (s.prbsClear l) ∧
    (s.prbsClear l).laneState l = s.laneState l ∧ (∀ o, o ≠ oLnStat l → (s.prbsClear l).reg o = s.reg o) ∧
    ∀ i < 32, i ≠ 27 → (s.prbsClear l).rb (oLnStat l) i = s.rb (oLnStat l) i :=
  ⟨(laneMove_setLane s l l _).trans (laneMove_setStatBit _ false h (by decide) (by decide)), laneState_setStatBit _ l false (by decide),
    fun _ ho => State.reg_setRb_ne _ _ _ ho, fun _ hi h27 => State.rb_setRb_other _ _ _ h27 hi⟩

theorem laneMove_lnSet (s : State) {l : LaneId} (old new : W32) (h : W (oLnStat l)) : LaneMove W l s (s.lnSet l old new) ∧
    (s.lnSet l old new).laneState l = s.laneState l ∧ (∀ o, o ≠ oLnStat l → (s.lnSet l old new).reg o = s.reg o) ∧
    (s.lnSet l old new).rb (oLnStat l) 28 = (fld new 24 2 == 3) := by
  obtain ⟨hnew, hregs⟩ := laneMove_newLine (W := W) s l old new
  obtain ⟨u, hu⟩ : ∃ u, u = (s.newLine l old new).setRb (oLnStat l) 28 (fld new 24 2 == 3) := ⟨_, rfl⟩
  have hreg : ∀ o, (s.newLine l old new).reg o = s.reg o := fun o => by rw [State.reg, hregs]; rfl
  have hmove : LaneMove W l s u := hu ▸ hnew.trans (laneMove_setStatBit _ _ h (by decide) (by decide))
  have hstate : u.laneState l = s.laneState l := hu ▸ (laneState_setStatBit _ l _ (by decide)).trans (laneState_congr (hreg _))
  have hother : ∀ o, o ≠ oLnStat l → u.reg o = s.reg o := fun o ho => hu ▸ (State.reg_setRb_ne _ _ _ ho).trans (hreg o)
  have h28 : u.rb (oLnStat l) 28 = (fld new 24 2 == 3) := hu ▸ State.rb_setRb _ _ _ _ (by decide)
  rw [State.lnSet, ← hu]
  split
  · obtain ⟨hc, hcs, hco, hcb⟩ := laneMove_prbsClear (W := W) u h
    exact ⟨hmove.trans hc, hcs.trans hstate, fun o ho => (hco o ho).trans (hother o ho), (hcb 28 (by decide) (by decide)).trans h28⟩
  · exact ⟨hmove, hstate, hother, h28⟩

theorem rb_statBit_toState (s : State) (l : LaneId) (st : Nat) {i : Nat} (hi : i < 29) (h0 : i ≠ 0) :
    (s.toState l st).rb (oLnStat l) i = s.rb (oLnStat l) i := by
  by_cases h4 : s.laneState l = 4
  · by_cases hst : st = 4
    · subst hst; rw [toState_same h4]; exact rb_setState s l 4 hi
    · rw [toState_of_up h4 hst, State.rb, (aside_leave _ l).regs _ (not_leaveReg_stat l)]
      exact (State.rb_setRb_other _ _ _ h0 (by omega)).trans (rb_setState s l st hi)
  · rw [toState_of_ne_up h4]
    refine (rb_setState _ l st hi).trans ?_
    split <;> rfl

theorem rb_statBit_toDown (s : State) (l : LaneId) (lost : Bool) {i : Nat} (hi : i < 29) (h0 : i ≠ 0) :
    (s.toDown l lost).rb (oLnStat l) i = s.rb (oLnStat l) i := by
  rw [State.toDown_def, State.rb, (clockLost_keeps _ l).1.aside.regs _ (not_downReg_stat l)]
  refine (rb_statBit_toState _ l 0 hi h0).trans ?_
  show bit _ i = bit _ i
  split
  · exact congrArg (bit · i) (laneMove_frameCnt s l (by decide)).2.2
  · rfl

/-- A write of LN_CTL that takes the lane to DOWN (R60). -/
def Restarts (old new : W32) : Prop := bit new 31 = false ∨ bit old 31 = false ∨ fld new 24 5 ≠ fld old 24 5

theorem lnGo_of_restarts (s : State) (l : LaneId) {old new : W32} (h : Restarts old new) : s.lnGo l old new = s.toDown l false := by
  by_cases h31 : bit new 31 = false
  · exact if_pos (by simp [h31])
  · refine (if_neg (by simp [h31])).trans (if_pos ?_)
    rw [Bool.or_eq_true, Bool.not_eq_true', decide_eq_true_eq]
    exact (h.resolve_left h31).imp_right Ne.symm

/-- ALIGN and HOLD lock a framed receiver in SIGNAL (R65). -/
def Locks (s : State) (l : LaneId) (new : W32) : Prop :=
  bit new 30 = true ∧ bit new 29 = true ∧ s.lnMode l = 0 ∧ s.laneState l = 1 ∧ isTxLane l = false

theorem lnGo_of_goes_on (s : State) (l : LaneId) {old new : W32} (h : ¬ Restarts old new) :
    (Locks s l new → s.lnGo l old new = s.toState l (lockState l)) ∧ (¬ Locks s l new → s.lnGo l old new = s) := by
  rw [Restarts, not_or, not_or, not_not] at h
  obtain ⟨h31, hold, hsame⟩ := h
  have hgo : s.lnGo l old new = if bit new 30 && bit new 29 && decide (s.lnMode l = 0) && decide (s.laneState l = 1) && !isTxLane l then
      s.toState l (lockState l) else s := by
    rw [State.lnGo, if_neg (by simp [h31]), if_neg (by simp [hold, hsame])]
  have hcond : (bit new 30 && bit new 29 && decide (s.lnMode l = 0) && decide (s.laneState l = 1) && !isTxLane l) = true ↔ Locks s l new := by
    simp [Locks, and_assoc]
  rw [hgo]
  exact ⟨fun h => if_pos (hcond.2 h), fun h => if_neg (mt hcond.1 h)⟩

theorem lockState_lt (l : LaneId) : lockState l < 8 := by rw [lockState]; split <;> decide

/-- Wherever LN_CTL takes the lane, that is a move, and no bit of LN_STAT but LEFT_UP and STATE changes. -/
theorem laneMove_lnGo (s : State) {l : LaneId} (old new : W32) (hW : ∀ o, StateReg l o → W o) : LaneMove W l s (s.lnGo l old new) ∧
    ∀ i < 29, i ≠ 0 → (s.lnGo l old new).rb (oLnStat l) i = s.rb (oLnStat l) i := by
  by_cases hr : Restarts old new
  · rw [lnGo_of_restarts s l hr]
    exact ⟨(laneMove_toDown s hW fun h => absurd h (by decide)).1, fun i hi h0 => rb_statBit_toDown s l false hi h0⟩
  · obtain ⟨hlock, hstay⟩ := lnGo_of_goes_on s l hr
    by_cases hl : Locks s l new
    · rw [hlock hl]
      exact ⟨laneMove_toState s (lockState_lt l) fun o h => hW o h.stateReg, fun i hi h0 => rb_statBit_toState s l _ hi h0⟩
    · rw [hstay hl]
      exact ⟨.refl W l s, fun _ _ _ => rfl⟩

theorem lnCtl_eq (s : State) (l : LaneId) (v : W32) {new : W32} (hnew : ((s.lineEnded l).plainWrite (oLnCtl l) v).reg (oLnCtl l) = new) :
    s.lnCtl l v = (((s.lineEnded l).plainWrite (oLnCtl l) v).lnSet l (s.reg (oLnCtl l)) new).lnGo l (s.reg (oLnCtl l)) new := by
  subst hnew; rfl

/-- LN_CTL written: what it holds then, and where the lane goes from the state it was in. -/
theorem lnCtl_spec {s : State} {l : LaneId} (hon : s.laneOn l = true) (v : W32) (hctl : W (oLnCtl l)) (hW : ∀ o, StateReg l o → W o) :
    ∃ (new : W32) (u : State), LaneMove W l s (s.lnCtl l v) ∧ bit new 31 = bit v 31 ∧ (s.lnCtl l v).reg (oLnCtl l) = new ∧
      (s.lnCtl l v).rb (oLnStat l) 28 = (fld new 24 2 == 3) ∧ s.lnCtl l v = u.lnGo l (s.reg (oLnCtl l)) new ∧
      u.laneState l = s.laneState l ∧ u.time = s.time ∧ u.reg (oLnCtl l) = new := by
  obtain ⟨r, hrow, hen⟩ := lnCtl_row hon
  obtain ⟨hend, hregs⟩ := laneMove_lineEnded (W := W) s l
  have hreg : ∀ o, (s.lineEnded l).reg o = s.reg o := fun o => by rw [State.reg, hregs]; rfl
  obtain ⟨new, hnew⟩ : ∃ new, writeBits r ((s.lineEnded l).reg (oLnCtl l)) v = new := ⟨_, rfl⟩
  have hwrite : (s.lineEnded l).plainWrite (oLnCtl l) v = (s.lineEnded l).setReg (oLnCtl l) new := hnew ▸ State.plainWrite_of_row hrow v
  have hgroup : oLnCtl l ≠ 0x200030 := by have := laneBase_ge l; simp only [oLnCtl, ne_eq]; omega
  have hset := laneMove_lnSet (W := W) ((s.lineEnded l).setReg (oLnCtl l) new) (s.reg (oLnCtl l)) new (hW _ (.inl rfl))
  obtain ⟨u, hu⟩ : ∃ u, u = ((s.lineEnded l).setReg (oLnCtl l) new).lnSet l (s.reg (oLnCtl l)) new := ⟨_, rfl⟩
  rw [← hu] at hset
  obtain ⟨hset, hstate, hother, h28⟩ := hset
  have hctlu : u.reg (oLnCtl l) = new := (hother _ (oLnStat_ne_oLnCtl l).symm).trans (State.reg_setReg _ _ _)
  have hmove : LaneMove W l s u := hend.trans ((laneMove_setReg _ _ hctl (oLnStat_ne_oLnCtl l).symm hgroup).trans hset)
  have heq : s.lnCtl l v = u.lnGo l (s.reg (oLnCtl l)) new := by
    rw [lnCtl_eq s l v (new := new) (by rw [hwrite]; exact State.reg_setReg _ _ _), hwrite, hu]
  obtain ⟨hgo, hbits⟩ := laneMove_lnGo (W := StateReg l) u (s.reg (oLnCtl l)) new fun _ h => h
  have hctlgo : (u.lnGo l (s.reg (oLnCtl l)) new).reg (oLnCtl l) = u.reg (oLnCtl l) :=
    hgo.aside.regs _ (not_or.2 ⟨(oLnStat_ne_oLnCtl l).symm, not_downReg_own l (k := 0) (by decide)⟩)
  refine ⟨new, u, ?_, ?_, ?_, ?_, heq, ?_, hmove.aside.time, hctlu⟩
  · rw [heq]; exact hmove.trans (hgo.mono hW)
  · rw [← hnew]; exact bit_writeBits_en hen _ v
  · rw [heq, hctlgo, hctlu]
  · rw [heq]; exact (hbits 28 (by decide) (by decide)).trans h28
  · exact hstate.trans (laneState_congr ((State.reg_setReg_ne _ _ (oLnStat_ne_oLnCtl l)).trans (hreg _)))

theorem exec_lnCtlWrite (hon : s.laneOn l = true) (v : W32) : exec (.lnCtlWrite l v) s = .next (s.lnCtl l v) := laneWrite_of rfl hon _

/-! ### Time passed on a lane -/

theorem laneState_advance (s : State) (l : LaneId) (dt : Nat) : (s.advance dt).laneState l = s.laneState l := by
  have hge := laneBase_ge l
  exact laneState_congr (s.reg_advance_ne dt (by simp only [oLnStat]; omega) (by simp only [oLnStat]; omega))

theorem apart_advance (s : State) (dt : Nat) (h : Apart (s.advance dt) t) : Apart s t :=
  ⟨h.1.trans (s.advance_pending dt), h.2.trans (s.advance_fuse dt)⟩

/-- A state that is entered from one that is not UP, after time, changes LN_STAT alone. -/
theorem entered_spec {s : State} {l : LaneId} {st : Nat} (h0 : s.laneState l = 0) (hst : st < 8) (dt : Nat) :
    Apart s ((s.advance dt).toState l st) ∧ MemSame s ((s.advance dt).toState l st) ∧
      RegsBut [laneBase l + 4] (s.advance dt) ((s.advance dt).toState l st) ∧ ((s.advance dt).toState l st).laneState l = st := by
  have hu : (s.advance dt).laneState l = 0 := (laneState_advance s l dt).trans h0
  have hmove := laneMove_toState (s.advance dt) hst (W := StateReg l) fun _ h => h.stateReg
  refine ⟨apart_advance s dt hmove.aside.apart, (s.memSame_advance dt).trans hmove.aside.memSame, fun o ho => ?_, laneState_toState _ l hst⟩
  rw [toState_of_ne_up (by omega), State.reg_setRf_ne _ _ _ _ (by simpa [oLnStat] using ho)]
  split <;> rfl

theorem exec_txLaneUp {n dt : Nat} (hon : s.laneOn (.tx n) = true) (hen : s.lnEn (.tx n) = true) (hrate : s.lnRate (.tx n) ≠ 3)
    (h0 : s.laneState (.tx n) = 0) (hd : (s.lane (.tx n)).since + 6250 ≤ s.time.ticks + dt) :
    exec (.txLaneUp n dt) s = .next ((s.advance dt).toState (.tx n) 4) := by
  have e : exec (.txLaneUp n dt) s = execTxLaneUp n dt s := rfl
  rw [e, execTxLaneUp]
  exact gate_of _ _ _ (by simp [hon, hen, hrate, h0, show (s.lane (.tx n)).since + tUs 10 ≤ s.time.ticks + dt from hd])

theorem exec_laneSignalDetect {dt : Nat} (hon : s.laneOn l = true) (hrx : isTxLane l = false) (hen : s.lnEn l = true) (hrate : s.lnRate l ≠ 3)
    (h0 : s.laneState l = 0) (hd : (s.lane l).since + 6250 ≤ s.time.ticks + dt) :
    exec (.laneSignalDetect l dt) s = .next ((s.advance dt).toState l 1) := by
  have e : exec (.laneSignalDetect l dt) s = execLaneSignalDetect l dt s := rfl
  rw [e, execLaneSignalDetect]
  exact gate_of _ _ _ (by simp [hon, hrx, hen, hrate, h0, show (s.lane l).since + tUs 10 ≤ s.time.ticks + dt from hd])

theorem exec_laneLossOfSignal {dt : Nat} (hon : s.laneOn l = true) (hrx : isTxLane l = false) (h0 : s.laneState l ≠ 0) (hd : 625 ≤ dt) :
    exec (.laneLossOfSignal l dt) s = .next (((s.advance dt).prbsClear l).toDown l true) := by
  have e : exec (.laneLossOfSignal l dt) s = execLaneLossOfSignal l dt s := rfl
  rw [e, execLaneLossOfSignal]
  exact gate_of _ _ _ (by simp [hon, hrx, h0, show tUs 1 ≤ dt from hd])

theorem exec_lnCtleWrite (hon : s.laneOn l = true) (hrx : isTxLane l = false) (v : W32) :
    exec (.lnCtleWrite l v) s = .next (s.lnCtle l v) := laneWrite_of (by rw [hrx]; rfl) hon _

/-- The signal lost: the lane is DOWN and PRBS_LOCK clear. -/
theorem lossOfSignal_spec (s : State) (l : LaneId) (dt : Nat) {t : State} (ht : t = ((s.advance dt).prbsClear l).toDown l true) :
    Apart s t ∧ MemSame s t ∧ (∀ o, ¬ FailReg l 3 o → o ≠ 0x400004 → o ≠ 0x200044 → t.reg o = s.reg o) ∧ t.laneState l = 0 ∧
      t.rb (oLnStat l) 27 = false ∧
      (s.laneState l = 4 → t.laneState l ≠ 4 → t.rb (oLnStat l) 0 = true ∧ ∀ n, l = .rx n → Published s t 16) := by
  subst ht
  obtain ⟨hclear, hstate, -, -⟩ := laneMove_prbsClear (W := FailReg l 3) (s.advance dt) (l := l) (.inr (.inr (.inl rfl)))
  obtain ⟨hdown, hzero, -⟩ := laneMove_toDown (W := FailReg l 3) ((s.advance dt).prbsClear l) (lost := true)
    (fun _ h => .inr (.inr h)) fun _ _ h => h
  have hmove := hclear.trans hdown
  refine ⟨apart_advance s dt hmove.aside.apart, (s.memSame_advance dt).trans hmove.aside.memSame, fun o ho h h' => ?_, hzero, ?_, fun h4 ht => ?_⟩
  · exact (hmove.aside.regs o ho).trans (s.reg_advance_ne dt h h')
  · rw [rb_statBit_toDown _ l true (by decide) (by decide)]
    exact State.rb_setRb _ _ _ _ (by decide)
  · obtain ⟨hb, hp⟩ := hmove.left ((laneState_advance s l dt).trans h4) ht
    exact ⟨hb, fun n hn => published_congr (s.reg_advance_ne dt (by decide) (by decide)) (hp n hn)⟩

/-! ### One sync header -/

/-- A header received, as LN_HDR_CNT follows it. -/
def State.hdrSeen (s : State) (l : LaneId) (ok : Bool) : State :=
  s.hdrCnt l { s.lane l with hdrs := (ok :: (s.lane l).hdrs).take 4096, sinceSlip := min 4096 ((s.lane l).sinceSlip + 1) }

theorem reg_hdrSeen_ne (s : State) (l : LaneId) (ok : Bool) {o : Nat} (h : o ≠ laneBase l + 0x10) : (s.hdrSeen l ok).reg o = s.reg o :=
  State.reg_setReg_ne _ _ h

theorem laneState_hdrSeen (s : State) (l : LaneId) (ok : Bool) : (s.hdrSeen l ok).laneState l = s.laneState l :=
  laneState_congr (reg_hdrSeen_ne s l ok (by simp [oLnStat]))

theorem lnCtl_hdrSeen (s : State) (l : LaneId) (ok : Bool) : (s.hdrSeen l ok).reg (oLnCtl l) = s.reg (oLnCtl l) :=
  reg_hdrSeen_ne s l ok (by simp [oLnCtl])

theorem lane_hdrSeen (s : State) (l : LaneId) (ok : Bool) : (s.hdrSeen l ok).lane l =
    { s.lane l with hdrs := (ok :: (s.lane l).hdrs).take 4096, sinceSlip := min 4096 ((s.lane l).sinceSlip + 1) } :=
  State.setLane_lane _ _ _

theorem laneMove_hdrSeen (s : State) (l : LaneId) (ok : Bool) (h : W (laneBase l + 0x10)) : LaneMove W l s (s.hdrSeen l ok) := by
  have hge := laneBase_ge l
  exact (laneMove_setLane s l l _).trans (laneMove_setReg _ _ h (by simp [oLnStat]) (by omega))

theorem lnAlign_congr (h : t.reg (oLnCtl l) = s.reg (oLnCtl l)) : t.lnAlign l = s.lnAlign l := congrArg (bit · 30) h
theorem lnMode_congr (h : t.reg (oLnCtl l) = s.reg (oLnCtl l)) : t.lnMode l = s.lnMode l := congrArg (fun w => fld w 26 2 % 3) h

/-- A header received in SIGNAL by a framed lane that hunts. -/
theorem header_hunting (h1 : s.laneState l = 1) (ha : s.lnAlign l = false) (hm : s.lnMode l = 0) (h : BitVec 2) :
    s.header l h = if !syncOk h then (s.hdrSeen l (syncOk h)).slip l
      else if (s.lane l).run + 1 < 64 then (s.hdrSeen l (syncOk h)).setLane l { (s.hdrSeen l (syncOk h)).lane l with run := (s.lane l).run + 1 }
      else ((s.hdrSeen l (syncOk h)).setLane l { (s.hdrSeen l (syncOk h)).lane l with run := 0 }).toState l (lockState l) := by
  have hrun : ((s.hdrSeen l (syncOk h)).lane l).run = (s.lane l).run := by rw [lane_hdrSeen]
  have halign : (s.hdrSeen l (syncOk h)).lnAlign l = false := (lnAlign_congr (lnCtl_hdrSeen s l _)).trans ha
  have hmode : (s.hdrSeen l (syncOk h)).lnMode l = 0 := (lnMode_congr (lnCtl_hdrSeen s l _)).trans hm
  rw [State.header, if_neg (by omega)]
  dsimp only
  rw [if_pos h1, ← State.hdrSeen, if_neg (by simp [halign, hmode]), hrun]

theorem header_locked_ok (h2 : 2 ≤ s.laneState l) {h : BitVec 2} (hok : syncOk h = true) : s.header l h = s.hdrSeen l true := by
  rw [State.header, if_neg (by omega), hok]
  dsimp only
  rw [if_neg (by omega), if_pos rfl, ← State.hdrSeen]

/-- An invalid header from block lock on, counted. -/
def State.badHdr (s : State) (l : LaneId) : State := (s.hdrSeen l false).lnCnt l 5 1

theorem header_locked_bad (h2 : 2 ≤ s.laneState l) {h : BitVec 2} (hbad : syncOk h = false) : s.header l h =
    if !(s.badHdr l).lnAlign l && decide (((((s.hdrSeen l false).lane l).hdrs.take 64).filter (!·)).length ≥ 16) then (s.badHdr l).toSignal l
    else if ((s.hdrSeen l false).lane l).frm.isSome then (s.badHdr l).abandon l
    else s.badHdr l := by
  rw [State.header, if_neg (by omega), hbad]
  dsimp only
  rw [if_neg (by omega), if_neg (by decide), ← State.hdrSeen, ← State.badHdr]

/-! ### Block lock -/

/-- Valid headers enough in a row lock a lane that hunts. -/
theorem headers_lock (htx : isTxLane l = false) (hdrs : List (BitVec 2)) (hok : ∀ h ∈ hdrs, syncOk h = true) :
    ∀ {s : State}, s.laneState l = 1 → s.lnAlign l = false → s.lnMode l = 0 → (s.lane l).run < 64 → hdrs.length = 64 - (s.lane l).run →
      Aside (· ∈ [laneBase l + 4, laneBase l + 16]) s (s.headers l hdrs) ∧ (s.headers l hdrs).laneState l = lockState l ∧
      ((s.headers l hdrs).lane l).pos = (s.lane l).pos := by
  induction hdrs with
  | nil =>
    intro s _ _ _ hrun hlen
    rw [List.length_nil] at hlen
    omega
  | cons h hdrs ih =>
    intro s h1 ha hm hrun hlen
    have hh : syncOk h = true := hok h List.mem_cons_self
    have hseen := (laneMove_hdrSeen (W := (· ∈ [laneBase l + 4, laneBase l + 16])) s l true (by simp)).aside
    have hstate : ∀ v, ((s.hdrSeen l true).setLane l v).laneState l = 1 := fun v => (laneState_hdrSeen s l true).trans h1
    have hpos : ((s.hdrSeen l true).lane l).pos = (s.lane l).pos := by rw [lane_hdrSeen]
    have heq := header_hunting h1 ha hm h
    rw [hh, if_neg (by decide)] at heq
    rw [List.length_cons] at hlen
    by_cases hlast : (s.lane l).run + 1 < 64
    · rw [if_pos hlast] at heq
      obtain ⟨w, hw⟩ : ∃ w, w = (s.hdrSeen l true).setLane l { (s.hdrSeen l true).lane l with run := (s.lane l).run + 1 } := ⟨_, rfl⟩
      rw [← hw] at heq
      have hlane : w.lane l = { (s.hdrSeen l true).lane l with run := (s.lane l).run + 1 } := hw ▸ State.setLane_lane _ _ _
      have hctl : w.reg (oLnCtl l) = s.reg (oLnCtl l) := hw ▸ lnCtl_hdrSeen s l true
      have hws : w.laneState l = 1 := hw ▸ hstate _
      obtain ⟨haside, hlock, hp⟩ := ih (fun h hm => hok h (List.mem_cons_of_mem _ hm)) hws ((lnAlign_congr hctl).trans ha)
        ((lnMode_congr hctl).trans hm) (by rw [hlane]; exact hlast) (by rw [hlane]; dsimp only; omega)
      have hgo : s.headers l (h :: hdrs) = w.headers l hdrs := by rw [State.headers, heq, if_pos (hws.trans h1.symm)]
      rw [hgo]
      refine ⟨(hseen.trans (hw ▸ aside_setLane _ l _)).trans haside, hlock, hp.trans ?_⟩
      rw [hlane, ← hpos]
    · rw [if_neg hlast] at heq
      have hlock := lockState_lt l
      have hne : lockState l ≠ 1 := by rw [lockState]; split <;> decide
      obtain ⟨w, hw⟩ : ∃ w, w = (s.hdrSeen l true).setLane l { (s.hdrSeen l true).lane l with run := 0 } := ⟨_, rfl⟩
      rw [← hw] at heq
      have hws : w.laneState l = 1 := hw ▸ hstate _
      have hto := toState_of_rx (by rw [hws]; decide) htx (lockState l)
      have hgo : s.headers l (h :: hdrs) = w.toState l (lockState l) := by
        rw [State.headers, heq, if_neg (by rw [laneState_toState w l hlock, h1]; exact hne)]
      rw [hgo]
      refine ⟨(hseen.trans (hw ▸ aside_setLane _ l _)).trans ?_, laneState_toState w l hlock, ?_⟩
      · rw [hto]; exact aside_setRf w _ _ _ (by simp [oLnStat])
      · have hlane : w.lane l = { (s.hdrSeen l true).lane l with run := 0 } := hw ▸ State.setLane_lane _ _ _
        rw [State.lane, lanes_toState htx, ← State.lane, hlane, hpos]

/-- An invalid header slips a lane that hunts. -/
theorem header_slip (h1 : s.laneState l = 1) (ha : s.lnAlign l = false) (hm : s.lnMode l = 0) {h : BitVec 2} (hbad : syncOk h = false) :
    Aside (· ∈ [laneBase l + 16]) s (s.headers l [h]) ∧ (s.headers l [h]).laneState l = 1 ∧ ((s.headers l [h]).lane l).run = 0 ∧
      ((s.headers l [h]).lane l).pos = ((s.lane l).pos + 1) % 66 := by
  have heq := header_hunting h1 ha hm h
  rw [hbad, if_pos (by decide)] at heq
  have hgo : s.headers l [h] = (s.hdrSeen l false).slip l := by
    rw [State.headers, heq]
    split <;> rfl
  have hpos : ((s.hdrSeen l false).lane l).pos = (s.lane l).pos := by rw [lane_hdrSeen]
  have hlane : (((s.hdrSeen l false).slip l).lane l) =
      { (s.hdrSeen l false).lane l with pos := (((s.hdrSeen l false).lane l).pos + 1) % 66, sinceSlip := 0, run := 0 } :=
    State.setLane_lane _ _ _
  rw [hgo]
  refine ⟨(laneMove_hdrSeen s l false (by simp)).aside.trans ((aside_setLane _ l _).trans (aside_setReg _ _ (by simp))), ?_, ?_, ?_⟩
  · exact (laneState_congr (reg_slip_ne _ (by simp [oLnStat]))).trans ((laneState_hdrSeen s l false).trans h1)
  · rw [hlane]
  · rw [hlane, hpos]

/-! ### Block lock lost -/

/-- What headers received from block lock on can change. -/
def HdrReg (l : LaneId) (o : Nat) : Prop := o = laneBase l + 0x10 ∨ o = laneBase l + 0x54 ∨ FailReg l 3 o

theorem not_failReg_hdrs (l : LaneId) : ¬ FailReg l 3 (laneBase l + 0x54) := by
  have hge := laneBase_ge l
  rintro (h | h | h | h)
  · omega
  · omega
  · simp only [oLnStat] at h; omega
  · exact not_downReg_own l (by decide) h

theorem not_hdrReg_ctl (l : LaneId) : ¬ HdrReg l (oLnCtl l) := by
  have hge := laneBase_ge l
  simp only [oLnCtl]
  rintro (h | h | h | h | h | h)
  · omega
  · omega
  · omega
  · omega
  · simp only [oLnStat] at h; omega
  · exact not_downReg_own l (k := 0) (by decide) h

/-- A sync header of a lane that has block lock. -/
def State.lockedHdr (s : State) (l : LaneId) (h : BitVec 2) : State := if s.laneState l ≥ 2 then s.header l h else s

theorem Counted.add {off m n : Nat} (h : Counted s t off m) (k : Counted t u off n) : Counted s u off (m + n) := by
  rw [Counted] at *
  omega

theorem counted_zero_of_reg {off : Nat} (h : t.reg off = s.reg off) : Counted s t off 0 := by
  have := (s.reg off).isLt
  rw [Counted, h]
  omega

theorem Counted.le {off n : Nat} (h : Counted s t off n) : s.reg off ≤ t.reg off := by
  have := (s.reg off).isLt
  rw [Counted] at h
  rw [BitVec.le_def]
  omega

theorem lockedHdr_lost (h1 : s.laneState l = 1) (h : BitVec 2) : s.lockedHdr l h = s := if_neg (by omega)

theorem foldl_lockedHdr_lost (h1 : s.laneState l = 1) (hdrs : List (BitVec 2)) : hdrs.foldl (fun s h => s.lockedHdr l h) s = s := by
  induction hdrs with
  | nil => rfl
  | cons h hdrs ih => rw [List.foldl_cons, lockedHdr_lost h1, ih]

section
variable (htx : isTxLane l = false)
include htx

theorem badHdr_eq (s : State) : s.badHdr l = (s.hdrSeen l false).cnt (laneBase l + 0x54) 1 := by
  rw [State.badHdr, State.lnCnt, htx]; rfl

theorem badHdr_spec (s : State) : LaneMove (HdrReg l) l s (s.badHdr l) ∧ (s.badHdr l).laneState l = s.laneState l ∧
    (s.badHdr l).lnAlign l = s.lnAlign l ∧ Counted s (s.badHdr l) (laneBase l + 0x54) 1 ∧ (s.badHdr l).lane l = (s.hdrSeen l false).lane l := by
  have hge := laneBase_ge l
  rw [badHdr_eq htx]
  refine ⟨(laneMove_hdrSeen s l false (.inl rfl)).trans (laneMove_cnt _ 1 (.inr (.inl rfl)) (by simp [oLnStat]) (by omega)), ?_, ?_, ?_, rfl⟩
  · exact (laneState_congr (State.reg_cnt_ne _ _ (by simp [oLnStat]))).trans (laneState_hdrSeen s l false)
  · exact (lnAlign_congr (State.reg_cnt_ne _ _ (by simp [oLnCtl]))).trans (lnAlign_congr (lnCtl_hdrSeen s l false))
  · rw [Counted, State.reg_cnt, reg_hdrSeen_ne s l false (by omega)]

/-- An invalid header from block lock on is counted, and takes the lane no further than to SIGNAL. -/
theorem header_bad_spec (h2 : 2 ≤ s.laneState l) {h : BitVec 2} (hbad : syncOk h = false) : LaneMove (HdrReg l) l s (s.header l h) ∧
    Counted s (s.header l h) (laneBase l + 0x54) 1 ∧
    (s.lnAlign l = true → 2 ≤ (s.header l h).laneState l) ∧
    ((s.header l h).laneState l = 1 ∨ 2 ≤ (s.header l h).laneState l ∧
      (s.lnAlign l = false → (((false :: (s.lane l).hdrs).take 4096).take 64).countP (!·) < 16) ∧
      ((s.header l h).lane l).hdrs = (false :: (s.lane l).hdrs).take 4096) := by
  obtain ⟨hmove, hstate, halign, hcount, hlane⟩ := badHdr_spec htx s
  have hhdrs : ((s.hdrSeen l false).lane l).hdrs = (false :: (s.lane l).hdrs).take 4096 := by rw [lane_hdrSeen]
  have hfail : ∀ {w}, LaneMove (FailReg l 3) l (s.badHdr l) w → LaneMove (HdrReg l) l s w ∧ Counted s w (laneBase l + 0x54) 1 := fun hw =>
    ⟨hmove.trans (hw.mono fun _ h => .inr (.inr h)), by rw [Counted, hw.aside.regs _ (not_failReg_hdrs l)]; exact hcount⟩
  rw [header_locked_bad h2 hbad, halign, hhdrs, ← List.countP_eq_length_filter]
  split
  · next hlost =>
    obtain ⟨hm, hc⟩ := hfail (laneMove_toSignal (s.badHdr l) l)
    exact ⟨hm, hc, fun ha => by simp [ha] at hlost, .inl (laneState_toSignal _ l)⟩
  · next hkept =>
    have hfew : s.lnAlign l = false → (((false :: (s.lane l).hdrs).take 4096).take 64).countP (!·) < 16 := fun ha => by
      simpa only [ha, Bool.not_false, Bool.true_and, decide_eq_true_eq, ge_iff_le, not_le] using hkept
    split
    · obtain ⟨hm, hc⟩ := hfail (laneMove_abandon (s.badHdr l) l)
      have htwo := two_le_laneState_abandon l (hstate.symm ▸ h2)
      refine ⟨hm, hc, fun _ => htwo, .inr ⟨htwo, hfew, ?_⟩⟩
      obtain ⟨n, hn⟩ := lane_abandon (s.badHdr l) htx
      rw [hn, hlane, hhdrs]
    · exact ⟨hmove, hcount, fun _ => hstate.symm ▸ h2, .inr ⟨hstate.symm ▸ h2, hfew, by rw [hlane, hhdrs]⟩⟩

/-- A header of a lane with block lock is a move of the lane, and is counted where it is invalid. -/
theorem lockedHdr_spec (s : State) (h : BitVec 2) : LaneMove (HdrReg l) l s (s.lockedHdr l h) ∧
    ∃ n, Counted s (s.lockedHdr l h) (laneBase l + 0x54) n ∧
      (2 ≤ s.laneState l → n = if syncOk h then 0 else 1) ∧
      (2 ≤ s.laneState l → s.lnAlign l = true → 2 ≤ (s.lockedHdr l h).laneState l) := by
  by_cases h2 : s.laneState l ≥ 2
  · rw [State.lockedHdr, if_pos h2]
    cases hok : syncOk h with
    | true =>
      rw [header_locked_ok h2 hok]
      exact ⟨laneMove_hdrSeen s l true (.inl rfl), 0, counted_zero_of_reg (reg_hdrSeen_ne s l true (by omega)), fun _ => rfl,
        fun _ _ => (laneState_hdrSeen s l true).symm ▸ h2⟩
    | false =>
      obtain ⟨hmove, hcount, hslip, -⟩ := header_bad_spec htx h2 hok
      exact ⟨hmove, 1, hcount, fun _ => rfl, fun _ => hslip⟩
  · rw [State.lockedHdr, if_neg h2]
    exact ⟨.refl _ _ _, 0, counted_zero_of_reg rfl, fun h => absurd h h2, fun h => absurd h h2⟩

theorem laneMove_lockedHdrs (hdrs : List (BitVec 2)) (s : State) : LaneMove (HdrReg l) l s (hdrs.foldl (fun s h => s.lockedHdr l h) s) ∧
    s.reg (laneBase l + 0x54) ≤ (hdrs.foldl (fun s h => s.lockedHdr l h) s).reg (laneBase l + 0x54) := by
  induction hdrs generalizing s with
  | nil => exact ⟨.refl _ _ _, BitVec.le_refl _⟩
  | cons h hdrs ih =>
    obtain ⟨hmove, n, hcount, -⟩ := lockedHdr_spec htx s h
    obtain ⟨hmove', hle⟩ := ih (s.lockedHdr l h)
    exact ⟨hmove.trans hmove', BitVec.le_trans hcount.le hle⟩

/-- In SLIP mode no invalid header loses block lock, and each is counted. -/
theorem lockedHdrs_slip (hdrs : List (BitVec 2)) : ∀ {s : State}, 2 ≤ s.laneState l → s.lnAlign l = true →
    2 ≤ (hdrs.foldl (fun s h => s.lockedHdr l h) s).laneState l ∧
    Counted s (hdrs.foldl (fun s h => s.lockedHdr l h) s) (laneBase l + 0x54) (hdrs.countP fun h => !syncOk h) := by
  induction hdrs with
  | nil => exact fun h2 _ => ⟨h2, counted_zero_of_reg rfl⟩
  | cons h hdrs ih =>
    intro s h2 ha
    obtain ⟨hmove, n, hcount, hn, hkeep⟩ := lockedHdr_spec htx s h
    obtain ⟨htwo, hcount'⟩ := ih (hkeep h2 ha) ((lnAlign_congr (hmove.aside.regs _ (not_hdrReg_ctl l))).trans ha)
    refine ⟨htwo, ?_⟩
    have hsum := hcount.add hcount'
    rw [hn h2] at hsum
    rw [List.countP_cons, Nat.add_comm (hdrs.countP _)]
    cases hok : syncOk h <;> simpa [hok] using hsum

/-- Outside SLIP mode sixteen invalid headers among the last lose block lock. -/
theorem lockedHdrs_lost (hdrs : List (BitVec 2)) (hbad : ∀ h ∈ hdrs, syncOk h = false) : ∀ {s : State} {k : Nat}, 2 ≤ s.laneState l →
    s.lnAlign l = false → List.replicate k false <+: (s.lane l).hdrs → k < 16 → hdrs.length + k = 16 →
    (hdrs.foldl (fun s h => s.lockedHdr l h) s).laneState l = 1 := by
  induction hdrs with
  | nil =>
    intro s k _ _ _ hk hlen
    rw [List.length_nil] at hlen
    omega
  | cons h hdrs ih =>
    intro s k h2 ha hrow hk hlen
    have hh : syncOk h = false := hbad h List.mem_cons_self
    obtain ⟨hmove, -, -, hend⟩ := header_bad_spec htx h2 hh
    rw [List.length_cons] at hlen
    rw [List.foldl_cons, State.lockedHdr, if_pos h2]
    obtain hlost | ⟨htwo, hfew, hhdrs⟩ := hend
    · rw [foldl_lockedHdr_lost hlost]; exact hlost
    · have hlong : List.replicate (k + 1) false <+: (false :: (s.lane l).hdrs).take 4096 := by
        refine List.prefix_take_iff.2 ⟨?_, by rw [List.length_replicate]; omega⟩
        exact List.replicate_succ ▸ (List.prefix_cons_inj false).2 hrow
      have hcount := (List.prefix_take_iff.2 ⟨hlong, by rw [List.length_replicate]; omega⟩ :
        List.replicate (k + 1) false <+: ((false :: (s.lane l).hdrs).take 4096).take 64).sublist.countP_le (p := (!·))
      have hall : (List.replicate (k + 1) false).countP (!·) = k + 1 := by rw [List.countP_replicate]; rfl
      have := hfew ha
      exact ih (fun h hm => hbad h (List.mem_cons_of_mem _ hm)) htwo
        ((lnAlign_congr (hmove.aside.regs _ (not_hdrReg_ctl l))).trans ha) (hhdrs ▸ hlong) (by omega) (by omega)

end

theorem exec_laneBlockLock (hon : s.laneOn l = true) (htx : isTxLane l = false) (h1 : s.laneState l = 1) (hdrs : List (BitVec 2)) :
    exec (.laneBlockLock l hdrs) s = .next (s.headers l hdrs) := by
  have e : exec (.laneBlockLock l hdrs) s = execLaneBlockLock l hdrs s := rfl
  rw [e, execLaneBlockLock]
  exact gate_of _ _ _ (by simp [hon, htx, h1])

theorem exec_laneBlockLockLost (hon : s.laneOn l = true) (htx : isTxLane l = false) (h2 : 2 ≤ s.laneState l) (hdrs : List (BitVec 2)) :
    exec (.laneBlockLockLost l hdrs) s = .next (hdrs.foldl (fun s h => s.lockedHdr l h) s) := by
  have e : exec (.laneBlockLockLost l hdrs) s = execLaneBlockLockLost l hdrs s := rfl
  rw [e, execLaneBlockLockLost]
  exact gate_of _ _ _ (by simp [hon, htx, h2])

theorem syncOk_iff (h : BitVec 2) : syncOk h = true ↔ h = 0b01#2 ∨ h = 0b10#2 := by simp [syncOk]

theorem syncOk_eq_false_iff (h : BitVec 2) : syncOk h = false ↔ h ≠ 0b01#2 ∧ h ≠ 0b10#2 := by simp [syncOk]

/-- Settles O21: each row moves the lane as its state stands, and block lock comes and goes by induction on the headers. -/
theorem laneControlAndStates : Obligations.LaneControlAndStates := by
  unfold Obligations.LaneControlAndStates
  intro s l hon b own left
  have hown : ∀ o, FailReg l 3 o → o ∈ own := by
    rintro o (rfl | rfl | rfl | rfl | rfl | rfl | ⟨n, rfl, rfl⟩)
    · exact List.mem_append_left _ (by simp [b]; omega)
    · exact List.mem_append_left _ (by simp)
    · exact List.mem_append_left _ (by simp [b, oLnStat])
    · exact List.mem_append_left _ (by simp)
    · exact List.mem_append_left _ (by simp)
    · exact List.mem_append_left _ (by simp [oRefIn])
    · exact List.mem_append_right _ List.mem_cons_self
  have hstate : ∀ o, StateReg l o → o ∈ own := fun o h => hown o (.inr (.inr h))
  have hb : b ∈ own := List.mem_append_left _ List.mem_cons_self
  refine ⟨fun v => ?_, fun dt n hl hen hrate h0 hd => ?_, fun htx => ⟨fun v => ?_, fun dt hen hrate h0 hd => ?_, fun dt h0 hd => ?_,
    fun hdrs h1 ha hm hrun hlen hok => ?_, fun h h1 ha hm hne hne' => ?_, fun h2 ha hdrs hlen hbad => ?_, fun h2 ha hdrs => ?_⟩⟩
  · obtain ⟨new, u, hmove, h31, hctl, h28, hgo, hus, hut, huc⟩ := lnCtl_spec (W := (· ∈ own)) hon v hb hstate
    refine ⟨_, exec_lnCtlWrite hon v, hmove.aside.apart, hmove.aside.memSame, hmove.aside.regs, hmove.left, ?_, ?_, ?_⟩
    · exact (congrArg (bit · 31) hctl).trans h31
    · rw [State.lnRate, State.rf, hctl]
      exact h28.trans (beq_eq_decide _ _)
    · have hrestart : (bit v 31 = false ∨ s.lnEn l = false ∨ fld ((s.lnCtl l v).reg b) 24 5 ≠ fld (s.reg b) 24 5) ↔
          Restarts (s.reg (oLnCtl l)) new := by
        rw [show (s.lnCtl l v).reg b = new from hctl, ← h31]; exact Iff.rfl
      have hlocks : ((s.lnCtl l v).lnAlign l = true ∧ (s.lnCtl l v).lnBit l 29 = true ∧ (s.lnCtl l v).lnMode l = 0 ∧ s.laneState l = 1 ∧
          isTxLane l = false) ↔ Locks u l new := by
        rw [Locks, hus, lnMode_congr (huc.trans hctl.symm), State.lnAlign, State.lnBit, State.lnBit, State.rb, State.rb, hctl]
      obtain hr | hr := em (Restarts (s.reg (oLnCtl l)) new)
      · obtain ⟨-, hdown, hsince⟩ := laneMove_toDown (W := StateReg l) u (lost := false) (fun _ h => h) fun h => absurd h (by decide)
        rw [← lnGo_of_restarts u l hr, ← hgo] at hdown hsince
        exact ⟨fun _ => ⟨hdown, hut ▸ hsince⟩, fun h => absurd (hrestart.2 hr) h, fun h => absurd (hrestart.2 hr) h⟩
      · obtain ⟨hlock, hstay⟩ := lnGo_of_goes_on u l hr
        refine ⟨fun h => absurd (hrestart.1 h) hr, fun _ h => ?_, fun _ h => ?_⟩
        · rw [hgo, hlock (hlocks.1 h)]; exact laneState_toState u l (lockState_lt l)
        · rw [hgo, hstay (mt hlocks.2 h), hus]
  · subst hl
    obtain ⟨hap, hmem, hregs, hst⟩ := entered_spec h0 (st := 4) (by decide) dt
    exact ⟨_, exec_txLaneUp hon hen hrate h0 hd, hap, hmem, hregs, hst⟩
  · refine ⟨_, exec_lnCtleWrite hon htx v, ⟨rfl, rfl⟩, fun _ => ⟨rfl, rfl, rfl⟩, fun o ho => ?_, ?_⟩
    · exact s.reg_setReg_ne _ (by simpa using ho)
    · rw [State.lnCtle, State.reg_setReg, lo32, BitVec.toNat_ofNat]
      exact Nat.mod_eq_of_lt (by omega)
  · obtain ⟨hap, hmem, hregs, hst⟩ := entered_spec h0 (st := 1) (by decide) dt
    exact ⟨_, exec_laneSignalDetect hon htx hen hrate h0 hd, hap, hmem, hregs, hst⟩
  · obtain ⟨hap, hmem, hregs, hst, h27, hleft⟩ := lossOfSignal_spec s l dt rfl
    refine ⟨_, exec_laneLossOfSignal hon htx h0 hd, hap, hmem, fun o ho => ?_, hst, h27, hleft⟩
    obtain ⟨htim, ho⟩ := not_or.1 (mt List.mem_cons.2 ho)
    exact hregs o (mt (hown o) ho) htim fun h => ho (h ▸ hown _ (.inr (.inr (.inr (.inl rfl)))))
  · obtain ⟨haside, hlock, hpos⟩ := headers_lock htx hdrs (fun h hh => (syncOk_iff h).2 (hok h hh)) h1 ha hm hrun hlen
    exact ⟨_, exec_laneBlockLock hon htx h1 hdrs, haside.apart, haside.memSame, haside.regs, hlock, hpos⟩
  · obtain ⟨haside, hst, hrun, hpos⟩ := header_slip h1 ha hm ((syncOk_eq_false_iff h).2 ⟨hne, hne'⟩)
    exact ⟨_, exec_laneBlockLock hon htx h1 [h], haside.apart, haside.memSame, haside.regs, hst, hrun, hpos⟩
  · obtain ⟨hmove, hle⟩ := laneMove_lockedHdrs htx hdrs s
    have hlost := lockedHdrs_lost htx hdrs (fun h hh => (syncOk_eq_false_iff h).2 (hbad h hh)) h2 ha (k := 0)
      (List.nil_prefix) (by decide) hlen
    exact ⟨_, exec_laneBlockLockLost hon htx h2 hdrs, hmove.aside.apart, hmove.aside.memSame, hlost, hmove.left, hle⟩
  · obtain ⟨hmove, -⟩ := laneMove_lockedHdrs htx hdrs s
    obtain ⟨htwo, hcount⟩ := lockedHdrs_slip htx hdrs h2 ha
    refine ⟨_, exec_laneBlockLockLost hon htx h2 hdrs, hmove.aside.apart, hmove.aside.memSame, htwo, ?_⟩
    rw [← List.countP_eq_length_filter]
    convert hcount using 3 with h
    simp [syncOk]

end Sys2Proof.Machine
end

section
/-! PROOF. Frames recovered from blocks: a lamp block opens a frame, data blocks fill it, its trailer ends it (R62 to R67), and what
becomes of it then (R60, R80). -/

namespace Sys2Proof.Machine

variable {W : Nat → Prop} {l : LaneId} {s t u : State}

/-! ### Fields of a header -/

theorem ofLe_drop (n : Nat) (x : List Byte) : ofLe (x.drop n) = ofLe x / 256 ^ n := by
  induction x generalizing n with
  | nil => simp [ofLe]
  | cons b x ih =>
    cases n with
    | zero => simp
    | succ n =>
      have hb := b.isLt
      rw [List.drop_succ_cons, ih, ofLe, Nat.pow_succ', ← Nat.div_div_eq_div_mul]
      congr 1
      omega

theorem ofLe_take (n : Nat) (x : List Byte) : ofLe (x.take n) = ofLe x % 256 ^ n := by
  induction x generalizing n with
  | nil => simp [ofLe]
  | cons b x ih =>
    cases n with
    | zero => simp [ofLe, Nat.mod_one]
    | succ n =>
      have hb := b.isLt
      have hdiv : (b.toNat + 256 * ofLe x) / 256 = ofLe x := by omega
      rw [List.take_succ_cons, ofLe, ih, ofLe, Nat.pow_succ', Nat.mod_mul, hdiv]
      omega

theorem field_eq (x : List Byte) (o n : Nat) : field x o n = ofLe x / 256 ^ o % 256 ^ n := by rw [field, ofLe_take, ofLe_drop]

/-- A field under a little-endian descriptor. -/
theorem fdGet_le (x : List Byte) {d : W32} {off w : Nat} (hbe : fdBe d = false) (ho : fdOff d = off) (hw : fdWidth d = w) :
    fdGet x d = ofLe x / 2 ^ off % 2 ^ w := by
  rw [fdGet, hbe, ho, hw, Nat.shiftRight_eq_div_pow]; rfl

theorem fdGet_len (x : List Byte) : fdGet x (nativeFd.getD 7 0) = field x 16 2 := by
  rw [field_eq]; exact fdGet_le x (d := nativeFd.getD 7 0) (off := 128) (w := 16) (by decide) (by decide) (by decide)

theorem fdGet_waothLen (x : List Byte) : fdGet x (waothFd.getD 7 0) = field x 2 2 := by
  rw [field_eq]; exact fdGet_le x (d := waothFd.getD 7 0) (off := 16) (w := 16) (by decide) (by decide) (by decide)

/-- The frame that R66 reads in a header and payload. -/
def nativeFrame (hdr pay : List Byte) (crc ns : W32) (sub : Nat) : Frame :=
  { ty := if field hdr 0 2 / 4096 ∈ [1, 2, 3] then field hdr 0 2 / 4096 else 0
    fmtOk := decide (field hdr 2 1 % 8 = 0)
    src := field hdr 0 2 % 4096, chan := field hdr 4 2, base := field hdr 6 2 % 4096, index := field hdr 8 6, valid := field hdr 14 2
    len := field hdr 16 2, payload := pay, crc, ns, sub }

/-- A frame decoded under entry 0. -/
theorem decodeFrame_native (f : Framing) (hfds : f.fds = nativeFd) (hctl : f.ctl = 0x83010203#32) (hopt : f.opt = 0) (hfmt : f.fmt = 0)
    (hdr pay : List Byte) (crc : W32) : decodeFrame f hdr pay crc = nativeFrame hdr pay crc f.ns f.sub := by
  have hg := fun (i off w : Nat) (hbe : fdBe (nativeFd.getD i 0) = false) (ho : fdOff (nativeFd.getD i 0) = off)
    (hw : fdWidth (nativeFd.getD i 0) = w) => fdGet_le hdr hbe ho hw
  have hty : fdGet hdr (nativeFd.getD 1 0) = field hdr 0 2 / 4096 := by
    rw [hg 1 12 4 (by decide) (by decide) (by decide), field_eq]; omega
  have hsrc : fdGet hdr (nativeFd.getD 0 0) = field hdr 0 2 % 4096 := by
    rw [hg 0 0 12 (by decide) (by decide) (by decide), field_eq]; omega
  have hfm : fdGet hdr (nativeFd.getD 2 0) = field hdr 2 1 % 8 := by
    rw [hg 2 16 3 (by decide) (by decide) (by decide), field_eq]; omega
  have hchan : fdGet hdr (nativeFd.getD 3 0) = field hdr 4 2 := by
    rw [hg 3 32 16 (by decide) (by decide) (by decide), field_eq]; omega
  have hbase : fdGet hdr (nativeFd.getD 4 0) = field hdr 6 2 % 4096 := by
    rw [hg 4 48 12 (by decide) (by decide) (by decide), field_eq]; omega
  have hidx : fdGet hdr (nativeFd.getD 5 0) = field hdr 8 6 := by
    rw [hg 5 64 48 (by decide) (by decide) (by decide), field_eq]; omega
  have hval : fdGet hdr (nativeFd.getD 6 0) = field hdr 14 2 := by
    rw [hg 6 112 16 (by decide) (by decide) (by decide), field_eq]; omega
  have hw6 : fdWidth (nativeFd.getD 6 0) ≠ 0 := by decide
  have hw2 : (fdWidth (nativeFd.getD 2 0) == 0) = false := by decide
  have hix : field hdr 8 6 * 2 ^ fld (0 : W32) 0 3 % 2 ^ 48 = field hdr 8 6 := by
    rw [show fld (0 : W32) 0 3 = 0 by decide, field_eq]; omega
  have hcodes : fld (0x83010203#32) 16 8 = 1 ∧ fld (0x83010203#32) 8 8 = 2 ∧ fld (0x83010203#32) 0 8 = 3 := by decide
  obtain ⟨h1, h2, h3⟩ := hcodes
  unfold decodeFrame nativeFrame
  simp only [hfds, hctl, hopt, hfmt, hty, hsrc, hfm, hchan, hbase, hidx, hval, fdGet_len, hix, h1, h2, h3, hw2, if_neg hw6,
    Bool.false_or, List.mem_cons, List.not_mem_nil, or_false]
  congr 1
  · split
    · simp [*]
    · split
      · simp [*]
      · split <;> simp [*]

/-! ### One block -/

/-- A block received on a lane: its sync header, and from block lock on the block. -/
def State.rxBlock (s : State) (l : LaneId) (b : Block) : State :=
  let s := s.header l b.sync
  if s.laneState l ≥ 2 && syncOk b.sync && l != .port then s.blockIn l b else s

theorem blocksIn_eq (s : State) (l : LaneId) (bs : List Block) : s.blocksIn l bs = bs.foldl (fun s b => s.rxBlock l b) s := rfl

theorem rxBlock_eq (hport : l ≠ .port) (h2 : 2 ≤ s.laneState l) {b : Block} (hok : syncOk b.sync = true) :
    s.rxBlock l b = (s.hdrSeen l true).blockIn l b := by
  rw [State.rxBlock, header_locked_ok h2 hok]
  exact if_pos (by simp [laneState_hdrSeen, h2, hok, hport])

theorem rxBlock_port (h2 : 2 ≤ s.laneState .port) {b : Block} (hok : syncOk b.sync = true) : s.rxBlock .port b = s.hdrSeen .port true := by
  rw [State.rxBlock, header_locked_ok h2 hok]
  exact if_neg (by simp)

/-- The blocks of the time port only show in the count of its sync headers. -/
theorem blocksIn_port (bs : List Block) (hok : ∀ b ∈ bs, syncOk b.sync = true) (h4 : s.laneState .port = 4) :
    Aside (· ∈ [0x984010]) s (s.blocksIn .port bs) ∧ (s.blocksIn .port bs).laneState .port = 4 := by
  rw [blocksIn_eq]
  refine foldl_keeps (P := fun t => Aside (· ∈ [0x984010]) s t ∧ t.laneState .port = 4) _ (fun t b hb ht => ?_) ⟨.refl _ _, h4⟩
  obtain ⟨haside, hst⟩ := ht
  rw [rxBlock_port (by omega) (hok b hb)]
  exact ⟨haside.trans (laneMove_hdrSeen t .port true (by simp [laneBase])).aside, (laneState_hdrSeen t .port true).trans hst⟩

/-! ### A frame in progress -/

/-- From s, with no frame, to u a frame has been opened and is in progress: its lamp block took a lane in BLOCK_LOCK to FRAME_LOCK. -/
structure InFrame (l : LaneId) (s u : State) (f : Framing) : Prop where
  aside : Aside (· ∈ [laneBase l + 4, laneBase l + 16]) s u
  state : u.laneState l = if s.laneState l = 4 then 4 else 3
  frm : (u.lane l).frm = some f
  fifo : (u.lane l).fifo = (s.lane l).fifo
  fails : (u.lane l).fails = (s.lane l).fails

theorem InFrame.two_le {f : Framing} (h : InFrame l s u f) : 2 ≤ u.laneState l := by rw [h.state]; split <;> decide

theorem InFrame.hdrSeen {f : Framing} (h : InFrame l s u f) : InFrame l s (u.hdrSeen l true) f := by
  refine ⟨h.aside.trans (laneMove_hdrSeen u l true (by simp)).aside, (laneState_hdrSeen u l true).trans h.state, ?_, ?_, ?_⟩ <;>
    rw [lane_hdrSeen]
  · exact h.frm
  · exact h.fifo
  · exact h.fails

theorem InFrame.setFrm {f : Framing} (h : InFrame l s u f) (g : Framing) :
    InFrame l s (u.setLane l { u.lane l with frm := some g }) g := by
  refine ⟨h.aside.trans (aside_setLane u l _), h.state, ?_, ?_, ?_⟩ <;> rw [State.setLane_lane]
  · exact h.fifo
  · exact h.fails

/-- A frame opened on a lane with block lock. -/
theorem inFrame_openFrame (htx : isTxLane l = false) (h2 : 2 ≤ s.laneState l) (h4 : s.laneState l ≤ 4) (f : Framing) :
    InFrame l s ((s.hdrSeen l true).openFrame l f) f := by
  obtain ⟨w, hw⟩ : ∃ w, w = (s.hdrSeen l true).setLane l { (s.hdrSeen l true).lane l with frm := some f, skip := false } := ⟨_, rfl⟩
  have hws : w.laneState l = s.laneState l := hw ▸ laneState_hdrSeen s l true
  have hlane : w.lane l = { (s.hdrSeen l true).lane l with frm := some f, skip := false } := hw ▸ State.setLane_lane _ _ _
  have haside : Aside (· ∈ [laneBase l + 4, laneBase l + 16]) s w :=
    (laneMove_hdrSeen s l true (by simp)).aside.trans (hw ▸ aside_setLane _ l _)
  have hopen : (s.hdrSeen l true).openFrame l f = if w.laneState l = 2 then w.toState l 3 else w := by rw [State.openFrame, hw]
  rw [hopen, hws]
  split
  · next h =>
    have hto := toState_of_rx (s := w) (by omega) htx 3
    have hlanes : (w.toState l 3).lane l = w.lane l := by rw [State.lane, lanes_toState htx]; rfl
    refine ⟨haside.trans ?_, ?_, ?_, ?_, ?_⟩
    · rw [hto]; exact aside_setRf w _ _ _ (by simp [oLnStat])
    · rw [laneState_toState w l (by decide), if_neg (by omega)]
    all_goals rw [hlanes, hlane, lane_hdrSeen]
  · next h =>
    refine ⟨haside, ?_, ?_, ?_, ?_⟩
    · rw [hws]; split <;> omega
    all_goals rw [hlane, lane_hdrSeen]

/-- A lamp block. -/
def lampBlock : Block := ⟨0b10#2, lampBytes⟩

/-- The framing that a lamp block opens: of entry 0 on an RX lane, or of a Waoth frame. -/
def Opens (l : LaneId) (s : State) (f : Framing) : Prop := s.lampIn l = s.openFrame l f

theorem rxBlock_lamp (htx : isTxLane l = false) (hport : l ≠ .port) (h2 : 2 ≤ s.laneState l) (h4 : s.laneState l ≤ 4)
    (hnone : (s.lane l).frm = none) {f : Framing} (hopens : Opens l (s.hdrSeen l true) f) : InFrame l s (s.rxBlock l lampBlock) f := by
  have hfrm : ((s.hdrSeen l true).lane l).frm = none := by rw [lane_hdrSeen]; exact hnone
  rw [rxBlock_eq hport h2 (by decide), State.blockIn, hfrm]
  refine (?_ : InFrame l s ((s.hdrSeen l true).lampIn l) f)
  rw [hopens]
  exact inFrame_openFrame htx h2 h4 f

/-- A frame of `h` blocks of header and `p` of payload after the first `n` blocks of its bytes. -/
def Framing.after (f : Framing) (all : List Byte) (h p n : Nat) : Framing :=
  { f with bytes := all.take (8 * n), hdrLeft := h - n, payLeft := if n < h then 0 else p - (n - h) }

/-- The n-th data block of a string of bytes. -/
def nthBlock (all : List Byte) (i : Nat) : Block := ⟨0b01#2, (all.drop (8 * i)).take 8⟩

section
variable {all : List Byte} {h p n : Nat} {f : Framing}

theorem take_nthBlock (all : List Byte) (n : Nat) : all.take (8 * n) ++ (nthBlock all n).bytes = all.take (8 * (n + 1)) := by
  rw [Nat.mul_add, List.take_add]; rfl

/-- A data block where one is due. -/
theorem rxBlock_data (hport : l ≠ .port) (hn : n < h + p) (hlen : fdGet (all.take (8 * h)) (f.fds.getD 7 0) = 8 * p) (hmax : 8 * p ≤ maxPayload l)
    (hin : InFrame l s u (f.after all h p n)) : InFrame l s (u.rxBlock l (nthBlock all n)) (f.after all h p (n + 1)) := by
  obtain ⟨w, hw⟩ : ∃ w, w = u.hdrSeen l true := ⟨_, rfl⟩
  have hseen : InFrame l s w (f.after all h p n) := hw ▸ hin.hdrSeen
  have hdue : (f.after all h p n).hdrLeft ≠ 0 ∨ (f.after all h p n).payLeft ≠ 0 := by
    rw [Framing.after]; dsimp only; split <;> omega
  rw [rxBlock_eq hport hin.two_le (by rfl), ← hw, State.blockIn, hseen.frm]
  dsimp only
  rw [if_pos ⟨hdue, rfl⟩, State.frameData]
  have hbytes : (f.after all h p n).bytes ++ (nthBlock all n).bytes = all.take (8 * (n + 1)) := take_nthBlock all n
  rw [hbytes]
  have hset : ∀ g, g = f.after all h p (n + 1) → InFrame l s (w.setLane l { w.lane l with frm := some g }) (f.after all h p (n + 1)) := by
    rintro g rfl; exact hseen.setFrm _
  have hnext : ∀ a b, a = h - (n + 1) → b = (if n + 1 < h then 0 else p - (n + 1 - h)) →
      ({ f.after all h p n with bytes := all.take (8 * (n + 1)), hdrLeft := a, payLeft := b } : Framing) = f.after all h p (n + 1) := by
    rintro a b rfl rfl; rfl
  have hleft : (f.after all h p n).hdrLeft = h - n := rfl
  have hpay : (f.after all h p n).payLeft = if n < h then 0 else p - (n - h) := rfl
  rw [hleft]
  by_cases hlast : h - n = 1
  · have hlen' : fdGet (all.take (8 * (n + 1))) ((f.after all h p n).fds.getD 7 0) = 8 * p := by
      rw [show n + 1 = h by omega]; exact hlen
    rw [if_pos hlast, hlen', if_neg (by omega)]
    exact hset _ (hnext _ _ (by omega) (by rw [if_neg (by omega)]; omega))
  · rw [if_neg hlast]
    split
    · refine hset _ (hnext _ _ (by omega) ?_)
      rw [hpay, if_pos (by omega), if_pos (by omega)]
    · refine hset _ (hnext _ _ (by omega) ?_)
      rw [hpay, if_neg (by omega), if_neg (by omega)]
      omega

/-- All data blocks of a frame. -/
theorem foldl_data (hport : l ≠ .port) (hlen : fdGet (all.take (8 * h)) (f.fds.getD 7 0) = 8 * p) (hmax : 8 * p ≤ maxPayload l)
    (hin : InFrame l s u (f.after all h p 0)) : ∀ n ≤ h + p,
    InFrame l s (((List.range n).map (nthBlock all)).foldl (fun s b => s.rxBlock l b) u) (f.after all h p n) := by
  intro n
  induction n with
  | zero => exact fun _ => hin
  | succ n ih =>
    intro hn
    rw [List.range_succ, List.map_append, List.foldl_append]
    exact rxBlock_data hport (by omega) hlen hmax (ih (by omega))

end

/-! ### The trailer -/

/-- A trailer block with a CRC-32C. -/
def trailer (x y z : Byte) (crc : Nat) : Block := ⟨0b10#2, [0xE1#8, x, y, z] ++ leBytes 4 crc⟩

theorem field_trailer (x y z : Byte) {crc : Nat} (h : crc < 2 ^ 32) : field (trailer x y z crc).bytes 4 4 = crc := by
  have hdrop : (trailer x y z crc).bytes.drop 4 = leBytes 4 crc := rfl
  rw [field, hdrop, List.take_of_length_le (by rw [length_leBytes]), ofLe_leBytes]
  exact Nat.mod_eq_of_lt h

theorem rxBlock_trailer (hport : l ≠ .port) {f : Framing} (hin : InFrame l s u f) (hh : f.hdrLeft = 0) (hp : f.payLeft = 0)
    (x y z : Byte) (crc : Nat) : u.rxBlock l (trailer x y z crc) = (u.hdrSeen l true).frameEnd l f (trailer x y z crc) := by
  rw [rxBlock_eq hport hin.two_le (by rfl), State.blockIn, hin.hdrSeen.frm]
  dsimp only
  rw [if_neg (by simp [hh, hp]), if_pos (by simp [hh, hp, isCtl, trailer])]

/-- The blocks of one frame, from the lamp block to the trailer, come to the end of that frame. -/
theorem blocksIn_frame (htx : isTxLane l = false) (hport : l ≠ .port) (h2 : 2 ≤ s.laneState l) (h4 : s.laneState l ≤ 4)
    (hnone : (s.lane l).frm = none) {f : Framing} (hopens : Opens l (s.hdrSeen l true) f) {all : List Byte} {h p : Nat}
    (hbytes : f.bytes = []) (hleft : f.hdrLeft = h) (hpay : f.payLeft = 0) (hpos : 0 < h)
    (hlen : fdGet (all.take (8 * h)) (f.fds.getD 7 0) = 8 * p) (hmax : 8 * p ≤ maxPayload l) (hall : all.length = 8 * (h + p))
    (x y z : Byte) (crc : Nat) :
    ∃ w, InFrame l s w { f with bytes := all, hdrLeft := 0, payLeft := 0 } ∧
      s.blocksIn l ([lampBlock] ++ (List.range (h + p)).map (nthBlock all) ++ [trailer x y z crc]) =
        w.frameEnd l { f with bytes := all, hdrLeft := 0, payLeft := 0 } (trailer x y z crc) := by
  have hfirst : f.after all h p 0 = f := by
    obtain ⟨fmt, fds, ctl, opt, bytes, left, pay, ns, sub⟩ := f
    dsimp only at hbytes hleft hpay
    subst hbytes hleft hpay
    rw [Framing.after, if_pos hpos]
    rfl
  have hlast : f.after all h p (h + p) = { f with bytes := all, hdrLeft := 0, payLeft := 0 } := by
    rw [Framing.after, List.take_of_length_le (by omega), if_neg (by omega), show h - (h + p) = 0 by omega, show p - (h + p - h) = 0 by omega]
  have hlamp := rxBlock_lamp htx hport h2 h4 hnone hopens
  have hdata := foldl_data (all := all) (h := h) (p := p) hport hlen hmax (hfirst.symm ▸ hlamp) (h + p) (Nat.le_refl _)
  rw [hlast] at hdata
  refine ⟨_, hdata.hdrSeen, ?_⟩
  rw [blocksIn_eq, List.foldl_append, List.foldl_append]
  exact rxBlock_trailer hport hdata rfl rfl x y z crc

/-- A frame that passes its check takes the lane UP. -/
def State.passed (s : State) (l : LaneId) : State :=
  let s := s.setLane l { s.lane l with frm := none, fails := 0 }
  if s.laneState l = 3 then s.toState l 4 else s

theorem frameEnd_bad {f : Framing} {b : Block} (h : field b.bytes 4 4 ≠ (crc32c f.bytes).toNat) :
    s.frameEnd l f b = (s.frameCnt l 1).frameFailed l := if_pos h.symm

theorem frameEnd_good {f : Framing} {b : Block} (h : field b.bytes 4 4 = (crc32c f.bytes).toNat) :
    s.frameEnd l f b = if isWLane l then s.passed l else
      (s.passed l).deliver l (decodeFrame f (f.bytes.take (8 * (fld f.ctl 24 3 + 1))) (f.bytes.drop (8 * (fld f.ctl 24 3 + 1))) (crc32c f.bytes)) :=
  if_neg (not_not.2 h.symm)

theorem passed_spec (htx : isTxLane l = false) {f : Framing} (hin : InFrame l s u f) :
    Aside (· ∈ [laneBase l + 4, laneBase l + 16]) s (u.passed l) ∧ (u.passed l).laneState l = 4 ∧
      ((u.passed l).lane l).fifo = (s.lane l).fifo := by
  obtain ⟨w, hw⟩ : ∃ w, w = u.setLane l { u.lane l with frm := none, fails := 0 } := ⟨_, rfl⟩
  have hws : w.laneState l = if s.laneState l = 4 then 4 else 3 := hw ▸ hin.state
  have hlane : w.lane l = { u.lane l with frm := none, fails := 0 } := hw ▸ State.setLane_lane _ _ _
  have haside : Aside (· ∈ [laneBase l + 4, laneBase l + 16]) s w := hin.aside.trans (hw ▸ aside_setLane u l _)
  have hpassed : u.passed l = if w.laneState l = 3 then w.toState l 4 else w := by rw [State.passed, hw]
  rw [hpassed]
  split
  · next h3 =>
    have hto := toState_of_rx (s := w) (by omega) htx 4
    refine ⟨haside.trans ?_, laneState_toState w l (by decide), ?_⟩
    · rw [hto]; exact aside_setRf w _ _ _ (by simp [oLnStat])
    · rw [State.lane, lanes_toState htx, ← State.lane, hlane, ← hin.fifo]
  · next h3 =>
    refine ⟨haside, ?_, ?_⟩
    · rw [hws] at h3 ⊢; split at h3 <;> simp_all
    · rw [hlane, ← hin.fifo]

/-- A frame that fails its check, counted or not, leaves the FIFO, and takes the lane to BLOCK_LOCK, from UP at the fourth in a row. -/
theorem failed_spec (htx : isTxLane l = false) {f : Framing} (hin : InFrame l s u f) {w : State} (hlanes : w.lanes = u.lanes)
    (hstat : w.reg (oLnStat l) = u.reg (oLnStat l)) : Aside (EnterReg l) w (w.frameFailed l) ∧
    ((w.frameFailed l).lane l).fifo = (s.lane l).fifo ∧
    (w.frameFailed l).laneState l = if s.laneState l = 4 ∧ (s.lane l).fails < 3 then 4 else 2 := by
  have hlane : w.lane l = u.lane l := by rw [State.lane, hlanes]; rfl
  obtain ⟨k, hk⟩ := lane_frameFailed w htx
  refine ⟨(laneMove_frameFailed w fun _ h => h).aside, by rw [hk, hlane, ← hin.fifo], ?_⟩
  rw [laneState_frameFailed, laneState_congr hstat, hin.state, hlane, hin.fails]
  by_cases h4 : s.laneState l = 4 <;> by_cases hf : (s.lane l).fails < 3 <;> simp [h4, hf]

/-! ### RX lanes -/

theorem opens_native {n : Nat} (hfmt : s.lnFmt (.rx n) = 0) :
    Opens (.rx n) s ⟨0, nativeFd, 0x83010203#32, 0, [], 4, 0, s.ns, s.sub⟩ := by
  have hw : isWLane (.rx n) = false := rfl
  have hlook : s.fmtLook 0 = s := rfl
  have hleft : fld (s.fmtCtlOf 0) 24 3 + 1 = 4 := by rw [State.fmtCtlOf, if_pos rfl]; decide
  rw [Opens, State.lampIn, hw, if_neg (by decide), hfmt]
  dsimp only
  rw [hlook, if_neg (by simp [State.fmtValid]), hleft]
  rfl

/-- The blocks of a frame on an RX lane come to the frame passed and delivered, or failed. -/
theorem blocksIn_native {n : Nat} (h2 : 2 ≤ s.laneState (.rx n)) (h4 : s.laneState (.rx n) ≤ 4) (hfmt : s.lnFmt (.rx n) = 0)
    (hnone : (s.lane (.rx n)).frm = none) {hdr pay : List Byte} (hhdr : hdr.length = 32) (hpay : pay.length = field hdr 16 2)
    (hdiv : pay.length % 8 = 0) (hmax : pay.length ≤ 3072) {crc : Nat} (hcrc : crc < 2 ^ 32) (x y z : Byte) {t : State}
    (ht : t = s.blocksIn (.rx n) ([lampBlock] ++ (List.range (4 + pay.length / 8)).map (nthBlock (hdr ++ pay)) ++ [trailer x y z crc])) :
    ∃ w f, InFrame (.rx n) s w f ∧
      (crc = (crc32c (hdr ++ pay)).toNat →
        ∃ ns sub, t = (w.passed (.rx n)).deliver (.rx n) (nativeFrame hdr pay (crc32c (hdr ++ pay)) ns sub)) ∧
      (crc ≠ (crc32c (hdr ++ pay)).toNat → t = (w.frameCnt (.rx n) 1).frameFailed (.rx n)) := by
  have hopens := opens_native (s := s.hdrSeen (.rx n) true) (n := n) ((congrArg (fun w => fld w 21 3) (lnCtl_hdrSeen s _ true)).trans hfmt)
  have hhead : (hdr ++ pay).take 32 = hdr := by rw [← hhdr]; exact List.take_left
  have htail : (hdr ++ pay).drop 32 = pay := by rw [← hhdr]; exact List.drop_left
  obtain ⟨w, hin, hend⟩ := blocksIn_frame (h := 4) (p := pay.length / 8) (all := hdr ++ pay) rfl (by simp) h2 h4 hnone hopens rfl rfl rfl
    (by decide) (by rw [hhead, fdGet_len, ← hpay]; omega) (by simp [maxPayload, isWLane]; omega) (by rw [List.length_append]; omega) x y z crc
  have hfield := field_trailer x y z hcrc
  refine ⟨w, _, hin, fun hgood => ⟨(s.hdrSeen (.rx n) true).ns, (s.hdrSeen (.rx n) true).sub, ?_⟩, fun hbad => ?_⟩
  · have hlen : 8 * (fld (0x83010203#32) 24 3 + 1) = 32 := by decide
    rw [ht, hend, frameEnd_good (by rw [hfield]; exact hgood), show isWLane (.rx n) = false from rfl, if_neg (by decide),
      decodeFrame_native _ rfl rfl rfl rfl]
    dsimp only
    rw [hlen, hhead, htail]
  · rw [ht, hend, frameEnd_bad (by rw [hfield]; exact hbad)]

section
variable {n : Nat} (v : State) (f : Frame)

/-! With wedging off a frame is discarded; with the FIFO full it is dropped; else it is counted, and goes to the FIFO (R80). -/

theorem deliver_off (h : v.wdgOn = false) : v.deliver (.rx n) f = v := if_pos (by rw [h]; rfl)

theorem deliver_full (hon : v.wdgOn = true) (h : 8 ≤ (v.lane (.rx n)).fifo.length) : v.deliver (.rx n) f = v.cnt (laneBase (.rx n) + 0x48) 1 := by
  rw [State.deliver, if_neg (by simp [hon])]
  exact if_pos h

theorem deliver_room (hon : v.wdgOn = true) (h : (v.lane (.rx n)).fifo.length < 8) : v.deliver (.rx n) f =
    if f.ty = 0 then (v.cnt (laneBase (.rx n) + 0x40) 1).cnt 0xA00104 1
    else if !f.fmtOk then (v.cnt (laneBase (.rx n) + 0x40) 1).cnt 0xA00108 1
    else (v.cnt (laneBase (.rx n) + 0x40) 1).setLane (.rx n) { v.lane (.rx n) with fifo := (v.lane (.rx n)).fifo ++ [f] } := by
  rw [State.deliver, if_neg (by simp [hon])]
  exact if_neg (by omega)

end

theorem Counted.of_reg {off k : Nat} (h : Counted t u off k) (e : t.reg off = s.reg off) : Counted s u off k := by rw [Counted, ← e]; exact h

theorem counted_cnt (s : State) (off k : Nat) : Counted s (s.cnt off k) off k := State.reg_cnt s off k

theorem counted_cnt_ne (s : State) {off o : Nat} (k : Nat) (h : o ≠ off) : Counted s ((s.cnt o 1).cnt off k) off k :=
  (counted_cnt _ off k).of_reg (State.reg_cnt_ne s 1 h.symm)

theorem Counted.later {off k : Nat} (h : Counted s t off k) (e : u.reg off = t.reg off) : Counted s u off k := by rw [Counted, e]; exact h

section
variable {n : Nat}

/-- The registers that a frame on RX lane n can change. -/
def rxRegs (n : Nat) : List Nat := let o := laneBase (.rx n); [o + 4, o + 16, o + 0x40, o + 0x44, o + 0x48, 0xA00104, 0xA00108, 0x200048]

theorem aside_deliver (v : State) (f : Frame) : Aside (· ∈ rxRegs n) v (v.deliver (.rx n) f) ∧
    (v.deliver (.rx n) f).laneState (.rx n) = v.laneState (.rx n) := by
  have hst : ∀ (w : State) off, off ≠ oLnStat (.rx n) → (w.cnt off 1).laneState (.rx n) = w.laneState (.rx n) := fun w off h =>
    laneState_congr (w.reg_cnt_ne 1 h.symm)
  have h40 : laneBase (.rx n) + 0x40 ≠ oLnStat (.rx n) := by simp [oLnStat]
  have hty : (0xA00104 : Nat) ≠ oLnStat (.rx n) := by simp only [oLnStat, laneBase]; omega
  have hfm : (0xA00108 : Nat) ≠ oLnStat (.rx n) := by simp only [oLnStat, laneBase]; omega
  have hok : Aside (· ∈ rxRegs n) v (v.cnt (laneBase (.rx n) + 0x40) 1) := aside_cnt v 1 (by simp [rxRegs])
  cases hon : v.wdgOn with
  | false => rw [deliver_off v f hon]; exact ⟨.refl _ _, rfl⟩
  | true =>
    by_cases hfull : 8 ≤ (v.lane (.rx n)).fifo.length
    · rw [deliver_full v f hon hfull]
      exact ⟨aside_cnt v 1 (by simp [rxRegs]), hst v _ (by simp [oLnStat])⟩
    · rw [deliver_room v f hon (by omega)]
      split
      · exact ⟨hok.trans (aside_cnt _ 1 (by simp [rxRegs])), (hst _ _ hty).trans (hst v _ h40)⟩
      · split
        · exact ⟨hok.trans (aside_cnt _ 1 (by simp [rxRegs])), (hst _ _ hfm).trans (hst v _ h40)⟩
        · exact ⟨hok.trans (aside_setLane _ _ _), hst v _ h40⟩

theorem wdgOn_congr (h : t.reg 0xA00000 = s.reg 0xA00000) : t.wdgOn = s.wdgOn := congrArg (bit · 0) h

variable {f : Framing}

/-- A frame on an RX lane that fails CRC-32C. -/
theorem badFrame_rx (hin : InFrame (.rx n) s u f) {w : State} (hw : w = (u.frameCnt (.rx n) 1).frameFailed (.rx n)) :
    Aside (· ∈ rxRegs n) s w ∧ (w.lane (.rx n)).fifo = (s.lane (.rx n)).fifo ∧
    w.laneState (.rx n) = (if s.laneState (.rx n) = 4 ∧ (s.lane (.rx n)).fails < 3 then 4 else 2) ∧
    (s.wdgOn = true → Counted s w (laneBase (.rx n) + 0x44) 1) ∧
    (s.wdgOn = false → RegsBut [laneBase (.rx n) + 4, laneBase (.rx n) + 16, 0x200048] s w) := by
  obtain ⟨v, hv⟩ : ∃ v, v = u.frameCnt (.rx n) 1 := ⟨_, rfl⟩
  have hon : u.wdgOn = s.wdgOn := wdgOn_congr (hin.aside.regs _ (by simp [laneBase]; omega))
  have hcnt : v = if s.wdgOn then u.cnt (laneBase (.rx n) + 0x44) 1 else u := by rw [hv, ← hon]; rfl
  have hkeep := (laneMove_frameCnt u (.rx n) (k := 1) (by decide)).2
  rw [← hv] at hw hkeep
  obtain ⟨hfail, hfifo, hstate⟩ := failed_spec rfl hin hkeep.1 hkeep.2
  rw [← hw] at hfail hfifo hstate
  have hsu : Aside (· ∈ rxRegs n) s u := hin.aside.mono fun o ho => by
    simp only [List.mem_cons, List.not_mem_nil, or_false] at ho
    obtain rfl | rfl := ho <;> simp [rxRegs]
  have henter : ∀ o, EnterReg (.rx n) o → o ∈ rxRegs n := by
    rintro o (rfl | ho)
    · simp [rxRegs, oLnStat]
    · rw [show o = 0x200048 from ho]; simp [rxRegs]
  have huv : Aside (· ∈ rxRegs n) u v := by
    rw [hcnt]
    exact .ite (fun _ => aside_cnt u 1 (by simp [rxRegs])) fun _ => .refl _ u
  refine ⟨(hsu.trans huv).trans (hfail.mono henter), hfifo, hstate, fun h => ?_, fun h o ho => ?_⟩
  · have hreg : w.reg (laneBase (.rx n) + 0x44) = v.reg (laneBase (.rx n) + 0x44) := hfail.regs _ (by
      rintro (h | h)
      · simp [oLnStat] at h
      · have h : laneBase (.rx n) + 0x44 = 0x200048 := h
        have := laneBase_ge (.rx n)
        omega)
    rw [h, if_pos rfl] at hcnt
    exact ((hcnt ▸ counted_cnt u _ 1 : Counted u v _ 1).of_reg (hin.aside.regs _ (by simp))).later hreg
  · rw [h, if_neg (by decide)] at hcnt
    simp only [List.mem_cons, List.not_mem_nil, or_false, not_or] at ho
    obtain ⟨h4, h16, hpub⟩ := ho
    rw [hfail.regs o (not_or.2 ⟨h4, hpub⟩), hcnt]
    exact hin.aside.regs o (by simp [h4, h16])

/-- A frame on an RX lane that passes CRC-32C. -/
theorem goodFrame_rx (hin : InFrame (.rx n) s u f) (fr : Frame) {w : State} (hw : w = (u.passed (.rx n)).deliver (.rx n) fr) :
    Aside (· ∈ rxRegs n) s w ∧ w.laneState (.rx n) = 4 ∧
    (s.wdgOn = true → (s.lane (.rx n)).fifo.length < 8 → Counted s w (laneBase (.rx n) + 0x40) 1 ∧
      (fr.ty ≠ 0 → fr.fmtOk = true → (w.lane (.rx n)).fifo = (s.lane (.rx n)).fifo ++ [fr]) ∧
      (fr.ty = 0 → (w.lane (.rx n)).fifo = (s.lane (.rx n)).fifo ∧ Counted s w 0xA00104 1) ∧
      (fr.ty ≠ 0 → fr.fmtOk = false → (w.lane (.rx n)).fifo = (s.lane (.rx n)).fifo ∧ Counted s w 0xA00108 1)) ∧
    (s.wdgOn = true → 8 ≤ (s.lane (.rx n)).fifo.length →
      (w.lane (.rx n)).fifo = (s.lane (.rx n)).fifo ∧ Counted s w (laneBase (.rx n) + 0x48) 1) ∧
    (s.wdgOn = false → (w.lane (.rx n)).fifo = (s.lane (.rx n)).fifo ∧ RegsBut [laneBase (.rx n) + 4, laneBase (.rx n) + 16] s w) := by
  obtain ⟨v, hv⟩ : ∃ v, v = u.passed (.rx n) := ⟨_, rfl⟩
  obtain ⟨haside, hstate, hfifo⟩ := passed_spec rfl hin
  rw [← hv] at hw haside hstate hfifo
  have hreg : ∀ o, o ≠ laneBase (.rx n) + 4 → o ≠ laneBase (.rx n) + 16 → v.reg o = s.reg o := fun o h h' =>
    haside.regs o (by simp [h, h'])
  have hon : v.wdgOn = s.wdgOn := wdgOn_congr (hreg _ (by simp only [laneBase]; omega) (by simp only [laneBase]; omega))
  have hsv : Aside (· ∈ rxRegs n) s v := haside.mono fun o ho => by
    simp only [List.mem_cons, List.not_mem_nil, or_false] at ho
    obtain rfl | rfl := ho <;> simp [rxRegs]
  obtain ⟨hdel, hdst⟩ := aside_deliver (n := n) v fr
  rw [← hw] at hdel hdst
  have hty : ∀ k, k < 0x10 → 0xA00100 + k ≠ laneBase (.rx n) + 0x40 ∧ 0xA00100 + k ≠ laneBase (.rx n) + 4 ∧
      0xA00100 + k ≠ laneBase (.rx n) + 16 := fun k hk => by simp only [laneBase]; omega
  refine ⟨hsv.trans hdel, hdst.trans hstate, fun h hroom => ?_, fun h hfull => ?_, fun h => ?_⟩
  · have hwdg : ∀ k, k < 0x10 → Counted s ((v.cnt (laneBase (.rx n) + 0x40) 1).cnt (0xA00100 + k) 1) (0xA00100 + k) 1 := fun k hk =>
      (counted_cnt_ne v 1 (hty k hk).1.symm).of_reg (hreg _ (hty k hk).2.1 (hty k hk).2.2)
    have hone : Counted s (v.cnt (laneBase (.rx n) + 0x40) 1) (laneBase (.rx n) + 0x40) 1 :=
      (counted_cnt v _ 1).of_reg (hreg _ (by omega) (by omega))
    rw [deliver_room v fr (hon.trans h) (hfifo ▸ hroom)] at hw
    by_cases h0 : fr.ty = 0
    · rw [if_pos h0] at hw
      subst hw
      exact ⟨hone.later (State.reg_cnt_ne _ 1 (hty 4 (by decide)).1.symm), fun h => absurd h0 h, fun _ => ⟨hfifo, hwdg 4 (by decide)⟩,
        fun h => absurd h0 h⟩
    · rw [if_neg h0] at hw
      cases hfmt : fr.fmtOk with
      | false =>
        rw [hfmt, if_pos (by rfl)] at hw
        subst hw
        exact ⟨hone.later (State.reg_cnt_ne _ 1 (hty 8 (by decide)).1.symm), fun _ h => absurd h (by decide), fun h => absurd h h0,
          fun _ _ => ⟨hfifo, hwdg 8 (by decide)⟩⟩
      | true =>
        rw [hfmt, if_neg (by decide)] at hw
        subst hw
        refine ⟨hone, fun _ _ => ?_, fun h => absurd h h0, fun _ h => absurd h (by decide)⟩
        rw [State.setLane_lane, ← hfifo]
  · rw [deliver_full v fr (hon.trans h) (hfifo ▸ hfull)] at hw
    subst hw
    exact ⟨hfifo, (counted_cnt v _ 1).of_reg (hreg _ (by omega) (by omega))⟩
  · rw [deliver_off v fr (hon.trans h)] at hw
    subst hw
    exact ⟨hfifo, haside.regs⟩

end

/-! ### Waoth lanes -/

theorem opens_waoth (n : Nat) : Opens (.w n) s ⟨0, waothFd, 0, 0, [], 1, 0, s.ns, s.sub⟩ := rfl

/-- The blocks of a frame on a Waoth lane come to the frame passed, or failed. -/
theorem blocksIn_waoth {n : Nat} (h2 : 2 ≤ s.laneState (.w n)) (h4 : s.laneState (.w n) ≤ 4) (hnone : (s.lane (.w n)).frm = none)
    {hdr pay : List Byte} (hhdr : hdr.length = 8) (hpay : pay.length = field hdr 2 2) (hdiv : pay.length % 8 = 0) (hmax : pay.length ≤ 4096)
    {crc : Nat} (hcrc : crc < 2 ^ 32) (x y z : Byte) {t : State}
    (ht : t = s.blocksIn (.w n) ([lampBlock] ++ (List.range (1 + pay.length / 8)).map (nthBlock (hdr ++ pay)) ++ [trailer x y z crc])) :
    ∃ w f, InFrame (.w n) s w f ∧ (crc = (crc32c (hdr ++ pay)).toNat → t = w.passed (.w n)) ∧
      (crc ≠ (crc32c (hdr ++ pay)).toNat → t = (w.frameCnt (.w n) 1).frameFailed (.w n)) := by
  have hhead : (hdr ++ pay).take 8 = hdr := by rw [← hhdr]; exact List.take_left
  obtain ⟨w, hin, hend⟩ := blocksIn_frame (h := 1) (p := pay.length / 8) (all := hdr ++ pay) rfl (by simp) h2 h4 hnone
    (opens_waoth (s := s.hdrSeen (.w n) true) n) rfl rfl rfl (by decide) (by rw [hhead, fdGet_waothLen, ← hpay]; omega)
    (by simp [maxPayload, isWLane]; omega) (by rw [List.length_append]; omega) x y z crc
  have hfield := field_trailer x y z hcrc
  refine ⟨w, _, hin, fun hgood => ?_, fun hbad => ?_⟩
  · rw [ht, hend, frameEnd_good (by rw [hfield]; exact hgood)]
    exact if_pos rfl
  · rw [ht, hend, frameEnd_bad (by rw [hfield]; exact hbad)]

/-- A frame on a Waoth lane that fails CRC-32C. -/
theorem badFrame_w {n : Nat} {f : Framing} (hin : InFrame (.w n) s u f) {w : State} (hw : w = (u.frameCnt (.w n) 1).frameFailed (.w n)) :
    Apart s w ∧ MemSame s w ∧ (s.rb 0x600000 31 = true → Counted s w 0x600108 1) ∧
    (s.rb 0x600000 31 = false → w.reg 0x600108 = s.reg 0x600108) ∧
    w.laneState (.w n) = (if s.laneState (.w n) = 4 ∧ (s.lane (.w n)).fails < 3 then 4 else 2) := by
  obtain ⟨v, hv⟩ : ∃ v, v = u.frameCnt (.w n) 1 := ⟨_, rfl⟩
  have hge := laneBase_ge (.w n)
  have hreg : ∀ o < 0x900000, u.reg o = s.reg o := fun o ho => hin.aside.regs o (by simp; omega)
  have hcnt : v = if s.rb 0x600000 31 then u.cnt 0x600108 1 else u := by rw [hv, State.rb, ← hreg _ (by decide)]; rfl
  have hkeep := (laneMove_frameCnt u (.w n) (k := 1) (by decide)).2
  rw [← hv] at hw hkeep
  obtain ⟨hfail, hfifo, hstate⟩ := failed_spec rfl hin hkeep.1 hkeep.2
  rw [← hw] at hfail hfifo hstate
  have hlater : w.reg 0x600108 = v.reg 0x600108 := hfail.regs _ (by
    rintro (h | h)
    · simp only [oLnStat] at h; omega
    · exact h)
  have hall : Aside (fun _ => True) s w := (hin.aside.mono fun _ _ => trivial).trans (.trans (t := v) (by
    rw [hcnt]
    exact .ite (fun _ => aside_cnt u 1 trivial) fun _ => .refl _ u) (hfail.mono fun _ _ => trivial))
  refine ⟨hall.apart, hall.memSame, fun h => ?_, fun h => ?_, hstate⟩
  · rw [h, if_pos rfl] at hcnt
    exact ((hcnt ▸ counted_cnt u _ 1 : Counted u v _ 1).of_reg (hreg _ (by decide))).later hlater
  · rw [h, if_neg (by decide)] at hcnt
    rw [hlater, hcnt, hreg _ (by decide)]

/-! ### The row -/

theorem exec_rxFrameReceived (hon : s.laneOn l = true) (htx : isTxLane l = false) (h0 : s.laneState l ≠ 0) (bs : List Block) :
    exec (.rxFrameReceived l bs) s = .next (s.blocksIn l bs) := by
  have e : exec (.rxFrameReceived l bs) s = execRxFrameReceived l bs s := rfl
  rw [e, execRxFrameReceived]
  exact gate_of _ _ _ (by simp [hon, htx, h0])

/-- Settles O23: the blocks of a frame come to its end with the frame as sent, by induction on the data blocks, and its check decides. -/
theorem framesAreRecoveredFromBlocks : Obligations.FramesAreRecoveredFromBlocks := by
  unfold Obligations.FramesAreRecoveredFromBlocks
  refine ⟨fun s n hdr pay crc a b c hon h2 h4 hfmt hnone hhdr hpay hdiv hmax hcrc => ?_,
    fun s n hdr pay crc hon h2 h4 hnone hhdr hpay hdiv hmax hcrc => ?_, fun s bs hon hok h4 => ?_⟩
  · intro o ty lamp data tail
    obtain ⟨t, ht⟩ : ∃ t, t = s.blocksIn (.rx n) ([lamp] ++ data ++ [tail]) := ⟨_, rfl⟩
    refine ⟨t, ht ▸ exec_rxFrameReceived hon rfl (by omega) _, ?_⟩
    obtain ⟨w, f, hin, hpass, hfail⟩ := blocksIn_native h2 h4 hfmt hnone hhdr hpay hdiv hmax hcrc _ _ _ ht
    by_cases hgood : crc = (crc32c (hdr ++ pay)).toNat
    · obtain ⟨ns, sub, hend⟩ := hpass hgood
      obtain ⟨haside, hstate, hroom, hfull, hoff⟩ := goodFrame_rx hin _ hend
      refine ⟨haside.apart, haside.memSame, haside.regs, fun _ => ⟨hstate, fun hw => ⟨fun hlt => ?_, hfull hw⟩⟩,
        fun h => absurd hgood h, fun hw => ⟨(hoff hw).1, fun r hr => (hoff hw).2 r (mt (fun h => ?_) hr)⟩⟩
      · obtain ⟨hcount, hput, hunknown, hother⟩ := hroom hw hlt
        have hcode : ty ∈ [1, 2, 3] → (if ty ∈ [1, 2, 3] then ty else 0) = ty ∧ ty ≠ 0 := fun h =>
          ⟨if_pos h, by rintro h0; simp [h0] at h⟩
        have hknown : ty ∈ [1, 2, 3] → (if ty ∈ [1, 2, 3] then ty else 0) ≠ 0 := fun h => (hcode h).1.symm ▸ (hcode h).2
        refine ⟨hcount, fun hty hf => ?_, fun hty => hunknown (if_neg hty), fun hty hf => hother (hknown hty) (decide_eq_false hf)⟩
        exact ⟨_, hput (hknown hty) (decide_eq_true hf), (hcode hty).1, rfl, rfl, rfl, rfl, rfl, hpay.symm, rfl, hgood.symm⟩
      · simp only [List.mem_cons, List.not_mem_nil, or_false] at h ⊢
        exact h.imp_right .inl
    · obtain ⟨haside, hfifo, hstate, hcount, hoff⟩ := badFrame_rx hin (hfail hgood)
      exact ⟨haside.apart, haside.memSame, haside.regs, fun h => absurd h hgood, fun _ => ⟨hfifo, hcount, hstate⟩,
        fun hw => ⟨hfifo, hoff hw⟩⟩
  · intro lamp data tail
    obtain ⟨t, ht⟩ : ∃ t, t = s.blocksIn (.w n) ([lamp] ++ data ++ [tail]) := ⟨_, rfl⟩
    refine ⟨t, ht ▸ exec_rxFrameReceived hon rfl (by omega) _, ?_⟩
    obtain ⟨w, f, hin, hpass, hfail⟩ := blocksIn_waoth h2 h4 hnone hhdr hpay hdiv hmax hcrc _ _ _ ht
    by_cases hgood : crc = (crc32c (hdr ++ pay)).toNat
    · obtain ⟨haside, hstate, -⟩ := passed_spec rfl hin
      rw [← hpass hgood] at haside hstate
      have hge := laneBase_ge (.w n)
      exact ⟨haside.apart, haside.memSame, fun _ => ⟨hstate, haside.regs _ (by simp; omega)⟩, fun h => absurd hgood h⟩
    · obtain ⟨hapart, hmem, hcount, hoff, hstate⟩ := badFrame_w hin (hfail hgood)
      exact ⟨hapart, hmem, fun h => absurd h hgood, fun _ => ⟨hcount, hoff, hstate⟩⟩
  · obtain ⟨haside, hstate⟩ := blocksIn_port bs hok h4
    exact ⟨_, exec_rxFrameReceived hon rfl (by omega) bs, haside.apart, haside.memSame, haside.regs, hstate, haside.time⟩

end Sys2Proof.Machine
end

section
/-! PROOF. The control and seed registers of a kiln: what a write of them takes (R98, R104, R349). -/

namespace Sys2Proof.Machine

variable {s : State} {k : Nat} {v : W32}

/-- KLN_CTL and the halves of KLN_SEED. -/
theorem klnCtl_eq (k : Nat) : 0xC20000 + 0x100 * k = oKln k := rfl
theorem klnSeed_eq (k : Nat) (hi : Bool) : 0xC20008 + 0x100 * k + (if hi then 4 else 0) = oKln k + (if hi then 12 else 8) := by
  cases hi <;> simp [oKln] <;> omega

theorem exec_klnCtlWrite (hup : s.up = true) (hk : k < 16) (hst : s.standby = false) : exec (.klnCtlWrite k v) s =
    .next (if (s.kiln k).state ≤ 1 then (s.setRb (oKln k) 0 (bit v 0)).setRb (oKln k) 1 (bit v 1) else s.setRb (oKln k) 0 (bit v 0)) := by
  have e : exec (.klnCtlWrite k v) s = execKlnCtlWrite k v s := rfl
  rw [e, execKlnCtlWrite, writeGate_of (by simpa using hk) hup, if_neg (by simp [hst])]
  rfl

theorem exec_klnCtlWrite_standby (hup : s.up = true) (hk : k < 16) (hst : s.standby = true) : exec (.klnCtlWrite k v) s = .next s := by
  have e : exec (.klnCtlWrite k v) s = execKlnCtlWrite k v s := rfl
  rw [e, execKlnCtlWrite, writeGate_of (by simpa using hk) hup, if_pos hst]

theorem exec_klnSeedWrite (hup : s.up = true) (hk : k < 16) (hi : Bool) : exec (.klnSeedWrite k hi v) s =
    .next (if !s.standby && decide ((s.kiln k).state ≤ 1) then s.setReg (oKln k + (if hi then 12 else 8)) v else s) := by
  have e : exec (.klnSeedWrite k hi v) s = execKlnSeedWrite k hi v s := rfl
  rw [e, execKlnSeedWrite, writeGate_of (by simpa using hk) hup]

/-- Settles O32: a write of KLN_CTL is that of its two bits, of which AUTO goes by the state, and a half of KLN_SEED is written whole. -/
theorem kilnControlsAndSeeds : Obligations.KilnControlsAndSeeds := by
  unfold Obligations.KilnControlsAndSeeds
  intro s k v hup hk
  rw [klnCtl_eq]
  have hself : OnlyRegs [] s s := onlyRegs_of_stores rfl rfl rfl rfl rfl rfl
  have hov : OnlyRegs [oKln k] s (s.setRb (oKln k) 0 (bit v 0)) := hself.setReg _
  refine ⟨fun hst => ⟨_, exec_klnCtlWrite hup hk hst, ?_⟩, fun hi hst hstate => ⟨_, exec_klnSeedWrite hup hk hi, ?_⟩,
    fun hi hno => ⟨_, exec_klnSeedWrite hup hk hi, ?_⟩, fun hst => ⟨_, exec_klnCtlWrite_standby hup hk hst, rfl⟩⟩
  · by_cases hstate : (s.kiln k).state ≤ 1
    · rw [if_pos hstate, if_pos hstate]
      have hboth : OnlyRegs [oKln k] s ((s.setRb (oKln k) 0 (bit v 0)).setRb (oKln k) 1 (bit v 1)) :=
        ⟨hov.1, hov.2.1, fun o ho => (State.reg_setRb_ne _ _ _ (by simpa using ho)).trans (hov.2.2 o ho)⟩
      exact hboth.and ⟨(State.rb_setRb_other _ _ _ (by decide) (by decide)).trans (State.rb_setRb _ _ _ _ (by decide)),
        State.rb_setRb _ _ _ _ (by decide)⟩
    · rw [if_neg hstate, if_neg hstate]
      exact hov.and ⟨State.rb_setRb _ _ _ _ (by decide), State.rb_setRb_other _ _ _ (by decide) (by decide)⟩
  · have htaken : (!s.standby && decide ((s.kiln k).state ≤ 1)) = true := by simp [hst, hstate]
    rw [klnSeed_eq, if_pos htaken]
    exact (hself.setReg v).and (State.reg_setReg _ _ _)
  · refine if_neg ?_
    rcases hno with hst | hstate
    · simp [hst]
    · simp only [Bool.and_eq_true, decide_eq_true_eq]; omega

end Sys2Proof.Machine
end

section
/-! PROOF. A firing's header that is offered behind a record of the holding buffer past the end of memory: the counters of that line's
errors lie on the status of a kiln. -/

namespace Sys2Proof.Machine

/-- A kiln with one integration, of 256 samples, in its lines. -/
def farKiln : KilnPlace := ⟨⟨0, 2, 5, 1, 256, false, false, 1000000⟩, [0, 1], 128, 1, ⟨1, [0], 0, 65536, 131072, 196608⟩, 0⟩

/-- The line at which stack 82 would begin, and the block of the holding buffer that would lie there. -/
def farLine : Nat := 82 * stackBytes
def farHeld : HoldEntry := ⟨.ring 0, (0, 0), 64, [(farLine - State.reset.holdBase) / 64]⟩

/-- A part after reset, with kiln 1 placed and OPEN on ring 0, its integration to close at 256; a record of the ring is held past the
end of memory, in a line with an uncorrectable error. -/
def farClose : State :=
  ({ State.reset.setReg (oRng 0 2) 0x80800000 with
    plc := { PlcSt.init with
      cur := some ⟨⟨0, 0, [], [], [], 0, 0, 0, 0, [], []⟩, 0, [], [(1, farKiln)], [], [], 0, 0, 0, 0, 0, [], 0, 0, []⟩ }
    err := { ErrSt.init with upsets := [⟨0, devQuarter farLine, farLine, 0, true⟩] }
    pair := { PairSt.init with hold := [farHeld] } } : State).setKiln 1
    { Kiln.init with state := 2, pend := [(256, none)], lineNext := [(0, 256)], rings := [0] }

theorem farClose_meets : farClose.up = true ∧ farClose.role ≤ 1 ∧ farClose.placedKiln 1 = some farKiln ∧
    farClose.boundary 1 = some 256 ∧ farClose.pair.closes = [] ∧ farClose.pair.skips = [] ∧ (farClose.kiln 1).live = true ∧
    (farClose.kiln 1).drain = none ∧ (farClose.kiln 1).linesTo farKiln.desc 256 = true ∧ 0 < farKiln.desc.groups ∧
    farClose.pair.reported.groups = [] := by decide +kernel

/-- FIRED is set, and the error that the held record's line is read with is then counted in the same word: 2, where bit 0 is clear. -/
theorem farClose_fired : ∃ t, exec (.kilnBankClose 1 0 0) farClose = .next t ∧ t.rb (0xC20004 + 0x100 * 1) 0 = false :=
  ⟨_, rfl, by decide +kernel⟩

/-- Refutes O30: the header of a firing is offered behind the records held for its ring, and one held past the end of memory, where no
record is placed, is read with an error whose counter, of a quarter 328 that no part has, lies on KLN_STAT of kiln 1: FIRED, just set,
does not show. -/
theorem not_banksCloseAtBoundaries : ¬ Obligations.BanksCloseAtBoundaries := by
  unfold Obligations.BanksCloseAtBoundaries
  intro h
  obtain ⟨hup, hrole, hplaced, hbound, hcloses, hskips, hlive, hdrain, hlines, hgroups, hreported⟩ := farClose_meets
  obtain ⟨-, hclose, -⟩ := h farClose 1 256 farKiln hup (by decide) hrole hplaced hbound hcloses hskips
  have hnone : ∀ e ∈ farClose.pair.reported.groups, e.1 ≠ 1 := by simp [hreported]
  obtain ⟨t, ht, -, -, -, -, -, -, hfired, -⟩ := hclose hlive hdrain hlines hgroups hnone 0 0
  obtain ⟨t', ht', hclear⟩ := farClose_fired
  have same : t = t' := Host.Outcome.next.inj (ht.symm.trans ht')
  exact Bool.false_ne_true ((same ▸ hclear).symm.trans hfired)

end Sys2Proof.Machine
end

section
/-! PROOF. Entries of a conduct queue: what completion, a fault and acceptance change, and the verdicts of R227 and R229. -/

namespace Sys2Proof.Machine

/-! ### The status word (R222) -/

/-- Data memory after a status word. -/
def statusMem (m : List Host.Cell) (st : W16) (outcome detail : Nat) : List Host.Cell :=
  if st.getLsbD 15 then wrLe m (2 * (st.toNat % 32768)) 2 (BitVec.ofNat 16 (256 * outcome + detail)).toNat else m

/-- A status word changes data memory and the upsets that it overwrites. -/
theorem qStatus_only (s : State) (k : Nat) (st : W16) (o d : Nat) :
    ∃ e c, s.qStatus k st o d = { s with err := e, cores := c } := by
  unfold State.qStatus
  split
  · exact ⟨_, _, rfl⟩
  · exact ⟨s.err, s.cores, rfl⟩

theorem core_qStatus (s : State) (k : Nat) (st : W16) (o d : Nat) :
    (s.qStatus k st o d).core k = { s.core k with dmem := statusMem (s.core k).dmem st o d } := by
  unfold State.qStatus statusMem
  split
  · exact State.setCore_core _ _ _
  · rfl

theorem core_qStatus_ne (s : State) {k j : Nat} (st : W16) (o d : Nat) (h : j ≠ k) : (s.qStatus k st o d).core j = s.core j := by
  unfold State.qStatus
  split
  · exact State.setCore_core_ne _ _ _ h
  · rfl

theorem rdLe_wrLe (m : List Host.Cell) (a n v : Nat) : rdLe (wrLe m a n v) a n = v % 256 ^ n := by
  have h := rdBytes_wrBytes m a (leBytes n v)
  rw [length_leBytes] at h
  rw [rdLe, wrLe, h, ofLe_leBytes]

/-- A core whose data memory holds the status word, and that differs in its trap to come at most. -/
theorem qStatus_of_core {s t : State} {k : Nat} {e : QEntry} {o d : Nat} (hd : 256 * o + d < 65536)
    (hmem : (t.core k).dmem = statusMem (s.core k).dmem e.status o d)
    (hrest : { t.core k with dmem := (s.core k).dmem, cfault := (s.core k).cfault } = s.core k) : QStatus s t k e o d := by
  refine ⟨hrest, fun hsw => ?_, fun x hx => ?_⟩
  · rw [hmem, statusMem, if_pos hsw, rdLe_wrLe, BitVec.toNat_ofNat]; omega
  · rw [hmem, statusMem]
    split
    case isTrue hsw =>
      refine rd8_wrBytes_ne _ _ _ _ ?_
      rw [length_leBytes]
      rcases hx with hx | hx | hx
      · exact .inl hx
      · exact .inr hx
      · exact absurd (hsw.symm.trans hx) (by decide)
    case isFalse => rfl

/-! ### What the units of an operation may change beside the queue -/

/-- Nothing changes but registers, kilns, tiles, the placement and the assembly rings. -/
def KilnSide (s t : State) : Prop :=
  ∃ r k p ts a, t = { s with regs := r, kilns := k, plc := p, tiles := ts, asm_ := a }

theorem kilnSide_refl (s : State) : KilnSide s s := ⟨_, _, _, _, _, rfl⟩
theorem KilnSide.trans {s t u : State} (h : KilnSide s t) (h' : KilnSide t u) : KilnSide s u := by
  obtain ⟨_, _, _, _, _, rfl⟩ := h
  obtain ⟨_, _, _, _, _, rfl⟩ := h'
  exact ⟨_, _, _, _, _, rfl⟩

/-- The frame of the conduct machine holds where queues, cores and memories of others stand. -/
theorem qFrame_of_parts {s t : State} {k : Nat} (hp : t.pending = s.pending) (hf : t.fuse = s.fuse) (hh : t.hbm = s.hbm)
    (hc : t.csram = s.csram) (hn : t.host = s.host) (hq : ∀ j, j ≠ k → t.queue j = s.queue j) (hk : ∀ j, j ≠ k → t.core j = s.core j) :
    QFrame s t k :=
  ⟨⟨hp, hf⟩, fun a => ⟨by rw [hh], by rw [hc], by rw [hn]⟩, hq, hk⟩

theorem QDone.kilnSide {s t u : State} {k : Nat} {e : QEntry} {o : Nat} (h : QDone s t k e o) (hu : KilnSide t u)
    (hreg : u.reg (0xF00064 + 0x10000 * k) = t.reg (0xF00064 + 0x10000 * k)) : QDone s u k e o := by
  obtain ⟨hframe, hqueue, hstatus, hfault, hcount⟩ := h
  obtain ⟨_, _, _, _, _, rfl⟩ := hu
  exact ⟨hframe, hqueue, hstatus, hfault, hreg ▸ hcount⟩

theorem QTaken.kilnSide {s t u : State} {k : Nat} {e : QEntry} {l : List Nat} (h : QTaken s t k e l) (hu : KilnSide t u) :
    QTaken s u k e l := by
  obtain ⟨_, _, _, _, _, rfl⟩ := hu
  exact h

/-! ### Completion, fault and acceptance (R221 to R223) -/

section
variable (s : State) (k : Nat) (e : QEntry)

theorem qDone_qFinish {o : Nat} (ho : o < 256) : QDone s (s.qFinish k e o 0) k e o := by
  obtain ⟨er, c, hst⟩ := qStatus_only (s.qPop k) k e.status o 0
  have hcore : ∀ j, (s.qFinish k e o 0).core j = ((s.qPop k).qStatus k e.status o 0).core j := fun _ => rfl
  have hcq : (s.qFinish k e o 0).cq = (s.qPop k).cq := by rw [State.qFinish, hst]; rfl
  have hqueue : ∀ j, (s.qFinish k e o 0).queue j = (s.qPop k).queue j := fun j => by rw [State.queue, hcq]; rfl
  refine ⟨qFrame_of_parts ?_ ?_ ?_ ?_ ?_ (fun j hj => (hqueue j).trans (State.setQueue_queue_ne _ _ _ hj))
    (fun j hj => (hcore j).trans (core_qStatus_ne _ _ _ _ hj)), (hqueue k).trans (State.setQueue_queue _ _ _),
    qStatus_of_core (by omega) ?_ ?_, ?_, ?_⟩
  any_goals (rw [State.qFinish, hst]; rfl)
  · rw [hcore, core_qStatus]; rfl
  · rw [hcore, core_qStatus]; rfl
  · rw [hcore, core_qStatus]; rfl
  · have hoff : oKpr k + 0x60 + 4 * 1 = 0xF00064 + 0x10000 * k := by unfold oKpr; omega
    have hreg : ((s.qPop k).qStatus k e.status o 0).reg = s.reg := by rw [hst]; rfl
    rw [State.qFinish, State.cqCnt, hoff, State.reg_cnt, hreg]

/-- Of what a kiln's operation reads or sets, completion changes COMPLETED. -/
theorem qFinish_stores {o : Nat} : (s.qFinish k e o 0).kilns = s.kilns ∧ (s.qFinish k e o 0).plc = s.plc ∧
    (∀ off, off ≠ 0xF00064 + 0x10000 * k → (s.qFinish k e o 0).reg off = s.reg off) := by
  obtain ⟨er, c, hst⟩ := qStatus_only (s.qPop k) k e.status o 0
  have hoff : oKpr k + 0x60 + 4 * 1 = 0xF00064 + 0x10000 * k := by unfold oKpr; omega
  refine ⟨by rw [State.qFinish, hst]; rfl, by rw [State.qFinish, hst]; rfl, fun off h => ?_⟩
  rw [State.qFinish, State.cqCnt, hoff, State.reg_cnt_ne _ _ h, hst]; rfl

theorem qCancel_empty (h : s.queue k = []) : s.qCancel k = s.setQueue k [] := by
  unfold State.qCancel
  rw [h]
  rfl

theorem qFaulted_qFault {c : Nat} (hc : c < 256) (h : s.queue k = [e]) :
    QFaulted s (s.qFault k e c) k e c ∧ (s.qFault k e c).kilns = s.kilns := by
  obtain ⟨er, cs, hst⟩ := qStatus_only (s.qPop k) k e.status qFaulted c
  have hpop : (s.qPop k).queue k = [] := by rw [State.qPop, State.setQueue_queue, h]; rfl
  have hempty : (((s.qPop k).qStatus k e.status qFaulted c).cqCnt k 2).queue k = [] := by rw [hst]; exact hpop
  have hfault : s.qFault k e c = (((s.qPop k).qStatus k e.status qFaulted c).cqCnt k 2 |>.setQueue k []).setCore k
      { ((s.qPop k).qStatus k e.status qFaulted c).core k with cfault := some (c, e.addr) } := by
    rw [State.qFault, qCancel_empty _ _ hempty]; rfl
  have hcore : ∀ j, j ≠ k → (s.qFault k e c).core j = s.core j := fun j hj => by
    rw [hfault, State.setCore_core_ne _ _ _ hj]; exact core_qStatus_ne _ _ _ _ hj
  have hown : (s.qFault k e c).core k = { s.core k with
      dmem := statusMem (s.core k).dmem e.status qFaulted c, cfault := some (c, e.addr) } := by
    rw [hfault, State.setCore_core, core_qStatus]; rfl
  have hqueue : ∀ j, j ≠ k → (s.qFault k e c).queue j = s.queue j := fun j hj => by
    rw [hfault, State.queue, State.setCore_cq, ← State.queue, State.setQueue_queue_ne _ _ _ hj, hst]
    exact State.setQueue_queue_ne _ _ _ hj
  have hoff : oKpr k + 0x60 + 4 * 2 = 0xF00068 + 0x10000 * k := by unfold oKpr; omega
  have hreg : ∀ off, (s.qFault k e c).reg off = (s.cnt (0xF00068 + 0x10000 * k) 1).reg off := fun off => by
    rw [hfault, hst, State.cqCnt, hoff]; rfl
  refine ⟨⟨qFrame_of_parts ?_ ?_ ?_ ?_ ?_ hqueue hcore, ?_, qStatus_of_core (by omega) ?_ ?_, ?_, fun off ho => ?_, ?_⟩, ?_⟩
  any_goals (rw [hfault, hst]; rfl)
  · rw [hfault]; exact State.setQueue_queue _ _ _
  · rw [hown]; rfl
  · rw [hown]
  · rw [hown]
  · rw [hreg, State.reg_cnt_ne _ _ (by simpa using ho)]
  · rw [hreg, State.reg_cnt]

theorem qTaken_qAccept (l : List Nat) : QTaken s (s.qAccept k e l) k e l :=
  ⟨qFrame_of_parts rfl rfl rfl rfl rfl (fun _ hj => State.setQueue_queue_ne _ _ _ hj) (fun _ _ => rfl),
    State.setQueue_queue _ _ _, rfl, rfl, rfl⟩

end

/-- An operation that completes touches no unit. -/
theorem opDone?_only (s : State) (id : Option Nat) (o : Nat) :
    ∃ r e c q, s.opDone? id o = { s with regs := r, err := e, cores := c, cq := q } := by
  cases id with
  | none => exact ⟨_, _, _, _, rfl⟩
  | some i =>
    rw [State.opDone?, Option.elim_some, State.opDone]
    split
    · next x _ =>
      obtain ⟨er, c, hst⟩ := qStatus_only (s.setCq fun q => { q with ops := q.ops.filter (fun y => y.id != i) }) x.keeper x.status o 0
      rw [hst]
      exact ⟨_, _, _, _, rfl⟩
    · exact ⟨_, _, _, _, rfl⟩

/-! ### Verdicts (R227, R229) -/

theorem judge_go {next : Bool} {pre : List (Bool × Nat)} {given x : Nat} {found : Option Nat} {post : Nat → List (Bool × Nat)}
    (hpre : firstCause pre = none) (hx : (if next then found else some given) = some x) (hpost : firstCause (post x) = none) :
    judge next pre given found post = .go x := by
  simp only [judge, hpre, hx, hpost, Option.elim]

theorem judge_fault {next : Bool} {pre : List (Bool × Nat)} {given c : Nat} {found : Option Nat} {post : Nat → List (Bool × Nat)}
    (hpre : firstCause pre = some c) : judge next pre given found post = .fault c := by simp only [judge, hpre]

/-- The multiple of a step that lies less than a step past a number is that number aligned up. -/
theorem alignUp_eq {a m x : Nat} (hdvd : x % m = 0) (hle : a ≤ x) (hlt : x < a + m) : alignUp a m = x := by
  obtain ⟨c, rfl⟩ := Nat.dvd_of_mod_eq_zero hdvd
  have hm : 0 < m := by omega
  have hc : (a + m - 1) / m = c := by
    refine Nat.div_eq_of_lt_le ?_ ?_
    · rw [Nat.mul_comm]; omega
    · rw [Nat.add_mul, Nat.mul_comm]; omega
  rw [alignUp, divUp, hc, Nat.mul_comm]

/-- The index of R227 is the one the model finds, a multiple of its step at or above the floor. -/
theorem resolved_index {s : State} {e : QEntry} {chans : List (Nat × Nat)} {given margin step low x : Nat}
    (h : Resolved s e chans given margin step low x) :
    (if e.next then (s.safeFrom chans margin).map (fun y => alignUp (max y low) step) else some given) = some x ∧
    x % step = 0 ∧ low ≤ x := by
  rcases h with ⟨hflag, rfl, hmod, hlow⟩ | ⟨hflag, b, hb, hmod, hle, hlt⟩
  · exact ⟨by rw [QEntry.next, hflag]; rfl, hmod, hlow⟩
  · refine ⟨?_, hmod, (le_max_right _ _).trans hle⟩
    rw [QEntry.next, hflag, if_pos rfl, State.safeFrom, hb, Option.map_some, Option.map_some, alignUp_eq hmod hle hlt]

theorem flagsBad_next {e : QEntry} (h : e.word 1 ≤ 1) : e.flagsBad 1 = false := by
  unfold QEntry.flagsBad
  generalize e.word 1 = n at h
  interval_cases n <;> rfl

/-! ### The rows of conduct -/

section
variable {s : State} {k : Nat} {e : QEntry}

theorem prodRow_alone {cop : Nat} (f : State → QEntry → State) (hq : QHead s k e cop 1) (hr : s.role ≤ 1) :
    prodRow k cop s f = .next (f s e) := by
  obtain ⟨hup, hk, hhead, hcop, hstage, -, -⟩ := hq
  have hunit : s.atUnit k cop 1 = some e := by rw [State.atUnit, hhead]; exact if_pos ⟨hcop, hstage⟩
  have hst : s.standby = false := decide_eq_false (by omega)
  rw [prodRow, hunit]
  refine (gate_of _ _ _ ?_).trans (by rw [hst]; rfl)
  simp [hup, hk, State.sagRoom, joined_of_role_le_one hr]

/-- A part that is not ACTIVE sends no item. -/
theorem sendConduct_alone {t : State} (h : t.role ≤ 1) (i : ConductItem) : t.sendConduct i = t := if_neg (by omega)

theorem role_of_reg {s t : State} (h : t.reg 0x600004 = s.reg 0x600004) : t.role = s.role := by
  rw [State.role, State.role, State.rf, State.rf, h]

theorem lookAt_clean (h : s.err.upsets = []) (rs : List Nat) : s.lookAt rs = s :=
  foldl_keeps (P := (· = s)) _ (fun t r _ ht => by subst ht; rw [State.rLook, scan_clean h]; rfl) rfl

end

end Sys2Proof.Machine
end

section
/-! PROOF. OPEN, FIRE and SHUT at their unit (R98 to R100, R105, R109, R220, R223, R227, R229). -/

namespace Sys2Proof.Machine

variable {s : State} {k : Nat} {e : QEntry} {x : Nat}

/-! ### What the effects leave -/

theorem tilesFrom_only (s : State) (ts : List Nat) (x : Nat) : ∃ v, s.tilesFrom ts x = { s with tiles := v } := by
  refine foldl_keeps (P := fun t => ∃ v, t = { s with tiles := v }) _ (fun t i _ ht => ?_) ⟨_, rfl⟩
  obtain ⟨v, rfl⟩ := ht
  dsimp only
  split
  · exact ⟨_, rfl⟩
  · exact ⟨_, rfl⟩

/-- A bank that begins changes its kiln and, with a new layout, the placement. -/
theorem beginBank_kiln (s : State) (k b first : Nat) : KilnSide s (s.beginBank k b first) ∧ (s.beginBank k b first).regs = s.regs ∧
    (s.beginBank k b first).kilns = (s.setKiln k ({ s.kiln k with newLayout := none }.setBank b (s.freshBank k first))).kilns := by
  unfold State.beginBank
  extract_lets
  split
  · exact ⟨⟨_, _, _, _, _, rfl⟩, rfl, rfl⟩
  · exact ⟨⟨_, _, _, _, _, rfl⟩, rfl, rfl⟩

theorem refreshReaders_only (s : State) : ∃ a, s.refreshReaders = { s with asm_ := a } := by
  refine foldl_keeps (P := fun t => ∃ a, t = { s with asm_ := a }) _ (fun t c _ ht => ?_) ⟨_, rfl⟩
  obtain ⟨a, rfl⟩ := ht
  unfold State.freeSlots
  extract_lets
  split
  · exact ⟨_, rfl⟩
  · exact ⟨_, rfl⟩

/-- SHUT gives its kiln an end; beside it only the readers of slots change. -/
theorem shutApply_ends (s : State) (k x : Nat) (op : Option Nat) : KilnSide s (s.shutApply k x op) ∧
    (s.shutApply k x op).regs = s.regs ∧ (s.shutApply k x op).kilns = (s.setKiln k { s.kiln k with endAt := some (x, op) }).kilns := by
  obtain ⟨a, ha⟩ := refreshReaders_only (s.setKiln k { s.kiln k with endAt := some (x, op) })
  rw [State.shutApply, ha]
  exact ⟨⟨_, _, _, _, _, rfl⟩, rfl, rfl⟩

/-- What OPEN makes of its kiln: bank A accumulates from x with sequence 0, into the ring set, with no boundary and no drain. -/
def OpensAt (v : Kiln) (x : Nat) (rings : List Nat) : Prop :=
  v.state = 2 ∧ v.s0 = x ∧ v.bank = 0 ∧ v.a.first = x ∧ v.rings = rings ∧ v.pend = [] ∧ v.endAt = none ∧ v.seq = 0 ∧ v.drain = none

/-- The kiln as OPEN finds it for bank A to begin: all else but its key, layout to come and task as after a reset. -/
def openFresh (s : State) (k x : Nat) (rings : List Nat) (seed : W64) : State :=
  let v := s.kiln k
  s.setKiln k { Kiln.init with state := 2, s0 := x, rings, seed, key := v.key, newLayout := v.newLayout, task := v.task }

theorem openApply_eq (s : State) (k x : Nat) (rings : List Nat) (seed : W64) : s.openApply k x rings seed =
    (((openFresh s k x rings seed).beginBank k 0 x).setReg (oKln k + 0x30) 0).tilesFrom
      ((openFresh s k x rings seed).kilnTiles k) x := rfl

theorem openApply_opens (s : State) (k x : Nat) (rings : List Nat) (seed : W64) :
    KilnSide s (s.openApply k x rings seed) ∧ OpensAt ((s.openApply k x rings seed).kiln k) x rings ∧
    (∀ i, i ≠ k → (s.openApply k x rings seed).kiln i = s.kiln i) ∧
    ∀ off, off ≠ oKln k + 0x30 → (s.openApply k x rings seed).reg off = s.reg off := by
  rw [openApply_eq]
  obtain ⟨u, hu⟩ : ∃ u, openFresh s k x rings seed = u := ⟨_, rfl⟩
  have hside : KilnSide s u := hu ▸ ⟨_, _, _, _, _, rfl⟩
  have hreg : u.regs = s.regs := hu ▸ rfl
  obtain ⟨hbank, hregs, hkilns⟩ := beginBank_kiln u k 0 x
  rw [hu]
  generalize u.beginBank k 0 x = w at *
  obtain ⟨ts, htiles⟩ := tilesFrom_only (w.setReg (oKln k + 0x30) 0) (u.kilnTiles k) x
  have hkiln : ∀ i, ((w.setReg (oKln k + 0x30) 0).tilesFrom (u.kilnTiles k) x).kiln i =
      (u.setKiln k ({ u.kiln k with newLayout := none }.setBank 0 (u.freshBank k x))).kiln i := fun i => by
    rw [htiles, State.kiln, State.kiln, ← hkilns]; rfl
  refine ⟨(hside.trans hbank).trans (htiles ▸ ⟨_, _, _, _, _, rfl⟩), ?_, fun i hi => ?_, fun off ho => ?_⟩
  · rw [hkiln, State.setKiln_kiln, ← hu, openFresh, State.setKiln_kiln]
    exact ⟨rfl, rfl, rfl, rfl, rfl, rfl, rfl, rfl, rfl⟩
  · rw [hkiln, State.setKiln_kiln_ne _ _ _ hi, ← hu]
    exact State.setKiln_kiln_ne s k _ hi
  · rw [htiles]
    calc ((w.setReg (oKln k + 0x30) 0).reg off) = w.reg off := State.reg_setReg_ne _ _ ho
      _ = s.reg off := by rw [State.reg, State.reg, hregs, hreg]

/-! ### The verdicts -/

theorem mem_ringSet {first n r : Nat} (hn : n ≤ 4) : r ∈ ringSet first n ↔ r ∈ (List.range (2 ^ n)).map (first + ·) := by
  rw [ringSet, min_eq_right hn]

/-- A ring set serves kiln j: FORMAT 0 and its size, and no other kiln that is open has a ring of it (R109). -/
def RingsServe (s : State) (j : Nat) (rings : List Nat) : Prop :=
  ∀ r ∈ rings, r < s.nRings ∧ s.rFmt r = 0 ∧ 1024 ≤ s.rSize r ∧ (∀ i < 16, i ≠ j → 2 ≤ (s.kiln i).state → r ∉ (s.kiln i).rings)

theorem ringServes_of {j : Nat} {rings : List Nat} (h : RingsServe s j rings) {r : Nat} (hr : r ∈ rings) : s.ringServes j r = true := by
  obtain ⟨hlt, hfmt, hsize, hfree⟩ := h r hr
  have hall : ∀ i < 16, i = j ∨ (s.kiln i).state ≤ 1 ∨ r ∉ (s.kiln i).rings := fun i hi => by
    by_cases hj : i = j
    · exact .inl hj
    · by_cases hst : (s.kiln i).state ≤ 1
      · exact .inr (.inl hst)
      · exact .inr (.inr (hfree i hi hj (by omega)))
  simpa [State.ringServes, hlt, hfmt, hsize, or_assoc] using hall

theorem openJudge_go (hj : e.word 2 ≤ 15) (hflags : e.word 1 ≤ 1) (hst : (s.kiln (e.word 2)).state = 1) (hn : e.word 4 ≤ 4)
    (hserves : RingsServe s (e.word 2) ((List.range (2 ^ e.word 4)).map (e.word 3 + ·)))
    (hlate : ∀ b, s.lastReleased (s.kilnChans (e.word 2)) = some b → b < x / 128)
    (hx : Resolved s e (s.kilnChans (e.word 2)) (e.words 5 3) (e.word 8) (s.kilnG (e.word 2)) 0 x) : s.openJudge e = .go x := by
  obtain ⟨hfound, hmod, -⟩ := resolved_index hx
  have hlast : e.word 3 + (2 ^ e.word 4 - 1) < s.nRings :=
    (hserves _ (List.mem_map.2 ⟨2 ^ e.word 4 - 1, List.mem_range.2 (by have := Nat.two_pow_pos (e.word 4); omega), rfl⟩)).1
  have hall : (ringSet (e.word 3) (e.word 4)).all (s.ringServes (e.word 2)) = true :=
    List.all_eq_true.2 fun r hr => ringServes_of hserves ((mem_ringSet hn).1 hr)
  have hpast : (s.lastReleased (s.kilnChans (e.word 2))).elim false (fun b => decide (x / 128 ≤ b)) = false := by
    cases h : s.lastReleased (s.kilnChans (e.word 2)) with
    | none => rfl
    | some b => exact decide_eq_false (by have := hlate b h; omega)
  refine judge_go ?_ (by simpa using hfound) ?_
  · have hpow := Nat.two_pow_pos (e.word 4)
    have h1 : ¬ 15 < e.word 2 := by omega
    have h2 : ¬ 4 < e.word 4 := by omega
    have h3 : ¬ s.nRings < e.word 3 + 2 ^ e.word 4 := by omega
    simp [firstCause, State.openPre, flagsBad_next hflags, h1, h2, h3, hst, hall]
  · simp [firstCause, State.openPost, hmod, hpast]

theorem openJudge_state (hj : e.word 2 ≤ 15) (hflags : e.word 1 ≤ 1) (hst : (s.kiln (e.word 2)).state ≠ 1) (hn : e.word 4 ≤ 4)
    (hrings : e.word 3 + 2 ^ e.word 4 ≤ s.nRings) : s.openJudge e = .fault 2 := by
  have h1 : ¬ 15 < e.word 2 := by omega
  have h2 : ¬ 4 < e.word 4 := by omega
  have h3 : ¬ s.nRings < e.word 3 + 2 ^ e.word 4 := by omega
  exact judge_fault (by simp [firstCause, State.openPre, flagsBad_next hflags, h1, h2, h3, hst])

/-- An index past all that the kiln is busy with passes ALIGN, ORDER and LATE (R100). -/
theorem firePost_none {j : Nat} (hmod : x % s.kilnG j = 0) (hx : (s.kiln j).busyTo + 1 ≤ x) : firstCause (s.firePost j x) = none := by
  obtain ⟨hstart, hpend⟩ := le_foldl_max ((s.kiln j).pend.map (·.1))
    (max ((s.kiln j).bankOf (s.kiln j).bank).first ((s.kiln j).taken.getD 0))
  have hfirst : ¬ x ≤ ((s.kiln j).bankOf (s.kiln j).bank).first := by
    have := (le_max_left _ _).trans hstart; unfold Kiln.busyTo at hx; omega
  have hany : (s.kiln j).pend.any (fun e => decide (x ≤ e.1)) = false := by
    refine List.any_eq_false.2 fun e he => ?_
    have := hpend e.1 (List.mem_map.2 ⟨e, he, rfl⟩)
    unfold Kiln.busyTo at hx
    simp only [decide_eq_true_eq]; omega
  have htaken : (s.kiln j).taken.elim false (fun t => decide (x ≤ t)) = false := by
    cases h : (s.kiln j).taken with
    | none => rfl
    | some t =>
      have := (le_max_right _ _).trans hstart
      rw [h, Option.getD_some] at this
      refine decide_eq_false ?_
      unfold Kiln.busyTo at hx; rw [h, Option.getD_some] at hx; omega
  simp [firstCause, State.firePost, hmod, hfirst, hany, htaken]

theorem steady_of {v : Kiln} (hst : v.state = 2 ∨ v.state = 3) (hend : v.endAt = none) : v.steady = true := by
  rcases hst with h | h <;> simp [Kiln.steady, Kiln.live, h, hend]

theorem not_steady_of {v : Kiln} (h : v.state ≠ 2 ∧ v.state ≠ 3 ∨ v.endAt ≠ none) : v.steady = false := by
  rcases h with ⟨h2, h3⟩ | hend
  · simp [Kiln.steady, Kiln.live, h2, h3]
  · cases he : v.endAt with
    | none => exact absurd he hend
    | some y => simp [Kiln.steady, he]

theorem fireJudge_go (hj : e.word 2 ≤ 15) (hflags : e.word 1 ≤ 1) (hsteady : (s.kiln (e.word 2)).steady = true)
    (hauto : s.auto (e.word 2) = false) (hpend : (s.kiln (e.word 2)).pend.length < 4)
    (hx : Resolved s e (s.kilnChans (e.word 2)) (e.words 3 3) (e.word 6) (s.kilnG (e.word 2)) ((s.kiln (e.word 2)).busyTo + 1) x) :
    s.fireJudge e = .go x := by
  obtain ⟨hfound, hmod, hlow⟩ := resolved_index hx
  have h1 : ¬ 15 < e.word 2 := by omega
  exact judge_go (by simp [firstCause, State.firePre, flagsBad_next hflags, h1, hsteady, hauto, hpend]) hfound (firePost_none hmod hlow)

theorem fireJudge_state (hj : e.word 2 ≤ 15) (hflags : e.word 1 ≤ 1) (hsteady : (s.kiln (e.word 2)).steady = false) :
    s.fireJudge e = .fault 2 := by
  have h1 : ¬ 15 < e.word 2 := by omega
  exact judge_fault (by simp [firstCause, State.firePre, flagsBad_next hflags, h1, hsteady])

theorem fireJudge_auto (hj : e.word 2 ≤ 15) (hflags : e.word 1 ≤ 1) (hsteady : (s.kiln (e.word 2)).steady = true)
    (hauto : s.auto (e.word 2) = true) : s.fireJudge e = .fault 7 := by
  have h1 : ¬ 15 < e.word 2 := by omega
  exact judge_fault (by simp [firstCause, State.firePre, flagsBad_next hflags, h1, hsteady, hauto])

theorem shutJudge_placed (hj : e.word 2 ≤ 15) (hflags : e.word 1 ≤ 1) (hst : (s.kiln (e.word 2)).state = 1) : s.shutJudge e = .go 0 := by
  have h1 : ¬ 15 < e.word 2 := by omega
  rw [State.shutJudge, if_pos hst]
  exact judge_go (by simp [firstCause, State.shutPre, flagsBad_next hflags, h1, hst]) rfl rfl

theorem shutJudge_go (hj : e.word 2 ≤ 15) (hflags : e.word 1 ≤ 1) (hst : (s.kiln (e.word 2)).state ≠ 1)
    (hsteady : (s.kiln (e.word 2)).steady = true) (hauto : s.auto (e.word 2) = false)
    (hx : Resolved s e (s.kilnChans (e.word 2)) (e.words 3 3) (e.word 6) (s.kilnG (e.word 2)) ((s.kiln (e.word 2)).busyTo + 1) x) :
    s.shutJudge e = .go x := by
  obtain ⟨hfound, hmod, hlow⟩ := resolved_index hx
  have h1 : ¬ 15 < e.word 2 := by omega
  rw [State.shutJudge, if_neg hst]
  refine judge_go (by simp [firstCause, State.shutPre, flagsBad_next hflags, h1, hsteady]) ?_ (firePost_none hmod hlow)
  simpa [State.shutFound, hauto] using hfound

theorem shutJudge_state (hj : e.word 2 ≤ 15) (hflags : e.word 1 ≤ 1) (hst : (s.kiln (e.word 2)).state ≠ 1)
    (hsteady : (s.kiln (e.word 2)).steady = false) : s.shutJudge e = .fault 2 := by
  have h1 : ¬ 15 < e.word 2 := by omega
  rw [State.shutJudge, if_neg hst]
  exact judge_fault (by simp [firstCause, State.shutPre, flagsBad_next hflags, h1, hsteady, hst])

/-! ### Acceptance -/

theorem acceptOpen_fault {c : Nat} (hups : s.err.upsets = []) (h : s.openJudge e = .fault c) : s.acceptOpen k e = s.qFault k e c := by
  rw [State.acceptOpen, lookAt_clean hups, h]; rfl

/-- An OPEN accepted by a part that stands alone: it completes, and its kiln opens at the index. -/
theorem acceptOpen_go (hr : s.role ≤ 1) (hk : k < 8) (hups : s.err.upsets = []) (hj : e.word 2 ≤ 15) (h : s.openJudge e = .go x) :
    QDone s (s.acceptOpen k e) k e 1 ∧ OpensAt ((s.acceptOpen k e).kiln (e.word 2)) x (ringSet (e.word 3) (e.word 4)) ∧
    ∀ i, i ≠ e.word 2 → (s.acceptOpen k e).kiln i = s.kiln i := by
  obtain ⟨hkilns, -, hregs⟩ := qFinish_stores s k e (o := qDone)
  obtain ⟨hside, hopens, hothers, hregs'⟩ := openApply_opens (s.qFinish k e qDone 0) (e.word 2) x (ringSet (e.word 3) (e.word 4))
    (BitVec.ofNat 64 (s.reg64 (oKln (e.word 2) + 8)))
  have hrole : ((s.qFinish k e qDone 0).openApply (e.word 2) x (ringSet (e.word 3) (e.word 4))
      (BitVec.ofNat 64 (s.reg64 (oKln (e.word 2) + 8)))).role = s.role :=
    role_of_reg ((hregs' _ (by unfold oKln; omega)).trans (hregs _ (by omega)))
  have haccept : s.acceptOpen k e = (s.qFinish k e qDone 0).openApply (e.word 2) x (ringSet (e.word 3) (e.word 4))
      (BitVec.ofNat 64 (s.reg64 (oKln (e.word 2) + 8))) := by
    rw [State.acceptOpen, lookAt_clean hups, h]
    exact sendConduct_alone (hrole ▸ hr) _
  rw [haccept]
  refine ⟨(qDone_qFinish s k e (by decide)).kilnSide hside (hregs' _ (by unfold oKln; omega)), hopens, fun i hi => (hothers i hi).trans ?_⟩
  rw [State.kiln, State.kiln, hkilns]

theorem acceptFire_go (hr : s.role ≤ 1) (h : s.fireJudge e = .go x) :
    s.acceptFire k e = (s.qAccept k e [e.word 2]).fireApply (e.word 2) x 0 (some s.cq.nextOp) := by
  rw [State.acceptFire, h]
  exact sendConduct_alone (t := (s.qAccept k e [e.word 2]).fireApply (e.word 2) x 0 (some s.cq.nextOp)) hr _

theorem acceptShut_placed (hr : s.role ≤ 1) (hst : (s.kiln (e.word 2)).state = 1) (h : s.shutJudge e = .go x) :
    s.acceptShut k e = (s.qFinish k e qDone 0).shutIdle (e.word 2) := by
  have hrole : ((s.qFinish k e qDone 0).shutIdle (e.word 2)).role = s.role :=
    role_of_reg ((qFinish_stores s k e).2.2 0x600004 (by omega))
  rw [State.acceptShut, h]
  dsimp only [State.settle]
  rw [if_pos hst]
  exact sendConduct_alone (hrole ▸ hr) _

theorem acceptShut_go (hr : s.role ≤ 1) (hst : (s.kiln (e.word 2)).state ≠ 1) (h : s.shutJudge e = .go x) :
    s.acceptShut k e = (s.qAccept k e [e.word 2]).shutApply (e.word 2) x (some s.cq.nextOp) := by
  have hrole : ((s.qAccept k e [e.word 2]).shutApply (e.word 2) x (some s.cq.nextOp)).role = s.role :=
    role_of_reg (by rw [State.reg, (shutApply_ends _ _ _ _).2.1]; rfl)
  rw [State.acceptShut, h]
  dsimp only [State.settle]
  rw [if_neg hst]
  exact sendConduct_alone (hrole ▸ hr) _

/-- A NEXT that waited goes on once the part's operations are no log's and its wait is over. -/
theorem execNextResolve_open (hr : s.role ≤ 1) (hq : QHead s k e 2 3) (hlog : s.followLog k = []) :
    execNextResolve k none s = if (s.lastReleased (s.kilnChans (e.word 2))).isSome then .next (s.acceptOpen k e) else .next s := by
  obtain ⟨hup, hk, hhead, hcop, hstage, -, -⟩ := hq
  have hst : s.standby = false := decide_eq_false (by omega)
  have hover : s.waitOver e = (s.lastReleased (s.kilnChans (e.word 2))).isSome := by
    rw [State.waitOver, hcop]; exact Option.isSome_map
  rw [execNextResolve, hlog, hst, hhead]
  simp only [Bool.not_false, List.isEmpty_nil, Bool.not_true, Bool.and_false, Bool.false_eq_true, if_false, hcop]
  rw [hover]
  split
  case isTrue h =>
    refine (gate_of _ _ _ ?_).trans (by rw [hst]; rfl)
    simp [hup, hk, hstage, State.sagRoom, joined_of_role_le_one hr, h]
  case isFalse h =>
    refine gate_not _ _ _ ?_
    simp only [Bool.not_eq_true] at h
    simp [h]

/-- Settles O53: each row is the acceptance of its operation, whose verdict the checks of R229 give, and the effects are those of the
kiln and of the queue. -/
theorem conductActsOnKilns : Obligations.ConductActsOnKilns := by
  unfold Obligations.ConductActsOnKilns
  intro s k e x j v chans rings lone serves opens others
  refine ⟨fun hlone hst hn hserves hlate => ?_, fun hlone hq hst hn hrings hone => ?_, fun hlone hq => ⟨fun hst hend hauto hpend hx => ?_,
    fun hone => ⟨fun hno => ?_, fun hst hend hauto => ?_⟩⟩, fun hlone hq => ⟨fun hst => ?_, fun hst hend hauto hx => ?_, fun hone hno => ?_⟩⟩
  all_goals obtain ⟨hrole, hj, hflags, -⟩ := hlone
  · have hopens : ∀ stage, QHead s k e 2 stage → Resolved s e chans (e.words 5 3) (e.word 8) (s.kilnG j) 0 x → opens (s.acceptOpen k e) := by
      intro stage hq hx
      obtain ⟨-, hk, -, -, -, -, hups⟩ := hq
      obtain ⟨hdone, ⟨h1, h2, h3, h4, h5, h6, h7, h8, h9⟩, hothers⟩ :=
        acceptOpen_go hrole hk hups hj (openJudge_go hj hflags hst hn hserves hlate hx)
      rw [ringSet, min_eq_right hn] at h5
      exact ⟨hdone, h1, h2, h3, h4, h5, h6, h7, h8, h9, hothers⟩
    refine ⟨fun hq hx => ⟨_, prodRow_alone _ hq hrole, hopens 1 hq hx⟩, fun hq hflag hlog hx => ⟨_, ?_, hopens 3 hq hx⟩,
      fun hq hlog hnone => ⟨s, ?_, rfl⟩⟩
    · have hsome : (s.lastReleased (s.kilnChans (e.word 2))).isSome = true := by
        rcases hx with ⟨hno, -⟩ | ⟨-, b, hb, -⟩
        · exact absurd (hno.symm.trans hflag) (by decide)
        · exact Option.isSome_iff_exists.2 ⟨b, hb⟩
      exact (execNextResolve_open hrole hq hlog).trans (if_pos hsome)
    · have hno : ¬ (s.lastReleased (s.kilnChans (e.word 2))).isSome = true := by rw [hnone]; decide
      exact (execNextResolve_open hrole hq hlog).trans (if_neg hno)
  · refine ⟨_, prodRow_alone _ hq hrole, ?_⟩
    rw [acceptOpen_fault hq.2.2.2.2.2.2 (openJudge_state hj hflags hst hn hrings)]
    exact qFaulted_qFault s k e (by decide) hone
  · refine ⟨_, prodRow_alone _ hq hrole, ?_⟩
    rw [acceptFire_go hrole (fireJudge_go hj hflags (steady_of hst hend) hauto hpend hx)]
    refine ⟨(qTaken_qAccept s k e [j]).kilnSide ⟨_, _, _, _, _, rfl⟩, ⟨fun _ _ => rfl, fun i hi => State.setKiln_kiln_ne _ _ _ hi⟩, ?_⟩
    rw [State.fireApply, State.setKiln_kiln]; rfl
  · refine ⟨_, prodRow_alone _ hq hrole, ?_⟩
    rw [State.acceptFire, fireJudge_state hj hflags (not_steady_of hno)]
    exact qFaulted_qFault s k e (by decide) hone
  · refine ⟨_, prodRow_alone _ hq hrole, ?_⟩
    rw [State.acceptFire, fireJudge_auto hj hflags (steady_of hst hend) hauto]
    exact qFaulted_qFault s k e (by decide) hone
  · refine ⟨_, prodRow_alone _ hq hrole, ?_⟩
    obtain ⟨hkilns, -, -⟩ := qFinish_stores s k e (o := qDone)
    rw [acceptShut_placed hrole hst (shutJudge_placed hj hflags hst)]
    refine ⟨(qDone_qFinish s k e (by decide)).kilnSide ⟨_, _, _, _, _, rfl⟩ rfl, ?_, fun i hi => ?_⟩
    · rw [State.shutIdle, State.setKiln_kiln, State.kiln, hkilns]; rfl
    · rw [State.shutIdle, State.setKiln_kiln_ne _ _ _ hi, State.kiln, hkilns]; rfl
  · have hne : v.state ≠ 1 := by omega
    refine ⟨_, prodRow_alone _ hq hrole, ?_⟩
    rw [acceptShut_go hrole hne (shutJudge_go hj hflags hne (steady_of hst hend) hauto hx)]
    obtain ⟨hside, hregs, hkilns⟩ := shutApply_ends (s.qAccept k e [j]) j x (some s.cq.nextOp)
    refine ⟨(qTaken_qAccept s k e [j]).kilnSide hside, ⟨fun o _ => ?_, fun i hi => ?_⟩, ?_⟩
    · rw [State.reg, hregs]; rfl
    · rw [State.kiln, hkilns]
      exact State.setKiln_kiln_ne (s.qAccept k e [j]) j _ hi
    · rw [State.kiln, hkilns]
      exact State.setKiln_kiln (s.qAccept k e [j]) j _
  · refine ⟨_, prodRow_alone _ hq hrole, ?_⟩
    have hboth : v.state ≠ 1 ∧ v.steady = false := by
      rcases hno with h | h | ⟨hend, h⟩
      · exact ⟨by omega, not_steady_of (.inl ⟨by omega, by omega⟩)⟩
      · exact ⟨by omega, not_steady_of (.inl ⟨by omega, by omega⟩)⟩
      · exact ⟨h, not_steady_of (.inr hend)⟩
    rw [State.acceptShut, shutJudge_state hj hflags hboth.1 hboth.2]
    exact qFaulted_qFault s k e (by decide) hone

end Sys2Proof.Machine
end

section
/-! PROOF. The records of a drain: their bytes, their place in a ring with room, and the end of the drain (R102, R105, R110, R113, R115,
R116, R120). -/

namespace Sys2Proof.Machine

/-! ### Numbers laid out in a record -/

/-- A number laid out behind `o` bytes reads back. -/
theorem field_of_append {pre post b : List Byte} {o n v : Nat} (h : b = pre ++ leBytes n v ++ post) (ho : pre.length = o) :
    field b o n = v % 256 ^ n := by
  have htake : (leBytes n v ++ post).take n = leBytes n v := by
    have := List.take_left (l₁ := leBytes n v) (l₂ := post)
    rwa [length_leBytes] at this
  rw [field, h, List.append_assoc, ← ho, List.drop_left, htake, ofLe_leBytes]

/-- A field of bytes written is what a read at its place gives. -/
theorem rdLe_wrBytes (m : List Host.Cell) (a : Nat) (b : List Byte) {o n : Nat} (h : o + n ≤ b.length) :
    rdLe (wrBytes m a b) (a + o) n = field b o n := by
  rw [rdLe, ← take_drop_rdBytes _ _ h, rdBytes_wrBytes, field]

theorem length_firingCommon (ty k len seq rseq claim i l : Nat) : (firingCommon ty k len seq rseq claim i l).length = 16 := by
  simp [firingCommon]

theorem length_poison8 (l : List Nat) : (poison8 l).length = 32 := by
  rw [poison8, length_flatMap_const (k := 4) (fun x => length_leBytes 4 x)]
  simp; omega

theorem length_completionBytes (d : Drain) (i : Nat) : (completionBytes d i).length = 112 := by
  simp [completionBytes, length_poison8]

section
variable (ty k len seq rseq claim i l : Nat) (body : List Byte)

/-- The common part of a firing record reads back (R113). -/
theorem field_firingCommon : let b := firingCommon ty k len seq rseq claim i l ++ body
    field b 0 1 = ty % 256 ∧ field b 1 1 = k % 256 ∧ field b 2 2 = len % 65536 ∧ field b 4 4 = seq % 2 ^ 32 ∧
    field b 8 4 = rseq % 2 ^ 32 := by
  intro b
  have hb : b = leBytes 1 ty ++ (leBytes 1 k ++ (leBytes 2 len ++ (leBytes 4 seq ++ (leBytes 4 rseq ++ (leBytes 2 claim
      ++ (leBytes 1 (i + 16 * l) ++ ([0#8] ++ body))))))) := by simp [b, firingCommon]
  refine ⟨?_, ?_, ?_, ?_, ?_⟩
  · exact field_of_append (pre := []) hb rfl
  · exact field_of_append (pre := leBytes 1 ty) (by rw [hb]; simp only [List.append_assoc]; rfl) (by simp)
  · exact field_of_append (pre := leBytes 1 ty ++ leBytes 1 k) (by rw [hb]; simp only [List.append_assoc]; rfl) (by simp)
  · exact field_of_append (pre := leBytes 1 ty ++ leBytes 1 k ++ leBytes 2 len) (by rw [hb]; simp only [List.append_assoc]; rfl) (by simp)
  · exact field_of_append (pre := leBytes 1 ty ++ leBytes 1 k ++ leBytes 2 len ++ leBytes 4 seq) (by rw [hb]; simp only [List.append_assoc]; rfl) (by simp)

/-- A number behind the common part and `pre`. -/
theorem field_firingBody {pre post : List Byte} {n v o : Nat} (h : body = pre ++ leBytes n v ++ post) (ho : 16 + pre.length = o) :
    field (firingCommon ty k len seq rseq claim i l ++ body) o n = v % 256 ^ n :=
  field_of_append (pre := firingCommon ty k len seq rseq claim i l ++ pre) (by rw [h]; simp only [List.append_assoc]; rfl) (by simp [length_firingCommon, ho])

end

/-! ### A record placed (R113, R247, R248) -/

section
variable {s : State} {r : Nat}

/-- Ring r takes records: enabled, with no upset in its context, nothing held and nothing lost of it, and the part emits. -/
structure RingTakes (s : State) (r : Nat) : Prop where
  ups : s.err.upsets = []
  hold : s.pair.hold = []
  lost : (s.rng r).lost = []
  en : s.rEn r = true
  role : s.role ≤ 1
  foghorn : s.foghorn = false

theorem RingTakes.emits (h : RingTakes s r) : s.emits = true := by
  have := h.role
  simp [State.emits, h.foghorn]; omega

theorem rLook_clean (h : s.err.upsets = []) (r : Nat) : s.rLook r = s := by rw [State.rLook, scan_clean h]; rfl

theorem flushHeld_none (h : RingTakes s r) : s.flushHeld r = s := by
  rw [State.flushHeld, rLook_clean h.ups, h.hold]; rfl

theorem offerAs_written (h : RingTakes s r) (who : Offerer) (store : Bool) {len extra : Nat} (hroom : len + extra ≤ s.rFree r)
    (mk : Nat → Nat → List Byte) : s.offerAs r who true store len extra mk =
      (.written, ((s.rPut r (s.rng r).rseq (mk (s.rng r).rseq s.claim)).rCount r).rServed r who) := by
  have hlost : ¬ (s.rng r).lost.contains who = true := by simp [h.lost]
  have hen : ¬ (!s.rEn r) = true := by simp [h.en]
  simp only [State.offerAs, rLook_clean h.ups, if_neg hlost, h.emits, Bool.and_true, if_true, flushHeld_none h]
  simp only [h.hold, List.any_nil, Bool.and_false, Bool.not_true, Bool.false_eq_true, if_false]
  rw [if_neg hen, if_pos hroom]

/-- A ring's position and the bytes of a record there. -/
def ringAt (s : State) (r : Nat) : Nat := s.rBase r + (s.rng r).head % s.rSize r * 64

/-- A record of `b` has been placed in ring r: RSEQ and PROD move on, and beside the ring, what the pair keeps of it and the state of the
memory controllers only the bytes of the record change. -/
def Placed (s t : State) (r : Nat) (b : List Byte) : Prop :=
  (∃ l p m, t = { s with host := wrBytes s.host (ringAt s r) b, link := l, pair := p, mem := m }) ∧
  (t.rng r).rseq = ((s.rng r).rseq + 1) % 2 ^ 32 ∧ (t.rng r).head = ((s.rng r).head + b.length / 64) % 2 ^ 32

theorem rWrite_fits {x : Nat} {b : List Byte} (h : x % s.rSize r * 64 + b.length ≤ s.rSize r * 64) :
    s.rWrite r x b = { s with host := wrBytes s.host (s.rBase r + x % s.rSize r * 64) b } := by
  have htake : b.take (s.rSize r * 64 - x % s.rSize r * 64) = b := List.take_of_length_le (by omega)
  have hdrop : b.drop (s.rSize r * 64 - x % s.rSize r * 64) = [] := List.drop_of_length_le (by omega)
  rw [State.rWrite]
  simp only [htake, hdrop]
  rfl

theorem rPut_fits (rseq : Nat) {b : List Byte} (h : (s.rng r).head % s.rSize r * 64 + b.length ≤ s.rSize r * 64) :
    (∃ l p, s.rPut r rseq b = { s with host := wrBytes s.host (ringAt s r) b, link := l, pair := p }) ∧
    ((s.rPut r rseq b).rng r).rseq = (s.rng r).rseq ∧ ((s.rPut r rseq b).rng r).head = ((s.rng r).head + b.length / 64) % 2 ^ 32 := by
  unfold State.rPut
  extract_lets d w u
  have hw : w = { s with host := wrBytes s.host (ringAt s r) b } := rWrite_fits h
  have hrseq : (u.rng r).rseq = d.rseq := (congrArg RingDyn.rseq (State.setRng_rng w r _)).trans rfl
  have hhead : (u.rng r).head = (d.head + b.length / 64) % 2 ^ 32 := (congrArg RingDyn.head (State.setRng_rng w r _)).trans rfl
  have hu : ∃ l, u = { s with host := wrBytes s.host (ringAt s r) b, link := l } := ⟨u.link, by
    rw [show u = { w with link := u.link } from rfl, hw]⟩
  obtain ⟨l, hl⟩ := hu
  split
  · exact ⟨⟨l, _, by rw [hl]⟩, hrseq, hhead⟩
  · exact ⟨⟨l, _, by rw [hl]⟩, hrseq, hhead⟩

theorem placed_written (who : Offerer) (rseq : Nat) {b : List Byte} {len : Nat} (hlen : b.length = 64 * len)
    (hfits : (s.rng r).head % s.rSize r + len ≤ s.rSize r) :
    Placed s (((s.rPut r rseq b).rCount r).rServed r who) r b := by
  obtain ⟨⟨l, p, heq⟩, hrseq, hhead⟩ := rPut_fits (s := s) (r := r) rseq (b := b) (by omega)
  refine ⟨⟨_, p, s.mem, by rw [heq]; rfl⟩, ?_, ?_⟩
  · rw [State.rServed, State.setRng_rng, State.rCount, State.setRng_rng, hrseq]
  · rw [State.rServed, State.setRng_rng, State.rCount, State.setRng_rng, hhead]

/-- What host memory holds where a record has been placed, and elsewhere. -/
theorem Placed.field_eq {t : State} {b : List Byte} (h : Placed s t r b) {o n : Nat} (ho : o + n ≤ b.length) :
    rdLe t.host (ringAt s r + o) n = field b o n := by
  obtain ⟨⟨_, _, _, rfl⟩, -, -⟩ := h
  exact rdLe_wrBytes _ _ _ ho
theorem Placed.host_else {t : State} {b : List Byte} (h : Placed s t r b) {a : Nat} (ha : a < ringAt s r ∨ ringAt s r + b.length ≤ a) :
    rd8 t.host a = rd8 s.host a := by
  obtain ⟨⟨_, _, _, rfl⟩, -, -⟩ := h
  exact rd8_wrBytes_ne _ _ _ _ ha

end
end Sys2Proof.Machine
end

section
/-! PROOF. Line records and the completion record of a drain on one ring (R102, R105, R110, R115, R116, R120). -/

namespace Sys2Proof.Machine

variable {s : State} {k r g : Nat} {d : Drain} {p : KilnPlace}

theorem length_take_drop_line {data : List Byte} (h : data.length = 4096) (n : Nat) :
    ((data.drop (64 * (n % 64))).take 64).length = 64 := by
  have := Nat.mod_lt n (show 0 < 64 by omega)
  rw [List.length_take, List.length_drop, h]; omega

theorem hbmRead_clean (h : s.err.upsets = []) (a n access ctx : Nat) : s.hbmRead a n access ctx = ([], rdBytes s.hbm a n, s.touch a n) := by
  rw [State.hbmRead, scan_clean h]

/-- A group read where no upset strikes: no line is lost, and the controllers' state alone changes. -/
theorem readGroup_clean (h : s.err.upsets = []) (k b g : Nat) (p : KilnPlace) (x : Bank) :
    ∃ ex data t, s.readGroup k b g p x = ([], ex, data, t) ∧ MemOnly s t ∧ ex.length = (if p.desc.k16 then 64 else 0) ∧
      data.length = 4096 := by
  have hmem := memOnly_touch s (x.lineAddr b (64 * g)) 4096
  have hups : (s.touch (x.lineAddr b (64 * g)) 4096).err.upsets = [] := by rw [hmem.err_eq]; exact h
  have hlines : ∀ f : Nat → List Byte, (∀ n, (f n).length = 64) → (((List.range 64).map (64 * g + ·)).flatMap f).length = 4096 :=
    fun f hf => (length_flatMap_const hf _).trans (by simp)
  have hline : ∀ n, (if x.touched.contains n then ((rdBytes s.hbm (x.lineAddr b (64 * g)) 4096).drop (64 * (n % 64))).take 64
      else List.replicate 64 0).length = 64 := fun n => by
    split
    · exact length_take_drop_line (length_rdBytes _ _ _) n
    · exact List.length_replicate
  have hnone : ∀ l : List Nat, l.filter (fun _ => false) = [] := fun l => by simp
  by_cases hk : p.desc.k16 = true
  · simp only [State.readGroup, hbmRead_clean h, hbmRead_clean hups, if_pos hk, List.isEmpty_nil, Bool.not_true, List.contains_nil,
      Bool.or_self, Bool.and_false, hnone, List.length_nil, Nat.mul_zero, State.freeBytes]
    exact ⟨_, _, _, rfl, hmem.trans (memOnly_touch _ _ _), by simp, hlines _ hline⟩
  · simp only [State.readGroup, hbmRead_clean h, if_neg hk, List.isEmpty_nil, Bool.not_true, List.contains_nil,
      Bool.or_self, Bool.and_false, hnone, List.length_nil, Nat.mul_zero, State.freeBytes]
    exact ⟨_, _, _, rfl, hmem, by simp, hlines _ hline⟩

/-- A firing record offered to a ring that takes it, with room. -/
theorem offerFiring_written (h : RingTakes s r) (hlost : s.pair.lost = []) (who : Offerer) (store : Bool) {len extra : Nat}
    (hroom : len + extra ≤ s.rFree r) (mk : Nat → Nat → List Byte) : s.offerFiring k r who store len extra mk =
      (.written, ((s.rPut r (s.rng r).rseq (mk (s.rng r).rseq s.claim)).rCount r).rServed r who) := by
  have hkept : ¬ s.firingLost k = true := by simp [State.firingLost, hlost]
  rw [State.offerFiring, if_neg hkept, offerAs_written h who store hroom]

theorem MemOnly.ringTakes {t : State} (h : MemOnly s t) (hr : RingTakes s r) : RingTakes t r := by
  obtain ⟨mem, rfl⟩ := h
  exact ⟨hr.ups, hr.hold, hr.lost, hr.en, hr.role, hr.foghorn⟩

theorem retryHeaders_done (hd : (s.kiln k).drain = some d) (h : d.hdrTodo = []) : s.retryHeaders k = s := by
  rw [State.retryHeaders, hd]
  simp [h]

/-- Positions of a line record. -/
def lineLen (p : KilnPlace) : Nat := if p.desc.k16 then 66 else 65

theorem bump_same (l : List (Nat × Nat)) (i : Nat) : tget 0 (bump l i) i = tget 0 l i + 1 := tget_tset_same _ _ _ _

theorem MemOnly.placed {t u : State} {b : List Byte} (h : MemOnly s t) (hp : Placed t u r b) : Placed s u r b := by
  obtain ⟨mem, rfl⟩ := h
  obtain ⟨⟨l, p, m, rfl⟩, hrseq, hhead⟩ := hp
  exact ⟨⟨l, p, m, rfl⟩, hrseq, hhead⟩

/-- A drain after the record of group g on its only ring. -/
def LineDrained (d e : Drain) (g : Nat) : Prop :=
  e.done = d.done ++ [g] ∧ tget 0 e.written 0 = tget 0 d.written 0 + 1 ∧
  e.compTodo = if d.done.length + 1 = d.groups then some [0] else none

theorem lineRecord_placed (h : RingTakes s r) (hlost : s.pair.lost = []) (hrings : (s.kiln k).rings = [r])
    (hroom : lineLen p + 2 ≤ s.rFree r) (hfits : (s.rng r).head % s.rSize r + lineLen p ≤ s.rSize r) :
    ∃ u b rest l e q, Placed s u r b ∧ b.length = 64 * lineLen p ∧
      b = firingCommon 2 k (lineLen p) d.seq (s.rng r).rseq s.claim 0 l ++ (leBytes 8 g ++ rest) ∧
      LineDrained d e g ∧ s.lineRecord k g p d = { u.setKiln k { u.kiln k with drain := some e } with pair := q } := by
  obtain ⟨ex, data, t, hread, hmem, hex, hdata⟩ := readGroup_clean h.ups k d.bank g p ((s.kiln k).bankOf d.bank)
  have hmod : g % 1 = 0 := Nat.mod_one g
  have hsame : t.pair.lost = s.pair.lost ∧ t.rng r = s.rng r ∧ t.claim = s.claim ∧ t.rFree r = s.rFree r ∧ t.rSize r = s.rSize r := by
    obtain ⟨mem, rfl⟩ := hmem; exact ⟨rfl, rfl, rfl, rfl, rfl⟩
  obtain ⟨hl, hrng, hclaim, hfree, hsize⟩ := hsame
  unfold State.lineRecord
  simp only [hrings, List.length_singleton, hmod, List.getD_cons_zero, hread]
  rw [offerFiring_written (hmem.ringTakes h) (hl.trans hlost) _ _ (by rw [hfree]; unfold lineLen at hroom; split <;> split <;> simp_all <;> omega)]
  simp only [decide_true, if_true, hrng, hclaim]
  refine ⟨_, _, ?rest, log2R 1, _, _, hmem.placed (placed_written _ _ (len := lineLen p) ?len (by rw [hrng, hsize]; exact hfits)), ?len,
    ?bytes, ?drained, rfl⟩
  case bytes => simp only [List.append_assoc]; rfl
  case len =>
    simp only [List.length_append, length_firingCommon, length_leBytes, List.length_replicate, hex, hdata, lineLen]
    split <;> rfl
  case drained => exact ⟨rfl, bump_same _ _, by rw [List.length_append]; rfl⟩

/-! ### The completion record -/

theorem Placed.rOwe {u : State} {b : List Byte} (h : Placed s u r b) (o : Owed) : Placed s (u.rOwe r o) r b := by
  unfold State.rOwe
  split
  · exact h
  · obtain ⟨⟨l, p, m, rfl⟩, hrseq, hhead⟩ := h
    refine ⟨⟨_, p, m, rfl⟩, ?_, ?_⟩
    · rw [State.setRng_rng]; exact hrseq
    · rw [State.setRng_rng]; exact hhead

theorem offerCompletion_placed (h : RingTakes s r) (hlost : s.pair.lost = []) (hrings : (s.kiln k).rings = [r])
    (hd : (s.kiln k).drain = some d) (hcomp : d.compTodo = some [0]) (hroom : 2 ≤ s.rFree r)
    (hfits : (s.rng r).head % s.rSize r + 2 ≤ s.rSize r) :
    ∃ u b l, Placed s u r b ∧ b = firingCommon 3 k 2 d.seq (s.rng r).rseq s.claim 0 l ++ completionBytes d 0 ∧
      s.offerCompletion k 0 = u.setKiln k { u.kiln k with drain := some { d with compTodo := some [] } } := by
  unfold State.offerCompletion
  simp only [hd, hrings, List.length_singleton, List.getD_cons_zero]
  rw [offerFiring_written h hlost _ _ (by omega)]
  simp only [if_true, hcomp]
  refine ⟨_, _, log2R 1, (placed_written _ _ (len := 2) ?_ hfits).rOwe _, rfl, rfl⟩
  rw [List.length_append, length_firingCommon, length_completionBytes]

/-! ### The end of a drain -/

/-- Nothing changes but registers, tiles, kilns, the pair, the placement, Keeper memories and conduct. -/
def DrainSide (s t : State) : Prop :=
  ∃ regs tiles kilns pair plc err cores cq, t = { s with regs := regs, tiles := tiles, kilns := kilns, pair := pair,
                                                         plc := plc, err := err, cores := cores, cq := cq }

theorem DrainSide.trans {t u : State} (h : DrainSide s t) (h' : DrainSide t u) : DrainSide s u := by
  obtain ⟨_, _, _, _, _, _, _, _, rfl⟩ := h
  obtain ⟨_, _, _, _, _, _, _, _, rfl⟩ := h'
  exact ⟨_, _, _, _, _, _, _, _, rfl⟩

theorem DrainSide.stores {t : State} (h : DrainSide s t) : t.pending = s.pending ∧ t.fuse = s.fuse ∧ t.hbm = s.hbm ∧
    t.csram = s.csram ∧ t.host = s.host ∧ t.link = s.link := by
  obtain ⟨_, _, _, _, _, _, _, _, rfl⟩ := h
  exact ⟨rfl, rfl, rfl, rfl, rfl, rfl⟩

theorem opDone?_side (s : State) (id : Option Nat) (o : Nat) : DrainSide s (s.opDone? id o) ∧ (s.opDone? id o).kilns = s.kilns := by
  obtain ⟨_, _, _, _, heq⟩ := opDone?_only s id o
  rw [heq]
  exact ⟨⟨_, _, _, _, _, _, _, _, rfl⟩, rfl⟩

theorem unstallTiles_side (s : State) (k : Nat) : DrainSide s (s.unstallTiles k) ∧ (s.unstallTiles k).kilns = s.kilns := by
  refine foldl_keeps (P := fun t => DrainSide s t ∧ t.kilns = s.kilns) _ (fun t i _ ht => ?_) ⟨⟨_, _, _, _, _, _, _, _, rfl⟩, rfl⟩
  obtain ⟨_, _, heq, -⟩ := stallNow_eq t i
  rw [heq]
  exact ⟨ht.1.trans ⟨_, _, _, _, _, _, _, _, rfl⟩, ht.2⟩

/-- The state of a kiln whose drain ends. -/
def Kiln.stateDrained (v : Kiln) : Nat := if v.state = 4 then if v.omitted then 0 else 1 else 2

theorem drainDone_ends (s : State) (k : Nat) : DrainSide s (s.drainDone k) ∧ ((s.drainDone k).kiln k).drain = none ∧
    ((s.drainDone k).kiln k).state = (s.kiln k).stateDrained := by
  unfold State.drainDone Kiln.stateDrained
  extract_lets v u v' w x y z
  have hu : DrainSide s u := by
    unfold u
    split
    · exact (unstallTiles_side s k).1
    · exact ⟨_, _, _, _, _, _, _, _, rfl⟩
  have hw : DrainSide s w := hu.trans ⟨_, _, _, _, _, _, _, _, rfl⟩
  split
  · have hy : DrainSide x y ∧ y.kilns = x.kilns := by
      unfold y
      split
      · exact ⟨⟨_, _, _, _, _, _, _, _, rfl⟩, rfl⟩
      · cases v'.newLayout with
        | none => exact ⟨⟨_, _, _, _, _, _, _, _, rfl⟩, rfl⟩
        | some l => exact ⟨⟨_, _, _, _, _, _, _, _, rfl⟩, rfl⟩
    obtain ⟨hz, hzk⟩ := opDone?_side y (v'.endAt.bind (·.2)) qDone
    have hkiln : (z.setPlc fun q => { q with shutKeep := q.shutKeep.filter (fun e => e.1 ≠ k) }).kiln k = x.kiln k := by
      rw [State.kiln, State.kiln, ← hy.2, ← hzk]; rfl
    refine ⟨((hw.trans ⟨_, _, _, _, _, _, _, _, rfl⟩).trans hy.1).trans (hz.trans ⟨_, _, _, _, _, _, _, _, rfl⟩), ?_, ?_⟩
    · rw [hkiln]; exact congrArg Kiln.drain (State.setKiln_kiln w k _)
    · rw [hkiln]; exact congrArg Kiln.state (State.setKiln_kiln w k _)
  · exact ⟨hw.trans ⟨_, _, _, _, _, _, _, _, rfl⟩, congrArg Kiln.drain (State.setKiln_kiln w k _),
      congrArg Kiln.state (State.setKiln_kiln w k _)⟩

/-! ### The rows -/

theorem exec_firingLineRecordWrite (h : RingTakes s r) (hup : s.up = true) (hrings : (s.kiln k).rings = [r])
    (hd : (s.kiln k).drain = some d) (hp : s.kilnPlace k = some p) (htodo : d.hdrTodo = []) (hg : g < d.groups)
    (hdone : d.done.contains g = false) (hroom : lineLen p ≤ s.rFree r) (hserves : s.groupServes k g p d = true) :
    exec (.firingLineRecordWrite k g none) s = .next (s.lineRecord k g p d) := by
  have e : exec (.firingLineRecordWrite k g none) s = execFiringLineRecordWrite k g none s := rfl
  have hrole := h.role
  have hhold : s.wouldHold r (lineLen p) = false := by simp [State.wouldHold, h.emits]; omega
  rw [e, execFiringLineRecordWrite, hd, hp]
  refine (gate_of _ _ _ (by simp [hup, hg]; exact ⟨by omega, by simpa using hdone⟩)).trans ?_
  simp only [retryHeaders_done hd htodo, hrings, List.length_singleton, Nat.mod_one, List.getD_cons_zero, rLook_clean h.ups, hd, htodo]
  rw [if_neg (by simp), if_neg (by simpa [h.lost, lineLen] using fun _ => hhold), if_neg (by simp [hserves])]
  rfl

theorem exec_firingCompletionWrite (h : RingTakes s r) (hup : s.up = true) (hlost : s.pair.lost = []) (hrings : (s.kiln k).rings = [r])
    (hd : (s.kiln k).drain = some d) (htodo : d.hdrTodo = []) (hcomp : d.compTodo = some [0]) (hroom : 2 ≤ s.rFree r)
    (hfits : (s.rng r).head % s.rSize r + 2 ≤ s.rSize r) :
    exec (.firingCompletionWrite k) s = .next ((s.offerCompletion k 0).drainDone k) := by
  have e : exec (.firingCompletionWrite k) s = execFiringCompletionWrite k s := rfl
  have hbind : (s.kiln k).drain.bind (·.compTodo) = some [0] := by rw [hd]; exact hcomp
  obtain ⟨u, b, l, ⟨⟨_, _, _, hu⟩, -, -⟩, -, hoffer⟩ := offerCompletion_placed h hlost hrings hd hcomp hroom hfits
  have hrole : (s.offerCompletion k 0).role ≤ 2 := by
    have := h.role
    rw [hoffer, hu]
    exact Nat.le_succ_of_le this
  have hlast : ((s.offerCompletion k 0).kiln k).drain.bind (·.compTodo) = some [] := by rw [hoffer, State.setKiln_kiln]; rfl
  rw [e, execFiringCompletionWrite, hbind]
  refine (gate_of _ _ _ hup).trans ?_
  simp only [retryHeaders_done hd htodo, hd, Option.elim_some, htodo, List.isEmpty_nil, if_true, List.foldl_cons, List.foldl_nil]
  rw [if_pos ⟨hrole, hlast⟩]

/-- Settles O31: a line record and a completion record are records placed in the ring, whose fields read back, and the last one ends the
drain. -/
theorem drainsEmitRecords : Obligations.DrainsEmitRecords := by
  unfold Obligations.DrainsEmitRecords
  intro s k r d p hup hk hrole hfog hhold hlost hups hrings hd hp htodo hen hrl len at_
  have hr : RingTakes s r := ⟨hups, hhold, hrl, hen, hrole, hfog⟩
  have hkm : k % 256 = k := Nat.mod_eq_of_lt (by omega)
  refine ⟨fun g hg hdone hcomp hroom hserves hfits => ?_, fun hcomp hroom hfits => ?_⟩
  · obtain ⟨u, b, rest, l, e, q, hplaced, hlen, hb, he, hline⟩ := lineRecord_placed hr hlost hrings (g := g) (d := d) hroom hfits
    refine ⟨_, exec_firingLineRecordWrite hr hup hrings hd hp htodo hg hdone (Nat.le_of_add_right_le hroom) hserves, ?_⟩
    have hread : ∀ {o n}, o + n ≤ 64 * lineLen p → rdLe u.host (at_ + o) n = field b o n := fun h => hplaced.field_eq (hlen ▸ h)
    have hl : lineLen p = len := rfl
    have hleast : 65 ≤ lineLen p := by unfold lineLen; split <;> omega
    have helse : ∀ a, a < at_ ∨ at_ + 64 * lineLen p ≤ a → rd8 u.host a = rd8 s.host a := fun a ha => hplaced.host_else (hlen ▸ ha)
    obtain ⟨⟨lk, pr, m, hu⟩, hrseq, hhead⟩ := hplaced
    obtain ⟨h0, h1, h2, h4, h8⟩ := field_firingCommon 2 k (lineLen p) d.seq (s.rng r).rseq s.claim 0 l (leBytes 8 g ++ rest)
    have h16 : field b 16 4 = g % 2 ^ 32 := by
      rw [hb]
      exact field_firingBody (pre := []) (n := 4) (post := leBytes 4 (g >>> 8 >>> 8 >>> 8 >>> 8) ++ rest) _ _ _ _ _ _ _ _ _ rfl rfl
    rw [← hb] at h0 h1 h2 h4 h8
    have hstores : u.pending = s.pending ∧ u.fuse = s.fuse ∧ u.hbm = s.hbm ∧ u.csram = s.csram ∧ u.regs = s.regs := by
      rw [hu]; exact ⟨rfl, rfl, rfl, rfl, rfl⟩
    obtain ⟨hpend, hfuse, hhbm, hcs, hregs⟩ := hstores
    have hlen16 : lineLen p % 65536 = lineLen p := by unfold lineLen; split <;> rfl
    have htype : rdLe u.host at_ 1 = 2 := by rw [← Nat.add_zero at_, hread (by omega), h0]
    rw [hline]
    exact ⟨⟨hpend, hfuse⟩, hhbm, hcs, fun o _ => congrArg (sget regReset · o) hregs, htype,
      (hread (by omega)).trans (h1.trans hkm), (hread (by omega)).trans (h2.trans hlen16), (hread (by omega)).trans h4,
      (hread (by omega)).trans h8, (hread (by omega)).trans h16, helse, hrseq,
      hhead.trans (by rw [hlen, Nat.mul_div_cancel_left _ (by decide), hl]),
      e, congrArg Kiln.drain (State.setKiln_kiln u k _), he⟩
  · obtain ⟨u, b, l, hplaced, hb, hoffer⟩ := offerCompletion_placed hr hlost hrings hd hcomp hroom hfits
    obtain ⟨hside, hdrain, hstate⟩ := drainDone_ends (s.offerCompletion k 0) k
    have hlen : b.length = 128 := by rw [hb, List.length_append, length_firingCommon, length_completionBytes]
    have hread : ∀ {o n}, o + n ≤ 128 → rdLe u.host (at_ + o) n = field b o n := fun h => hplaced.field_eq (hlen ▸ h)
    have helse : ∀ a, a < at_ ∨ at_ + 128 ≤ a → rd8 u.host a = rd8 s.host a := fun a ha => hplaced.host_else (hlen ▸ ha)
    obtain ⟨⟨lk, pr, m, hu⟩, hrseq, hhead⟩ := hplaced
    obtain ⟨h0, h1, -, h4, -⟩ := field_firingCommon 3 k 2 d.seq (s.rng r).rseq s.claim 0 l (completionBytes d 0)
    have h16 : field b 16 4 = tget 0 d.written 0 % 2 ^ 32 := by
      rw [hb]
      exact field_firingBody (pre := []) (n := 4) _ _ _ _ _ _ _ _ _ (by unfold completionBytes; simp only [List.append_assoc]; rfl) rfl
    have h20 : field b 20 4 = tget 0 d.dropped 0 % 2 ^ 32 := by
      rw [hb]
      exact field_firingBody (pre := leBytes 4 (tget 0 d.written 0)) (n := 4) _ _ _ _ _ _ _ _ _
        (by unfold completionBytes; simp only [List.append_assoc]; rfl) (by simp)
    have h24 : field b 24 4 = d.groups % 2 ^ 32 := by
      rw [hb]
      exact field_firingBody (pre := leBytes 4 (tget 0 d.written 0) ++ leBytes 4 (tget 0 d.dropped 0)) (n := 4) _ _ _ _ _ _ _ _ _
        (by unfold completionBytes; simp only [List.append_assoc]; rfl) (by simp)
    rw [← hb] at h0 h1 h4
    have hkiln : ((s.offerCompletion k 0).kiln k).state = (s.kiln k).state ∧ ((s.offerCompletion k 0).kiln k).omitted = (s.kiln k).omitted := by
      rw [hoffer, State.setKiln_kiln, hu]; exact ⟨rfl, rfl⟩
    obtain ⟨hst, hom⟩ := hkiln
    rw [Kiln.stateDrained, hst, hom] at hstate
    refine ⟨_, exec_firingCompletionWrite hr hup hlost hrings hd htodo hcomp hroom hfits, ?_⟩
    obtain ⟨hpend, hfuse, hhbm, hcs, hhost, hlink⟩ := hside.stores
    have hstores : (s.offerCompletion k 0).pending = s.pending ∧ (s.offerCompletion k 0).fuse = s.fuse ∧
        (s.offerCompletion k 0).hbm = s.hbm ∧ (s.offerCompletion k 0).csram = s.csram ∧ (s.offerCompletion k 0).host = u.host ∧
        (s.offerCompletion k 0).link = u.link := by rw [hoffer, hu]; exact ⟨rfl, rfl, rfl, rfl, rfl, rfl⟩
    obtain ⟨hpend', hfuse', hhbm', hcs', hhost', hlink'⟩ := hstores
    have htype : rdLe u.host at_ 1 = 3 := by rw [← Nat.add_zero at_, hread (by omega), h0]
    rw [State.rng, hlink, hlink', hhost, hhost']
    exact ⟨⟨hpend.trans hpend', hfuse.trans hfuse'⟩, hhbm.trans hhbm', hcs.trans hcs', htype,
      (hread (by omega)).trans (h1.trans hkm), (hread (by omega)).trans h4, (hread (by omega)).trans h16,
      (hread (by omega)).trans h20, (hread (by omega)).trans h24, helse, hrseq, hdrain,
      fun h3 => hstate.trans (if_neg (by omega)), fun h4 => hstate.trans (if_pos h4)⟩

end Sys2Proof.Machine
end

section
/-! PROOF. The steps of a placement that takes effect: rings, kilns, blocks, delay tables, engines and tiles (R97, R131, R169, R170, R391). -/

namespace Sys2Proof.Machine

variable {s t u : State} {old : Option Placement} {new : Placement}

/-! ### What a step may change -/

/-- Nothing changes but registers, the beam, the engines and their slots, the pair, Keeper memories and conduct. -/
def BeamSide (s t : State) : Prop :=
  ∃ regs beam eng slots pair err cores cq, t = { s with regs := regs, beam := beam, eng := eng, slots := slots, pair := pair,
                                                        err := err, cores := cores, cq := cq }

theorem beamSide_refl (s : State) : BeamSide s s := ⟨_, _, _, _, _, _, _, _, rfl⟩

theorem BeamSide.trans (h : BeamSide s t) (h' : BeamSide t u) : BeamSide s u := by
  obtain ⟨_, _, _, _, _, _, _, _, rfl⟩ := h
  obtain ⟨_, _, _, _, _, _, _, _, rfl⟩ := h'
  exact ⟨_, _, _, _, _, _, _, _, rfl⟩

theorem BeamSide.foldl {α : Type} {f : State → α → State} (hf : ∀ t x, BeamSide t (f t x)) (l : List α) (s : State) :
    BeamSide s (l.foldl f s) := foldl_keeps l (fun t x _ ht => ht.trans (hf t x)) (beamSide_refl s)

theorem beamSide_setReg (s : State) (off : Nat) (v : W32) : BeamSide s (s.setReg off v) := ⟨_, _, _, _, _, _, _, _, rfl⟩

/-- Commands, fuses, control SRAM and host memory are as before. -/
def Still (s t : State) : Prop := Apart s t ∧ t.csram = s.csram ∧ t.host = s.host

theorem Still.trans (h : Still s t) (h' : Still t u) : Still s u := by
  obtain ⟨⟨hp, hf⟩, hc, hh⟩ := h
  obtain ⟨⟨hp', hf'⟩, hc', hh'⟩ := h'
  exact ⟨⟨hp'.trans hp, hf'.trans hf⟩, hc'.trans hc, hh'.trans hh⟩

/-- What a step that leaves memory leaves: `Still`, and device memory. -/
def StillMem (s t : State) : Prop := Still s t ∧ t.hbm = s.hbm

theorem StillMem.trans (h : StillMem s t) (h' : StillMem t u) : StillMem s u := ⟨h.1.trans h'.1, h'.2.trans h.2⟩

theorem BeamSide.still (h : BeamSide s t) : StillMem s t := by
  obtain ⟨_, _, _, _, _, _, _, _, rfl⟩ := h
  exact ⟨⟨⟨rfl, rfl⟩, rfl, rfl⟩, rfl⟩

theorem KilnSide.still (h : KilnSide s t) : StillMem s t := by
  obtain ⟨_, _, _, _, _, rfl⟩ := h
  exact ⟨⟨⟨rfl, rfl⟩, rfl, rfl⟩, rfl⟩

/-- The units that the beam side leaves. -/
theorem BeamSide.units (h : BeamSide s t) : t.asm_ = s.asm_ ∧ t.plc = s.plc ∧ t.tiles = s.tiles ∧ t.kilns = s.kilns := by
  obtain ⟨_, _, _, _, _, _, _, _, rfl⟩ := h
  exact ⟨rfl, rfl, rfl, rfl⟩

/-! ### Tiles that stall -/

theorem stallAll_only (s : State) (ts : List Nat) : ∃ r v, ts.foldl State.stallNow s = { s with regs := r, tiles := v } := by
  refine foldl_keeps (P := fun t => ∃ r v, t = { s with regs := r, tiles := v }) _ (fun t i _ ht => ?_) ⟨_, _, rfl⟩
  obtain ⟨r, v, rfl⟩ := ht
  obtain ⟨_, _, heq, -⟩ := stallNow_eq { s with regs := r, tiles := v } i
  exact ⟨_, _, heq⟩

/-! ### Rings (R391) -/

theorem ringsAcross_only (s : State) (old : Option Placement) (new : Placement) : ∃ a, s.ringsAcross old new = { s with asm_ := a } := by
  refine foldl_keeps (P := fun t => ∃ a, t = { s with asm_ := a }) _ (fun t e _ ht => ?_) ⟨_, rfl⟩
  obtain ⟨a, rfl⟩ := ht
  exact ⟨_, rfl⟩

theorem sget_of_not_mem {α : Type} (d : Nat → α) {l : List (Nat × α)} {i : Nat} (h : ∀ e ∈ l, e.1 ≠ i) : sget d l i = d i := by
  induction l with
  | nil => rfl
  | cons e l ih =>
    rw [sget, if_neg (Ne.symm (h e List.mem_cons_self)), ih fun x hx => h x (List.mem_cons_of_mem e hx)]

/-- A channel that the new placement omits has no ring. -/
theorem ringsAcross_omitted {c : Nat} (h : new.plan.mode c = none) : (s.ringsAcross old new).ring c = ChanRing.init := by
  have hgone : ∀ r, ringAcross old new c r = ChanRing.init := fun r => by rw [ringAcross, h]
  have hfold : ∀ (l : List (Nat × ChanRing)) (t : State), ((∃ e ∈ l, e.1 = c) ∨ t.ring c = ChanRing.init) →
      (l.foldl (fun s e => s.setRing e.1 (ringAcross old new e.1 e.2)) t).ring c = ChanRing.init := by
    intro l
    induction l with
    | nil => exact fun t ht => ht.elim (fun ⟨_, he, _⟩ => nomatch he) id
    | cons e l ih =>
      intro t ht
      refine ih _ ?_
      by_cases hc : e.1 = c
      · exact .inr (by subst hc; exact (State.setRing_ring _ _ _).trans (hgone _))
      · refine ht.imp (fun ⟨x, hx, hxc⟩ => ?_) fun hr => (State.setRing_ring_ne _ _ _ (Ne.symm hc)).trans hr
        rcases List.mem_cons.1 hx with rfl | hx
        · exact absurd hxc hc
        · exact ⟨x, hx, hxc⟩
  refine hfold _ _ ?_
  by_cases hmem : ∃ e ∈ s.asm_, e.1 = c
  · exact .inl hmem
  · exact .inr (sget_of_not_mem (fun _ => ChanRing.init) fun e he hc => hmem ⟨e, he, hc⟩)

theorem refreshReaders_empty {c : Nat} (h : (s.ring c).slots = []) : (s.refreshReaders.ring c).slots = [] := by
  refine foldl_keeps (P := fun t => (t.ring c).slots = []) _ (fun t e _ ht => ?_) h
  obtain ⟨⟨-, hother⟩, -, -, hsub⟩ := freeSlots_ring (t.setRing e.1 { t.ring e.1 with slots := (t.ring e.1).slots.map fun x =>
    { x with readers := x.readers.filter (fun q => decide (1000 ≤ q) || t.tileReads q e.1 x.blk) } }) e.1
  by_cases hc : c = e.1
  · subst hc
    refine List.eq_nil_iff_forall_not_mem.2 fun y hy => ?_
    have hy := hsub y hy
    rw [State.setRing_ring, ht] at hy
    exact nomatch hy
  · exact (congrArg ChanRing.slots ((hother c hc).trans (State.setRing_ring_ne _ _ _ hc))).trans ht

/-! ### Kilns (R97, R170) -/

/-- A kiln after a placement has taken effect. -/
def Kiln.across (v : Kiln) (old : Option Placement) (new : Placement) (k : Nat) : Kiln :=
  match new.kilns.find? (fun e => e.1 == k) with
  | some (_, p) => if v.state ≤ 1 then { v with state := 1, key := p.key, newLayout := none } else v
  | none =>
    if v.state = 1 then { v with state := 0 }
    else if v.state = 4 then
      match old.bind (fun p => (p.kilns.find? (fun e => e.1 == k)).map (·.2)) with
      | some _ => { v with omitted := true }
      | none => v
    else v

/-- Registers, the placement and one kiln, which crosses, are all that changes. -/
theorem kilnAcross_eq (s : State) (old : Option Placement) (new : Placement) (k : Nat) :
    (∃ r kl p, s.kilnAcross old new k = { s with regs := r, kilns := kl, plc := p }) ∧
    (s.kilnAcross old new k).kiln k = (s.kiln k).across old new k ∧ ∀ j, j ≠ k → (s.kilnAcross old new k).kiln j = s.kiln j := by
  have hset : ∀ v, (s.setKiln k v).kiln k = v ∧ ∀ j, j ≠ k → (s.setKiln k v).kiln j = s.kiln j :=
    fun v => ⟨State.setKiln_kiln s k v, fun j hj => State.setKiln_kiln_ne s k v hj⟩
  unfold State.kilnAcross Kiln.across
  cases hf : new.kilns.find? (fun e => e.1 == k) with
  | some e =>
    by_cases h : (s.kiln k).state ≤ 1
    · simp only [if_pos h]
      exact ⟨⟨_, _, _, rfl⟩, hset { s.kiln k with state := 1, key := e.2.key, newLayout := none }⟩
    · simp only [if_neg h]
      exact ⟨⟨_, _, _, rfl⟩, trivial, fun _ _ => trivial⟩
  | none =>
    by_cases h1 : (s.kiln k).state = 1
    · simp only [if_pos h1]
      exact ⟨⟨_, _, _, rfl⟩, hset _⟩
    · by_cases h4 : (s.kiln k).state = 4
      · simp only [if_neg h1, if_pos h4]
        cases old.bind (fun p => (p.kilns.find? (fun e => e.1 == k)).map (·.2)) with
        | some p => exact ⟨⟨_, _, _, rfl⟩, hset { s.kiln k with omitted := true }⟩
        | none => exact ⟨⟨_, _, _, rfl⟩, rfl, fun _ _ => rfl⟩
      · simp only [if_neg h1, if_neg h4]
        exact ⟨⟨_, _, _, rfl⟩, trivial, fun _ _ => trivial⟩

theorem kilnsAcross_eq (old : Option Placement) (new : Placement) {l : List Nat} (hl : l.Nodup) (s : State) :
    (∃ r kl p, l.foldl (fun s k => s.kilnAcross old new k) s = { s with regs := r, kilns := kl, plc := p }) ∧
    ∀ j, (l.foldl (fun s k => s.kilnAcross old new k) s).kiln j = if j ∈ l then (s.kiln j).across old new j else s.kiln j := by
  induction l generalizing s with
  | nil => exact ⟨⟨_, _, _, rfl⟩, fun j => rfl⟩
  | cons k l ih =>
    obtain ⟨hk, hl⟩ := List.nodup_cons.1 hl
    obtain ⟨⟨r, kl, p, heq⟩, hsame, hother⟩ := kilnAcross_eq s old new k
    obtain ⟨⟨r', kl', p', heq'⟩, hkilns⟩ := ih hl (s.kilnAcross old new k)
    refine ⟨⟨r', kl', p', by rw [List.foldl_cons, heq', heq]⟩, fun j => ?_⟩
    rw [List.foldl_cons, hkilns]
    by_cases hj : j = k
    · subst hj
      rw [if_neg hk, hsame, if_pos List.mem_cons_self]
    · rw [hother j hj]
      simp only [List.mem_cons, hj, false_or]

/-- The state of a kiln across a placement: PLACED where it is named, IDLE where it is omitted, as it was where it works. -/
theorem Kiln.across_state (v : Kiln) (old : Option Placement) (new : Placement) (k : Nat) :
    (new.kilns.any (fun e => e.1 == k) = true → v.state ≤ 1 → (v.across old new k).state = 1) ∧
    (new.kilns.any (fun e => e.1 == k) = false → v.state = 1 → (v.across old new k).state = 0) ∧
    (2 ≤ v.state → (v.across old new k).state = v.state) := by
  have hany : new.kilns.any (fun e => e.1 == k) = (new.kilns.find? (fun e => e.1 == k)).isSome := by
    rw [Bool.eq_iff_iff, List.find?_isSome, List.any_eq_true]
  unfold Kiln.across
  cases hf : new.kilns.find? (fun e => e.1 == k) with
  | some e =>
    simp only [hany, hf, Option.isSome_some]
    refine ⟨fun _ h => ?_, fun h => absurd h (by decide), fun h => ?_⟩
    · rw [if_pos h]
    · rw [if_neg (by omega)]
  | none =>
    simp only [hany, hf, Option.isSome_none]
    refine ⟨fun h => absurd h (by decide), fun _ h => ?_, fun h => ?_⟩
    · rw [if_pos h]
    · rw [if_neg (by omega)]
      split
      · split <;> rfl
      · rfl

/-! ### Beam blocks and engines (R131, R144) -/

theorem newReady_side (s : State) (i : Nat) (b : Bool) : BeamSide s (s.newReady i b) ∧ (s.newReady i b).beam = s.beam := by
  unfold State.newReady
  split
  · exact ⟨⟨_, _, _, _, _, _, _, _, rfl⟩, rfl⟩
  · exact ⟨beamSide_refl s, rfl⟩

theorem beamSide_opDone? (s : State) (id : Option Nat) (o : Nat) : BeamSide s (s.opDone? id o) ∧ (s.opDone? id o).beam = s.beam := by
  obtain ⟨_, _, _, _, heq⟩ := opDone?_only s id o
  rw [heq]
  exact ⟨⟨_, _, _, _, _, _, _, _, rfl⟩, rfl⟩

/-- A block as a placement takes effect: it alone changes, and not where it is kept. -/
theorem blockAcross_side (s : State) (old : Option Placement) (new : Placement) (x m : Nat) :
    BeamSide s (s.blockAcross old new x m) ∧ ∀ n, blockKept old new n = true → (s.blockAcross old new x m).block n = s.block n := by
  unfold State.blockAcross
  split
  case isTrue hkept =>
    dsimp only
    split
    · exact ⟨⟨_, _, _, _, _, _, _, _, rfl⟩, fun _ _ => rfl⟩
    · exact ⟨beamSide_refl s, fun _ _ => rfl⟩
  case isFalse hgone =>
    extract_lets op b u
    obtain ⟨hready, hbeam⟩ := newReady_side ((u.setRb (oDetStat m) 31 false).setReg64 (oBlk m + 8) 0) m (new.blocks.any (fun e => e.1 == m))
    obtain ⟨hdone, hbeam'⟩ := beamSide_opDone? (((u.setRb (oDetStat m) 31 false).setReg64 (oBlk m + 8) 0).newReady m
      (new.blocks.any (fun e => e.1 == m))) op qDone
    have hstart : BeamSide s u := ⟨_, _, _, _, _, _, _, _, rfl⟩
    have hu : BeamSide s ((u.setRb (oDetStat m) 31 false).setReg64 (oBlk m + 8) 0) :=
      ((hstart.trans (beamSide_setReg u _ _)).trans (beamSide_setReg _ _ _)).trans (beamSide_setReg _ _ _)
    refine ⟨(hu.trans hready).trans hdone, fun n hn => ?_⟩
    have hne : n ≠ m := fun h => hgone (h ▸ hn)
    rw [State.block, hbeam', hbeam]
    exact State.setBlock_block_ne s m _ hne

theorem blocksAcross_side (s : State) (old : Option Placement) (new : Placement) (x : Nat) (l : List Nat) :
    BeamSide s (l.foldl (fun s m => s.blockAcross old new x m) s) ∧
    ∀ n, blockKept old new n = true → (l.foldl (fun s m => s.blockAcross old new x m) s).block n = s.block n := by
  refine foldl_keeps (P := fun t => BeamSide s t ∧ ∀ n, blockKept old new n = true → t.block n = s.block n) l (fun t m _ ht => ?_)
    ⟨beamSide_refl s, fun _ _ => rfl⟩
  obtain ⟨hside, hblock⟩ := blockAcross_side t old new x m
  exact ⟨ht.1.trans hside, fun n hn => (hblock n hn).trans (ht.2 n hn)⟩

theorem engAcross_side (s : State) (old : Option Placement) (new : Placement) (e : Nat) : BeamSide s (s.engAcross old new e) := by
  unfold State.engAcross
  extract_lets d v w u
  split
  · exact beamSide_refl s
  · have hu : BeamSide s u := BeamSide.trans ⟨_, _, _, _, _, _, _, _, rfl⟩ (newReady_side _ _ _).1
    exact hu.trans (BeamSide.foldl (fun t i => ⟨_, _, _, _, _, _, _, _, rfl⟩) _ u)

theorem txgSet_side (s : State) (j : Nat) (v : W32) : BeamSide s (s.txgSet j v) := by
  unfold State.txgSet
  extract_lets f err
  split
  · exact ⟨_, _, _, _, _, _, _, _, rfl⟩
  · split
    · exact ⟨_, _, _, _, _, _, _, _, rfl⟩
    · exact ⟨_, _, _, _, _, _, _, _, rfl⟩

theorem looseEnds_side (s : State) (new : Placement) : BeamSide s (s.looseEnds new) := by
  unfold State.looseEnds
  extract_lets u
  have hu : BeamSide s u := BeamSide.foldl (fun t e => by
    split
    · exact BeamSide.trans ⟨_, _, _, _, _, _, _, _, rfl⟩ (txgSet_side _ _ _)
    · exact beamSide_refl t) _ s
  split
  · split
    · exact hu.trans (BeamSide.trans ⟨_, _, _, _, _, _, _, _, rfl⟩ (beamSide_opDone? _ _ _).1)
    · exact hu
  · exact hu

/-! ### Delay tables (R131, R178) -/

/-- Bytes written to ranges of device memory: no byte outside them changes. -/
theorem delayWrite_writes (s : State) (m e : Nat) (taus : List Nat) : ∃ h, Writes h s (s.delayWrite m e taus) ∧
    ∀ a, (∀ p, s.plc.cur = some p → ∀ r ∈ p.delayRanges m e 0 (8 * taus.length), a < r.1 ∨ r.1 + r.2 ≤ a) → rd8 h a = rd8 s.hbm a := by
  unfold State.delayWrite
  extract_lets rs
  have hfold := List.foldlRecOn rs (fun (acc : List Byte × State) r => (acc.1.drop r.2, acc.2.hbmWrite r.1 (acc.1.take r.2)))
    (motive := fun acc => ∃ h, Writes h s acc.2 ∧ ∀ a, (∀ r ∈ rs, a < r.1 ∨ r.1 + r.2 ≤ a) → rd8 h a = rd8 s.hbm a)
    (b := (taus.flatMap (leBytes 8), s)) ⟨s.hbm, ⟨_, _, _, rfl⟩, fun _ _ => rfl⟩ (fun acc hacc r hr => by
      obtain ⟨h, hw, hout⟩ := hacc
      refine ⟨_, hw.hbmWrite r.1 (acc.1.take r.2), fun a ha => ?_⟩
      have hlen : (acc.1.take r.2).length ≤ r.2 := List.length_take_le _ _
      rw [rd8_wrBytes_ne _ _ _ _ ((ha r hr).imp_right fun h => by omega), hout a ha])
  obtain ⟨h, hw, hout⟩ := hfold
  refine ⟨h, hw, fun a ha => hout a ?_⟩
  cases hcur : s.plc.cur with
  | none => intro r hr; simp [rs, hcur] at hr
  | some p => intro r hr; simp only [rs, hcur, Option.elim_some] at hr; exact ha p hcur r hr

theorem Writes.trans {h h' : List Host.Cell} (hs : Writes h s t) (ht : Writes h' t u) : Writes h' s u := by
  obtain ⟨_, _, _, rfl⟩ := hs
  obtain ⟨_, _, _, rfl⟩ := ht
  exact ⟨_, _, _, rfl⟩

/-- The tables of blocks `ms` written: no byte outside the ranges that the placement in effect gives them changes. -/
theorem tabsWrite_writes (s : State) (ms : List Nat) : ∃ h, Writes h s (s.tabsWrite ms) ∧
    ∀ a, (∀ p, s.plc.cur = some p → ∀ m ∈ ms, ∀ y ∈ (s.block m).tabs, ∀ r ∈ p.delayRanges m y.epoch 0 (8 * y.taus.length),
      a < r.1 ∨ r.1 + r.2 ≤ a) → rd8 h a = rd8 s.hbm a := by
  refine List.foldlRecOn ms _ (motive := fun t => ∃ h, Writes h s t ∧ ∀ a, (∀ p, s.plc.cur = some p → ∀ m ∈ ms, ∀ y ∈ (s.block m).tabs,
    ∀ r ∈ p.delayRanges m y.epoch 0 (8 * y.taus.length), a < r.1 ∨ r.1 + r.2 ≤ a) → rd8 h a = rd8 s.hbm a)
    ⟨s.hbm, ⟨_, _, _, rfl⟩, fun _ _ => rfl⟩ (fun t ht m hm => ?_)
  have hblock : t.block m = s.block m := by obtain ⟨h, ⟨_, _, _, rfl⟩, -⟩ := ht; rfl
  rw [hblock]
  refine List.foldlRecOn _ _ (motive := fun t => ∃ h, Writes h s t ∧ ∀ a, (∀ p, s.plc.cur = some p → ∀ m ∈ ms, ∀ y ∈ (s.block m).tabs,
    ∀ r ∈ p.delayRanges m y.epoch 0 (8 * y.taus.length), a < r.1 ∨ r.1 + r.2 ≤ a) → rd8 h a = rd8 s.hbm a) ht (fun t ht y hy => ?_)
  obtain ⟨h, hw, hout⟩ := ht
  obtain ⟨h', hw', hout'⟩ := delayWrite_writes t m y.epoch y.taus
  refine ⟨h', hw.trans hw', fun a ha => ?_⟩
  have hplc : t.plc = s.plc := by obtain ⟨_, _, _, rfl⟩ := hw; rfl
  rw [hout' a fun p hp => ha p (hplc ▸ hp) m hm y hy, hw.hbm_eq, hout a ha]

/-! ### Tiles (R169) -/

theorem tilesSet_only (l : List (Nat × TileWork)) (f : State → Nat × TileWork → Tile) (s : State) :
    ∃ v, l.foldl (fun s e => s.setTile e.1 (f s e)) s = { s with tiles := v } := by
  refine foldl_keeps (P := fun t => ∃ v, t = { s with tiles := v }) _ (fun t e _ ht => ?_) ⟨_, rfl⟩
  obtain ⟨v, rfl⟩ := ht
  exact ⟨_, rfl⟩

/-- Tiles set one by one, no tile twice: what each is set to holds at the end. -/
theorem tile_tilesSet {l : List (Nat × TileWork)} {f : State → Nat × TileWork → Tile} {P : Nat × TileWork → Tile → Prop}
    (hf : ∀ t e, P e (f t e)) (hl : (l.map (·.1)).Nodup) (s : State) :
    ∀ e ∈ l, P e ((l.foldl (fun s e => s.setTile e.1 (f s e)) s).tile e.1) := by
  refine foldl_sets (P := fun e t => P e (t.tile e.1)) l (fun t e _ => ?_) (fun t e he y hy ht => ?_) s
  · rw [State.setTile_tile]; exact hf t e
  · by_cases h : y.1 = e.1
    · rw [List.inj_on_of_nodup_map hl hy he h, State.setTile_tile]; exact hf t e
    · rw [State.setTile_tile_ne _ _ _ h]; exact ht

end Sys2Proof.Machine
end

section
/-! PROOF. Moves planned as a placement takes effect, and the placement that is then in force (R170, R183, R184, R186). -/

namespace Sys2Proof.Machine

variable {s t u : State}

/-! ### A placement with other layouts -/

/-- A placement whose kilns lie where `g` says. -/
def Placement.relaid (p : Placement) (g : Nat → KilnPlace → Layout) : Placement :=
  { p with kilns := p.kilns.map (fun e => (e.1, { e.2 with layout := g e.1 e.2 })) }

theorem find_relaid (p : Placement) (g : Nat → KilnPlace → Layout) (k : Nat) : (p.relaid g).kilns.find? (fun e => e.1 == k) =
    (p.kilns.find? (fun e => e.1 == k)).map (fun e => (e.1, { e.2 with layout := g e.1 e.2 })) := List.find?_map

theorem relaid_self (p : Placement) : p.relaid (fun _ v => v.layout) = p := by
  have hmap : p.kilns.map (fun e => (e.1, { e.2 with layout := e.2.layout })) = p.kilns := List.map_id p.kilns
  rw [Placement.relaid, hmap]

theorem relaid_relaid (p : Placement) (g g' : Nat → KilnPlace → Layout) :
    (p.relaid g).relaid g' = p.relaid (fun k v => g' k { v with layout := g k v }) := by
  simp only [Placement.relaid, List.map_map]
  rfl

/-- Where a tile begins does not depend on where kilns lie. -/
theorem startAt_relaid (p : Placement) (g : Nat → KilnPlace → Layout) (w : TileWork) (x : Nat) : (p.relaid g).startAt w x = p.startAt w x := by
  unfold Placement.startAt
  cases w.kiln with
  | none => rfl
  | some k =>
    simp only [Option.bind_some, find_relaid]
    cases p.kilns.find? (fun e => e.1 == k) <;> rfl

/-! ### What planned moves change -/

/-- From s to t moves are planned: kilns keep their states, and those that integrate their layouts. -/
structure Replanned (s t : State) : Prop where
  frame : ∃ r kl p, t = { s with regs := r, kilns := kl, plc := p }
  state : ∀ k, (t.kiln k).state = (s.kiln k).state
  pend : t.plc.pend = s.plc.pend
  cur : ∃ g : Nat → KilnPlace → Layout, (∀ k v, (s.kiln k).live = true → g k v = v.layout) ∧ t.plc.cur = s.plc.cur.map (·.relaid g)

/-- A step that leaves the kilns and the placements in effect and to come. -/
theorem replanned_of_same {r : List (Nat × W32)} {p : PlcSt} (hp : p.pend = s.plc.pend) (hc : p.cur = s.plc.cur) :
    Replanned s { s with regs := r, plc := p } :=
  ⟨⟨_, _, _, rfl⟩, fun _ => rfl, hp, fun _ v => v.layout, fun _ _ _ => rfl, by
    have hid : (fun p : Placement => p.relaid (fun _ v => v.layout)) = id := funext relaid_self
    rw [hid, Option.map_id]; exact hc⟩

theorem replanned_refl (s : State) : Replanned s s := replanned_of_same (r := s.regs) (p := s.plc) rfl rfl

theorem live_of_state {v w : Kiln} (h : v.state = w.state) : v.live = w.live := by rw [Kiln.live, Kiln.live, h]

theorem Replanned.trans (h : Replanned s t) (h' : Replanned t u) : Replanned s u := by
  obtain ⟨⟨_, _, _, hf⟩, hst, hpend, g, hg, hcur⟩ := h
  obtain ⟨⟨_, _, _, hf'⟩, hst', hpend', g', hg', hcur'⟩ := h'
  refine ⟨⟨_, _, _, by rw [hf', hf]⟩, fun k => (hst' k).trans (hst k), hpend'.trans hpend, fun k v => g' k { v with layout := g k v },
    fun k v hl => ?_, ?_⟩
  · have hl' : (t.kiln k).live = true := (live_of_state (hst k)).trans hl
    exact (hg' k _ hl').trans (hg k v hl)
  · rw [hcur', hcur, Option.map_map]
    exact congrArg (Option.map · _) (funext fun p => relaid_relaid p g g')

theorem Replanned.foldl {α : Type} {f : State → α → State} (hf : ∀ t x, Replanned t (f t x)) (l : List α) (s : State) :
    Replanned s (l.foldl f s) := foldl_keeps l (fun t x _ ht => ht.trans (hf t x)) (replanned_refl s)

theorem replanned_tileMove (s : State) (n since : Nat) (p : Placement) : Replanned s (s.tileMove n since p) := by
  unfold State.tileMove
  extract_lets free
  split
  · exact replanned_of_same (r := s.regs) rfl rfl
  · exact replanned_of_same (p := s.plc) rfl rfl

theorem replanned_newLayout (s : State) (k : Nat) (l : Option Layout) : Replanned s (s.setKiln k { s.kiln k with newLayout := l }) := by
  obtain ⟨_, _, hpend, g, hg, hcur⟩ := replanned_refl s
  refine ⟨⟨_, _, _, rfl⟩, fun j => ?_, hpend, g, hg, hcur⟩
  by_cases hj : j = k
  · subst hj; exact (congrArg Kiln.state (State.setKiln_kiln s j _)).trans rfl
  · exact congrArg Kiln.state (State.setKiln_kiln_ne s k _ hj)

theorem replanned_setLayout (s : State) (k : Nat) (l : Layout) (h : (s.kiln k).live = false) : Replanned s (s.setLayout k l) := by
  refine ⟨⟨_, _, _, rfl⟩, fun _ => rfl, rfl, fun i v => if i = k then l else v.layout, fun i v hi => if_neg ?_, ?_⟩
  · rintro rfl
    exact absurd (hi.symm.trans h) (by decide)
  · refine congrArg (Option.map · s.plc.cur) (funext fun p => ?_)
    have hmap : ∀ e : Nat × KilnPlace, (if e.1 = k then (e.1, { e.2 with layout := l }) else e) =
        (e.1, { e.2 with layout := if e.1 = k then l else e.2.layout }) := fun e => by
      by_cases he : e.1 = k
      · rw [if_pos he, if_pos he]
      · rw [if_neg he, if_neg he]
    simp only [hmap]
    rfl

theorem replanned_planMove (s : State) (x : ExclUnit) : Replanned s (s.planMove x) := by
  unfold State.planMove
  cases s.plc.cur with
  | none => exact replanned_refl s
  | some p =>
    cases x with
    | tile n =>
      dsimp only
      split
      · exact replanned_refl s
      · exact replanned_tileMove s _ _ p
    | slice n =>
      dsimp only
      split
      · exact replanned_of_same (p := s.plc) rfl rfl
      · refine Replanned.trans ?_ (Replanned.foldl (fun t e => ?_) _ _)
        · exact replanned_of_same (r := s.regs) rfl rfl
        · split
          · exact replanned_newLayout t _ _
          · next h => exact replanned_setLayout t _ _ (by simpa using fun hl => h (.inl hl))

theorem replanned_planMoves (s : State) : Replanned s s.planMoves := by
  unfold State.planMoves
  cases s.plc.cur with
  | none => exact replanned_refl s
  | some p =>
    dsimp only
    have htiles := Replanned.foldl (fun t n => replanned_planMove t (.tile n)) ((p.tiles.map (·.1)).filter s.tileExcl) s
    split
    · exact htiles.trans (replanned_planMove _ _)
    · exact htiles

/-! ### Kilns that are open keep their place (R170) -/

/-- A kiln's entry of a placement: what an open kiln keeps of the placement before. -/
def keptEntry (s : State) (old : Option Placement) (e : Nat × KilnPlace) : Nat × KilnPlace :=
  match old.bind (fun p => (p.kilns.find? (fun q => q.1 == e.1)).map (·.2)) with
  | some o => if (s.kiln e.1).live then (e.1, { e.2 with l := o.l, s := o.s, layout := o.layout, key := o.key }) else e
  | none => e

theorem keptEntry_fst (s : State) (old : Option Placement) (e : Nat × KilnPlace) : (keptEntry s old e).1 = e.1 := by
  unfold keptEntry
  split
  · split <;> rfl
  · rfl

theorem find_keepOpen (s : State) (old : Option Placement) (new : Placement) (k : Nat) : (s.keepOpen old new).kilns.find? (fun e => e.1 == k) =
    (new.kilns.find? (fun e => e.1 == k)).map (keptEntry s old) := by
  have hkilns : (s.keepOpen old new).kilns = new.kilns.map (keptEntry s old) := rfl
  have hkey : (fun e : Nat × KilnPlace => e.1 == k) ∘ keptEntry s old = fun e => e.1 == k :=
    funext fun e => congrArg (· == k) (keptEntry_fst s old e)
  rw [hkilns, List.find?_map, hkey]

/-- The kilns named are those named before. -/
theorem any_keepOpen (s : State) (old : Option Placement) (new : Placement) (k : Nat) :
    (s.keepOpen old new).kilns.any (fun e => e.1 == k) = new.kilns.any (fun e => e.1 == k) := by
  have hkilns : (s.keepOpen old new).kilns = new.kilns.map (keptEntry s old) := rfl
  rw [hkilns, List.any_map]
  exact congrArg (List.any new.kilns) (funext fun e => congrArg (· == k) (keptEntry_fst s old e))

/-- A kiln that integrates keeps L, S and layout. -/
theorem keepOpen_keeps {old : Option Placement} {new : Placement} {k : Nat} {a b : KilnPlace} (hl : (s.kiln k).live = true)
    (ha : old.bind (fun p => (p.kilns.find? (fun e => e.1 == k)).map (·.2)) = some a)
    (hb : ((s.keepOpen old new).kilns.find? (fun e => e.1 == k)).map (·.2) = some b) : b.l = a.l ∧ b.s = a.s ∧ b.layout = a.layout := by
  rw [find_keepOpen] at hb
  cases hf : new.kilns.find? (fun e => e.1 == k) with
  | none => simp [hf] at hb
  | some e =>
    have hk : e.1 = k := by simpa using List.find?_some hf
    subst hk
    have he : keptEntry s old e = (e.1, { e.2 with l := a.l, s := a.s, layout := a.layout, key := a.key }) := by
      simp only [keptEntry, ha, if_pos hl]
    rw [hf, Option.map_some, Option.map_some, he] at hb
    obtain rfl := Option.some.inj hb
    exact ⟨rfl, rfl, rfl⟩

end Sys2Proof.Machine
end

section
/-! PROOF. A pending placement takes effect (R97, R131, R169, R170, R391). -/

namespace Sys2Proof.Machine

variable {s t : State} {new : Placement} {x : Nat}

/-- The blocks of a placement that stay. -/
def stayingBlocks (s : State) (new : Placement) : List Nat := (new.blocks.map (·.1)).filter (blockKept s.plc.cur new)

/-- A byte lies outside the delay tables of the blocks that stay, where the placement puts them. -/
def OutsideTables (s : State) (new : Placement) (a : Nat) : Prop :=
  ∀ m ∈ stayingBlocks s new, ∀ y ∈ (s.block m).tabs, ∀ r ∈ new.delayRanges m y.epoch 0 (8 * y.taus.length), a < r.1 ∨ r.1 + r.2 ≤ a

/-- The placement as it takes effect at x. -/
def inForce (s : State) (new : Placement) (x : Nat) : Placement := { s.keepOpen s.plc.cur new with effect := x }

/-- What a placement that takes effect at x makes of a state. -/
structure TakesEffect (s t : State) (new : Placement) (x : Nat) : Prop where
  still : Still s t
  hbm : ∀ a, OutsideTables s new a → rd8 t.hbm a = rd8 s.hbm a
  pend : t.plc.pend = none
  cur : ∃ g : Nat → KilnPlace → Layout, (∀ k v, (s.kiln k).live = true → g k v = v.layout) ∧ t.plc.cur = some ((inForce s new x).relaid g)
  tile : ∀ e ∈ new.tiles, (t.tile e.1).cur = none ∧ (t.tile e.1).full = [] ∧ (t.tile e.1).at_ = ((inForce s new x).startAt e.2 x, 0, 0)
  kiln : ∀ k < 16, (t.kiln k).state = ((s.kiln k).across s.plc.cur (s.keepOpen s.plc.cur new) k).state
  ring : ∀ c, new.plan.mode c = none → (t.ring c).slots = []

theorem keepOpen_congr (h : t.kilns = s.kilns) (old : Option Placement) (new : Placement) : t.keepOpen old new = s.keepOpen old new := by
  unfold State.keepOpen State.kiln
  rw [h]

theorem Writes.units {h : List Host.Cell} (hw : Writes h s t) :
    Still s t ∧ t.asm_ = s.asm_ ∧ t.plc = s.plc ∧ t.tiles = s.tiles ∧ t.kilns = s.kilns := by
  obtain ⟨_, _, _, rfl⟩ := hw
  exact ⟨⟨⟨rfl, rfl⟩, rfl, rfl⟩, rfl, rfl, rfl, rfl⟩

/-- The kilns of a state after those of a placement have crossed. -/
theorem live_across {v : Kiln} (old : Option Placement) (new : Placement) (k : Nat) (h : v.live = true) : (v.across old new k).live = true := by
  have hst : 2 ≤ v.state := by
    simp only [Kiln.live, Bool.or_eq_true, decide_eq_true_eq] at h; omega
  rw [live_of_state ((Kiln.across_state v old new k).2.2 hst), h]

/-! ### The three stages of a placement -/

/-- The first stage: the old tiles stall, rings and kilns cross, and the placement is in effect. -/
def unitsTaken (s : State) (new : Placement) (x : Nat) : State :=
  let s1 := (s.plc.cur.elim [] (fun p => p.tiles.map (·.1))).foldl State.stallNow s
  let s3 := (List.range 16).foldl (fun t k => t.kilnAcross s.plc.cur new k) (s1.ringsAcross s.plc.cur new)
  s3.setPlc fun q => { q with cur := some { new with effect := x }, pend := none, moves := [], oldAsm := s3.leaveAsm }

/-- The second stage: blocks cross, the delay tables of those that stay are written, and engines cross. -/
def blocksTaken (s : State) (old : Option Placement) (new : Placement) (x : Nat) : State :=
  let s5 := (List.range 24).foldl (fun s m => s.blockAcross old new x m) s
  let s6 := s5.tabsWrite ((new.blocks.map (·.1)).filter (blockKept old new))
  (List.range 4).foldl (fun s e => s.engAcross old new e) s6

/-- The third stage: tiles begin at x, and readers and moves follow. -/
def tilesTaken (s : State) (new : Placement) (x : Nat) : State :=
  let s9 := new.tiles.foldl (fun s e => s.setTile e.1 { Tile.init with at_ := (new.startAt e.2 x, 0, 0), since := s.time.ticks }) { s with tiles := [] }
  (s9.looseEnds new).refreshReaders.planMoves

theorem stalled_keepOpen (s : State) (ts : List Nat) (old : Option Placement) (new : Placement) :
    (ts.foldl State.stallNow s).keepOpen old new = s.keepOpen old new :=
  keepOpen_congr (by obtain ⟨r, v, h⟩ := stallAll_only s ts; rw [h]) old new

/-- The stages, on the placement that keeps what open kilns have. -/
theorem placeEffect_stages (s : State) (new : Placement) (x : Nat) :
    s.placeEffect new x = tilesTaken (blocksTaken (unitsTaken s (s.keepOpen s.plc.cur new) x) s.plc.cur (s.keepOpen s.plc.cur new) x)
      (s.keepOpen s.plc.cur new) x := by
  have hstages : ∀ kept, ((s.plc.cur.elim [] (fun p => p.tiles.map (·.1))).foldl State.stallNow s).keepOpen s.plc.cur new = kept →
      s.placeEffect new x = tilesTaken (blocksTaken (unitsTaken s kept x) s.plc.cur kept x) kept x := by rintro _ rfl; rfl
  exact hstages _ (stalled_keepOpen s _ _ _)

/-- What the first stage makes of kilns, rings and the placement. -/
theorem unitsTaken_units (s : State) (new : Placement) (x : Nat) : KilnSide s (unitsTaken s new x) ∧
    (unitsTaken s new x).plc.cur = some { new with effect := x } ∧ (unitsTaken s new x).plc.pend = none ∧
    (∀ k, (unitsTaken s new x).kiln k =
      if k ∈ List.range 16 then (s.kiln k).across s.plc.cur new k else s.kiln k) ∧
    ∀ c, new.plan.mode c = none → ((unitsTaken s new x).ring c).slots = [] := by
  unfold unitsTaken
  extract_lets s1 s3
  obtain ⟨r, v, h1⟩ : ∃ r v, s1 = { s with regs := r, tiles := v } := stallAll_only s _
  obtain ⟨a, h2⟩ : ∃ a, s1.ringsAcross s.plc.cur new = { s1 with asm_ := a } := ringsAcross_only _ _ _
  obtain ⟨⟨r', kl, p, h3⟩, hkilns⟩ : (∃ r kl p, s3 = { s1.ringsAcross s.plc.cur new with regs := r, kilns := kl, plc := p }) ∧
      ∀ k, s3.kiln k = if k ∈ List.range 16 then ((s1.ringsAcross s.plc.cur new).kiln k).across s.plc.cur new k
        else (s1.ringsAcross s.plc.cur new).kiln k :=
    kilnsAcross_eq s.plc.cur new List.nodup_range _
  have hside : KilnSide s s3 := by rw [h3, h2, h1]; exact ⟨_, _, _, _, _, rfl⟩
  have hkiln2 : (s1.ringsAcross s.plc.cur new).kiln = s.kiln := by rw [h2, h1]; rfl
  have hasm : s3.asm_ = (s1.ringsAcross s.plc.cur new).asm_ := by rw [h3]
  refine ⟨hside.trans ⟨_, _, _, _, _, rfl⟩, rfl, rfl, fun k => ?_, fun c hc => ?_⟩
  · exact (hkilns k).trans (by rw [hkiln2])
  · have hring : ((s1.ringsAcross s.plc.cur new).ring c).slots = [] := congrArg ChanRing.slots (ringsAcross_omitted hc)
    exact (congrArg (fun l => (tget ChanRing.init l c).slots) hasm).trans hring

/-- The second stage leaves the other units, and of device memory all but the tables of the blocks that stay. -/
theorem blocksTaken_units (s : State) (old : Option Placement) (new : Placement) (x : Nat) : Still s (blocksTaken s old new x) ∧
    ((blocksTaken s old new x).asm_ = s.asm_ ∧ (blocksTaken s old new x).plc = s.plc ∧ (blocksTaken s old new x).kilns = s.kilns) ∧
    ∀ a, (∀ p, s.plc.cur = some p → ∀ m, m ∈ (new.blocks.map (·.1)).filter (blockKept old new) → ∀ y ∈ (s.block m).tabs,
      ∀ r ∈ p.delayRanges m y.epoch 0 (8 * y.taus.length), a < r.1 ∨ r.1 + r.2 ≤ a) → rd8 (blocksTaken s old new x).hbm a = rd8 s.hbm a := by
  unfold blocksTaken
  extract_lets s5 s6
  obtain ⟨hside5, hblock⟩ : BeamSide s s5 ∧ ∀ n, blockKept old new n = true → s5.block n = s.block n := blocksAcross_side s old new x _
  obtain ⟨h, hwrites, hout⟩ := tabsWrite_writes s5 ((new.blocks.map (·.1)).filter (blockKept old new))
  have hside7 := BeamSide.foldl (fun t e => engAcross_side t old new e) (List.range 4) s6
  obtain ⟨hasm5, hplc5, -, hkl5⟩ := hside5.units
  obtain ⟨hstill6, hasm6, hplc6, -, hkl6⟩ := hwrites.units
  obtain ⟨hasm7, hplc7, -, hkl7⟩ := hside7.units
  refine ⟨(hside5.still.1.trans hstill6).trans hside7.still.1,
    ⟨hasm7.trans (hasm6.trans hasm5), hplc7.trans (hplc6.trans hplc5), hkl7.trans (hkl6.trans hkl5)⟩, fun a ha => ?_⟩
  rw [hside7.still.2, hwrites.hbm_eq, hout a ?_, hside5.still.2]
  intro p hp m hm y hy
  rw [hblock m (List.mem_filter.1 hm).2] at hy
  exact ha p (hplc5 ▸ hp) m hm y hy

/-- The third stage: each tile starts afresh, and the moves it plans leave kilns that integrate where they lie. -/
theorem tilesTaken_units (s : State) (new : Placement) (x : Nat) (hnodup : (new.tiles.map (·.1)).Nodup) : StillMem s (tilesTaken s new x) ∧
    (tilesTaken s new x).plc.pend = s.plc.pend ∧ (∀ k, ((tilesTaken s new x).kiln k).state = (s.kiln k).state) ∧
    (∃ g : Nat → KilnPlace → Layout, (∀ k v, (s.kiln k).live = true → g k v = v.layout) ∧
      (tilesTaken s new x).plc.cur = s.plc.cur.map (·.relaid g)) ∧
    (∀ e ∈ new.tiles, ((tilesTaken s new x).tile e.1).cur = none ∧ ((tilesTaken s new x).tile e.1).full = [] ∧
      ((tilesTaken s new x).tile e.1).at_ = (new.startAt e.2 x, 0, 0)) ∧
    ∀ c, (s.ring c).slots = [] → ((tilesTaken s new x).ring c).slots = [] := by
  unfold tilesTaken
  extract_lets blank s9
  obtain ⟨v9, h9⟩ : ∃ v, s9 = { s with tiles := v } := tilesSet_only new.tiles
    (fun s e => { blank with at_ := (new.startAt e.2 x, 0, 0), since := s.time.ticks }) { s with tiles := [] }
  have hside9 : KilnSide s s9 := ⟨_, _, _, _, _, h9⟩
  have hside10 := looseEnds_side s9 new
  obtain ⟨a11, h11⟩ := refreshReaders_only (s9.looseEnds new)
  have hside11 : KilnSide (s9.looseEnds new) (s9.looseEnds new).refreshReaders := ⟨_, _, _, _, _, h11⟩
  obtain ⟨⟨r12, kl12, p12, h12⟩, hstate, hpend, g, hg, hcur⟩ := replanned_planMoves (s9.looseEnds new).refreshReaders
  have hside12 : KilnSide (s9.looseEnds new).refreshReaders (s9.looseEnds new).refreshReaders.planMoves := ⟨_, _, _, _, _, h12⟩
  obtain ⟨hasm10, hplc10, htiles10, hkl10⟩ := hside10.units
  have hplc11 : (s9.looseEnds new).refreshReaders.plc = s.plc := by rw [h11]; exact hplc10.trans (by rw [h9])
  have hkl11 : (s9.looseEnds new).refreshReaders.kiln = s.kiln := by
    have hkl : (s9.looseEnds new).refreshReaders.kilns = s.kilns := by rw [h11]; exact hkl10.trans (by rw [h9])
    exact congrArg (tget Kiln.init) hkl
  refine ⟨(hside9.still.trans hside10.still).trans (hside11.still.trans hside12.still), hpend.trans (by rw [hplc11]),
    fun k => (hstate k).trans (by rw [hkl11]), ⟨g, fun k v hl => hg k v (by rw [hkl11]; exact hl), hcur.trans (by rw [hplc11])⟩,
    fun e he => ?_, fun c hc => ?_⟩
  · have htiles : (s9.looseEnds new).refreshReaders.planMoves.tile e.1 = s9.tile e.1 := by
      rw [h12, h11]; exact congrArg (tget Tile.init · e.1) htiles10
    rw [htiles]
    exact tile_tilesSet (P := fun e v => v.cur = none ∧ v.full = [] ∧ v.at_ = (new.startAt e.2 x, 0, 0))
      (f := fun s e => { blank with at_ := (new.startAt e.2 x, 0, 0), since := s.time.ticks }) (fun _ _ => ⟨rfl, rfl, rfl⟩) hnodup
      { s with tiles := [] } e he
  · have hring10 : ((s9.looseEnds new).ring c).slots = [] := by
      rw [State.ring, hasm10, h9]; exact hc
    rw [State.ring, h12]
    exact refreshReaders_empty hring10

theorem placeEffect_takesEffect (s : State) (hnodup : (new.tiles.map (·.1)).Nodup) (x : Nat) : TakesEffect s (s.placeEffect new x) new x := by
  obtain ⟨hside, hcur1, hpend1, hkilns, hring1⟩ := unitsTaken_units s (s.keepOpen s.plc.cur new) x
  obtain ⟨hstill2, ⟨hasm2, hplc2, hkl2⟩, hout⟩ := blocksTaken_units (unitsTaken s (s.keepOpen s.plc.cur new) x) s.plc.cur (s.keepOpen s.plc.cur new) x
  obtain ⟨⟨hstill3, hhbm3⟩, hpend3, hstate, ⟨g, hg, hcur3⟩, htile, hring3⟩ := tilesTaken_units
    (blocksTaken (unitsTaken s (s.keepOpen s.plc.cur new) x) s.plc.cur (s.keepOpen s.plc.cur new) x) (s.keepOpen s.plc.cur new) x hnodup
  rw [← placeEffect_stages] at hstill3 hhbm3 hpend3 hstate hcur3 htile hring3
  have hkiln2 : ∀ k, (blocksTaken (unitsTaken s (s.keepOpen s.plc.cur new) x) s.plc.cur (s.keepOpen s.plc.cur new) x).kiln k =
      (unitsTaken s (s.keepOpen s.plc.cur new) x).kiln k := fun k => congrArg (tget Kiln.init · k) hkl2
  refine ⟨(hside.still.1.trans hstill2).trans hstill3, fun a ha => ?_, ?_, ⟨g, fun k v hl => hg k v ?_, ?_⟩, htile, fun k hk => ?_, fun c hc => ?_⟩
  · rw [hhbm3, hout a ?_, hside.still.2]
    intro p hp m hm y hy
    have hpf : p = inForce s new x := Option.some.inj (hp.symm.trans hcur1)
    have hblock : (unitsTaken s (s.keepOpen s.plc.cur new) x).block m = s.block m := by obtain ⟨_, _, _, _, _, e⟩ := hside; rw [e]; rfl
    rw [hblock] at hy
    subst hpf
    exact ha m hm y hy
  · rw [hpend3, hplc2, hpend1]
  · rw [hkiln2, hkilns]
    split
    · exact live_across _ _ _ hl
    · exact hl
  · rw [hcur3, hplc2, hcur1]; rfl
  · rw [hstate, hkiln2, hkilns, if_pos (List.mem_range.2 hk)]
  · refine hring3 c ?_
    rw [State.ring, hasm2]
    exact hring1 c hc

end Sys2Proof.Machine
end

section
/-! PROOF. The work of excluded units moves (R183, R184), and what a placement and a move leave (R97, R131, R169, R170). -/

namespace Sys2Proof.Machine

variable {s t : State} {p r : Placement} {n : Nat}

/-! ### The work of a tile (R183) -/

/-- The entries of a placement's tiles with the work of tile n at tile u. -/
def movedTiles (l : List (Nat × TileWork)) (n u : Nat) : List (Nat × TileWork) := l.map (fun e => if e.1 = n then (u, e.2) else e)

theorem find_movedTiles_dest {l : List (Nat × TileWork)} {n u : Nat} (hfree : ∀ e ∈ l, e.1 ≠ u) :
    ((movedTiles l n u).find? (fun e => e.1 == u)).map (·.2) = (l.find? (fun e => e.1 == n)).map (·.2) := by
  induction l with
  | nil => rfl
  | cons e l ih =>
    have hrest := ih fun x hx => hfree x (List.mem_cons_of_mem e hx)
    have hu : (e.1 == u) = false := by simpa using hfree e List.mem_cons_self
    by_cases he : e.1 = n
    · simp [movedTiles, he]
    · have hn : (e.1 == n) = false := by simpa using he
      rw [movedTiles, List.map_cons, if_neg he, List.find?_cons, hu, List.find?_cons, hn]
      exact hrest

theorem find_movedTiles_source {l : List (Nat × TileWork)} {n u : Nat} (hne : u ≠ n) : (movedTiles l n u).find? (fun e => e.1 == n) = none := by
  refine List.find?_eq_none.2 fun x hx => ?_
  obtain ⟨e, -, rfl⟩ := List.mem_map.1 hx
  by_cases he : e.1 = n
  · simp [he, hne]
  · simp [he]

theorem stallNow_at (s : State) (n : Nat) : ((s.stallNow n).tile n).at_ = (s.tile n).at_ := by
  unfold State.stallNow
  split
  · exact (congrArg Tile.at_ (State.setTile_tile _ _ _)).trans rfl
  · rfl

/-- The work of tile n moved to tile u: nothing but registers, tiles, rings and the placement changes. -/
theorem moveTile_moves (hcur : s.plc.cur = some p) {u : Nat} (hne : u ≠ n) : KilnSide s (s.moveTile n u) ∧
    (s.moveTile n u).plc = { s.plc with cur := some { p with tiles := movedTiles p.tiles n u } } ∧
    ((s.moveTile n u).tile u).at_ = (s.tile n).at_ := by
  unfold State.moveTile
  extract_lets s1 s2 blank s3
  obtain ⟨r, v, hstall, -⟩ := stallNow_eq s n
  have h1 : s1 = { s with regs := r, tiles := v } := hstall
  have h3 : ∃ a, s3.asm_.foldl (fun s e =>
      let r := s.ring e.1
      s.setRing e.1 { r with slots := r.slots.map (fun x => { x with readers := x.readers.map (fun q => if q = n then u else q) }) }) s3 =
      { s3 with asm_ := a } := by
    refine foldl_keeps (P := fun t => ∃ a, t = { s3 with asm_ := a }) _ (fun t e _ ht => ?_) ⟨_, rfl⟩
    obtain ⟨a, rfl⟩ := ht
    exact ⟨_, rfl⟩
  obtain ⟨a, ha⟩ := h3
  have hplc : s3.plc = { s.plc with cur := some { p with tiles := movedTiles p.tiles n u } } := by
    have hs1 : s1.plc = s.plc := by rw [h1]
    have hs3 : s3.plc = { s1.plc with cur := s1.plc.cur.map (fun p => { p with tiles := movedTiles p.tiles n u }) } := rfl
    rw [hs3, hs1, hcur]; rfl
  have hside : KilnSide s s3 := KilnSide.trans (h1 ▸ ⟨_, _, _, _, _, rfl⟩) (⟨_, _, _, _, _, rfl⟩ : KilnSide s1 s3)
  have htile : (s3.tile u).at_ = (s.tile n).at_ := by
    have hu : s3.tile u = _ := (State.setTile_tile_ne _ n Tile.init hne).trans (State.setTile_tile s2 u _)
    rw [hu]
    exact stallNow_at s n
  rw [ha]
  exact ⟨hside.trans ⟨_, _, _, _, _, rfl⟩, hplc, htile⟩

/-- A move that has been made is no longer planned. -/
def dropMove (s : State) (u : ExclUnit) : State := s.setPlc fun q => { q with moves := q.moves.filter (fun x => !sameUnit u x) }

theorem find_dropMove (s : State) (u : ExclUnit) : (dropMove s u).plc.moves.find? (sameUnit u) = none := by
  refine List.find?_eq_none.2 fun x hx => ?_
  simpa using (List.mem_filter.1 hx).2

theorem exec_excludedWorkMove_tile {m : Move} {w : TileWork} {dt : Nat} (hup : s.up = true)
    (hm : s.plc.moves.find? (sameUnit (.tile n)) = some m) (hw : s.tileWork n = some w)
    (hk : ∀ k, w.kiln = some k → s.tileAtBoundary n k = true)
    (hb : w.kiln = none → s.tileAt256 n = true ∧ m.since + 625000 ≤ s.time.ticks + dt) :
    exec (.excludedWorkMove (.tile n) dt) s = .next (dropMove ((s.advance dt).moveTile n m.dest) (.tile n)) := by
  have e : exec (.excludedWorkMove (.tile n) dt) s = execExcludedWorkMove (.tile n) dt s := rfl
  rw [e, execExcludedWorkMove, hm]
  simp only [hw, Option.map_some]
  cases hkiln : w.kiln with
  | some k =>
    refine gate_of _ _ _ ?_
    simp [hup, hk k hkiln]
  | none =>
    obtain ⟨h256, hlate⟩ := hb hkiln
    refine gate_of _ _ _ ?_
    simp [hup, h256, tMs, hlate]

/-! ### The windows of a slice (R184) -/

/-- A placement with the slices and regions of a re-placement. -/
def Placement.resliced (p r : Placement) : Placement := { p with
  blocks := p.blocks.map (fun e => (e.1, { e.2 with slice := (r.blocks.find? (fun x => x.1 == e.1)).elim e.2.slice (·.2.slice) }))
  asmOff := r.asmOff, asmSize := r.asmSize, delayOff := r.delayOff, delaySize := r.delaySize, usable := r.usable }

theorem find_resliced (p r : Placement) (j : Nat) : (p.resliced r).blocks.find? (fun e => e.1 == j) = (p.blocks.find? (fun e => e.1 == j)).map
    (fun e => (e.1, { e.2 with slice := (r.blocks.find? (fun x => x.1 == e.1)).elim e.2.slice (·.2.slice) })) := List.find?_map

theorem moveSlice_moves (s : State) (r : Placement) : Still s (s.moveSlice r) ∧ (s.moveSlice r).plc.cur = s.plc.cur.map (·.resliced r) := by
  unfold State.moveSlice
  extract_lets regions re u
  obtain ⟨h, hw, -⟩ := tabsWrite_writes u (r.blocks.map (·.1))
  obtain ⟨hstill, -, hplc, -⟩ := hw.units
  exact ⟨Still.trans ⟨⟨rfl, rfl⟩, rfl, rfl⟩ hstill, by rw [hplc]; rfl⟩

theorem exec_excludedWorkMove_slice {m : Move} {dt : Nat} (hup : s.up = true)
    (hm : s.plc.moves.find? (sameUnit (.slice n)) = some m) (hr : m.re = some r) (hbeams : s.beamsAt256 r = true)
    (hserve : s.tabsServe r (r.blocks.map (·.1)) = true) (hlate : m.since + 625000 ≤ s.time.ticks + dt) :
    exec (.excludedWorkMove (.slice n) dt) s = .next (dropMove ((s.advance dt).moveSlice r) (.slice n)) := by
  have e : exec (.excludedWorkMove (.slice n) dt) s = execExcludedWorkMove (.slice n) dt s := rfl
  rw [e, execExcludedWorkMove, hm]
  simp only [hr]
  refine gate_of _ _ _ ?_
  simp [hup, hbeams, hserve, tMs, hlate]

/-! ### PLACEMENT_EFFECT -/

theorem exec_placementEffect (hup : s.up = true) (hp : s.plc.pend = some p)
    (htiles : ∀ q, s.plc.cur = some q → ∀ e ∈ q.tiles, s.tileAt e.1 p.effect = true) (hwin : s.beam.windows = [])
    (hidle : ∀ m < 24, blockKept s.plc.cur p m = true ∨ s.groupIdle m = true) :
    exec .placementEffect s = .next (if s.tabsServe p (stayingBlocks s p) then s.placeEffect p p.effect else s) := by
  have e : exec .placementEffect s = execPlacementEffect s := rfl
  have hall : s.plc.cur.elim true (fun q => q.tiles.all (fun e => s.tileAt e.1 p.effect)) = true := by
    cases hcur : s.plc.cur with
    | none => rfl
    | some q => exact List.all_eq_true.2 (htiles q hcur)
  have hgroups : (List.range 24).all (fun m => blockKept s.plc.cur p m || s.groupIdle m) = true :=
    List.all_eq_true.2 fun m hm => Bool.or_eq_true_iff.2 (hidle m (List.mem_range.1 hm))
  rw [e, execPlacementEffect, hp]
  have hgate : (s.up && s.plc.cur.elim true (fun q => q.tiles.all (fun e => s.tileAt e.1 p.effect)) && s.beam.windows.isEmpty
      && (List.range 24).all (fun m => blockKept s.plc.cur p m || s.groupIdle m)
      && s.tabsServe p ((p.blocks.map (·.1)).filter (blockKept s.plc.cur p))) = s.tabsServe p (stayingBlocks s p) := by
    rw [hup, hall, hgroups, hwin]; rfl
  simp only [gate, hgate]

theorem placedKiln_relaid {g : Nat → KilnPlace → Layout} (h : t.plc.cur = some (p.relaid g)) (k : Nat) :
    t.placedKiln k = ((p.kilns.find? (fun e => e.1 == k)).map (·.2)).map (fun v => { v with layout := g k v }) := by
  rw [State.placedKiln, h, Option.bind_some, find_relaid]
  cases hf : p.kilns.find? (fun e => e.1 == k) with
  | none => rfl
  | some e =>
    have hk : e.1 = k := by simpa using List.find?_some hf
    subst hk
    rfl

/-- A kiln that integrates keeps its L, S and layout as the placement takes effect. -/
theorem TakesEffect.keeps {x k : Nat} {a b : KilnPlace} (h : TakesEffect s t p x) (hl : (s.kiln k).live = true)
    (ha : s.placedKiln k = some a) (hb : t.placedKiln k = some b) : b.l = a.l ∧ b.s = a.s ∧ b.layout = a.layout := by
  obtain ⟨g, hg, hcur⟩ := h.cur
  rw [placedKiln_relaid hcur] at hb
  obtain ⟨v, hv, rfl⟩ := Option.map_eq_some_iff.1 hb
  obtain ⟨hll, hs, hlay⟩ := keepOpen_keeps (new := p) hl ha hv
  exact ⟨hll, hs, (hg k v hl).trans hlay⟩

/-! ### The two kinds of move, as the obligation states them -/

theorem tileWork_of_cur {q : Placement} (h : t.plc.cur = some q) (u : Nat) : t.tileWork u = (q.tiles.find? (fun e => e.1 == u)).map (·.2) := by
  rw [State.tileWork, h, Option.bind_some]

theorem placedBlock_of_cur {q : Placement} (h : t.plc.cur = some q) (j : Nat) :
    t.placedBlock j = (q.blocks.find? (fun e => e.1 == j)).map (·.2) := by
  rw [State.placedBlock, h, Option.bind_some]

/-- The work and the place of tile n are now those of tile u, which had none. -/
theorem tileMoved_effect {w : TileWork} {u dt : Nat} (hcur : s.plc.cur = some p) (hw : s.tileWork n = some w)
    (hfree : ∀ e ∈ p.tiles, e.1 ≠ u) (hne : u ≠ n) {t : State} (ht : t = dropMove ((s.advance dt).moveTile n u) (.tile n)) :
    Apart s t ∧ MemSame s t ∧ t.tileWork u = some w ∧ t.tileWork n = none ∧ (t.tile u).at_ = (s.tile n).at_ ∧
      t.plc.moves.find? (sameUnit (.tile n)) = none := by
  subst ht
  have hcur' : (s.advance dt).plc.cur = some p := by rw [State.advance_plc]; exact hcur
  obtain ⟨hside, hplc, hat⟩ := moveTile_moves hcur' hne
  obtain ⟨⟨hapart, hcs, hhost⟩, hhbm⟩ := hside.still
  have hnow : (dropMove ((s.advance dt).moveTile n u) (.tile n)).plc.cur = some { p with tiles := movedTiles p.tiles n u } :=
    congrArg PlcSt.cur hplc
  have hmem : MemSame (s.advance dt) ((s.advance dt).moveTile n u) := fun a => ⟨by rw [hhbm], by rw [hcs], by rw [hhost]⟩
  have htile : (s.advance dt).tile n = s.tile n := by rw [State.tile, State.advance_tiles]; rfl
  refine ⟨apart_advance s dt hapart, fun a => ((s.memSame_advance dt).trans hmem) a, ?_, ?_, ?_, find_dropMove _ _⟩
  · rw [tileWork_of_cur hnow, find_movedTiles_dest hfree, ← tileWork_of_cur hcur]; exact hw
  · rw [tileWork_of_cur hnow, find_movedTiles_source hne, Option.map_none]
  · exact hat.trans (congrArg Tile.at_ htile)

/-- The blocks' slices and the regions are those of the re-placement. -/
theorem sliceMoved_effect {dt : Nat} (hcur : s.plc.cur = some p) {t : State} (ht : t = dropMove ((s.advance dt).moveSlice r) (.slice n)) :
    Apart s t ∧ t.csram = s.csram ∧ t.host = s.host ∧ t.plc.cur = some (p.resliced r) ∧
      (∀ j b x, s.placedBlock j = some b → r.blocks.find? (fun e => e.1 == j) = some x → (t.placedBlock j).map (·.slice) = some x.2.slice) ∧
      t.plc.moves.find? (sameUnit (.slice n)) = none := by
  subst ht
  obtain ⟨⟨hapart, hcs, hhost⟩, hmoved⟩ := moveSlice_moves (s.advance dt) r
  rw [State.advance_plc, hcur] at hmoved
  have hnow : (dropMove ((s.advance dt).moveSlice r) (.slice n)).plc.cur = some (p.resliced r) := hmoved
  refine ⟨apart_advance s dt hapart, hcs.trans (State.advance_csram s dt), hhost.trans (State.advance_host s dt), hnow, fun j b x hb hx => ?_,
    find_dropMove _ _⟩
  rw [placedBlock_of_cur hcur] at hb
  obtain ⟨e, he, -⟩ := Option.map_eq_some_iff.1 hb
  have hej : e.1 = j := by simpa using List.find?_some he
  rw [placedBlock_of_cur hnow, find_resliced, he]
  simp [hej, hx]

/-- Settles O33: a placement's steps one by one, the work of a tile in the placement's list of tiles, and the slices of a re-placement. -/
theorem placementsTakeEffect : Obligations.PlacementsTakeEffect := by
  unfold Obligations.PlacementsTakeEffect
  intro s hup
  refine ⟨fun p hp htiles hwin hidle hnodup => ?_, fun n dt m p w hm hcur hw hk hb hfree hne => ?_,
    fun n dt m p r hm hcur hr hbeams hserve hlate => ?_⟩
  · intro stay
    have hexec : exec .placementEffect s = .next (if s.tabsServe p stay then s.placeEffect p p.effect else s) :=
      exec_placementEffect hup hp htiles hwin hidle
    refine ⟨fun hno => ⟨s, hexec.trans (by rw [if_neg (ne_true_of_eq_false hno)]), rfl⟩, fun hserve => ⟨_, hexec.trans (by rw [if_pos hserve]), ?_⟩⟩
    have heff := placeEffect_takesEffect s hnodup p.effect
    obtain ⟨hapart, hcs, hhost⟩ := heff.still
    obtain ⟨g, hg, hcur⟩ := heff.cur
    refine ⟨hapart, hcs, hhost, heff.hbm, heff.pend, ⟨_, hcur, rfl, rfl, rfl, fun e he => ?_⟩, fun k hk => ?_, heff.ring⟩
    · rw [startAt_relaid]; exact heff.tile e he
    · obtain ⟨hnamed, homitted, hworks⟩ := Kiln.across_state (s.kiln k) s.plc.cur (s.keepOpen s.plc.cur p) k
      rw [any_keepOpen] at hnamed homitted
      rw [heff.kiln k hk]
      exact ⟨hnamed, homitted, hworks, fun a b hl ha hb => heff.keeps hl ha hb⟩
  · exact ⟨_, exec_excludedWorkMove_tile hup hm hw hk hb, tileMoved_effect hcur hw hfree hne rfl⟩
  · obtain ⟨hapart, hcs, hhost, hnow, hslice, hmoves⟩ := sliceMoved_effect (s := s) (r := r) (n := n) (dt := dt) hcur rfl
    exact ⟨_, exec_excludedWorkMove_slice hup hm hr hbeams hserve hlate, hapart, hcs, hhost, ⟨_, hnow, rfl, rfl, rfl, rfl, rfl⟩, hslice, hmoves⟩

end Sys2Proof.Machine
end
